-- ==== Sys2Proof/Word.lean ====
section
/-! DEFINITION. The word types of the KV4-96L: bytes and the register, descriptor and address widths
the manual uses (R10, R11). -/

namespace Sys2Proof

/-- A byte. -/
abbrev Byte := BitVec 8
/-- A 16-bit field. -/
abbrev Half := BitVec 16
/-- A 32-bit register (R11). -/
abbrev Word := BitVec 32
/-- A 64-bit register or one descriptor word (R10, R11). -/
abbrev Quad := BitVec 64

end Sys2Proof
end

