-- ==== Sys2Proof/Syntax.lean ====
section
/-! DEFINITION. The commands of the KV4-96L block: one constructor of `Instr` for each row of
spec/opcode_table.json, with the operands that tell one happening of the row from another.
The table gives no operand and no bits; the operands are read from the row's rule (log entry 1).
A row that happens at an instant carries `now`, the device time in ns at which it happens (log entry 2). -/

namespace Sys2Proof

/-- A Cerfosil request as the management firmware takes it (R288): the header's fields but the opcode, and the payload. -/
structure Request where
  seq     : Half
  flags   : Half
  length  : Word
  payload : List Byte
  deriving DecidableEq, Repr

/-- A launch strobe (R41, R215). -/
structure Strobe where
  prog  : Half
  label : BitVec 4
  seq   : Word
  dt    : Nat
  deriving DecidableEq, Repr

/-- A request on the network (R37, R42). `len` is 1 to 256; `data` is the payload of a write. -/
structure NetReq where
  src    : BitVec 8
  label  : BitVec 4
  tag    : BitVec 9
  op     : BitVec 4
  addr   : BitVec 48
  len    : Nat
  data   : List Byte
  poison : Bool
  deriving DecidableEq, Repr

/-- One port's register write of a cycle (R298): the port, whether the address is a BAR0 offset (port 3 only) or a
device address, the access size in bytes, the value and the master's source identifier. -/
structure PortWrite where
  port  : Fin 4
  bar0  : Bool
  addr  : Nat
  size  : Nat
  value : Quad
  src   : BitVec 8
  deriving DecidableEq, Repr

/-- A physical lane of a die edge (R244): edge, direction, group, lane. -/
structure LaneRef where
  edge  : Fin 8
  dir   : Fin 2
  group : Fin 8
  lane  : Fin 68
  deriving DecidableEq, Repr

/-- What the start-up tests and training found (R431): defective tiles with their cause, guard bands in 0.1 %,
failing lanes, edges that trained, the unit that makes start-up fail (0 for none), and the time taken in µs. -/
structure StartUpResult where
  tileFaults : List (Fin 36 × BitVec 8)
  guards     : List (Fin 36 × Nat)
  lanes      : List LaneRef
  edgesUp    : List (Fin 8)
  failUnit   : Word
  us         : Nat
  deriving DecidableEq, Repr

/-- A flit of a die-edge lane group (R242); `badLanes` are the lanes whose CRC-6 failed at the receiver. -/
structure EdgeFlit where
  kind     : BitVec 8
  gseq     : Half
  ack      : Half
  eseq     : Half
  credit   : Byte
  crcOk    : Bool
  badLanes : List (Fin 64)
  data     : List Byte
  deriving DecidableEq, Repr

/-- A unit that fetches and executes DMA-stream descriptors: a tile, or the hub DMA engine (R257). -/
inductive Engine where
  | tile (p : Fin 36)
  | hub
  deriving DecidableEq, Repr

/-- What a fetch response is for (R51, R52): the program directory, or a stream's list. -/
inductive FetchOf where
  | directory
  | stream (st : Fin 4)
  deriving DecidableEq, Repr

/-- The software-visible Ladle instances (R277). -/
inductive LadleId where
  /-- unit 0x00, page 0x50, instances 0 to 39 -/
  | hub (i : Fin 40)
  /-- unit 0x00, page 0x51, instance 8d + g -/
  | ehub (d : Fin 4) (g : Fin 8)
  /-- unit 0x10 + d, page 0x01, instance 8e + g -/
  | edie (d : Fin 4) (e : Fin 3) (g : Fin 8)
  /-- unit 0x40 + p, page 0x04, instances 0 to 5 -/
  | tile (p : Fin 36) (i : Fin 6)
  deriving DecidableEq, Repr

/-- An item written to a Ladle (R268): its data bytes and sideband. `info` is what the packet's header says of it where the queue
carries packets of more than one kind: for CSI_RX_n the stream filter, CRC outcome and frame (R316); 0 elsewhere. -/
structure LadleItem where
  data   : List Byte
  eop    : Bool
  err    : Bool
  vbytes : Nat
  info   : Nat
  deriving DecidableEq, Repr

/-- A CSI-2 packet header's ECC outcome (R314, R316). -/
inductive HdrEcc where
  | good | corrected | uncorrectable
  deriving DecidableEq, Repr

/-- A CSI-2 long packet at a receiver output (R316). -/
structure CsiPacket where
  vc      : Fin 32
  dt      : BitVec 6
  ecc     : HdrEcc
  crcOk   : Bool
  payload : List Byte
  deriving DecidableEq, Repr

/-- A frame received by an Ethernet MAC (R325, R326): its bytes without FCS and whether the FCS is good. -/
structure EthFrame where
  bytes : List Byte
  fcsOk : Bool
  deriving DecidableEq, Repr

/-- The message a tap sends an island for a frame (R322): arrival facts and the sample bytes. -/
structure TapMessage where
  port     : Fin 12
  fnum     : Half
  dtype    : BitVec 6
  samples  : List Byte
  embedded : List Byte
  trunc    : Bool
  deriving DecidableEq, Repr

/-- A CAN FD frame (R364): identifier and data bytes. -/
structure CanFrame where
  id   : BitVec 11
  data : List Byte
  deriving DecidableEq, Repr

/-- The segments of the safety links (R25), in the order of D2D_FI_i_CFG.index (R260). -/
inductive Segment where
  | aH | a0 | a3 | bH | b1 | b2
  deriving DecidableEq, Repr

/-- What an accepted safety-link frame carries (R25). -/
inductive SafetyPayload where
  /-- towards the island: bytes written at an ingress-window offset by a fabric source -/
  | record (src : BitVec 8) (offset : BitVec 16) (data : List Byte)
  | tap (m : TapMessage)
  | modeEvent (operational : Bool)
  | deviceTime (dt : Nat)
  | safeRequest
  /-- from the island -/
  | status
  | safeState
  deriving DecidableEq, Repr

/-- The header of a Deluf flit (R376): type, seq, ack, vc, credits, and whether it arrived intact. -/
structure DlfFlit where
  kind    : BitVec 4
  seq     : BitVec 12
  ack     : BitVec 12
  vc      : BitVec 2
  credits : Byte
  ok      : Bool
  payload : List Byte
  deriving DecidableEq, Repr

/-- A Deluf packet (R378). -/
structure DlfPacket where
  kind   : Byte
  src    : Byte
  dst    : Byte
  label  : BitVec 4
  hops   : Nat
  tag    : Half
  status : Half
  addr   : BitVec 48
  len    : Nat
  master : Byte
  data   : List Byte
  deriving DecidableEq, Repr

/-- What training found on a Deluf port (R375, R380): lanes good, the peer's device and port numbers. -/
structure DlfTrain where
  lanes    : BitVec 4
  peer     : BitVec 6
  peerPort : BitVec 3
  deriving DecidableEq, Repr

/-- The contents of a HEARTBEAT flit (R387). -/
structure HeartbeatMsg where
  port  : Fin 2
  role  : BitVec 3
  state : Word
  dt    : Nat
  deriving DecidableEq, Repr

/-- One Quench sample (R408): both sensors of each of the 48 hot spots in °C × 64 (two's complement), the package
power averages of 1 ms and 10 ms in 1/16 W, tile powers in 1/16 W, die currents in 1/8 A and die powers in 1/16 W. -/
structure QuenchReadings where
  temps  : List (Half × Half)
  avg1   : Nat
  avg10  : Nat
  tiles  : List Byte
  dies   : List (Half × Half)
  deriving DecidableEq, Repr

/-- How a PCIe request of the device ended (R282). -/
inductive PcieOutcome where
  | success | unsupported | completerAbort | poisoned
  deriving DecidableEq, Repr

/-- A debugger transaction that changes state (R305, R349). -/
inductive DebugOp where
  | writeReg (reg : Nat) (value : Quad)
  | writeMem (addr : Nat) (value : Byte)
  | halt | resume | step
  deriving DecidableEq, Repr

/-- The commands: one constructor per row of spec/opcode_table.json, in its order. -/
inductive Instr where
  -- pins, boot and mailboxes
  | porNRelease (now : Nat)
  | perstNRelease (now : Nat)
  | perstNAssert (now : Nat)
  | aonSupplyLow
  | bootReady (now : Nat)
  | wakeNAssert (now : Nat)
  | mbxSend (ch : Fin 4) (hostWrites : List (Nat × List Byte)) (bufOk : Bool)
  | firmwareScan (now : Nat)
  | unknownOpcode (ch : Fin 4) (opcode : Half) (req : Request)
  -- system group and bring-up
  | sysEcho (ch : Fin 4) (req : Request)
  | sysIdentify (ch : Fin 4) (req : Request)
  | sysSetMode (ch : Fin 4) (req : Request)
  | sysFwLoad (ch : Fin 4) (req : Request)
  | sysDefectLoad (ch : Fin 4) (req : Request)
  | sysStartUp (ch : Fin 4) (req : Request)
  | startUpDone (r : StartUpResult)
  | sysDefectQuery (ch : Fin 4) (req : Request)
  | sysReset (ch : Fin 4) (req : Request)
  | resetDone (now : Nat)
  | tileFail (ch : Fin 4) (req : Request)
  | quarantineSelftestDone (p : Fin 36) (pass : Bool) (now : Nat)
  | hubBuCtrlCntClr
  -- network and registers
  | networkRequest (r : NetReq)
  | partitionDrainTimeout (die : Fin 4) (tile : Option (Fin 9))
  | registerWrite (ws : List PortWrite)
  -- tile sequencer
  | launchStrobe (p : Fin 36) (b : Strobe)
  | launchStart (p : Fin 36)
  | descriptorFetch (e : Engine) (f : FetchOf)
  | reservedOpcode (e : Engine) (st : Fin 4)
  | nop (e : Engine) (st : Fin 4)
  | complete (e : Engine) (st : Fin 4)
  | loop (p : Fin 36) (st : Fin 4)
  | branchCnt (p : Fin 36) (st : Fin 4)
  | waitSem (p : Fin 36) (st : Fin 4)
  | waitSemRelease (p : Fin 36) (st : Fin 4)
  | signalSem (p : Fin 36) (st : Fin 4)
  | waitTime (p : Fin 36) (st : Fin 4) (now : Nat)
  | waitTimeRelease (p : Fin 36) (st : Fin 4) (now : Nat)
  | waitEvent (p : Fin 36) (st : Fin 4) (now : Nat)
  | waitEventRelease (p : Fin 36) (st : Fin 4)
  | eventTimeout (p : Fin 36) (st : Fin 4) (now : Nat)
  | postEvent (p : Fin 36) (st : Fin 4)
  -- tile arithmetic and data movement
  | matmul (p : Fin 36)
  | convStripe (p : Fin 36)
  | attnPage (p : Fin 36)
  | elem (p : Fin 36)
  | reduce (p : Fin 36)
  | sfu (p : Fin 36)
  | pool (p : Fin 36)
  | argmaxC (p : Fin 36)
  | cropResize (p : Fin 36)
  | attnCombine (p : Fin 36)
  | move (e : Engine)
  | fill (e : Engine)
  | gather (p : Fin 36)
  | scatter (p : Fin 36)
  | lbConfigDefine (p : Fin 36)
  | lbConfigExport (p : Fin 36)
  | lbConfigRelease (p : Fin 36)
  | lbReleaseApply (p : Fin 36)
  | lbConfigUndefine (p : Fin 36)
  | lbConfigUnexport (p : Fin 36)
  | attnWalk (p : Fin 36)
  | attnWalkPinDone (p : Fin 36)
  | walkPteRead (p : Fin 36)
  | walkQueuePush (p : Fin 36)
  | attnPageEmit (p : Fin 36)
  | attnWalkUnpin (p : Fin 36)
  | descriptorComplete (p : Fin 36) (st : Fin 4) (chan : Fin 4) (now : Nat)
  | dmaResponse (e : Engine) (tag : BitVec 9)
  | exportGateRelease (p : Fin 36) (chan : Fin 4)
  | iqRequest (p : Fin 36) (r : NetReq)
  -- tile boundary and control
  | sramCorrectedWriteback (p : Fin 36) (word : Fin 2097152)
  | tileReset (p : Fin 36)
  | sramInitDone (p : Fin 36)
  | isoEnAssert (p : Fin 36)
  | isoEnRelease (p : Fin 36)
  | arithGateRise (p : Fin 36)
  | arithGateFall (p : Fin 36)
  | tilCtrlCntClr (p : Fin 36)
  | tilCtrlSemClr (p : Fin 36)
  | tilCtrlAbort (p : Fin 36)
  | tilCtrlLaunchEn (p : Fin 36) (on : Bool)
  | tilCtrlDbgHalt (p : Fin 36) (on : Bool)
  | tilEvtAdd (p : Fin 36) (value : Word)
  | tilErrFirstRearm (p : Fin 36)
  | tilErrStatClear (p : Fin 36) (mask : Word)
  -- KV tables
  | hubKvtPin (src : BitVec 8) (value : Quad)
  | hubKvtUnpin (src : BitVec 8)
  | hubKvtAppend (src : BitVec 8) (value : Quad)
  | kvTableCreate (ch : Fin 4) (req : Request)
  | kvTableDestroy (ch : Fin 4) (req : Request)
  | pageCommit (ch : Fin 4) (req : Request)
  | kvTableQuery (ch : Fin 4) (req : Request)
  -- planner
  | plannerStrobe (b : Strobe)
  | planSearchEnd (now : Nat)
  | planTimeLimit (now : Nat) (expanded : Nat)
  | planRelease (now : Nat)
  | siePublish (src : BitVec 8) (value : Word)
  | plnCtrlCntClr
  | plnCtrlLaunchEn (on : Bool)
  | plnConfig (ch : Fin 4) (req : Request)
  | plnSetLoad (ch : Fin 4) (req : Request)
  | plnSetUnload (ch : Fin 4) (req : Request)
  | plnQuery (ch : Fin 4) (req : Request)
  -- time base and calendar
  | timeSample (now : Nat) (offset : Int)
  | sampleTimeout (now : Nat)
  | timeConfig (ch : Fin 4) (req : Request)
  | timeSet (ch : Fin 4) (req : Request)
  | timeQuery (ch : Fin 4) (req : Request)
  | calWrite (ch : Fin 4) (req : Request)
  | calRead (ch : Fin 4) (req : Request)
  | chainConfig (ch : Fin 4) (req : Request)
  | chainStart (ch : Fin 4) (req : Request)
  | chainStop (ch : Fin 4) (req : Request)
  | chainSwap (ch : Fin 4) (req : Request)
  | chainQuery (ch : Fin 4) (req : Request)
  | periodStart (c : Fin 8) (now : Nat)
  | launchDue (c : Fin 8) (now : Nat)
  | launchHeld (target : Fin 39) (now : Nat)
  | heldLaunchAccept (target : Fin 39)
  | launchComplete (target : Fin 39) (now : Nat)
  | quenchForecast (c : Fin 8) (entry : Fin 4096) (now : Nat)
  | timCalCtrlCntClr
  -- DRAM, die edges, routes, Bellows, hub DMA, injectors
  | dramPatrolScrub (d : Fin 4)
  | ceRateWindow (d : Fin 4) (now : Nat)
  | mirrorAckTimeout (region : Fin 8) (now : Nat)
  | edgeFlitReceive (k : Fin 8) (dir : Fin 2) (g : Fin 8) (f : EdgeFlit)
  | laneFail (l : LaneRef)
  | groupRetrainDone (k : Fin 8) (dir : Fin 2) (g : Fin 8)
  | edgeHoldTimeout (k : Fin 8)
  | edgeTraining (k : Fin 8) (fails : List LaneRef)
  | trainingAttemptDone (k : Fin 8) (disagree : List (Fin 2 × Fin 8))
  | retrainWindow (k : Fin 8) (now : Nat)
  | flowSwitch (i : Fin 20)
  | flowDrainTimeout (i : Fin 20)
  | qosWindow (now : Nat)
  | hubDmaLaunch (b : Strobe)
  | hubDmaCtrlAbort
  | hubDmaCtrlCntClr
  | hubDmaErrRearm
  | drmCtrlCntClr (d : Fin 4)
  | drmErrInfoRearm (d : Fin 4)
  | d2dEctrlCntClr (node : Fin 5) (station : Fin 4)
  | d2dTdCtrlCntClr (d : Fin 4)
  | qosCtrlCntClr
  | d2dFiCtrlCntClr
  | dramScrubConfig (ch : Fin 4) (req : Request)
  | mirrorConfig (ch : Fin 4) (req : Request)
  | fabricRoute (ch : Fin 4) (req : Request)
  | fabricQuery (ch : Fin 4) (req : Request)
  | edgeControl (ch : Fin 4) (req : Request)
  | hubdmaConfig (ch : Fin 4) (req : Request)
  | qosConfig (ch : Fin 4) (req : Request)
  | qosQuery (ch : Fin 4) (req : Request)
  | faultInject (ch : Fin 4) (req : Request)
  | faultDisarm (ch : Fin 4) (req : Request)
  | faultQuery (ch : Fin 4) (req : Request)
  -- clocks and Ladle queues
  | clkMonitorWindow (k : Fin 98) (khz : Nat) (now : Nat)
  | clkCtrlCntClr
  | ladleWrite (q : LadleId) (item : LadleItem) (unseen : Nat)
  | ladleRead (q : LadleId) (hidden : Nat)
  | ladleMark (q : LadleId)
  | ladleRewind (q : LadleId)
  | ladleRelease (q : LadleId)
  | ladleDrop (q : LadleId)
  | ladlePtrMismatch (q : LadleId)
  | ldlCtrlQreset (q : LadleId)
  | ldlCtrlForceOvw (q : LadleId) (on : Bool)
  | ldlCtrlCntClr (q : LadleId)
  | ldlStatClear (q : LadleId) (mask : Word)
  | ldlThrWrite (q : LadleId) (value : Word)
  -- PCIe and memory commands
  | pcieFlr
  | bar2Access (write : Bool) (offset : Nat) (len : Nat) (data : List Byte)
  | pcieCompletion (src : BitVec 8) (tag : BitVec 9) (outcome : PcieOutcome) (data : List Byte)
  | pcieCompletionTimeout (src : BitVec 8) (tag : BitVec 9)
  | pciWinBaseWrite (value : Quad)
  | memRead (ch : Fin 4) (req : Request)
  | memWrite (ch : Fin 4) (req : Request)
  | memFill (ch : Fin 4) (req : Request)
  | progDirSet (ch : Fin 4) (req : Request)
  | tileControl (ch : Fin 4) (req : Request)
  | tileQuery (ch : Fin 4) (req : Request)
  | tileMapQuery (ch : Fin 4) (req : Request)
  | traceConfig (ch : Fin 4) (req : Request)
  | traceQuery (ch : Fin 4) (req : Request)
  | debugAttach (ch : Fin 4) (req : Request)
  | debugDetach (ch : Fin 4) (req : Request)
  -- event ring and interrupts
  | eventRingWrite
  | evtCtrlEnable (value : Word)
  | evtCtrlCntClr
  | evtHeadWrite (value : Word)
  | evtStatClear
  | eventModeration (now : Nat)
  | hubIntStatClear (mask : Word)
  | hubIntMaskWrite (value : Word)
  | hubHcbCtrlCntClr
  | hubArbStatClear (mask : Word)
  -- cameras and the sensor front end
  | csiLongPacket (n : Fin 12) (pkt : CsiPacket) (now : Nat)
  | csiFrameStart (n : Fin 12) (vc : Fin 32) (fnum : Half) (now : Nat)
  | csiFrameEnd (n : Fin 12) (vc : Fin 32) (fnum : Half) (now : Nat)
  | csiLinkTimeout (n : Fin 12)
  | frontEndLaunch (b : Strobe) (now : Nat)
  | csiTrigStart (n : Fin 12) (now : Nat)
  | csiTrigEnd (n : Fin 12) (now : Nat)
  | captureTimeout (now : Nat)
  | stripePost (n : Fin 12)
  | frameRecordWrite (n : Fin 12)
  -- Ethernet and tray
  | ethRxFrame (m : Fin 4) (f : EthFrame) (now : Nat)
  | ethTxPoll (m : Fin 4) (now : Nat)
  | ethTxDone (m : Fin 4) (q : Fin 4) (now : Nat)
  | ethRxqHeadWrite (m : Fin 4) (q : Fin 4) (value : Word)
  | csiCtrlCntClr
  | ethCtrlCntClr
  | traySensorRead (slot : Fin 8) (now : Nat)
  | trayReadDone (slot : Fin 8) (raw : Option (BitVec 16)) (now : Nat)
  | flowPulseEdge (clean : Bool) (now : Nat)
  | flowStall (now : Nat)
  | hubTrayCtrlCntClr
  | csiPortConfig (ch : Fin 4) (req : Request)
  | csiPortQuery (ch : Fin 4) (req : Request)
  | captureProfileSet (ch : Fin 4) (req : Request)
  | captureProfileQuery (ch : Fin 4) (req : Request)
  | ethConfig (ch : Fin 4) (req : Request)
  | ethQueueConfig (ch : Fin 4) (req : Request)
  | ethQuery (ch : Fin 4) (req : Request)
  | trayConfig (ch : Fin 4) (req : Request)
  | trayDemand (ch : Fin 4) (req : Request)
  | trayQuery (ch : Fin 4) (req : Request)
  -- safety islands
  | islandReset (i : Fin 2) (level : Bool)
  | islandStarttestDone (i : Fin 2) (fault : BitVec 8)
  | islandSupplyFault (i : Fin 2) (restored : Bool)
  | islandClockFault (i : Fin 2)
  | lockStepMismatch (i : Fin 2) (point : Fin 47)
  | watchdogExpiry (i : Fin 2)
  | islandSramUe (i : Fin 2)
  | safetyLinkFrame (seg : Segment) (crcOk : Bool) (body : SafetyPayload) (it : Nat)
  | islandDtReceive (i : Fin 2) (dt : Nat) (it : Nat)
  | e2eRecordWrite (i : Fin 2) (src : BitVec 8) (offset : BitVec 16) (data : List Byte)
  | islandTapMessage (i : Fin 2) (m : TapMessage) (it : Nat)
  | frozenGapTimeout (i : Fin 2) (port : Fin 12) (it : Nat)
  | safetySensorFrame (i : Fin 2) (ethertype : Half) (payload : List Byte) (it : Nat)
  | islandFrameBoundary (i : Fin 2) (dt : Option Nat) (it : Nat)
  | islandJudgementDone (i : Fin 2) (it : Nat)
  | canClear (i : Fin 2) (ctrl : Fin 2) (f : CanFrame)
  | canSafeRequest (i : Fin 2) (ctrl : Fin 2) (f : CanFrame)
  | islandMessageTimeEnd (i : Fin 2) (it : Nat)
  | hubSafeRequest (i : Fin 2)
  | islandModeEvent (i : Fin 2) (operational : Bool)
  | outputReadback (i : Fin 2) (pin0 pin1 : Bool)
  | selftestSliceOffer (i : Fin 2) (it : Nat)
  | selftestSliceDone (i : Fin 2) (fault : BitVec 8) (it : Nat)
  | latentOverdue (i : Fin 2) (it : Nat)
  | islandStatusUpdate (i : Fin 2) (clk : List Nat)
  | anvLoad (ch : Fin 4) (req : Request)
  | anvQuery (ch : Fin 4) (req : Request)
  | anvKeyProgram (ch : Fin 4) (req : Request)
  | anvKeyRevoke (ch : Fin 4) (req : Request)
  | anvSafeRequest (ch : Fin 4) (req : Request)
  -- Deluf
  | dlfPortTrainDone (p : Fin 8) (t : DlfTrain)
  | dlfLaneLoss (p : Fin 8) (lane : Fin 4)
  | dlfFecRateWindow (p : Fin 8) (corrected uncorrectable : Nat)
  | dlfFlitReceive (p : Fin 8) (f : DlfFlit)
  | dlfAckTimeout (p : Fin 8)
  | rdReq (p : Fin 8) (k : DlfPacket)
  | rdRsp (p : Fin 8) (k : DlfPacket)
  | wrReq (p : Fin 8) (k : DlfPacket)
  | wrRsp (p : Fin 8) (k : DlfPacket)
  | mirWr (k : DlfPacket)
  | mirAck (k : DlfPacket)
  | copy (k : DlfPacket)
  | chunkCrc (k : DlfPacket)
  | barArrive (g : Fin 16) (dev : Fin 48) (now : Nat)
  | barRelease (g : Fin 16)
  | suspect (dev : Fin 48) (set : Bool) (marks : Nat)
  | partnerFailing (now : Nat)
  | handover (now : Nat)
  | stale
  | probe (src : Fin 48)
  | probeAnswer
  | heartbeat (m : HeartbeatMsg) (now : Nat)
  | heartbeatSend (now : Nat)
  | heartbeatTimeout (now : Nat)
  | probeTimeout (now : Nat)
  | remoteTimeout (tag : Half)
  | dlfDrainTimeout (dst : Fin 48)
  | barrierStall (g : Fin 16) (now : Nat)
  | dlfBarArrive (value : Word) (now : Nat)
  | joinChunkCopy (now : Nat)
  | handoverReady (now : Nat)
  | dlfCtrlCntClr
  | dlfTopology (ch : Fin 4) (req : Request)
  | dlfPortControl (ch : Fin 4) (req : Request)
  | dlfRoute (ch : Fin 4) (req : Request)
  | dlfQuery (ch : Fin 4) (req : Request)
  | accumConfig (ch : Fin 4) (req : Request)
  | barrierConfig (ch : Fin 4) (req : Request)
  | barrierQuery (ch : Fin 4) (req : Request)
  | suspectClear (ch : Fin 4) (req : Request)
  | pairConfig (ch : Fin 4) (req : Request)
  | pairJoin (ch : Fin 4) (req : Request)
  | pairSwitchover (ch : Fin 4) (req : Request)
  | pairQuery (ch : Fin 4) (req : Request)
  -- power and cooling
  | quenchSample (r : QuenchReadings) (now : Nat)
  | powerStateEntry (now : Nat)
  | entryWindowEnd (now : Nat)
  | powerReturnStage (now : Nat)
  | dvfsVoltageReached (p : Fin 36)
  | dvfsClockChanged (p : Fin 36)
  | coolantStopDrain (now : Nat)
  | coolantRestored (now : Nat)
  | thermalTrip (spot : Fin 48)
  | pwrCtrlCntClr
  | pwrStateSet (ch : Fin 4) (req : Request)
  | dvfsSet (ch : Fin 4) (req : Request)
  | powerLimit (ch : Fin 4) (req : Request)
  | thermalConfig (ch : Fin 4) (req : Request)
  | thermalQuery (ch : Fin 4) (req : Request)
  -- the last rows of the table
  | porNAssert
  | ethLink (m : Fin 4) (up : Bool)
  | pcieLinkChange (rate width : BitVec 4) (flit : Bool) (up : Bool)
  | pcieDStateChange (d3hot : Bool)
  | debugTransaction (session : Byte) (op : DebugOp)
  | delufTimeMessage (now : Nat)
  deriving DecidableEq, Repr

end Sys2Proof
end

