-- ==== Sys2Proof/WellFormed.lean ====
section
/-! DEFINITION. Well-formed commands: the operand ranges the manual gives, one check per kind of operand. `exec` is total and
does not rest on them; a claim may. -/

namespace Sys2Proof

/-- Device time and island time are 64-bit counts of ns (R208, R353). -/
def timeWf (t : Nat) : Bool := decide (t < 2 ^ 64)

/-- The inline payload of a request is the 240 bytes that follow its header (R288). -/
def Request.wf (r : Request) : Bool := decide (r.payload.length ≤ 240)

/-- A strobe carries a 64-bit due time (R41). -/
def Strobe.wf (b : Strobe) : Bool := timeWf b.dt

/-- A request is 1 to 256 bytes, does not cross a 256-byte boundary, and a write carries its bytes (R37). -/
def NetReq.wf (r : NetReq) : Bool :=
  decide (1 ≤ r.len ∧ r.len ≤ 256 ∧ r.addr.toNat % 256 + r.len ≤ 256) && (r.op != 1 || r.data.length == r.len)

/-- A register write is 4 or 8 bytes, aligned (R28). -/
def PortWrite.wf (w : PortWrite) : Bool := (w.size == 4 || w.size == 8) && w.addr % w.size == 0 && (!w.bar0 || w.port == 3)

/-- A port writes a register at most once in a cycle (R298). -/
def samePort (ws : List PortWrite) : Bool := decide (ws.Pairwise (fun a b => a.port ≠ b.port))

/-- Causes 1 to 6 and guard bands of at most 100 % (R421, R431). -/
def StartUpResult.wf (r : StartUpResult) : Bool :=
  r.tileFaults.all (fun x => decide (1 ≤ x.2.toNat ∧ x.2.toNat ≤ 6)) && r.guards.all (fun x => decide (x.2 ≤ 1000))

/-- A flit carries 1,984 bytes of traffic at most (R242). -/
def EdgeFlit.wf (f : EdgeFlit) : Bool := decide (f.data.length ≤ 1984)

/-- A Ladle item has at most as many valid bytes as it carries (R268). -/
def LadleItem.wf (i : LadleItem) : Bool := decide (i.vbytes ≤ i.data.length)

/-- A CSI-2 long packet has a 16-bit byte count (R316). -/
def CsiPacket.wf (k : CsiPacket) : Bool := decide (k.payload.length < 65536)

/-- A frame is at most 9,216 bytes (R325). -/
def EthFrame.wf (f : EthFrame) : Bool := decide (f.bytes.length ≤ 9216)

/-- A tap message carries 1,024 samples of at most 4 bytes, and embedded data (R322, R323). -/
def TapMessage.wf (m : TapMessage) : Bool := decide (m.samples.length ≤ 4096 ∧ m.embedded.length ≤ 65536)

/-- A CAN FD frame has at most 64 data bytes (R364). -/
def CanFrame.wf (f : CanFrame) : Bool := decide (f.data.length ≤ 64)

/-- A safety-link frame's contents. -/
def SafetyPayload.wf : SafetyPayload → Bool
  | .record _ _ d => decide (0 < d.length ∧ d.length ≤ 256)
  | .tap m => m.wf
  | .modeEvent _ => true
  | .deviceTime dt => timeWf dt
  | .safeRequest => true
  | .status => true
  | .safeState => true

/-- A flit is 256 bytes (R376). -/
def DlfFlit.wf (f : DlfFlit) : Bool := decide (f.payload.length ≤ 256)

/-- A packet carries at most 256 payload bytes (R378). -/
def DlfPacket.wf (k : DlfPacket) : Bool := decide (k.data.length ≤ 256 ∧ k.len ≤ 256)

/-- A heartbeat carries device time (R387). -/
def HeartbeatMsg.wf (m : HeartbeatMsg) : Bool := timeWf m.dt

/-- 48 hot spots, 36 tiles and four dies (R408, R410). -/
def QuenchReadings.wf (r : QuenchReadings) : Bool := decide (r.temps.length = 48 ∧ r.tiles.length = 36 ∧ r.dies.length = 4)

/-- A BAR2 access is within the 256 MiB window, and a write carries its bytes (R286). -/
def bar2Wf (write : Bool) (offset len : Nat) (data : List Byte) : Bool :=
  decide (0 < len ∧ offset + len ≤ 2 ^ 28) && (!write || data.length == len)

/-- The well-formed commands. -/
def Instr.wf : Instr → Bool
  | .porNRelease now => timeWf now
  | .perstNRelease now => timeWf now
  | .perstNAssert now => timeWf now
  | .aonSupplyLow => true
  | .bootReady now => timeWf now
  | .wakeNAssert now => timeWf now
  | .mbxSend _ hostWrites _ => hostWrites.all (fun w => decide (w.1 + w.2.length ≤ 2 ^ 64))
  | .firmwareScan now => timeWf now
  | .unknownOpcode _ _ req => req.wf
  | .sysEcho _ req => req.wf
  | .sysIdentify _ req => req.wf
  | .sysSetMode _ req => req.wf
  | .sysFwLoad _ req => req.wf
  | .sysDefectLoad _ req => req.wf
  | .sysStartUp _ req => req.wf
  | .startUpDone r => r.wf
  | .sysDefectQuery _ req => req.wf
  | .sysReset _ req => req.wf
  | .resetDone now => timeWf now
  | .tileFail _ req => req.wf
  | .quarantineSelftestDone _ _ now => timeWf now
  | .hubBuCtrlCntClr => true
  | .networkRequest r => r.wf
  | .partitionDrainTimeout _ _ => true
  | .registerWrite ws => (ws).all PortWrite.wf && samePort ws
  | .launchStrobe _ b => b.wf
  | .launchStart _ => true
  | .descriptorFetch _ _ => true
  | .reservedOpcode _ _ => true
  | .nop _ _ => true
  | .complete _ _ => true
  | .loop _ _ => true
  | .branchCnt _ _ => true
  | .waitSem _ _ => true
  | .waitSemRelease _ _ => true
  | .signalSem _ _ => true
  | .waitTime _ _ now => timeWf now
  | .waitTimeRelease _ _ now => timeWf now
  | .waitEvent _ _ now => timeWf now
  | .waitEventRelease _ _ => true
  | .eventTimeout _ _ now => timeWf now
  | .postEvent _ _ => true
  | .matmul _ => true
  | .convStripe _ => true
  | .attnPage _ => true
  | .elem _ => true
  | .reduce _ => true
  | .sfu _ => true
  | .pool _ => true
  | .argmaxC _ => true
  | .cropResize _ => true
  | .attnCombine _ => true
  | .move _ => true
  | .fill _ => true
  | .gather _ => true
  | .scatter _ => true
  | .lbConfigDefine _ => true
  | .lbConfigExport _ => true
  | .lbConfigRelease _ => true
  | .lbReleaseApply _ => true
  | .lbConfigUndefine _ => true
  | .lbConfigUnexport _ => true
  | .attnWalk _ => true
  | .attnWalkPinDone _ => true
  | .walkPteRead _ => true
  | .walkQueuePush _ => true
  | .attnPageEmit _ => true
  | .attnWalkUnpin _ => true
  | .descriptorComplete _ _ _ now => timeWf now
  | .dmaResponse _ _ => true
  | .exportGateRelease _ _ => true
  | .iqRequest _ r => r.wf
  | .sramCorrectedWriteback _ _ => true
  | .tileReset _ => true
  | .sramInitDone _ => true
  | .isoEnAssert _ => true
  | .isoEnRelease _ => true
  | .arithGateRise _ => true
  | .arithGateFall _ => true
  | .tilCtrlCntClr _ => true
  | .tilCtrlSemClr _ => true
  | .tilCtrlAbort _ => true
  | .tilCtrlLaunchEn _ _ => true
  | .tilCtrlDbgHalt _ _ => true
  | .tilEvtAdd _ _ => true
  | .tilErrFirstRearm _ => true
  | .tilErrStatClear _ _ => true
  | .hubKvtPin _ _ => true
  | .hubKvtUnpin _ => true
  | .hubKvtAppend _ _ => true
  | .kvTableCreate _ req => req.wf
  | .kvTableDestroy _ req => req.wf
  | .pageCommit _ req => req.wf
  | .kvTableQuery _ req => req.wf
  | .plannerStrobe b => b.wf
  | .planSearchEnd now => timeWf now
  | .planTimeLimit now expanded => timeWf now && decide (expanded < 2 ^ 32)
  | .planRelease now => timeWf now
  | .siePublish _ _ => true
  | .plnCtrlCntClr => true
  | .plnCtrlLaunchEn _ => true
  | .plnConfig _ req => req.wf
  | .plnSetLoad _ req => req.wf
  | .plnSetUnload _ req => req.wf
  | .plnQuery _ req => req.wf
  | .timeSample now _ => timeWf now
  | .sampleTimeout now => timeWf now
  | .timeConfig _ req => req.wf
  | .timeSet _ req => req.wf
  | .timeQuery _ req => req.wf
  | .calWrite _ req => req.wf
  | .calRead _ req => req.wf
  | .chainConfig _ req => req.wf
  | .chainStart _ req => req.wf
  | .chainStop _ req => req.wf
  | .chainSwap _ req => req.wf
  | .chainQuery _ req => req.wf
  | .periodStart _ now => timeWf now
  | .launchDue _ now => timeWf now
  | .launchHeld _ now => timeWf now
  | .heldLaunchAccept _ => true
  | .launchComplete _ now => timeWf now
  | .quenchForecast _ _ now => timeWf now
  | .timCalCtrlCntClr => true
  | .dramPatrolScrub _ => true
  | .ceRateWindow _ now => timeWf now
  | .mirrorAckTimeout _ now => timeWf now
  | .edgeFlitReceive _ _ _ f => f.wf
  | .laneFail _ => true
  | .groupRetrainDone _ _ _ => true
  | .edgeHoldTimeout _ => true
  | .edgeTraining k fails => fails.all (fun l => l.edge = k)
  | .trainingAttemptDone _ _ => true
  | .retrainWindow _ now => timeWf now
  | .flowSwitch _ => true
  | .flowDrainTimeout _ => true
  | .qosWindow now => timeWf now
  | .hubDmaLaunch b => b.wf
  | .hubDmaCtrlAbort => true
  | .hubDmaCtrlCntClr => true
  | .hubDmaErrRearm => true
  | .drmCtrlCntClr _ => true
  | .drmErrInfoRearm _ => true
  | .d2dEctrlCntClr _ _ => true
  | .d2dTdCtrlCntClr _ => true
  | .qosCtrlCntClr => true
  | .d2dFiCtrlCntClr => true
  | .dramScrubConfig _ req => req.wf
  | .mirrorConfig _ req => req.wf
  | .fabricRoute _ req => req.wf
  | .fabricQuery _ req => req.wf
  | .edgeControl _ req => req.wf
  | .hubdmaConfig _ req => req.wf
  | .qosConfig _ req => req.wf
  | .qosQuery _ req => req.wf
  | .faultInject _ req => req.wf
  | .faultDisarm _ req => req.wf
  | .faultQuery _ req => req.wf
  | .clkMonitorWindow _ khz now => decide (khz < 2 ^ 32) && timeWf now
  | .clkCtrlCntClr => true
  | .ladleWrite _ item _ => item.wf
  | .ladleRead _ _ => true
  | .ladleMark _ => true
  | .ladleRewind _ => true
  | .ladleRelease _ => true
  | .ladleDrop _ => true
  | .ladlePtrMismatch _ => true
  | .ldlCtrlQreset _ => true
  | .ldlCtrlForceOvw _ _ => true
  | .ldlCtrlCntClr _ => true
  | .ldlStatClear _ _ => true
  | .ldlThrWrite _ _ => true
  | .pcieFlr => true
  | .bar2Access write offset len data => bar2Wf write offset len data
  | .pcieCompletion _ _ _ data => decide (data.length ≤ 4096)
  | .pcieCompletionTimeout _ _ => true
  | .pciWinBaseWrite _ => true
  | .memRead _ req => req.wf
  | .memWrite _ req => req.wf
  | .memFill _ req => req.wf
  | .progDirSet _ req => req.wf
  | .tileControl _ req => req.wf
  | .tileQuery _ req => req.wf
  | .tileMapQuery _ req => req.wf
  | .traceConfig _ req => req.wf
  | .traceQuery _ req => req.wf
  | .debugAttach _ req => req.wf
  | .debugDetach _ req => req.wf
  | .eventRingWrite => true
  | .evtCtrlEnable _ => true
  | .evtCtrlCntClr => true
  | .evtHeadWrite _ => true
  | .evtStatClear => true
  | .eventModeration now => timeWf now
  | .hubIntStatClear _ => true
  | .hubIntMaskWrite _ => true
  | .hubHcbCtrlCntClr => true
  | .hubArbStatClear _ => true
  | .csiLongPacket _ pkt now => pkt.wf && timeWf now
  | .csiFrameStart _ _ _ now => timeWf now
  | .csiFrameEnd _ _ _ now => timeWf now
  | .csiLinkTimeout _ => true
  | .frontEndLaunch b now => b.wf && timeWf now
  | .csiTrigStart _ now => timeWf now
  | .csiTrigEnd _ now => timeWf now
  | .captureTimeout now => timeWf now
  | .stripePost _ => true
  | .frameRecordWrite _ => true
  | .ethRxFrame _ f now => f.wf && timeWf now
  | .ethTxPoll _ now => timeWf now
  | .ethTxDone _ _ now => timeWf now
  | .ethRxqHeadWrite _ _ _ => true
  | .csiCtrlCntClr => true
  | .ethCtrlCntClr => true
  | .traySensorRead _ now => timeWf now
  | .trayReadDone _ _ now => timeWf now
  | .flowPulseEdge _ now => timeWf now
  | .flowStall now => timeWf now
  | .hubTrayCtrlCntClr => true
  | .csiPortConfig _ req => req.wf
  | .csiPortQuery _ req => req.wf
  | .captureProfileSet _ req => req.wf
  | .captureProfileQuery _ req => req.wf
  | .ethConfig _ req => req.wf
  | .ethQueueConfig _ req => req.wf
  | .ethQuery _ req => req.wf
  | .trayConfig _ req => req.wf
  | .trayDemand _ req => req.wf
  | .trayQuery _ req => req.wf
  | .islandReset _ _ => true
  | .islandStarttestDone _ _ => true
  | .islandSupplyFault _ _ => true
  | .islandClockFault _ => true
  | .lockStepMismatch _ _ => true
  | .watchdogExpiry _ => true
  | .islandSramUe _ => true
  | .safetyLinkFrame _ _ body it => body.wf && timeWf it
  | .islandDtReceive _ dt it => timeWf dt && timeWf it
  | .e2eRecordWrite _ _ _ data => decide (0 < data.length ∧ data.length ≤ 256)
  | .islandTapMessage _ m it => m.wf && timeWf it
  | .frozenGapTimeout _ _ it => timeWf it
  | .safetySensorFrame _ _ payload it => decide (payload.length ≤ 9216) && timeWf it
  | .islandFrameBoundary _ dt it => dt.all timeWf && timeWf it
  | .islandJudgementDone _ it => timeWf it
  | .canClear _ _ f => f.wf
  | .canSafeRequest _ _ f => f.wf
  | .islandMessageTimeEnd _ it => timeWf it
  | .hubSafeRequest _ => true
  | .islandModeEvent _ _ => true
  | .outputReadback _ _ _ => true
  | .selftestSliceOffer _ it => timeWf it
  | .selftestSliceDone _ _ it => timeWf it
  | .latentOverdue _ it => timeWf it
  | .islandStatusUpdate _ clk => clk.all (fun k => decide (k < 2 ^ 32))
  | .anvLoad _ req => req.wf
  | .anvQuery _ req => req.wf
  | .anvKeyProgram _ req => req.wf
  | .anvKeyRevoke _ req => req.wf
  | .anvSafeRequest _ req => req.wf
  | .dlfPortTrainDone _ _ => true
  | .dlfLaneLoss _ _ => true
  | .dlfFecRateWindow _ _ _ => true
  | .dlfFlitReceive _ f => f.wf
  | .dlfAckTimeout _ => true
  | .rdReq _ k => k.wf
  | .rdRsp _ k => k.wf
  | .wrReq _ k => k.wf
  | .wrRsp _ k => k.wf
  | .mirWr k => k.wf
  | .mirAck k => k.wf
  | .copy k => k.wf
  | .chunkCrc k => k.wf
  | .barArrive _ _ now => timeWf now
  | .barRelease _ => true
  | .suspect _ _ marks => decide (marks < 2 ^ 64)
  | .partnerFailing now => timeWf now
  | .handover now => timeWf now
  | .stale => true
  | .probe _ => true
  | .probeAnswer => true
  | .heartbeat m now => m.wf && timeWf now
  | .heartbeatSend now => timeWf now
  | .heartbeatTimeout now => timeWf now
  | .probeTimeout now => timeWf now
  | .remoteTimeout _ => true
  | .dlfDrainTimeout _ => true
  | .barrierStall _ now => timeWf now
  | .dlfBarArrive _ now => timeWf now
  | .joinChunkCopy now => timeWf now
  | .handoverReady now => timeWf now
  | .dlfCtrlCntClr => true
  | .dlfTopology _ req => req.wf
  | .dlfPortControl _ req => req.wf
  | .dlfRoute _ req => req.wf
  | .dlfQuery _ req => req.wf
  | .accumConfig _ req => req.wf
  | .barrierConfig _ req => req.wf
  | .barrierQuery _ req => req.wf
  | .suspectClear _ req => req.wf
  | .pairConfig _ req => req.wf
  | .pairJoin _ req => req.wf
  | .pairSwitchover _ req => req.wf
  | .pairQuery _ req => req.wf
  | .quenchSample r now => r.wf && timeWf now
  | .powerStateEntry now => timeWf now
  | .entryWindowEnd now => timeWf now
  | .powerReturnStage now => timeWf now
  | .dvfsVoltageReached _ => true
  | .dvfsClockChanged _ => true
  | .coolantStopDrain now => timeWf now
  | .coolantRestored now => timeWf now
  | .thermalTrip _ => true
  | .pwrCtrlCntClr => true
  | .pwrStateSet _ req => req.wf
  | .dvfsSet _ req => req.wf
  | .powerLimit _ req => req.wf
  | .thermalConfig _ req => req.wf
  | .thermalQuery _ req => req.wf
  | .porNAssert => true
  | .ethLink _ _ => true
  | .pcieLinkChange _ _ _ _ => true
  | .pcieDStateChange _ => true
  | .debugTransaction _ _ => true
  | .delufTimeMessage now => timeWf now

end Sys2Proof
end

