-- ==== Sys2Proof/Config.lean ====
section
/-! DEFINITION. What an implementation of the KV4-96L fixes and the manual leaves open: the free values.
None of them has a body, so no proof can rest on what they are (log entry 3). -/

namespace Sys2Proof

/-- A fresh free value: the n-th value the manual leaves open in a run. `State.free` counts them. -/
opaque Config.freeQuad : Nat → Quad

/-- A free non-negative number, for the open quantities that are not register words. -/
opaque Config.freeNat : Nat → Nat

/-- The result of an SFU function, of ATTN_PAGE's exponentials and of ATTN_COMBINE whose stated bound allows more than one
value (R93, R94): function number and the exact operand. -/
opaque Config.sfuValue : Nat → Rat → Rat

/-- The code a conversion or a sum may take where R68, R83 and R97 give a bound and no single value: operation, operand. -/
opaque Config.roundedSum : Nat → Rat → Rat

/-- The chip's factory identity, from fuses (R285). -/
opaque Config.uid : Quad

/-- SHA-384 hash of the vendor public key, from fuses (R342, R429), as a number. -/
opaque Config.vendorKeyHash : Nat

/-- The guard band of each physical tile at characterisation, in 0.1 % (R421). -/
opaque Config.ageCode : Nat → Nat

/-- Thermal resistance to coolant of each tile as trimmed at test, in mK/W (R411). -/
opaque Config.thetaTrim : Nat → Nat

/-- A byte of a DRAM range whose contents are undefined (R389): the number of the loss and the device address. -/
opaque Config.lostByte : Nat → Nat → Byte

/-- A byte that another device answers to a read made within a step (R379): number of the free value and the address. -/
opaque Config.remoteByte : Nat → Nat → Byte

/-- What an overlapping destination byte of a MOVE holds (R120): number of the MOVE, byte. -/
opaque Config.overlapPick : Nat → Nat → Nat

/-- The stream number that the planner puts into its E2E records (R203, R352). -/
opaque Config.planStream : Byte

end Sys2Proof
end

