-- ==== Sys2Proof/Machine/Bits.lean ====
section
/-! DEFINITION. Bit fields, byte order (R10), saturating counters and the CRC-32C of the device. -/

namespace Sys2Proof.Machine

/-- Field [hi:lo] of a number. -/
def field (v hi lo : Nat) : Nat := v / 2 ^ lo % 2 ^ (hi + 1 - lo)

/-- Bit n of a number. -/
def bit (v n : Nat) : Bool := v / 2 ^ n % 2 == 1

/-- 1 for true. -/
def b2n (b : Bool) : Nat := if b then 1 else 0

/-- A register word from its fields, (width, value) from bit 0 upwards (R14: reserved fields are written 0). -/
def pack : List (Nat × Nat) → Nat
  | [] => 0
  | (w, v) :: r => v % 2 ^ w + 2 ^ w * pack r

/-- A mask from the set of bits of `n` that satisfy `f`. -/
def maskOf (n : Nat) (f : Nat → Bool) : Nat :=
  (List.range n).foldl (fun a i => a + (if f i then 2 ^ i else 0)) 0

/-- The numbers below `n` whose bit is set in `m`. -/
def bitsOf (m n : Nat) : List Nat := (List.range n).filter (fun i => bit m i)

/-- Little-endian bytes as a number (R10). -/
def leNat : List Byte → Nat
  | [] => 0
  | b :: r => b.toNat + 256 * leNat r

/-- `n` little-endian bytes of a number (R10). -/
def leBytes : Nat → Nat → List Byte
  | 0, _ => []
  | n + 1, v => BitVec.ofNat 8 v :: leBytes n (v / 256)

/-- `n` bytes of `bs` from `off`, extended with zeros. -/
def slice (bs : List Byte) (off n : Nat) : List Byte :=
  let t := (bs.drop off).take n
  t ++ List.replicate (n - t.length) 0

/-- The little-endian field of `n` bytes at `off`. -/
def fld (bs : List Byte) (off n : Nat) : Nat := leNat (slice bs off n)

/-- `bs` with the bytes `v` placed at `off` (within its length). -/
def putBytes (bs : List Byte) (off : Nat) (v : List Byte) : List Byte :=
  (bs.take off ++ v ++ bs.drop (off + v.length)).take bs.length

/-- Two's complement value of the low `w` bits. -/
def sint (w v : Nat) : Int :=
  let u := v % 2 ^ w
  if 2 ^ (w - 1) ≤ u then (u : Int) - 2 ^ w else u

/-- The low `w` bits of an integer. -/
def uint (w : Nat) (i : Int) : Nat := (i % 2 ^ w).toNat

/-- Saturate at `w` bits. -/
def sat (w n : Nat) : Nat := min n (2 ^ w - 1)

/-- A 32-bit saturating count, advanced by `k`. -/
def cnt (n k : Nat) : Nat := min (n + k) 4294967295

/-- Integer clamped to a range. -/
def clampI (lo hi i : Int) : Int := max lo (min hi i)

/-- Number clamped to a range. -/
def clampN (lo hi n : Nat) : Nat := max lo (min hi n)

/-- Smallest multiple of `k` that is at least `n`. -/
def roundUp (n k : Nat) : Nat := (n + k - 1) / k * k

/-- One bit of the reflected CRC-32C. -/
def crcBit (c : Word) : Word := if c &&& 1 = 1 then (c >>> 1) ^^^ 0x82F63B78#32 else c >>> 1

/-- One byte of the reflected CRC-32C. -/
def crcByte (c : Word) (b : Byte) : Word :=
  crcBit (crcBit (crcBit (crcBit (crcBit (crcBit (crcBit (crcBit (c ^^^ b.setWidth 32))))))))

/-- CRC-32C over bytes: reflected polynomial 0x82F6_3B78, initial value and final XOR of all ones. -/
def crc32c (bs : List Byte) : Word := (bs.foldl crcByte 0xFFFFFFFF#32) ^^^ 0xFFFFFFFF#32

/-- The position of the first element that satisfies `p`, if any. -/
def indexOf? {α : Type} (p : α → Bool) : List α → Option Nat
  | [] => none
  | x :: r => if p x then some 0 else (indexOf? p r).map (· + 1)

/-- `l` without its first element that satisfies `p`. -/
def eraseFirst {α : Type} (p : α → Bool) : List α → List α
  | [] => []
  | x :: r => if p x then r else x :: eraseFirst p r

/-- `l` with its n-th element replaced. -/
def setNth {α : Type} (l : List α) (n : Nat) (v : α) : List α := l.set n v

/-- Concatenation of the lists `f i` for `i < n`. -/
def catMap (n : Nat) (f : Nat → List Byte) : List Byte := ((List.range n).map f).flatten

/-- `s` carried through `f` for each element. -/
def forEach {α σ : Type} (l : List α) (s : σ) (f : σ → α → σ) : σ := l.foldl f s

end Sys2Proof.Machine
end

