-- ==== Sys2Proof/Machine/Crypto.lean ====
section
/-! DEFINITION. SHA-384 and ECDSA over P-384, with which signature blocks are verified (R343, R429). The manual names the two
algorithms; their constants are those of FIPS 180-4 and FIPS 186 (log entry 20). -/

namespace Sys2Proof.Machine

/-! ### SHA-384 -/

/-- Whether a number has a divisor from 2 up. -/
def isPrime (n : Nat) : Bool := decide (2 ≤ n) && (List.range n).all (fun d => d < 2 || n % d != 0)

/-- The first 80 primes. -/
def shaPrimes : List Nat := (List.range 410).filter isPrime

/-- The largest r below 2^k with f r ≤ n, f rising. -/
def bitRoot (f : Nat → Nat) (n k : Nat) : Nat :=
  (List.range k).foldr (fun i r => if f (r + 2 ^ i) ≤ n then r + 2 ^ i else r) 0

/-- The round constants: 64 bits of the fractional parts of cube roots of primes. -/
def shaK : List Quad := shaPrimes.map (fun p => BitVec.ofNat 64 (bitRoot (fun r => r * r * r) (p * 2 ^ 192) 72))

/-- The initial hash value: 64 bits of the fractional parts of square roots of the ninth to sixteenth primes. -/
def shaInit : List Quad := ((shaPrimes.drop 8).take 8).map (fun p => BitVec.ofNat 64 (bitRoot (fun r => r * r) (p * 2 ^ 128) 72))

/-- Bytes as a big-endian number. -/
def beNat (bs : List Byte) : Nat := bs.foldl (fun a b => a * 256 + b.toNat) 0

/-- `n` big-endian bytes of a number. -/
def beBytes (n v : Nat) : List Byte := (leBytes n v).reverse

/-- A message padded to whole blocks of 128 bytes. -/
def shaPad (m : List Byte) : List Byte :=
  let z := (112 + 128 - (m.length + 1) % 128) % 128
  m ++ [0x80#8] ++ List.replicate z 0 ++ beBytes 16 (8 * m.length)

/-- The message schedule of a block, newest word first. -/
def shaSchedule (blk : List Byte) : List Quad :=
  let w0 := (List.range 16).map (fun i => BitVec.ofNat 64 (beNat (slice blk (8 * i) 8)))
  ((List.range 64).foldl (fun (w : List Quad) _ =>
    let a := w.getD 14 0
    let b := w.getD 1 0
    let s0 := a.rotateRight 1 ^^^ a.rotateRight 8 ^^^ (a >>> 7)
    let s1 := b.rotateRight 19 ^^^ b.rotateRight 61 ^^^ (b >>> 6)
    (w.getD 15 0 + s0 + w.getD 6 0 + s1) :: w) w0.reverse)

/-- One round. -/
def shaRound (h : List Quad) (kw : Quad) : List Quad :=
  match h with
  | [a, b, c, d, e, f, g, x] =>
    let s1 := e.rotateRight 14 ^^^ e.rotateRight 18 ^^^ e.rotateRight 41
    let ch := (e &&& f) ^^^ (~~~e &&& g)
    let t1 := x + s1 + ch + kw
    let s0 := a.rotateRight 28 ^^^ a.rotateRight 34 ^^^ a.rotateRight 39
    let mj := (a &&& b) ^^^ (a &&& c) ^^^ (b &&& c)
    [t1 + s0 + mj, a, b, c, d + t1, e, f, g]
  | l => l

/-- One block. -/
def shaBlock (h : List Quad) (blk : List Byte) : List Quad :=
  let r := (shaK.zip (shaSchedule blk).reverse).foldl (fun h kw => shaRound h (kw.1 + kw.2)) h
  (h.zip r).map (fun x => x.1 + x.2)

/-- SHA-384 of bytes, as a number of 384 bits. -/
def sha384 (m : List Byte) : Nat :=
  let p := shaPad m
  let h := (List.range (p.length / 128)).foldl (fun h i => shaBlock h (slice p (128 * i) 128)) shaInit
  beNat ((h.take 6).map (fun w => beBytes 8 w.toNat)).flatten

/-! ### P-384 -/

/-- The field prime. -/
def p384P : Nat := 2 ^ 384 - 2 ^ 128 - 2 ^ 96 + 2 ^ 32 - 1
/-- The group order. -/
def p384N : Nat := 2 ^ 384 - 2 ^ 192 + 0xC7634D81F4372DDF581A0DB248B0A77AECEC196ACCC52973
/-- The curve's constant term. -/
def p384B : Nat := 0xB3312FA7E23EE7E4988E056BE3F82D19181D9C6EFE8141120314088F5013875AC656398D8A2ED19D2A85C8EDD3EC2AEF
/-- The generator. -/
def p384G : Nat × Nat :=
  (0xAA87CA22BE8B05378EB1C71EF320AD746E1D3B628BA79B9859F741E082542A385502F25DBF55296C3A545E3872760AB7,
   0x3617DE4A96262C6F5D9E98BF9292DC29F8F41DBD289A147CE9DA3113B5F0B8C00A60B1CE1D7E819D7A431D7C90EA0E5F)

/-- x^e mod m by the bits of `e` (384 of them). -/
def powMod (x e m : Nat) : Nat :=
  ((List.range 384).foldl (fun (a : Nat × Nat) i => (if bit e i then a.1 * a.2 % m else a.1, a.2 * a.2 % m)) (1, x % m)).1

/-- Inverse modulo a prime. -/
def invMod (x m : Nat) : Nat := powMod x (m - 2) m

/-- Sum of two points; none is the point at infinity. -/
def ecAdd : Option (Nat × Nat) → Option (Nat × Nat) → Option (Nat × Nat)
  | none, q => q
  | p, none => p
  | some (x1, y1), some (x2, y2) =>
    let P := p384P
    if x1 = x2 ∧ (y1 + y2) % P = 0 then none
    else
      let l := if x1 = x2 then (3 * x1 * x1 + (P - 3)) * invMod (2 * y1) P % P
        else (y2 + P - y1) * invMod (x2 + P - x1) P % P
      let x3 := (l * l + 2 * P - x1 - x2) % P
      some (x3, (l * (x1 + P - x3) + P - y1) % P)

/-- A multiple of a point. -/
def ecMul (k : Nat) (q : Option (Nat × Nat)) : Option (Nat × Nat) :=
  ((List.range 384).foldl (fun (a : Option (Nat × Nat) × Option (Nat × Nat)) i =>
    (if bit k i then ecAdd a.1 a.2 else a.1, ecAdd a.2 a.2)) (none, q)).1

/-- A point of the curve. -/
def ecOn (x y : Nat) : Bool :=
  decide (x < p384P) && decide (y < p384P) && (y * y % p384P == (x * x * x + (p384P - 3) * x + p384B) % p384P)

/-- ECDSA verification of a signature over a digest (R343). -/
def ecdsaOk (x y r s digest : Nat) : Bool :=
  if !ecOn x y || r = 0 || s = 0 || decide (p384N ≤ r) || decide (p384N ≤ s) then false
  else
    let w := invMod s p384N
    match ecAdd (ecMul (digest * w % p384N) (some p384G)) (ecMul (r * w % p384N) (some (x, y))) with
    | none => false
    | some (px, _) => px % p384N == r

/-- A signature block: 96 bytes of key, 96 of signature, the last 192 bytes of an object (R343). -/
def sigBlock (obj : List Byte) : List Byte := obj.drop (obj.length - 192)

/-- What a signature block signs. -/
def sigBody (obj : List Byte) : List Byte := obj.take (obj.length - 192)

/-- SHA-384 of the key of an object's signature block. -/
def sigKeyHash (obj : List Byte) : Nat := sha384 (slice (sigBlock obj) 0 96)

/-- Whether an object's signature verifies (R343). -/
def sigOk (obj : List Byte) : Bool :=
  let b := sigBlock obj
  ecdsaOk (beNat (slice b 0 48)) (beNat (slice b 48 48)) (beNat (slice b 96 48)) (beNat (slice b 144 48)) (sha384 (sigBody obj))

end Sys2Proof.Machine
end

