-- ==== Sys2Proof/Machine/Tab.lean ====
section
/-! DEFINITION. An indexed set of like things as plain data: the entries that differ from the default, by index.
Every index reads; what an instance's range is, its users say. -/

namespace Sys2Proof.Machine

/-- A table of entries by number: `dflt` where nothing is listed. -/
structure Tab (α : Type) where
  dflt  : α
  cells : List (Nat × α)
  deriving DecidableEq, Repr

/-- The entry listed for `i`, or `d`. -/
def assocGet {α : Type} (d : α) : List (Nat × α) → Nat → α
  | [], _ => d
  | (k, v) :: r, i => if k = i then v else assocGet d r i

/-- The list with entry `i` replaced or added. -/
def assocSet {α : Type} (i : Nat) (v : α) : List (Nat × α) → List (Nat × α)
  | [] => [(i, v)]
  | (k, w) :: r => if k = i then (i, v) :: r else (k, w) :: assocSet i v r

/-- Entry `i`. -/
def Tab.get {α : Type} (t : Tab α) (i : Nat) : α := assocGet t.dflt t.cells i

/-- The table with entry `i` replaced. -/
def Tab.set {α : Type} (t : Tab α) (i : Nat) (v : α) : Tab α := { t with cells := assocSet i v t.cells }

/-- The table with entry `i` changed by `f`. -/
def Tab.modify {α : Type} (t : Tab α) (i : Nat) (f : α → α) : Tab α := t.set i (f (t.get i))

/-- A table that holds `d` everywhere. -/
def Tab.const {α : Type} (d : α) : Tab α := { dflt := d, cells := [] }

/-- Every entry changed by `f`. -/
def Tab.map {α : Type} (t : Tab α) (f : α → α) : Tab α :=
  { dflt := f t.dflt, cells := t.cells.map (fun c => (c.1, f c.2)) }

/-- The entries below `n`. -/
def Tab.list {α : Type} (t : Tab α) (n : Nat) : List α := (List.range n).map t.get

end Sys2Proof.Machine
end

