-- ==== Sys2Proof/Machine/Mem.lean ====
section
/-! DEFINITION. Addressed memory: a canonical list of (address, byte) pairs, and poison marks by 64-bit word. -/

namespace Sys2Proof.Machine

/-- Memory: strictly rising addresses, no entry equal to what an unlisted address reads as, which is 0
(tile SRAM: R49; DRAM, hub SRAM and host memory: DESIGN CHOICE, log entry 4). -/
abbrev Memory := List Host.Cell

/-- The canonical form of a memory, as a test. -/
def Memory.wf (m : Memory) : Bool :=
  decide (m.Pairwise (fun a b => a.1 < b.1)) && m.all (fun c => c.2 != 0)

/-- The byte at an address. -/
def Memory.read : Memory → Nat → Byte
  | [], _ => 0
  | (k, v) :: r, a => if k = a then v else Memory.read r a

/-- `n` bytes from an address. -/
def Memory.readN (m : Memory) (a n : Nat) : List Byte :=
  let w := m.filter (fun c => a ≤ c.1 && c.1 < a + n)
  (List.range n).map (fun i => Memory.read w (a + i))

/-- The cells that bytes at an address make: the bytes that are not 0. -/
def cellsOf : Nat → List Byte → Memory
  | _, [] => []
  | a, b :: r => if b = 0 then cellsOf (a + 1) r else (a, b) :: cellsOf (a + 1) r

/-- The memory with the bytes from an address on replaced. -/
def Memory.write (m : Memory) (a : Nat) (bs : List Byte) : Memory :=
  m.filter (fun c => c.1 < a) ++ (cellsOf a bs ++ m.filter (fun c => a + bs.length ≤ c.1))

/-- The memory with `n` bytes from an address on cleared. -/
def Memory.clear (m : Memory) (a n : Nat) : Memory :=
  m.filter (fun c => c.1 < a) ++ m.filter (fun c => a + n ≤ c.1)

/-- Poisoned 64-bit words: their addresses divided by 8, strictly rising. -/
abbrev Poison := List Nat

/-- Whether a word among those that `n` bytes from `a` touch is poisoned. -/
def Poison.hit (p : Poison) (a n : Nat) : Bool := p.any (fun w => a / 8 ≤ w && w * 8 < a + n)

/-- The marks with the words [lo, lo + k) unmarked. -/
def Poison.unmark (p : Poison) (lo k : Nat) : Poison := p.filter (fun w => w < lo || lo + k ≤ w)

/-- The marks with the words [lo, lo + k) marked. -/
def Poison.mark (p : Poison) (lo k : Nat) : Poison :=
  p.filter (fun w => w < lo) ++ ((List.range k).map (lo + ·) ++ p.filter (fun w => lo + k ≤ w))

end Sys2Proof.Machine
end

