-- ==== Sys2Proof/Machine/State/Hub.lean ====
section
/-! DEFINITION. State of the host side (chapter 11): mailboxes, event ring, interrupts, PCIe, arbitration,
trace and debug. -/

namespace Sys2Proof.Machine

/-- A mailbox channel (R287, R290, R291, R296). `sent`: a command is in `inBuf` and no scan has taken it.
`bufOk`: the host completes the accesses to the command's buffers (operand of MBX_SEND, log entry 1). -/
structure Mbox where
  req      : List Byte
  rsp      : List Byte
  inBuf    : List Byte
  done     : Bool
  busy     : Bool
  ready    : Bool
  seq      : Half
  sendLost : Nat
  cmdCnt   : Nat
  clampCnt : Nat
  sent     : Bool
  bufOk    : Bool
  deriving DecidableEq, Repr

/-- An event (R311). -/
structure Event where
  code : Half
  aux  : Byte
  pay  : List Quad
  dt   : Nat
  eseq : Word
  deriving DecidableEq, Repr

/-- The event ring (R309, R310). `lost`: events lost since the last EVENTS_LOST; `moved`: EVT_TAIL advanced since
HUB_INT_STAT bit 4 was last set; `lastSet`: DT at which it was (R313). -/
structure EvtRing where
  base    : Nat
  log2    : Nat
  enable  : Bool
  badHead : Bool
  phase   : Bool
  tail    : Nat
  head    : Nat
  dropCnt : Nat
  mod     : Nat
  buf     : List Event
  eseq    : Word
  lost    : Nat
  moved   : Bool
  lastSet : Option Nat
  deriving DecidableEq, Repr

/-- An MSI-X table entry (R280): address, data, per-vector mask. -/
structure MsixEntry where
  addr   : Nat
  data   : Word
  masked : Bool
  deriving DecidableEq, Repr

/-- Interrupts (R313): status, mask, MSI-X table and pending bits, messages sent by vector. -/
structure Ints where
  stat : Word
  mask : Word
  msix : Tab MsixEntry
  pba  : Quad
  sent : Tab Nat
  deriving DecidableEq, Repr

/-- PCIe (R280–R285): window base, link, D-state, AER errors recorded: bit 0 Completion Timeout, 1 Unsupported Request,
2 Completer Abort, 3 Poisoned TLP, 4 Uncorrectable Internal Error. `up`: the link is up. -/
structure Pcie where
  winBase : Nat
  rate    : BitVec 4
  width   : BitVec 4
  flit    : Bool
  up      : Bool
  d3hot   : Bool
  aer     : Word
  deriving DecidableEq, Repr

/-- Register-port and order arbitration (R296, R298). -/
structure Arb where
  valid  : Bool
  lost   : BitVec 4
  cnt    : Nat
  ordOvr : Nat
  addr   : Nat
  deriving DecidableEq, Repr

/-- Descriptor trace (R305, R306). -/
structure Trace where
  mask   : Word
  enable : Bool
  base   : Nat
  log2   : Nat
  wptr   : Nat
  deriving DecidableEq, Repr

/-- A piece of a memory command that has ended (R303): its place in the range, its status, the bytes of a read with 0 for each that failed, and
the place of the first that failed. -/
structure MemPart where
  off    : Nat
  status : Half
  data   : List Byte
  fail   : Option Nat
  deriving DecidableEq, Repr

/-- A memory command that waits for other devices or for a mirrored write (R240, R303, R379): its channel (4: aborted by a function level
reset), opcode and request, the pieces ended, and those not ended with their place and whether they have been sent. -/
structure MemWait where
  ch    : Nat
  op    : Nat
  req   : Request
  done  : List MemPart
  wait  : List (Nat × NetReq × Bool)
  deriving DecidableEq, Repr

end Sys2Proof.Machine
end

