-- ==== Sys2Proof/Machine/State/Fabric.lean ====
section
/-! DEFINITION. State of the DRAM controllers, die edges, route table, bandwidth regulator, injectors and hub DMA engine
(chapters 01 and 09). -/

namespace Sys2Proof.Machine

/-- A die's DRAM controller (R236–R238, R260). `ceWin`, `ceRated`: corrections in the current second and whether
DRAM_CE_RATE stands, by channel. -/
structure Dram where
  ready     : Bool
  selfref   : Bool
  cap50     : Bool
  doubled   : Bool
  ceCnt     : Nat
  ueCnt     : Nat
  poisonCnt : Nat
  scrubPass : Nat
  errAddr   : Nat
  errValid  : Bool
  errChan   : Nat
  errKind   : Nat
  errSrc    : Nat
  scrubPos  : Nat
  scrubEn   : Bool
  scrubHrs  : Nat
  ceCh      : Tab Nat
  ceWin     : Tab Nat
  ceRated   : Tab Bool
  deriving DecidableEq, Repr

/-- A mirror region (R239). Type 0 off, 1 SOURCE, 2 TARGET; size in 64 MiB units. -/
structure MirRegion where
  type     : Nat
  size     : Nat
  base     : Nat
  on       : Bool
  diverged : Bool
  deriving DecidableEq, Repr

/-- Who waits for a mirrored write (R240): nobody who takes a response, a source of the network, or a device behind a Deluf port. -/
inductive Waiter where
  | nobody
  | network
  | deluf (port : Nat) (k : DlfPacket)
  deriving DecidableEq, Repr

/-- A copy awaiting the partner's acknowledgement (R240): region, tag, the write it belongs to, its local status, who waits for it. -/
structure MirCopy where
  region : Nat
  tag    : Nat
  req    : NetReq
  status : Half
  sentAt : Nat
  waiter : Waiter
  deriving DecidableEq, Repr

/-- Mirroring (R239–R241). -/
structure Mirror where
  regions : Tab MirRegion
  pend    : List MirCopy
  nextTag : Nat
  failCnt : Nat
  bytes   : Nat
  deriving DecidableEq, Repr

/-- One direction of a lane group of an edge (R242–R249), held at its receiver. `map`: physical lane of each logical lane in
use; `bad`: failed physical lanes; `width` 0 off, 1 half, 2 full, or the width it is training to; `sig`: the width in use. `win`: errors of a physical lane in the current 1 ms window. `expect`: next gseq; `nak`: gseq named by the last NAK while unresolved; `retry`: gseqs this group's
opposite transmitter holds unacknowledged; `replay`: a NAK asked it to replay; `leftOff`: left off by disagreement (R248). -/
structure EGroup where
  width    : Nat
  sig      : Nat
  map      : List Nat
  bad      : List Nat
  spares   : Nat
  retrains : Nat
  rtyCnt   : Nat
  lerr     : Tab Nat
  win      : Tab Nat
  expect   : Half
  nak      : Option Half
  retry    : List Half
  replay   : Bool
  credits  : Nat
  retraining : Bool
  leftOff  : Bool
  deriving DecidableEq, Repr

/-- An edge (R246–R249): state 0 DOWN, 1 TRAINING, 2 UP, 3 DISABLED. `eseq`: next edge sequence number each direction
restores; `early`: flits accepted ahead of it; `delivered`: network bytes delivered; `holding`: its requests are held for a reroute;
`winAt`: DT of the last automatic retrain window. -/
structure Edge where
  state     : Nat
  attempts  : Nat
  mismatch  : Bool
  eseq      : Tab Half
  early     : Tab (List (Half × List Byte))
  delivered : Tab Nat
  holding   : Bool
  winAt     : Option Nat
  deriving DecidableEq, Repr

/-- Routing (R250, R251): the table in force, the new table of a running reroute, flows still held, and their requests still
draining on the old path. -/
structure Routes where
  rt       : Nat
  newRt    : Option Nat
  held     : List Nat
  heldReqs : List (Nat × NetReq)
  switched : Nat
  routeCnt : Nat
  deriving DecidableEq, Repr

/-- Bellows (R252–R256). `newTab`: the table that the next window takes; `used`: bytes granted in the window by entry;
`committed`: QOS_PT loads; `eff`: effective minimum by entry; `window`: the current window's number. -/
structure Qos where
  classes    : Word
  entries    : Tab Quad
  newTab     : Option (Word × List (Nat × Quad))
  configured : Bool
  breach     : Nat
  breachCnt  : Nat
  short      : Tab Nat
  committed  : Tab Nat
  eff        : Tab Nat
  used       : Tab Nat
  mBytes     : Tab Nat
  window     : Nat
  deriving DecidableEq, Repr

/-- A fault injector (R258, R260): its configuration word without `armed`, DT t, count, units affected, units still to
affect, and whether FI_FIRED was raised since arming. -/
structure Injector where
  armed    : Bool
  cfg      : Quad
  t        : Nat
  count    : Nat
  fired    : Nat
  left     : Nat
  reported : Bool
  deriving DecidableEq, Repr

/-- A launch as its target holds it (R41, R215): the strobe and, for a calendar launch, its number in the calendar. -/
structure Launch where
  strobe : Strobe
  link   : Option Nat
  deriving DecidableEq, Repr

/-- A response on its way to its source (R37). -/
structure NetRsp where
  src    : BitVec 8
  tag    : BitVec 9
  op     : BitVec 4
  addr   : BitVec 48
  len    : Nat
  status : Half
  data   : List Byte
  poison : Bool
  deriving DecidableEq, Repr

/-- The network (R37): requests issued and not yet taken at their targets, and responses not yet taken by their sources. -/
structure Net where
  inflight : List NetReq
  rsps     : List NetRsp
  decodeErrs : Nat
  deriving DecidableEq, Repr

/-- A clock domain's monitor (R267, R279): state 0 OFF, 1 STARTING, 2 RUN, 3 FAULT. `changed`: the tile's DVFS target changed
in this window. -/
structure ClkDom where
  state   : Nat
  freq    : Nat
  changed : Bool
  deriving DecidableEq, Repr

/-- A stored word of a Ladle with its sideband (R268). -/
structure LWord where
  data   : List Byte
  eop    : Bool
  err    : Bool
  vbytes : Nat
  info   : Nat
  deriving DecidableEq, Repr

/-- A Ladle queue (R268–R276). `words`: stored read words from FR on; `part`: the word being packed; `rd`, `mark`: RD and MK
counted from FR; `skip`: the rest of the packet in progress is discarded (R271); `inPkt`: the writer is inside a packet;
`owed`: a one-word err packet waits for space, with its info; `discard`: R274; `inRead`: the reader is inside a packet; `force`: force_ovw. -/
structure Ladle where
  words    : List LWord
  part     : List LadleItem
  rd       : Nat
  mark     : Nat
  skip     : Bool
  inPkt    : Bool
  owed     : Option Nat
  discard  : Bool
  inRead   : Bool
  overrun  : Bool
  markLost : Bool
  force    : Bool
  thr      : Option Nat
  ovrCnt   : Nat
  lostCnt  : Nat
  ptrCnt   : Nat
  dropCnt  : Nat
  deriving DecidableEq, Repr

end Sys2Proof.Machine
end

