-- ==== Sys2Proof/Machine/State/Time.lean ====
section
/-! DEFINITION. State of the time base and the launch calendar (chapter 08). -/

namespace Sys2Proof.Machine

/-- The time base and its servo (R208–R212, R231). `frac`: 48 fractional bits; offsets in 2⁻¹⁶ ns, rate in 2⁻³² ns per ns;
state 0 FREERUN, 1 ACQUIRE, 2 LOCKED, 3 HOLDOVER, 4 FAULT; `rates`: the last 64 rates, newest first. -/
structure TimeBase where
  dt         : Nat
  frac       : Nat
  counting   : Bool
  src        : Nat
  ethPort    : Nat
  syncLog    : Int
  delufMaster : Nat
  stepThr    : Nat
  state      : Nat
  good       : Nat
  bad        : Nat
  srcReject  : Bool
  stepInhibit : Bool
  offset     : Int
  rate       : Int
  unlockCnt  : Nat
  sampleCnt  : Nat
  stepCnt    : Nat
  lastSample : Nat
  rates      : List Int
  deriving DecidableEq, Repr

/-- The state of a chain (R228, R230). -/
inductive ChainState where
  | idle | waiting | running | stopping
  deriving DecidableEq, Repr

/-- A period chain (R217–R230). `n`: index of the current period once one has started;
`at_`: A(n); `w`: DT of the last completion of the period; `toMake`: entry offsets of the period still to be launched,
as (entry index, effective offset); `ran`: periods started; `map`: the tile map of the period (R216); `lateRun`, `lateMax`: the
episode of late periods (R226). -/
structure Chain where
  configured : Bool
  nominal    : Nat
  min        : Nat
  first      : Nat
  count      : Nat
  runCount   : Nat
  skipEn     : Bool
  maxLag     : Nat
  start      : Nat
  state      : ChainState
  n          : Option Nat
  at_        : Nat
  w          : Nat
  toMake     : List (Nat × Nat)
  ran        : Nat
  spent      : Nat
  swap       : Option (Nat × Nat × Nat)
  map        : List (Option Nat)
  lateRun    : Nat
  lateMax    : Nat
  lag        : Nat
  lateCnt    : Nat
  maxLagSeen : Nat
  heldCnt    : Nat
  dlMissCnt  : Nat
  skipCnt    : Nat
  vacCnt     : Nat
  errCnt     : Nat
  deriving DecidableEq, Repr

/-- A launch the calendar has made and not seen complete (R218, R224, R225): its targets still to complete (0–35 tiles, 36
planner, 37 hub DMA, 38 front end) and the first error with its target. -/
structure Made where
  id       : Nat
  chain    : Nat
  idx      : Nat
  entry    : Nat
  tag      : Word
  sched    : Nat
  deadline : Nat
  left     : List Nat
  err      : Option (Half × Nat)
  deriving DecidableEq, Repr

/-- A launch the calendar holds for a target (R221). `counted`: it has been counted as held. -/
structure Held where
  launch  : Launch
  chain   : Nat
  counted : Bool
  deriving DecidableEq, Repr

/-- The launch calendar: entries (32 bytes each), chains, launches made, launches held by target, completions reported by
targets and not yet taken. -/
structure Calendar where
  entries : Tab (List Byte)
  chains  : Tab Chain
  made    : List Made
  nextId  : Nat
  held    : Tab (List Held)
  done    : Tab (List (Launch × Half))
  deriving DecidableEq, Repr

end Sys2Proof.Machine
end

