-- ==== Sys2Proof/Machine/State/Tile.lean ====
section
/-! DEFINITION. State of a tile (chapters 02, 04, 05, 06). -/

namespace Sys2Proof.Machine

/-- A fetched descriptor: its device address and its eight words. -/
structure Desc where
  addr  : Nat
  words : List Quad
  deriving DecidableEq, Repr

/-- A request that a DMA descriptor has still to make, or that is outstanding: tensor address word (R50), length, place in the
staging buffer. -/
structure Piece where
  write : Bool
  addr  : Nat
  len   : Nat
  off   : Nat
  deriving DecidableEq, Repr

/-- The work of a DMA descriptor. `addrs`: its addresses after the loop increments (R101); `phase` 0 reads the index list, 1 reads the
source, 2 writes; `todo`: requests still to make, in order; `out`: requests outstanding, by tag; `buf`, `bad`: the staging buffer and its
poisoned ranges; `idx`: the index list once read; `late`: error to record once the rows before it are written (R122); `gate`: the export
entry at whose gate it waits (R137); `raw`, `rawBad`, `row`: of a decoding transfer, the encoded bytes of the row in progress, where poison
begins among them, and the row's number (R140–R142). -/
structure DmaWork where
  addrs : List Nat
  phase : Nat
  todo  : List Piece
  out   : List (Nat × Piece)
  buf   : List Byte
  bad   : List (Nat × Nat)
  idx   : List Nat
  late  : Option Nat
  gate  : Option Nat
  raw    : List Byte
  rawBad : Option Nat
  row    : Nat
  deriving DecidableEq, Repr

/-- A descriptor that has issued and not completed. `err`: code of the last error recorded against it; `work`: what a DMA descriptor has
still to do; `acc`: the accumulator buffers it targets, by mask (R45, R108); `signals`: its signal slots apply, as they do to every descriptor
but the pages of a walk before the last (R165). -/
structure Issued where
  desc    : Desc
  stream  : Nat
  err     : Option Nat
  work    : Option DmaWork
  acc     : Nat
  signals : Bool
  deriving DecidableEq, Repr

/-- A stream of the running launch (R51, R52, R55, R59). `fetch`: address of the next descriptor to fetch; `pre`: descriptors
fetched and not issued, oldest first; `closed`: its COMPLETE has issued; `done`: its COMPLETE has completed; `waiting`: a wait or a RELEASE that has
issued and not completed, with the DT of its issue; `loops`: armed flag and IDX of LC0–LC3. -/
structure StreamSt where
  valid   : Bool
  fetch   : Nat
  pre     : List Desc
  closed  : Bool
  done    : Bool
  waiting : Option (Nat × Desc)
  loops   : Tab (Bool × Nat)
  deriving DecidableEq, Repr

/-- A line buffer (R132–R135): base offset, halo h, kept rows k, slot pitch P, first row y0; rows arrived and rows released since its
definition, so that RC is y0 + rc modulo 2¹⁶; bytes arrived by slot; its credit target. -/
structure LineBuf where
  defined : Bool
  base    : Nat
  h       : Nat
  k       : Nat
  pitch   : Nat
  y0      : Nat
  rc      : Nat
  rp      : Nat
  fill    : Tab Nat
  cen     : Bool
  ltile   : Nat
  self    : Bool
  ctr     : Nat
  deriving DecidableEq, Repr

/-- An export entry (R135, R137): consumer base, logical tile, N, P, y0; rows issued since it was armed, so that wrow is y0 + wrow modulo
2¹⁶; bytes issued of that row; the credit counter. -/
structure Export where
  armed  : Bool
  base   : Nat
  ltile  : Nat
  n      : Nat
  pitch  : Nat
  y0     : Nat
  wrow   : Nat
  issued : Nat
  ctr    : Nat
  deriving DecidableEq, Repr

/-- A page in the walk queue (R165): page address, valid positions, format, key position of slot 0. -/
structure WalkPage where
  addr  : Nat
  count : Nat
  fmt   : Nat
  kpos0 : Nat
  deriving DecidableEq, Repr

/-- The page walker (R164, R165): the ATTN_WALK being run, its head, its pin write's status, whether the pin results have been read, the
next page index and the end of its range, PTEs read and not yet pushed, the walk queue (none is the end marker), whether that marker has been pushed and
taken, and whether a page has been emitted. -/
structure Walk where
  desc    : Desc
  head    : Nat
  status  : Half
  ready   : Bool
  pinA    : Nat
  pinB    : Nat
  nextPg  : Nat
  stop    : Nat
  ptes    : List WalkPage
  queue   : List (Option WalkPage)
  ended   : Bool
  taken   : Bool
  first   : Bool
  deriving DecidableEq, Repr

/-- The accumulator type a buffer holds (R105). -/
inductive AccType where
  | fp32 | int32
  deriving DecidableEq, Repr

/-- An accumulator buffer (R46, R105): its type and its cells by 128 i + j; a cell is a 32-bit code, with a poison flag. -/
structure Acc where
  type  : AccType
  cells : Tab (Word × Bool)
  deriving DecidableEq, Repr

/-- The running launch (R52, R53). `ended`: the status of the event that ended it, while descriptors already issued complete. -/
structure Running where
  launch  : Launch
  streams : Tab StreamSt
  dirRead : Bool
  ended   : Option Half
  deriving DecidableEq, Repr

/-- A tile (R41–R66). Role 0 active, 1 spare, 2 defective, 3 quarantine. `defective`: the cold start marked the slot;
`inReset`: TRST_N asserted; `arithGate`: the ARITH_GATE input; `ueTimes`: DT of the uncorrectable reads of the last second; `heldOff`: chains that
launch nothing on the tile before their next period start (R443). -/
structure Tile where
  role      : Nat
  logical   : Option Nat
  launchEn  : Bool
  dbgHalt   : Bool
  pdirBase  : Nat
  pdirCnt   : Nat
  lmap      : Tab Nat
  curSeq    : Word
  lastProg  : Nat
  wtLate    : Nat
  errStat   : Word
  errFirst  : Word
  errDaddr  : Nat
  errCnt    : Nat
  ceCnt     : Nat
  ueCnt     : Nat
  sem       : Tab Nat
  ev        : Tab Nat
  therm     : Half × Half
  age       : Nat
  busyMat   : Nat
  busyVec   : Nat
  busySfu   : Nat
  busyDma   : Nat
  queue     : List Launch
  run       : Option Running
  issued    : List Issued
  nextTag   : Nat
  acc       : Tab Acc
  rng       : Tab Word
  lbs       : Tab LineBuf
  exports   : Tab Export
  walk      : Option Walk
  isoEn     : Bool
  inReset   : Bool
  arithGate : Bool
  initBusy  : Bool
  defective : Bool
  failed    : Bool
  symErr    : Tab Nat
  ueTimes   : List Nat
  clkFaults : Nat
  heldOff   : List Nat
  deriving DecidableEq, Repr

/-- The hub DMA engine (R257). `ptr`: next descriptor of the running list, none until its directory entry has been read; `head`: the fetched
one; `work`: descriptors with requests to make or outstanding, oldest first; `ended`: the status that has ended the launch while requests are
outstanding. -/
structure HubDma where
  pdirBase : Nat
  pdirCnt  : Nat
  busy     : Bool
  prog     : Nat
  err      : Word
  bytes    : Nat
  run      : Option Launch
  ptr      : Option Nat
  head     : Option Desc
  work     : List (Desc × DmaWork)
  nextTag  : Nat
  ended    : Option Half
  deriving DecidableEq, Repr

end Sys2Proof.Machine
end

