-- ==== Sys2Proof/Machine/State/Power.lean ====
section
/-! DEFINITION. State of power, cooling, bring-up and reset (chapters 15, 16, 17). -/

namespace Sys2Proof.Machine

/-- The device power state (R400). -/
inductive PwrState where
  | run | idle | sleep | deep | off
  deriving DecidableEq, Repr

/-- A tile's DVFS (R406, R407, PWR_TILE_p): points 0–6, the frequency and voltage halves in force, gating by R409, guard band
in 0.1 %, power in 1/16 W, cool samples in a row, and the nominal period of the chain of its last launch. -/
structure Dvfs where
  host    : Nat
  ceil    : Nat
  budget  : Nat
  clkOp   : Nat
  voltOp  : Nat
  goal    : Nat
  gated   : Bool
  guard   : Nat
  power   : Nat
  cool    : Nat
  period  : Nat
  deriving DecidableEq, Repr

/-- Power and Quench (R399–R423). `entering`: the state being entered; `entryDt`: DT at entry; `stage`: return stage running;
`pendingReq`: a PWR_STATE_SET not yet begun; `levelWake`: cause of a level wake event held in the entry window. -/
structure Power where
  state     : PwrState
  entering  : Option PwrState
  entryDt   : Nat
  stage     : Nat
  pendingReq : Option PwrState
  levelWake : Option Nat
  wake      : Nat
  trip      : Bool
  spot      : Nat
  boot      : Nat
  avg10     : Nat
  avg1      : Nat
  hostLimit : Nat
  budget    : Nat
  lostWake  : Nat
  entryCnt  : Nat
  cd        : Tab (Nat × Nat)
  tiles     : Tab Dvfs
  deriving DecidableEq, Repr

/-- Quench (R408–R419). Coolant 0 NORMAL, 1 LOW, 2 CRITICAL, 3 STOP; `source`: flow source used; `conf`: the flow source
THERMAL_CONFIG selects; temperatures °C × 64; `diff`: samples in a row a pair differed; `overSince`: DT since power exceeded the
budget; `outlet`: last two outlet readings; `okSince`: DT since the restore conditions hold; `throttled`: DT of the last
THERM_THROTTLE by hot spot. -/
structure Quench where
  coolant   : Nat
  fallback  : Bool
  plnClk    : Nat
  source    : Nat
  flow      : Nat
  flowValid : Bool
  tOut      : Int
  tIn       : Int
  cdT       : Tab (Int × Int)
  hubT      : Int
  suspect   : Quad
  throtCnt  : Nat
  fcCnt     : Nat
  budCnt    : Nat
  stopCnt   : Nat
  stopDt    : Nat
  gateAll   : Bool
  c         : Nat
  tOutMax   : Nat
  stopRate  : Nat
  conf      : Nat
  restoreMs : Nat
  diff      : Tab Nat
  overSince : Option Nat
  lastBudEvt : Option Nat
  outlet    : List (Nat × Int)
  okSince   : Option Nat
  throttled : Tab (Option Nat)
  hubStep   : Option Nat
  demand    : Nat
  drained   : Bool
  stacksOff : Bool
  deriving DecidableEq, Repr

/-- A reset being run (R436): scope, index, when it began. -/
structure ResetRun where
  scope : Nat
  index : Nat
  from_ : Nat
  chan  : Option (Nat × Request)
  deriving DecidableEq, Repr

/-- Bring-up (R426–R448). `service` 0 none, 1 boot service, 2 firmware; `phase` 0 NONE, 1 RUNNING, 2 DONE, 3 FAILED;
`ran`: SYS_START_UP has started in this power cycle; `warm`: the last reset was warm, so the retained list applies;
`defects`: the list, ascending; `retained` and the AON map (physical index by logical tile, none VACANT) and spares by die;
`fails`: tiles that have failed and wait for the next scan, with their cause; `deferred`: failures whose substitution waits for
their die's reset. `startReq`: the channel and request of the SYS_START_UP that runs. -/
structure BringUp where
  service   : Nat
  fwver     : Word
  phase     : Nat
  fast      : Bool
  full      : Bool
  step      : Nat
  dur       : Nat
  ran       : Bool
  warm      : Bool
  defects   : List Quad
  overflow  : Bool
  retained  : Bool
  map       : List (Option Nat)
  spares    : List (Option Nat)
  rst       : Option ResetRun
  rstScope  : Nat
  rstIndex  : Nat
  rstQueued : Option (Nat × Nat)
  failCnt   : Nat
  substCnt  : Nat
  rstCnt    : Nat
  fails     : List (Nat × Nat)
  deferred  : List Nat
  startReq  : Option (Nat × Request)
  failUnit  : Nat
  deriving DecidableEq, Repr

/-- Pins and supplies (R452, R457). -/
structure Pins where
  porN    : Bool
  perstN  : Bool
  wakeN   : Bool
  aonGood : Bool
  deriving DecidableEq, Repr

end Sys2Proof.Machine
end

