-- ==== Sys2Proof/Machine/State/Kv.lean ====
section
/-! DEFINITION. State of the sequence-table unit (chapter 06). -/

namespace Sys2Proof.Machine

/-- A generation slot (R154): state 0 FREE, 1 CURRENT, 2 DRAINING. -/
structure KvSlot where
  state   : Nat
  root    : Nat
  npages  : Nat
  hstride : Nat
  commit  : Nat
  refs    : Nat
  deriving DecidableEq, Repr

/-- A sequence table (R152, R154, R175, R176). `heads`: H; `parts`: P; `released`: highest c of a KV_RELEASE. -/
structure KvTable where
  defined    : Bool
  destroying : Bool
  heads      : Nat
  d          : Nat
  mode       : Nat
  parts      : Nat
  shard      : Nat
  commit     : Nat
  append     : Nat
  slots      : Tab KvSlot
  released   : Nat
  deriving DecidableEq, Repr

/-- The sequence-table unit (R178): tables, pins by physical tile as (table, slot), TSEL and ERRCNT. -/
structure Kvt where
  tables : Tab KvTable
  pins   : Tab (Option (Nat × Nat))
  tsel   : Nat
  errCnt : Nat
  deriving DecidableEq, Repr

end Sys2Proof.Machine
end

