-- ==== Sys2Proof/Machine/State/Deluf.lean ====
section
/-! DEFINITION. State of the Deluf links, barriers and the mirrored pair (chapter 14). -/

namespace Sys2Proof.Machine

/-- A Deluf port (R375–R377): state 0 DOWN, 1 TRAINING, 2 UP, 3 DISABLED; width 0 off, 1 x2, 2 x4; `expect`: next seq;
`retry`: DATA flits sent and unacknowledged as (seq, virtual channel, packet); `replays`: replays in a row; `credits`: by virtual
channel; `ueSec`: uncorrectable codewords of the second; `bad`: lanes of the defect list or lost. -/
structure DlfPort where
  state    : Nat
  width    : Nat
  lanes    : BitVec 4
  peer     : BitVec 6
  peerPort : BitVec 3
  mismatch : Bool
  rtyCnt   : Nat
  fecCe    : Nat
  fecUe    : Nat
  txFlits  : Nat
  rxFlits  : Nat
  downCnt  : Nat
  expect   : BitVec 12
  nextSeq  : BitVec 12
  nak      : Option (BitVec 12)
  retry    : List (BitVec 12 × BitVec 2 × DlfPacket)
  replays  : Nat
  credits  : Tab Nat
  ueSec    : Nat
  bad      : BitVec 4
  deriving DecidableEq, Repr

/-- A remote request outstanding at its requester (R379): tag, the local request, since when, for the tags of DELUF. -/
structure Remote where
  tag  : Nat
  req  : NetReq
  dst  : Nat
  sent : Nat
  deriving DecidableEq, Repr

/-- Topology, routes and counters of the links (R380–R382, R394). `sent`: packets handed to a port, as (port, packet); `newRt`: a
reroute being applied with the destinations still draining. -/
structure Dlf where
  valid    : Bool
  devnum   : Nat
  xM1      : Nat
  yM1      : Nat
  partner  : Nat
  barRoot  : Nat
  dl6      : Nat × Nat
  dl7      : Nat × Nat
  suspect  : Quad
  reach    : Quad
  rt       : Tab Nat
  newRt    : Option (List Nat)
  draining : List Nat
  rrCnt    : Nat
  rmtTmo   : Nat
  remotes  : List Remote
  nextTag  : Nat
  sent     : List (Nat × DlfPacket)
  msgs     : List (Nat × Nat × Nat)
  deriving DecidableEq, Repr

/-- An accumulation region (R383): format 0 off, 1 FP32, 2 BF16, 3 INT32; size in 64 KiB units; base. -/
structure AccRegion where
  fmt  : Nat
  size : Nat
  base : Nat
  deriving DecidableEq, Repr

/-- A barrier group (R384, R385): members, local arrivals per epoch, counter, tile mask, margin; at the root, the arrivals of
the epoch in order with their DT; `stalled`: the stall of this epoch has been raised. -/
structure BarGroup where
  defined  : Bool
  local_   : Nat
  ctr      : Nat
  tmask    : Nat
  members  : Nat
  margin   : Nat
  epoch    : Nat
  arrived  : Nat
  root     : List (Nat × Nat)
  stalled  : Bool
  deriving DecidableEq, Repr

/-- The pair (R386–R393). `hbRx`: DT of the last heartbeat by port 4, 5; `peerRole`,
`peerState`: from heartbeats; `probe`: DT at which an unanswered probe was sent; `verified`: mirror regions VERIFIED;
`joinRegion`, `joinOff`: next chunk to copy or, in verification, to verify; `todo`: chunks of the region to copy and verify again;
`matched`: chunks of the region whose CRC matched, with it; `sigs`: signature by region; `mism`: mismatches of the region; `unacked`: copied
chunks not acknowledged, as (tag, chunk address); `rate` in MB/s; `joinFrom`: DT of its start; `handover`: the PAIR_SWITCHOVER under way;
`invalid`: INVALID regions. -/
structure Pair where
  role      : Nat
  hbTimeout : Nat
  hbRx      : Tab (Option Nat)
  peerRole  : Nat
  peerState : Nat
  lastSend  : Option Nat
  probe     : Option Nat
  join      : Bool
  verify    : Bool
  verified  : Nat
  switches  : Nat
  joinPos   : Nat
  joinMism  : Nat
  switchDt  : Nat
  handover  : Option (Nat × Request)
  joinRegion : Nat
  joinOff   : Nat
  todo      : List Nat
  matched   : List (Nat × Word)
  sigs      : Tab Nat
  mism      : Nat
  unacked   : List (Nat × Nat)
  rate      : Nat
  joinFrom  : Nat
  invalid   : Nat
  deriving DecidableEq, Repr

/-- What the barrier root holds of each device (R385): history and marks. -/
structure LateRec where
  history : Half
  marks   : Nat
  deriving DecidableEq, Repr

end Sys2Proof.Machine
end

