-- ==== Sys2Proof/Machine/State/Sensor.lean ====
section
/-! DEFINITION. State of the cameras, the front end, the taps, the Ethernet MACs and the tray (chapter 12). -/

namespace Sys2Proof.Machine

/-- What an island's FROZEN rule tells the tap of its port (R322, R358): seed, W, H, whether embedded data is included. -/
structure TapCfg where
  seed : Word
  w    : Nat
  h    : Nat
  emb  : Bool
  deriving DecidableEq, Repr

/-- One tap (R322, R332): the settings taken at the frame's start, last frame truncated, messages sent. -/
structure Tap where
  cfg   : Option TapCfg
  trunc : Bool
  sent  : Nat
  deriving DecidableEq, Repr

/-- A camera port (R314, R316, R322, R332). `filters`: [4:0] VC, [13:8] data type, [15] enable; `configured`: filter 0 has been
configured; `openF`: a frame of the filter is open; `tapLines`: lines
of filter 0's frame since FS, none where it was lost; `tapEmb`: its first embedded line; `trig`: CSI_TRIG_n. -/
structure CsiPort where
  phy      : Nat
  lanes    : Nat
  scramble : Nat
  rate     : Nat
  filters  : Tab Nat
  configured : Bool
  up       : Bool
  openF    : Tab Bool
  fnum     : Half
  pktCnt   : Nat
  eccCnt   : Nat
  hdrErr   : Nat
  crcErr   : Nat
  filtCnt  : Nat
  noArm    : Nat
  lineLost : Nat
  frameCnt : Nat
  lastFs   : Nat
  line     : List Byte
  tapOpen  : Bool
  tapLines : List (Option (List Byte))
  tapEmb   : Option (List Byte)
  taps     : Tab Tap
  trig     : Bool
  deriving DecidableEq, Repr

/-- A camera of the running capture (R318–R321). `entry`: its 64 bytes of the profile; `phase` 0 armed, 1 open, 2 ended,
3 recorded; `arrived`: lines taken from the queue; `posts`: stripe posts due; `rows`: rows written; `trigPhase` 0 to come, 1 high,
2 over. -/
structure Camera where
  entry   : List Byte
  phase   : Nat
  fnum    : Half
  dtFs    : Nat
  dtFe    : Nat
  arrived : Nat
  rows    : Nat
  lost    : Nat
  bytes   : Nat
  flags   : Nat
  posts   : Nat
  trigPhase : Nat
  deriving DecidableEq, Repr

/-- The running front-end launch (R318): its head (16 bytes of the profile), acceptance DT and cameras. -/
structure Capture where
  launch : Launch
  head   : List Byte
  since  : Nat
  cams   : List Camera
  failed : Bool
  deriving DecidableEq, Repr

/-- An Ethernet receive queue (R326). -/
structure EthRxq where
  on       : Bool
  label    : Nat
  base     : Nat
  nslots   : Nat
  slot     : Nat
  kind     : Nat
  value    : Nat
  ltile    : Nat
  ctr      : Nat
  k        : Nat
  head     : Nat
  tail     : Nat
  seq      : Nat
  count    : Nat
  deriving DecidableEq, Repr

/-- An Ethernet transmit queue (R327): `pos` the next descriptor; `active`: the last look found it owned. -/
structure EthTxq where
  on     : Bool
  label  : Nat
  base   : Nat
  nslots : Nat
  pos    : Nat
  active : Bool
  deriving DecidableEq, Repr

/-- An Ethernet MAC (R325–R327, R332). `drops`: drops since the last ETH_RX_DROP; `dropDt`: when it was raised; `wire`: frames
sent, as bytes and whether the FCS is valid. -/
structure EthMac where
  enable   : Bool
  fec      : Nat
  mtu      : Nat
  addr     : List Byte
  pollUs   : Nat
  link     : Bool
  rxq      : Tab EthRxq
  txq      : Tab EthTxq
  rxFrames : Nat
  txFrames : Nat
  fcsErr   : Nat
  rxDrop   : Nat
  drops    : Nat
  dropDt   : Option Nat
  wire     : List (List Byte × Bool)
  deriving DecidableEq, Repr

/-- A tray sensor slot (R329). `conf`: the 16 bytes of its TRAY_CONFIG; `busy`: a read is under way; `good`: DT of the last good
read. -/
structure TraySlot where
  conf   : List Byte
  busy   : Bool
  lastRd : Option Nat
  valid  : Bool
  fault  : Bool
  fails  : Nat
  good   : Nat
  value  : Int
  deriving DecidableEq, Repr

/-- The tray (R329–R331). `k`: pulses per litre, an FP32 code; `edges`: edges since the stall. -/
structure Tray where
  slots    : Tab TraySlot
  configured : Bool
  k        : Word
  stalled  : Bool
  flow     : Nat
  pulseDt  : Nat
  edges    : Nat
  floor    : Nat
  faultCnt : Nat
  deriving DecidableEq, Repr

/-- Cameras, front end, Ethernet and tray. `profiles`: head and entries of each defined capture profile. -/
structure Sensors where
  csi      : Tab CsiPort
  profiles : Tab (Option (List Byte))
  capture  : Option Capture
  eth      : Tab EthMac
  tray     : Tray
  deriving DecidableEq, Repr

end Sys2Proof.Machine
end

