-- ==== Sys2Proof/Machine/State/Island.lean ====
section
/-! DEFINITION. State of a safety island and of the hub's mirror of it (chapter 13). -/

namespace Sys2Proof.Machine

/-- The state of an island (R341). -/
inductive IslandState where
  | reset | starttest | boot | config | run | fault
  deriving DecidableEq, Repr

/-- A validated E2E record (R352): its stream's place in the table, seq, dt, crc, payload; `gen`: the table acceptances at its
arrival. -/
structure E2eRec where
  seq : Nat
  dt  : Nat
  crc : Nat
  pay : List Byte
  gen : Nat
  deriving DecidableEq, Repr

/-- A stream of the running table (R354, R357, R358): the last sequence number, the last valid record and the one before it, whether
the last belongs to the frame under way, and the frame's error mark. -/
structure E2eStream where
  seq     : Option Nat
  last    : Option E2eRec
  prev    : Option E2eRec
  inFrame : Bool
  err     : Bool
  deriving DecidableEq, Repr

/-- An ingress lane (R353): the bytes written of the record in progress, whether one is in progress, and whether a byte was written
twice. -/
structure Lane where
  active : Bool
  bytes  : List (Nat × Byte)
  dup    : Bool
  deriving DecidableEq, Repr

/-- The frozen-frame detector of a camera (R323, R324). `now`: cause bits that hold now; `cause`, `frozen`: latched; `lastIt`: arrival
of the last frame, or the table's acceptance. -/
structure Frozen where
  sig    : Option Word
  same   : Nat
  fnum   : Half
  seen   : Bool
  lastIt : Nat
  now    : Nat
  cause  : Nat
  frozen : Bool
  trunc  : Bool
  deriving DecidableEq, Repr

/-- A judgement under way (R361, R365): the frame number, DTe at its boundary, whether the TIME check failed, and the table, the
streams, the cameras and the safety sensor as they stood at the boundary, with its IT. -/
structure Judging where
  k       : Nat
  dte     : Int
  timeBad : Bool
  table   : List Byte
  streams : List E2eStream
  cams    : Tab Frozen
  sensor  : Option (Nat × List Nat)
  it      : Nat
  deriving DecidableEq, Repr

/-- The record an output message holds (R361, R364): src, stream, seq, crc, excerpt. -/
structure HeldRec where
  src     : Nat
  stream  : Nat
  seq     : Nat
  crc     : Nat
  excerpt : List Byte
  deriving DecidableEq, Repr

/-- What a debugger writes of an island core (R349): registers by number, memory by address, whether it is halted, and its single steps. -/
structure DebugCore where
  regs   : Tab Quad
  mem    : Tab Byte
  halted : Bool
  steps  : Nat
  deriving DecidableEq, Repr

/-- An island (R335–R370). `main`, `chk`: what a debugger has written of the main and the checker core; `rstN`: SIx_RST_N; `cfg`: the 64 bytes of the accepted configuration block; `table`: the accepted check
table without its signature block; `nextTable`: a replacement waiting for the boundary; `gen`: table acceptances; `rng`: the
island generator; `fails`: FAIL of the last 20 frames, newest first; `rotFrom`: IT of the last rotation's end or of entry into RUN;
`offer`: IT of the next offer; `deferred`: the slice waits for a task's end; `slice`: the slice running, with its start; `accIt`: IT of
the last table acceptance; `reqs`, `clears`: orders of the message time; `due`: clears whose message time ended during a judgement; `notes`: what the status reports beside the
registers, as (event, P0, P1); `clk`: kHz of R370; `canOut`: CAN FD frames sent, as (controller, identifier, bytes); `keys`: the
integrator slots, the fused hash as a number and revoked. -/
structure Island where
  rstN     : Bool
  supply   : Bool
  state    : IslandState
  fault    : Nat
  degraded : Bool
  cause    : Nat
  frame    : Nat
  nonce    : Word
  rng      : Word
  fwver    : Nat
  fwOk     : Bool
  cfg      : Option (List Byte)
  table    : Option (List Byte)
  nextTable : Option (List Byte)
  gen      : Nat
  latchCnt : Nat
  failCnt  : Nat
  doubtCnt : Nat
  e2eErr   : Nat
  linkErr  : Nat
  sensErr  : Nat
  clrRej   : Nat
  age      : Nat
  hold     : Bool
  held     : Option HeldRec
  verdict  : Nat
  maint    : Bool
  debug    : Bool
  overdue  : Bool
  fails    : List Bool
  doubtRun : Nat
  rotations : Nat
  pos      : Nat
  lastS    : Nat
  deferCnt : Nat
  rotFrom  : Nat
  offer    : Option Nat
  deferred : Bool
  slice    : Option (Nat × Nat)
  accIt    : Nat
  it       : Nat
  anchor   : Option (Nat × Nat)
  dtDiff   : Int
  nextK    : Option Nat
  judge    : Option Judging
  ruleOut  : Tab Nat
  lanes    : Tab Lane
  streams  : List E2eStream
  cams     : Tab Frozen
  sensor   : Option (Nat × List Nat)
  sensSeq  : Option Nat
  reqs     : Bool
  clears   : List CanFrame
  due      : List CanFrame
  pin0     : Bool
  pin1     : Bool
  notes    : List (Nat × Nat × Nat)
  clk      : Tab Nat
  canOut   : List (Nat × Nat × List Byte)
  keys     : Tab (Option Nat × Bool)
  main     : DebugCore
  chk      : DebugCore
  deriving DecidableEq, Repr

/-- An ingress lane with nothing in progress. -/
def laneEmpty : Lane := { active := false, bytes := [], dup := false }

/-- A camera's detector before its first frame under a table accepted at IT `it`. -/
def frozenFresh (it : Nat) : Frozen :=
  { sig := none, same := 0, fnum := 0, seen := false, lastIt := it, now := 0, cause := 0, frozen := false, trunc := false }

/-- A stream before its first record. -/
def streamFresh : E2eStream := { seq := none, last := none, prev := none, inFrame := false, err := false }

/-- A core that no debugger has written. -/
def coreFresh : DebugCore := { regs := Tab.const 0, mem := Tab.const 0, halted := false, steps := 0 }

/-- An island in RESET (R341): everything at its reset value (R370); its fuses are kept. -/
def islandFresh (rstN supply : Bool) (keys : Tab (Option Nat × Bool)) : Island :=
  { rstN := rstN, supply := supply, state := .reset, fault := 0, degraded := false, cause := 0, frame := 0, nonce := 0, rng := 1, fwver := 0,
    fwOk := false, cfg := none, table := none, nextTable := none, gen := 0, latchCnt := 0, failCnt := 0, doubtCnt := 0, e2eErr := 0,
    linkErr := 0, sensErr := 0, clrRej := 0, age := 0, hold := false, held := none, verdict := 3, maint := false, debug := false,
    overdue := false, fails := [], doubtRun := 0, rotations := 0, pos := 0, lastS := 0, deferCnt := 0, rotFrom := 0, offer := none,
    deferred := false, slice := none, accIt := 0, it := 0, anchor := none, dtDiff := 0, nextK := none, judge := none,
    ruleOut := Tab.const 0, lanes := Tab.const laneEmpty, streams := [], cams := Tab.const (frozenFresh 0), sensor := none, sensSeq := none,
    reqs := false, clears := [], due := [], pin0 := false, pin1 := false, notes := [], clk := Tab.const 0, canOut := [], keys := keys,
    main := coreFresh, chk := coreFresh }

/-- The hub's mirror of an island (R370): register words by offset as (offset, size, value), and the DT of the last update. -/
structure Mirrored where
  regs  : List (Nat × Nat × Nat)
  stat  : Nat
  cause : Nat
  dt    : Nat
  deriving DecidableEq, Repr

/-- The safety side: the islands and the hub's mirrors of them. -/
structure Safety where
  isl    : Tab Island
  mirror : Tab Mirrored
  deriving DecidableEq, Repr

end Sys2Proof.Machine
end

