-- ==== Sys2Proof/Machine/State/Plan.lean ====
section
/-! DEFINITION. State of the lattice planner and the Sieve (chapter 07). -/

namespace Sys2Proof.Machine

/-- A loaded primitive set (R182, R185): header fields and the image's address and length. -/
structure PlanSet where
  kind     : Nat
  nprim    : Nat
  nentries : Nat
  addr     : Nat
  length   : Nat
  voxel    : Nat
  deriving DecidableEq, Repr

/-- A primitive of a plan (R202): set slot, rotation, record index, start lattice point, start offset in µs. -/
structure PlanPrim where
  set : Nat
  q   : Nat
  idx : Nat
  x   : Int
  y   : Int
  off : Nat
  deriving DecidableEq, Repr

/-- A terminal state of the search (R197): f, g and the chain that leads to it. -/
structure Ranked where
  f     : Nat
  g     : Nat
  chain : List PlanPrim
  deriving DecidableEq, Repr

/-- A planning cycle (R195–R201). `req`: the copied request block; `pinE`, `pinN`: the buffers pinned for
the search and for the final check; `eSearch`, `eCheck` their epochs;
`ended`: the ranked list and BUDGET once the search has ended. -/
structure Cycle where
  launch  : Launch
  req     : List Byte
  reqBad  : Bool
  pinE    : Option Nat
  eSearch : Nat
  pinN    : Option Nat
  eCheck  : Nat
  mapBad  : Bool
  ended   : Option (List Ranked × Bool)
  deriving DecidableEq, Repr

/-- The planner (R195, R204, R205). `prev`: the previous released record. -/
structure Planner where
  launchEn : Bool
  reqBase  : Nat
  reserve  : Nat
  seq      : Nat
  lastDt   : Nat
  lastReq  : Nat
  lastStat : Nat
  sets     : Tab (Option PlanSet)
  cycle    : Option Cycle
  waiting  : Option Launch
  prev     : Option (List Byte)
  e2eSeq   : Nat
  cycCnt   : Nat
  budCnt   : Nat
  rechkCnt : Nat
  keptCnt  : Nat
  stopCnt  : Nat
  nspCnt   : Nat
  lateCnt  : Nat
  outErr   : Nat
  deriving DecidableEq, Repr

/-- The Sieve (R187–R191, R204): configuration, buffers as (base, length), the current buffer and epoch, pins by buffer. -/
structure Sieve where
  valid    : Bool
  voxel    : Nat
  depth    : Nat
  bufs     : Tab (Nat × Nat)
  cur      : Option Nat
  curEpoch : Nat
  pins     : Tab Nat
  entries  : Nat
  cand     : Nat
  mapErr   : Nat
  pubRej   : Nat
  deriving DecidableEq, Repr

end Sys2Proof.Machine
end

