-- ==== Sys2Proof/Machine/State.lean ====
section
/-! DEFINITION. The state of the KV4-96L block, its reset value and the reasons a command can stop.
Every field of `State` holds plain data; the rule that names each piece is in its block's structure. -/

namespace Sys2Proof.Machine

/-- Why the block can stop on a command it has a meaning for. -/
inductive Fault where
  /-- Raised by NETWORK_REQUEST and IQ_REQUEST for a request no network carries: a length outside 1–256, a payload that is not
  that long, or a range across a 256-byte boundary (R37). Safe: no such request exists. -/
  | malformed (what : String)
  deriving DecidableEq, Repr

/-- Why a command is not run at all. -/
inductive Refusal where
  /-- Raised by `exec` for a command without a meaning in this model. Safe. -/
  | notModelled (mnemonic : String)
  deriving DecidableEq, Repr

/-- The host-facing part of the hub (chapter 11). `opMode`: OPERATIONAL (R5); `sessions`: debug sessions (R305);
`reads`: reads of host memory sent and not completed (R282); `memWaits`: memory commands not completed (R303). -/
structure HostSide where
  opMode   : Bool
  mbx      : Tab Mbox
  evt      : EvtRing
  ints     : Ints
  pci      : Pcie
  arb      : Arb
  trc      : Trace
  sessions : List Nat
  mem      : Memory
  poison   : Poison
  reads    : List NetReq
  memWaits : List MemWait
  deriving DecidableEq, Repr

/-- Fabric, DRAM, regulation and clocks (chapters 01, 09, 10). `lost`: DRAM ranges whose contents are undefined (R389), as (first, one
past the last, number of the loss). -/
structure FabricSt where
  mem     : Memory
  lost    : List (Nat × Nat × Nat)
  poison  : Poison
  symErr  : Tab Nat
  net     : Net
  drm     : Tab Dram
  mir     : Mirror
  edges   : Tab Edge
  groups  : Tab EGroup
  routes  : Routes
  qos     : Qos
  inj     : Tab Injector
  hdma    : HubDma
  clk     : Tab ClkDom
  clkFaults : Nat
  ldl     : Tab Ladle
  dieReset : Tab Bool
  transitDown : Tab Bool
  absorbs : Tab Nat
  deriving DecidableEq, Repr

/-- The Deluf side (chapter 14). -/
structure ScaleOut where
  dlf    : Dlf
  ports  : Tab DlfPort
  acc    : Tab AccRegion
  accAdds : Nat
  bars   : Tab BarGroup
  late   : Tab LateRec
  pair   : Pair
  deriving DecidableEq, Repr

/-- The whole block. `toIslands`: frames sent to each island and not yet received (R25). `free`: how many free values the run
has taken (the model's own). `pending`: the queue of waiting commands. -/
structure State where
  pins    : Pins
  host    : HostSide
  fab     : FabricSt
  time    : TimeBase
  cal     : Calendar
  tiles   : Tab Tile
  kvt     : Kvt
  pwr     : Power
  qch     : Quench
  bu      : BringUp
  so      : ScaleOut
  sen     : Sensors
  anv     : Safety
  pln     : Planner
  sie     : Sieve
  toIslands : List (Nat × SafetyPayload)
  free    : Nat
  pending : List Instr
  deriving DecidableEq, Repr

/-! ### Reset values: the Reset columns of the register tables; a value that the manual does not give is 0 or empty (log entry 7) -/

/-- A tile after its reset (R65, R105, R437): the role, number and failure marks are kept by those who reset it. -/
def tileFresh : Tile :=
  { role := 0, logical := none, launchEn := false, dbgHalt := false, pdirBase := 0, pdirCnt := 0, lmap := Tab.const 0xFF, curSeq := 0,
    lastProg := 0, wtLate := 0, errStat := 0, errFirst := 0, errDaddr := 0, errCnt := 0, ceCnt := 0, ueCnt := 0, sem := Tab.const 0,
    ev := Tab.const 0, therm := (0, 0), age := 0, busyMat := 0, busyVec := 0, busySfu := 0, busyDma := 0, queue := [], run := none,
    issued := [], nextTag := 0, acc := Tab.const { type := .fp32, cells := Tab.const (0, false) }, rng := Tab.const 0,
    lbs := Tab.const { defined := false, base := 0, h := 0, k := 0, pitch := 0, y0 := 0, rc := 0, rp := 0, fill := Tab.const 0, cen := false,
                       ltile := 0, self := false, ctr := 0 },
    exports := Tab.const { armed := false, base := 0, ltile := 0, n := 0, pitch := 0, y0 := 0, wrow := 0, issued := 0, ctr := 0 },
    walk := none, isoEn := true, inReset := true, arithGate := false, initBusy := false, defective := false, failed := false,
    symErr := Tab.const 0, ueTimes := [], clkFaults := 0, heldOff := [] }

/-- The mailbox channels, event ring, interrupts, window and debug state of a device just powered (R284–R313). -/
def hostFresh : HostSide :=
  { opMode := false,
    mbx := Tab.const { req := List.replicate 256 0, rsp := List.replicate 256 0, inBuf := List.replicate 256 0, done := false, busy := false,
                       ready := false, seq := 0, sendLost := 0, cmdCnt := 0, clampCnt := 0, sent := false, bufOk := true },
    evt := { base := 0, log2 := 6, enable := false, badHead := false, phase := true, tail := 0, head := 0, dropCnt := 0, mod := 0, buf := [],
             eseq := 0, lost := 0, moved := false, lastSet := none },
    ints := { stat := 0, mask := 0x1FF, msix := Tab.const { addr := 0, data := 0, masked := true }, pba := 0, sent := Tab.const 0 },
    pci := { winBase := 0, rate := 0, width := 0, flit := false, up := false, d3hot := false, aer := 0 },
    arb := { valid := false, lost := 0, cnt := 0, ordOvr := 0, addr := 0 },
    trc := { mask := 0, enable := false, base := 0, log2 := 0, wptr := 0 }, sessions := [], mem := [], poison := [], reads := [], memWaits := [] }

/-- A DRAM controller before its stack has trained (R237, R260). -/
def dramFresh : Dram :=
  { ready := false, selfref := false, cap50 := false, doubled := false, ceCnt := 0, ueCnt := 0, poisonCnt := 0, scrubPass := 0,
    errAddr := 0, errValid := false, errChan := 0, errKind := 0, errSrc := 0, scrubPos := 0, scrubEn := true, scrubHrs := 24,
    ceCh := Tab.const 0, ceWin := Tab.const 0, ceRated := Tab.const false }

/-- Mirroring with no region configured (R239, R260). -/
def mirrorFresh : Mirror :=
  { regions := Tab.const { type := 0, size := 0, base := 0, on := false, diverged := false }, pend := [], nextTag := 0, failCnt := 0, bytes := 0 }

/-- An edge that has not trained (R260). -/
def edgeFresh : Edge :=
  { state := 0, attempts := 0, mismatch := false, eseq := Tab.const 0, early := Tab.const [], delivered := Tab.const 0, holding := false,
    winAt := none }

/-- A lane group that has not trained (R260). -/
def groupFresh : EGroup :=
  { width := 0, sig := 0, map := [], bad := [], spares := 0, retrains := 0, rtyCnt := 0, lerr := Tab.const 0, win := Tab.const 0, expect := 0,
    nak := none, retry := [], replay := false, credits := 0, retraining := false, leftOff := false }

/-- The default routes (R250). -/
def routesFresh : Routes := { rt := 0, newRt := none, held := [], heldReqs := [], switched := 0, routeCnt := 0 }

/-- Bellows with every label shared and no guarantee (R252, R260). -/
def qosFresh : Qos :=
  { classes := 0, entries := Tab.const 0, newTab := none, configured := false, breach := 0, breachCnt := 0, short := Tab.const 0,
    committed := Tab.const 0, eff := Tab.const 0, used := Tab.const 0, mBytes := Tab.const 0, window := 0 }

/-- An injector that is not armed (R258). -/
def injFresh : Injector := { armed := false, cfg := 0, t := 0, count := 0, fired := 0, left := 0, reported := false }

/-- The hub DMA engine (R257, R260). -/
def hubDmaFresh : HubDma :=
  { pdirBase := 0, pdirCnt := 0, busy := false, prog := 0, err := 0, bytes := 0, run := none, ptr := none, head := none,
    work := [], nextTag := 0, ended := none }

/-- An empty queue (R275, R278). -/
def ladleFresh : Ladle :=
  { words := [], part := [], rd := 0, mark := 0, skip := false, inPkt := false, owed := none, discard := false, inRead := false, overrun := false,
    markLost := false, force := false, thr := none, ovrCnt := 0, lostCnt := 0, ptrCnt := 0, dropCnt := 0 }

/-- Fabric, DRAM and clocks of a device just powered; the die partitions are in reset until start-up (log entry 7). -/
def fabFresh : FabricSt :=
  { mem := [], lost := [], poison := [], symErr := Tab.const 0, net := { inflight := [], rsps := [], decodeErrs := 0 },
    drm := Tab.const dramFresh, mir := mirrorFresh, edges := Tab.const edgeFresh, groups := Tab.const groupFresh, routes := routesFresh,
    qos := qosFresh, inj := Tab.const injFresh, hdma := hubDmaFresh, clk := Tab.const { state := 0, freq := 0, changed := false },
    clkFaults := 0, ldl := Tab.const ladleFresh, dieReset := Tab.const true, transitDown := Tab.const false, absorbs := Tab.const 0 }

/-- The time base before any TIME_CONFIG (R231). -/
def timeFresh : TimeBase :=
  { dt := 0, frac := 0, counting := true, src := 0, ethPort := 0, syncLog := -3, delufMaster := 0, stepThr := 1000, state := 0, good := 0,
    bad := 0, srcReject := false, stepInhibit := false, offset := 0, rate := 0, unlockCnt := 0, sampleCnt := 0, stepCnt := 0, lastSample := 0,
    rates := [] }

/-- A chain that has not been configured (R230, R231). -/
def chainFresh : Chain :=
  { configured := false, nominal := 0, min := 0, first := 0, count := 0, runCount := 0, skipEn := false, maxLag := 0, start := 0, state := .idle,
    n := none, at_ := 0, w := 0, toMake := [], ran := 0, spent := 0, swap := none, map := [], lateRun := 0, lateMax := 0,
    lag := 0, lateCnt := 0, maxLagSeen := 0, heldCnt := 0, dlMissCnt := 0, skipCnt := 0, vacCnt := 0, errCnt := 0 }

/-- The calendar cleared (R230). -/
def calFresh : Calendar :=
  { entries := Tab.const (List.replicate 32 0), chains := Tab.const chainFresh, made := [], nextId := 0, held := Tab.const [], done := Tab.const [] }

/-- No sequence table defined (R178). -/
def kvtFresh : Kvt :=
  { tables := Tab.const { defined := false, destroying := false, heads := 0, d := 0, mode := 0, parts := 0, shard := 0, commit := 0, append := 0,
                          slots := Tab.const { state := 0, root := 0, npages := 0, hstride := 0, commit := 0, refs := 0 }, released := 0 },
    pins := Tab.const none, tsel := 0, errCnt := 0 }

/-- A tile's DVFS at its highest targets (R422). -/
def dvfsFresh : Dvfs :=
  { host := 6, ceil := 6, budget := 6, clkOp := 6, voltOp := 6, goal := 6, gated := false, guard := 0, power := 0, cool := 0, period := 0 }

/-- Power in Run (R422). -/
def pwrFresh : Power :=
  { state := .run, entering := none, entryDt := 0, stage := 0, pendingReq := none, levelWake := none, wake := 0, trip := false, spot := 0, boot := 0,
    avg10 := 0, avg1 := 0, hostLimit := 480, budget := 480, lostWake := 0, entryCnt := 0, cd := Tab.const (0, 0), tiles := Tab.const dvfsFresh }

/-- Quench at its defaults (R413, R414, R418, R422, R423). -/
def qchFresh : Quench :=
  { coolant := 0, fallback := false, plnClk := 0, source := 0, flow := 0, flowValid := false, tOut := 0, tIn := 0, cdT := Tab.const (0, 0), hubT := 0,
    suspect := 0, throtCnt := 0, fcCnt := 0, budCnt := 0, stopCnt := 0, stopDt := 0, gateAll := false, c := 3530, tOutMax := 505, stopRate := 30,
    conf := 0, restoreMs := 1000, diff := Tab.const 0, overSince := none, lastBudEvt := none, outlet := [], okSince := none,
    throttled := Tab.const none, hubStep := none, demand := 0, drained := false, stacksOff := false }

/-- Bring-up before any phase has run (R448); the AON domain holds no list and no map. -/
def buFresh : BringUp :=
  { service := 0, fwver := 0, phase := 0, fast := false, full := false, step := 0, dur := 0, ran := false, warm := false, defects := [],
    overflow := false, retained := false, map := List.replicate 32 none, spares := List.replicate 4 none, rst := none, rstScope := 0, rstIndex := 0,
    rstQueued := none, failCnt := 0, substCnt := 0, rstCnt := 0, fails := [], deferred := [], startReq := none, failUnit := 0 }

/-- A Deluf port that has not trained (R394). -/
def dlfPortFresh : DlfPort :=
  { state := 0, width := 0, lanes := 0, peer := 0, peerPort := 0, mismatch := false, rtyCnt := 0, fecCe := 0, fecUe := 0, txFlits := 0, rxFlits := 0,
    downCnt := 0, expect := 0, nextSeq := 0, nak := none, retry := [], replays := 0, credits := Tab.const 0, ueSec := 0, bad := 0 }

/-- No topology: no destination has a route (R394). -/
def dlfFresh : Dlf :=
  { valid := false, devnum := 0, xM1 := 0, yM1 := 0, partner := 0x3F, barRoot := 0, dl6 := (0, 0), dl7 := (0, 0), suspect := 0, reach := 0,
    rt := Tab.const 0xF, newRt := none, draining := [], rrCnt := 0, rmtTmo := 0, remotes := [], nextTag := 0, sent := [], msgs := [] }

/-- Role NONE; the heartbeat time-out is 1 ms (R387, R394). -/
def pairFresh : Pair :=
  { role := 0, hbTimeout := 1000, hbRx := Tab.const none, peerRole := 0, peerState := 0, lastSend := none, probe := none, join := false,
    verify := false, verified := 0, switches := 0, joinPos := 0, joinMism := 0, switchDt := 0, handover := none, joinRegion := 0, joinOff := 0,
    todo := [], matched := [], sigs := Tab.const 0, mism := 0, unacked := [], rate := 0, joinFrom := 0, invalid := 0 }

/-- The Deluf side of a device just powered (R394). -/
def soFresh : ScaleOut :=
  { dlf := dlfFresh, ports := Tab.const dlfPortFresh, acc := Tab.const { fmt := 0, size := 0, base := 0 }, accAdds := 0,
    bars := Tab.const { defined := false, local_ := 0, ctr := 0, tmask := 0, members := 0, margin := 0, epoch := 0, arrived := 0, root := [],
                        stalled := false },
    late := Tab.const { history := 0, marks := 0 }, pair := pairFresh }

/-- A camera port after reset (R332). -/
def csiFresh : CsiPort :=
  { phy := 0, lanes := 0, scramble := 0, rate := 0, filters := Tab.const 0, configured := false, up := false, openF := Tab.const false, fnum := 0,
    pktCnt := 0, eccCnt := 0, hdrErr := 0, crcErr := 0, filtCnt := 0, noArm := 0, lineLost := 0, frameCnt := 0, lastFs := 0, line := [],
    tapOpen := false, tapLines := [], tapEmb := none, taps := Tab.const { cfg := none, trunc := false, sent := 0 }, trig := false }

/-- An Ethernet MAC after reset (R332). -/
def ethFresh : EthMac :=
  { enable := false, fec := 0, mtu := 0, addr := List.replicate 6 0, pollUs := 0, link := false,
    rxq := Tab.const { on := false, label := 0, base := 0, nslots := 0, slot := 0, kind := 0, value := 0, ltile := 0, ctr := 0, k := 0, head := 0,
                       tail := 0, seq := 0, count := 0 },
    txq := Tab.const { on := false, label := 0, base := 0, nslots := 0, pos := 0, active := false },
    rxFrames := 0, txFrames := 0, fcsErr := 0, rxDrop := 0, drops := 0, dropDt := none, wire := [] }

/-- The tray after reset: flow stalled (R332). -/
def trayFresh : Tray :=
  { slots := Tab.const { conf := List.replicate 16 0, busy := false, lastRd := none, valid := false, fault := false, fails := 0, good := 0, value := 0 },
    configured := false, k := 0, stalled := true, flow := 0, pulseDt := 0, edges := 0, floor := 0, faultCnt := 0 }

/-- Cameras, front end, Ethernet and tray of a device just powered (R332). -/
def senFresh : Sensors :=
  { csi := Tab.const csiFresh, profiles := Tab.const none, capture := none, eth := Tab.const ethFresh, tray := trayFresh }

/-- The islands in RESET, their reset inputs held low (R341), and the hub's mirrors of them (R370). -/
def anvFresh : Safety :=
  { isl := Tab.const (islandFresh false true (Tab.const (none, false))), mirror := Tab.const { regs := [(0, 4, 12582912)], stat := 12582912, cause := 0, dt := 0 } }

/-- The planner after reset (R204). -/
def plnFresh : Planner :=
  { launchEn := false, reqBase := 0, reserve := 0, seq := 0, lastDt := 0, lastReq := 0, lastStat := 0xF, sets := Tab.const none, cycle := none,
    waiting := none, prev := none, e2eSeq := 0, cycCnt := 0, budCnt := 0, rechkCnt := 0, keptCnt := 0, stopCnt := 0, nspCnt := 0, lateCnt := 0,
    outErr := 0 }

/-- The Sieve after reset (R204). -/
def sieFresh : Sieve :=
  { valid := false, voxel := 0, depth := 0, bufs := Tab.const (0, 0), cur := none, curEpoch := 0, pins := Tab.const 0, entries := 0, cand := 0,
    mapErr := 0, pubRej := 0 }

/-- The block right after reset: supplies good, POR_N and PERST_N low, WAKE_N high, every register at its reset value (R426, R452; log
entries 4 and 7). -/
def State.reset : State :=
  { pins := { porN := false, perstN := false, wakeN := true, aonGood := true }, host := hostFresh, fab := fabFresh, time := timeFresh,
    cal := calFresh, tiles := Tab.const tileFresh, kvt := kvtFresh, pwr := pwrFresh, qch := qchFresh, bu := buFresh, so := soFresh, sen := senFresh,
    anv := anvFresh, pln := plnFresh, sie := sieFresh, toIslands := [], free := 0, pending := [] }

end Sys2Proof.Machine
end

