-- ==== Sys2Proof/Machine/Ops.lean ====
section
/-! DEFINITION. The operations every command of the block uses: time, free values, events and interrupts, host memory,
the address map, DRAM and SRAM accesses, mirrored writes. A block has no exception entry: an interrupt or an error
flag is an effect on the state. -/

namespace Sys2Proof.Machine

/-- The outcome of a command. -/
abbrev Out := Host.Outcome State Fault Refusal

/-! Status codes (R300). -/
def stOk : Half := 0x0000
def stRetry : Half := 0x0001
def stBusy : Half := 0x0002
def stDeniedMode : Half := 0x0003
def stNoResource : Half := 0x0004
def stNotDefined : Half := 0x0005
def stStale : Half := 0x0006
def stBadOpcode : Half := 0x0007
def stBadField : Half := 0x0008
def stBadSignature : Half := 0x0009
def stBadSet : Half := 0x000A
def stBadProgram : Half := 0x000B
def stOverridden : Half := 0x000C
def stHostError : Half := 0x000D
def stDecodeError : Half := 0x0010
def stNoRoute : Half := 0x0011
def stTargetReset : Half := 0x0012
def stUncorrectable : Half := 0x0013
def stTileError : Half := 0x0020
def stEngineError : Half := 0x0021
def stAborted : Half := 0x0022

/-! One instance of a kind of state changed. -/
def State.modTile (s : State) (p : Nat) (f : Tile → Tile) : State := { s with tiles := s.tiles.modify p f }
def State.modMbx (s : State) (n : Nat) (f : Mbox → Mbox) : State := { s with host.mbx := s.host.mbx.modify n f }
def State.modDrm (s : State) (d : Nat) (f : Dram → Dram) : State := { s with fab.drm := s.fab.drm.modify d f }
def State.modEdge (s : State) (k : Nat) (f : Edge → Edge) : State := { s with fab.edges := s.fab.edges.modify k f }
def State.modGroup (s : State) (n : Nat) (f : EGroup → EGroup) : State := { s with fab.groups := s.fab.groups.modify n f }
def State.modLdl (s : State) (n : Nat) (f : Ladle → Ladle) : State := { s with fab.ldl := s.fab.ldl.modify n f }
def State.modChain (s : State) (c : Nat) (f : Chain → Chain) : State := { s with cal.chains := s.cal.chains.modify c f }
def State.modTable (s : State) (n : Nat) (f : KvTable → KvTable) : State := { s with kvt.tables := s.kvt.tables.modify n f }
def State.modDvfs (s : State) (p : Nat) (f : Dvfs → Dvfs) : State := { s with pwr.tiles := s.pwr.tiles.modify p f }
def State.modPort (s : State) (p : Nat) (f : DlfPort → DlfPort) : State := { s with so.ports := s.so.ports.modify p f }
def State.modInj (s : State) (i : Nat) (f : Injector → Injector) : State := { s with fab.inj := s.fab.inj.modify i f }
def State.modRegion (s : State) (i : Nat) (f : MirRegion → MirRegion) : State :=
  { s with fab.mir.regions := s.fab.mir.regions.modify i f }

/-- Device time in ns (R208). -/
def State.dt (s : State) : Nat := s.time.dt

/-- Device time advanced to the instant at which a command happens; it never goes back (log entry 2). -/
def State.advance (s : State) (now : Nat) : State :=
  if s.time.dt < now then { s with time.dt := now % 2 ^ 64 } else s

/-- The next free value, as a 64-bit word (log entry 3). -/
def State.freeVal (s : State) : Quad := Config.freeQuad s.free

/-- The state with the next free value taken. -/
def State.took (s : State) : State := { s with free := s.free + 1 }

/-! ### Interrupts (R313) -/

/-- A posted write of the device to host memory: it lands when the link is up and the bus address is one a device address
reaches (R30, R282). -/
def hostPut (s : State) (addr : Nat) (bs : List Byte) (poison : Bool) : State :=
  let m := s.host.mem.write addr bs
  let lo := addr / 8
  let k := (addr + bs.length + 7) / 8 - lo
  let p := if poison then s.host.poison.mark lo k else s.host.poison.unmark lo k
  { s with host.mem := m, host.poison := p }

/-- Whether an access of the device to host memory succeeds: link up, not in D3hot's way, range reachable (R30, R282). -/
def hostReach (s : State) (addr len : Nat) : Bool :=
  s.host.pci.up && decide (addr + len ≤ 0xF00000000000)

/-- Signal MSI-X vector `v`: a message, or its pending bit while the vector is masked (R280, R313). -/
def sendMsix (s : State) (v : Nat) : State :=
  let e := s.host.ints.msix.get v
  if e.masked then { s with host.ints.pba := s.host.ints.pba ||| BitVec.ofNat 64 (2 ^ v) }
  else if hostReach s e.addr 4 then
    let s := hostPut s e.addr (leBytes 4 e.data.toNat) false
    { s with host.ints.sent := s.host.ints.sent.modify v (· + 1) }
  else s

/-- Set HUB_INT_STAT bit `i`; a message goes out when an unmasked bit goes from 0 to 1 (R313). -/
def setInt (s : State) (i : Nat) : State :=
  let was := s.host.ints.stat.toNat
  let s' := { s with host.ints.stat := s.host.ints.stat ||| BitVec.ofNat 32 (2 ^ i) }
  if !bit was i && !bit s.host.ints.mask.toNat i then sendMsix s' i else s'

/-! ### Events (R310–R313) -/

/-- Raise an event: it takes the next sequence number and enters the internal buffer of 256, or is lost and counted (R310,
R311). -/
def raiseEvent (s : State) (code : Nat) (aux : Nat) (pay : List Nat) : State :=
  let e := s.host.evt
  let ev : Event := { code := BitVec.ofNat 16 code, aux := BitVec.ofNat 8 aux, pay := pay.map (BitVec.ofNat 64),
                      dt := s.dt, eseq := e.eseq }
  if e.buf.length < 256 then
    { s with host.evt := { e with buf := e.buf ++ [ev], eseq := e.eseq + 1 } }
  else
    setInt { s with host.evt := { e with eseq := e.eseq + 1, dropCnt := cnt e.dropCnt 1, lost := e.lost + 1 } } 8

/-- A DECODE_ERROR event and its count (R28). -/
def decodeErrorEvent (s : State) (src addr op : Nat) : State :=
  raiseEvent { s with fab.net.decodeErrs := cnt s.fab.net.decodeErrs 1 } 0x0003 src [addr, op]

/-- ORDER_OVERRIDDEN with its count and interrupt (R298, R312, R313). -/
def orderOverridden (s : State) (winner loserOp loser obj : Nat) : State :=
  let s := { s with host.arb.ordOvr := cnt s.host.arb.ordOvr 1 }
  setInt (raiseEvent s 0x0006 winner [loserOp + loser * 2 ^ 16 + obj % 2 ^ 32 * 2 ^ 32]) 7

/-! ### The device address map (R27, R29–R31) -/

/-- What a device address names. -/
inductive Target where
  | dram (die off : Nat)
  | tileSram (p off : Nat)
  | hubSram (off : Nat)
  | ingress (island off : Nat)
  | reg (unit page off : Nat)
  | remote (dev off : Nat)
  | host (bus : Nat)
  | reserved
  deriving DecidableEq, Repr

/-- 24 GiB, the DRAM range of a die. -/
def dieSpan : Nat := 0x600000000
/-- Base of the tile SRAM windows. -/
def tileBase : Nat := 0x4000000000
/-- Base of hub SRAM. -/
def hubBase : Nat := 0x6000000000
/-- Base of the block registers. -/
def regBase : Nat := 0x8000000000
/-- Base of the remote-device windows. -/
def remoteBase : Nat := 0x080000000000
/-- Base of host memory. -/
def hostBase : Nat := 0x100000000000

/-- The SRAM window of physical tile `p` (R16). -/
def tileWindow (p : Nat) : Nat := tileBase + p * 0x1000000

/-- The device address of a register (R29). -/
def regAddr (unit page off : Nat) : Nat := regBase + unit * 0x1000000 + page * 0x10000 + off

/-- The address map of R27. -/
def target (a : Nat) : Target :=
  if a < 4 * dieSpan then .dram (a / dieSpan) (a % dieSpan)
  else if tileBase ≤ a ∧ a < tileBase + 36 * 0x1000000 then
    .tileSram ((a - tileBase) / 0x1000000) ((a - tileBase) % 0x1000000)
  else if hubBase ≤ a ∧ a < hubBase + 0x4000000 then .hubSram (a - hubBase)
  else if 0x7000000000 ≤ a ∧ a < 0x7000010000 then .ingress 0 (a - 0x7000000000)
  else if 0x7001000000 ≤ a ∧ a < 0x7001010000 then .ingress 1 (a - 0x7001000000)
  else if regBase ≤ a ∧ a < regBase + 0x100000000 then
    .reg ((a - regBase) / 0x1000000) ((a - regBase) / 0x10000 % 256) ((a - regBase) % 0x10000)
  else if remoteBase ≤ a ∧ a < remoteBase + 48 * 0x2000000000 then
    .remote ((a - remoteBase) / 0x2000000000) ((a - remoteBase) % 0x2000000000)
  else if hostBase ≤ a ∧ a < 2 ^ 48 then .host (a - hostBase)
  else .reserved

/-- The die of a physical tile (R16). -/
def dieOf (p : Nat) : Nat := p / 9

/-- The channel of a DRAM offset (R235). -/
def dramChannel (o : Nat) : Nat :=
  (field o 13 8) ^^^ (field o 19 14) ^^^ (field o 25 20) ^^^ (field o 31 26)

/-- The offset within its channel (R235). -/
def dramChannelOff (o : Nat) : Nat := field o 34 14 * 256 + field o 7 0

/-! ### Poison and ECC by 32-byte beat (R236, R465) and by 64-bit word (R49) -/

/-- Poison of the 32-byte beats or 8-byte words that a range touches, marked. -/
def markPoison (s : State) (addr len gran : Nat) : State :=
  let lo := addr / gran * (gran / 8)
  let hi := (addr + len + gran - 1) / gran * (gran / 8)
  { s with fab.poison := s.fab.poison.mark lo (hi - lo) }

/-- Poison of the beats or words that a range covers wholly, removed. -/
def clearPoison (s : State) (addr len gran : Nat) : State :=
  let lo := (addr + gran - 1) / gran * (gran / 8)
  let hi := (addr + len) / gran * (gran / 8)
  { s with fab.poison := s.fab.poison.unmark lo (hi - lo) }

/-- Symbol errors of the codewords (32-byte beats, by device address / 32) from `lo`, `k` of them, forgotten. -/
def clearSymbols (s : State) (lo k : Nat) : State :=
  { s with fab.symErr := { s.fab.symErr with cells := s.fab.symErr.cells.filter (fun c => c.1 < lo || lo + k ≤ c.1) } }

/-- A correction by a die's controller (R236, R238). -/
def dramCorrected (s : State) (die ch : Nat) : State :=
  s.modDrm die (fun d => { d with ceCnt := cnt d.ceCnt 1, ceCh := d.ceCh.modify ch (fun n => sat 16 (n + 1)),
                                  ceWin := d.ceWin.modify ch (· + 1) })

/-- DRM_ERR_INFO as a word (R260). -/
def drmErrInfo (d : Dram) : Nat := pack [(8, 0), (8, d.errSrc), (2, d.errKind), (6, d.errChan), (7, 0), (1, b2n d.errValid)]

/-- Capture of a DRAM error, if none is held (R236). -/
def dramCapture (d : Dram) (addr ch kind src : Nat) : Dram :=
  if d.errValid then d else { d with errValid := true, errAddr := addr, errChan := ch, errKind := kind, errSrc := src }

/-- An uncorrectable codeword found by `src` (0xFF the scrubber): counted, captured and reported (R236, R237). -/
def dramUncorrectable (s : State) (die addr ch kind src : Nat) : State :=
  let s := s.modDrm die (fun d => dramCapture { d with ueCnt := cnt d.ueCnt 1 } addr ch kind src)
  raiseEvent s 0x0100 die [addr, drmErrInfo (s.fab.drm.get die)]

/-- The ECC outcome of one codeword read (R236): the state and whether it reads as poison. Three or more symbols in error are
corrected wrongly or detected: which, is a free value. -/
def dramBeat (s : State) (die src beat : Nat) : State × Bool :=
  let addr := beat * 32
  let ch := dramChannel (addr - die * dieSpan)
  if s.fab.poison.hit addr 32 then
    (s.modDrm die (fun d => { d with poisonCnt := cnt d.poisonCnt 1 }), true)
  else
    match s.fab.symErr.get beat with
    | 0 => (s, false)
    | 1 => (clearSymbols (dramCorrected s die ch) beat 1, false)
    | 2 => (dramUncorrectable s die addr ch 0 src, true)
    | _ =>
      if bit s.freeVal.toNat 0 then (dramUncorrectable s.took die addr ch 0 src, true)
      else
        let wrong := leBytes 32 (s.took.freeVal.toNat)
        (clearSymbols (dramCorrected { s.took.took with fab.mem := s.fab.mem.write addr wrong } die ch) beat 1, false)

/-- The beats that `len` bytes from `addr` touch. -/
def beatsOf (addr len : Nat) : List Nat :=
  (List.range ((addr + len + 31) / 32 - addr / 32)).map (addr / 32 + ·)

/-- Bytes of DRAM: those of a range whose contents are undefined are free values (R389). -/
def dramBytes (s : State) (addr len : Nat) : List Byte :=
  let b := s.fab.mem.readN addr len
  if s.fab.lost.any (fun x => decide (x.1 < addr + len ∧ addr < x.2.1)) then
    (List.range len).map (fun i =>
      match s.fab.lost.find? (fun x => decide (x.1 ≤ addr + i ∧ addr + i < x.2.1)) with
      | some x => Config.lostByte x.2.2 (addr + i)
      | none => b.getD i 0)
  else b

/-- Undefined ranges without the bytes [lo, hi). -/
def carve (l : List (Nat × Nat × Nat)) (lo hi : Nat) : List (Nat × Nat × Nat) :=
  (l.map (fun x =>
    if x.1 < hi ∧ lo < x.2.1 then
      (if x.1 < lo then [(x.1, lo, x.2.2)] else []) ++ (if hi < x.2.1 then [(hi, x.2.1, x.2.2)] else [])
    else [x])).flatten

/-- A read of DRAM: bytes and whether they are poisoned. -/
def dramRead (s : State) (src addr len : Nat) : State × List Byte × Bool :=
  let r := (beatsOf addr len).foldl (fun (a : State × Bool) b =>
    let x := dramBeat a.1 (addr / dieSpan) src b
    (x.1, a.2 || x.2)) (s, false)
  (r.1, dramBytes r.1 addr len, r.2)

/-- A write of DRAM with the read-modify-write of partly written beats (R236). -/
def dramWrite (s : State) (src addr : Nat) (bs : List Byte) (poison : Bool) : State × Half :=
  let len := bs.length
  let partly := (beatsOf addr len).filter (fun b => b * 32 < addr || addr + len < b * 32 + 32)
  let r := partly.foldl (fun (a : State × List Nat) b =>
    if a.1.fab.poison.hit (b * 32) 32 then a
    else
      let x := dramBeat a.1 (addr / dieSpan) src b
      (x.1, if x.2 then b :: a.2 else a.2)) (s, [])
  let s := clearSymbols (clearPoison { r.1 with fab.mem := r.1.fab.mem.write addr bs, fab.lost := carve r.1.fab.lost addr (addr + len) } addr len 32)
    ((addr + 31) / 32) ((addr + len) / 32 - (addr + 31) / 32)
  let s := r.2.foldl (fun s b => clearSymbols (markPoison s (b * 32) 32 32) b 1) s
  (if poison then markPoison s addr len 32 else s, stOk)

/-- A read of hub SRAM, which keeps poison marks as DRAM does (R465). -/
def hubRead (s : State) (addr len : Nat) : List Byte × Bool :=
  (s.fab.mem.readN addr len, s.fab.poison.hit (addr / 32 * 32) ((addr + len + 31) / 32 * 32 - addr / 32 * 32))

/-- A write of hub SRAM. -/
def hubWrite (s : State) (addr : Nat) (bs : List Byte) (poison : Bool) : State :=
  let s := clearPoison { s with fab.mem := s.fab.mem.write addr bs } addr bs.length 32
  if poison then markPoison s addr bs.length 32 else s

/-- The 64-bit words of tile SRAM that a range touches, by offset / 8. -/
def wordsOf (off len : Nat) : List Nat := (List.range ((off + len + 7) / 8 - off / 8)).map (off / 8 + ·)

/-- A read of tile `p`'s SRAM (R49): the bytes, whether poison was read, and whether an uncorrectable word was. -/
def sramRead (s : State) (p off len : Nat) : State × List Byte × Bool × Bool :=
  let t := s.tiles.get p
  let es := (wordsOf off len).map t.symErr.get
  let ce := (es.filter (· == 1)).length
  let ue := (es.filter (2 ≤ ·)).length
  let s := if ce + ue = 0 then s else
    s.modTile p (fun t => { t with ceCnt := cnt t.ceCnt ce, ueCnt := cnt t.ueCnt ue,
                                   ueTimes := (List.replicate ue s.dt ++ t.ueTimes).filter (fun x => s.dt < x + 1000000000) })
  (s, s.fab.mem.readN (tileWindow p + off) len, s.fab.poison.hit (tileWindow p + off) len, decide (0 < ue))

/-- Bytes of a range [lo, hi) that another range holds. -/
def meet (lo hi a b : Nat) : Nat := min hi b - max lo a

/-- Consecutive rows that have arrived, from row `rc` on: each advance forgets its slot's count (R133). -/
def lbAdvance : Nat → LineBuf → LineBuf
  | 0, b => b
  | n + 1, b =>
    let slot := b.rc % (b.h + b.k)
    if b.rc < b.rp + b.h + b.k ∧ 0 < b.pitch ∧ b.pitch ≤ b.fill.get slot then lbAdvance n { b with rc := b.rc + 1, fill := b.fill.set slot 0 } else b

/-- Bytes written into a line buffer's slots (R133): they count towards the slot's current row, the one from RP on that maps to it, until
that row has arrived. A row that has arrived ahead of RC keeps its full count. -/
def lbWrite (off len : Nat) (b : LineBuf) : LineBuf :=
  let n := b.h + b.k
  if !b.defined || decide (off + len ≤ b.base) || decide (b.base + n * b.pitch ≤ off) then b
  else
    let b := (List.range n).foldl (fun (b : LineBuf) i =>
      let row := b.rp + i
      let slot := row % n
      let got := meet off (off + len) (b.base + slot * b.pitch) (b.base + slot * b.pitch + b.pitch)
      if got = 0 ∨ row < b.rc ∨ b.pitch ≤ b.fill.get slot then b
      else { b with fill := b.fill.set slot (min b.pitch (b.fill.get slot + got)) }) b
    lbAdvance n b

/-- A write of tile `p`'s SRAM (R49): words wholly written lose poison and errors; a poisoned write marks the words; line buffers count the
bytes, whatever their source (R133). -/
def sramWrite (s : State) (p off : Nat) (bs : List Byte) (poison : Bool) : State :=
  let a := tileWindow p + off
  let s := clearPoison { s with fab.mem := s.fab.mem.write a bs } a bs.length 8
  let lo := (off + 7) / 8
  let hi := (off + bs.length) / 8
  let s := s.modTile p (fun t =>
    { t with symErr := { t.symErr with cells := t.symErr.cells.filter (fun c => c.1 < lo || hi ≤ c.1) },
             lbs := t.lbs.map (lbWrite off bs.length) })
  if poison then markPoison s a bs.length 8 else s

/-! ### Fault injectors (R258, R259) -/

/-- What an injector does to a unit. -/
inductive Injected where
  | drop | corrupt (lane : Nat) (health : Bool) | corruptPayload | reorder
  deriving DecidableEq, Repr

/-- The fields of D2D_FI_i_CFG (R260). -/
def fiClass (c : Nat) : Nat := field c 57 56
def fiIndex (c : Nat) : Nat := field c 55 48
def fiGroup (c : Nat) : Nat := field c 47 45
def fiDir (c : Nat) : Nat := field c 44 44
def fiAction (c : Nat) : Nat := field c 43 40
def fiLane (c : Nat) : Nat := field c 39 32
def fiTrigger (c : Nat) : Nat := field c 31 30
def fiN (c : Nat) : Nat := field c 29 25

/-- Whether an armed injector fires on this unit (R258); a rate trigger takes a free value. -/
def fiFires (s : State) (j : Injector) : Bool :=
  match fiTrigger j.cfg.toNat with
  | 0 => s.freeVal.toNat % 2 ^ fiN j.cfg.toNat == 0
  | 1 => decide (0 < j.left)
  | _ => decide (0 < j.left ∧ j.t ≤ s.dt)

/-- The armed injector of a target acts on a unit (R258, R259): it counts the firing and raises FI_FIRED on the first. -/
def inject (s : State) (cls idx grp dir : Nat) : State × Option Injected :=
  let hit := (List.range 8).find? (fun i =>
    let j := s.fab.inj.get i
    let c := j.cfg.toNat
    j.armed && fiClass c == cls && fiIndex c == idx && fiDir c == dir && (cls != 0 || fiGroup c == grp))
  match hit with
  | none => (s, none)
  | some i =>
    let j := s.fab.inj.get i
    let c := j.cfg.toNat
    let fires := fiFires s j
    let s := if fiTrigger c = 0 then s.took else s
    if !fires then (s, none)
    else
      let s' := s.modInj i (fun j => { j with fired := cnt j.fired 1, left := if fiTrigger c = 0 then j.left else j.left - 1, reported := true })
      let s' := if j.reported then s' else raiseEvent s' 0x010A i [c + 2 ^ 63]
      match fiAction c with
      | 0 => (s', some .drop)
      | 1 =>
        if fiLane c < 64 then (s', some (.corrupt (fiLane c) (bit c 0)))
        else (s'.took, some (.corrupt (s'.freeVal.toNat % 64) (bit c 0)))
      | 2 => (s', some .corruptPayload)
      | _ => (s', some .reorder)

/-! ### Responses (R37, R42, R282) -/

/-- An AER error recorded (R282): 0 Completion Timeout, 1 Unsupported Request, 2 Completer Abort, 3 Poisoned TLP, 4 Uncorrectable Internal. -/
def aer (s : State) (k : Nat) : State := { s with host.pci.aer := s.host.pci.aer ||| BitVec.ofNat 32 (2 ^ k) }

/-- A response sent to the source of a request (R37, R42). A BAR2 read that fails is completed to the host with Completer Abort (R286). -/
def netAnswer (s : State) (r : NetReq) (st : Half) (data : List Byte) (poison : Bool) : State :=
  let x : NetRsp := { src := r.src, tag := r.tag, op := r.op, addr := r.addr, len := r.len, status := st, data := data, poison := poison }
  let s := if r.src.toNat = 0x33 ∧ r.op = 0 ∧ (st = stDecodeError ∨ st = stNoRoute ∨ st = stTargetReset) then aer s 2 else s
  { s with fab.net.rsps := s.fab.net.rsps ++ [x] }

/-! ### Mirrored regions (R239–R241) -/

/-- The first and one past the last address of a mirror region. -/
def MirRegion.range (r : MirRegion) : Nat × Nat := (r.base, r.base + r.size * 0x4000000)

/-- The mirror region of a type that a range meets, by number. -/
def mirrorOf (s : State) (type addr len : Nat) : Option Nat :=
  (List.range 8).find? (fun i =>
    let r := s.fab.mir.regions.get i
    r.type == type && decide (r.range.1 < addr + len ∧ addr < r.range.2))

/-- The mirror port of a 256-byte block (R387): even on DL4, odd on DL5, the other while one is not UP. -/
def mirrorPort (s : State) (addr : Nat) : Nat :=
  let want := 4 + addr / 256 % 2
  let other := 9 - want
  if (s.so.ports.get want).state = 2 then want else if (s.so.ports.get other).state = 2 then other else want

/-- Column and row of a device (R380). -/
def dlfCol (s : State) (n : Nat) : Nat := n % (s.so.dlf.xM1 + 1)
def dlfRow (s : State) (n : Nat) : Nat := n / (s.so.dlf.xM1 + 1)

/-- A hop in a ring of `n` from `at_` in the plus or minus direction, on the way from `start`, lies on or beyond the dateline. -/
def pastDateline (n start at_ : Nat) (plus : Bool) : Bool :=
  if n ≤ 2 then false
  else if plus then decide ((at_ + 1) % n < start) else decide (start < (at_ + n - 1) % n)

/-- The virtual channel of a packet on the hop through a port (R377): 0 and 1 request A and B, 2 and 3 response A and B. Packets without a
response class of their own travel as requests. -/
def dlfVc (s : State) (port : Nat) (k : DlfPacket) : BitVec 2 :=
  let me := s.so.dlf.devnum
  let b := if port < 2 then pastDateline (s.so.dlf.xM1 + 1) (dlfCol s k.src.toNat) (dlfCol s me) (port == 0)
    else if port < 4 then pastDateline (s.so.dlf.yM1 + 1) (dlfRow s k.src.toNat) (dlfRow s me) (port == 2)
    else false
  BitVec.ofNat 2 ((if k.kind = 1 ∨ k.kind = 3 ∨ k.kind = 5 then 2 else 0) + b2n b)

/-- Hand a packet to a Deluf port: it takes the port's next flit and waits there for its acknowledgement (R376–R378). An injector of the
outbound direction may act on the flit, which the retry buffer still holds (R259). -/
def dlfSend (s : State) (port : Nat) (k : DlfPacket) : State :=
  let s := (inject s 2 port 0 0).1
  let p := s.so.ports.get port
  let vc := dlfVc s port k
  let s := s.modPort port (fun q => { q with txFlits := q.txFlits + 1, nextSeq := q.nextSeq + 1,
                                             retry := q.retry ++ [(p.nextSeq, vc, k)] })
  { s with so.dlf.sent := s.so.dlf.sent ++ [(port, k)] }

/-- MIRROR_FAULT (R312): aux region, P0 0 DIVERGED or 1 OFF, P1 address. -/
def mirrorFault (s : State) (region off addr : Nat) : State := raiseEvent s 0x0102 region [off, addr]

/-- A SOURCE region marked DIVERGED (R241). -/
def mirrorDiverged (s : State) (region addr : Nat) : State :=
  mirrorFault (s.modRegion region (fun r => { r with diverged := true })) region 0 addr

/-- The copy of a write to a SOURCE region while its mirroring is ON (R240): it is sent to the partner and pending until it is
acknowledged. The local status makes the region DIVERGED when it is an error (R241). -/
def mirrorCopy (s : State) (r : NetReq) (region : Nat) (status : Half) (w : Waiter) : State :=
  let m := s.fab.mir
  let k : DlfPacket := { kind := 4, src := BitVec.ofNat 8 s.so.dlf.devnum, dst := BitVec.ofNat 8 s.so.dlf.partner,
                         label := r.label, hops := 0, tag := BitVec.ofNat 16 m.nextTag, status := 0, addr := r.addr,
                         len := r.len, master := r.src, data := r.data }
  let s := { s with fab.mir := { m with nextTag := (m.nextTag + 1) % 65536, bytes := m.bytes + r.len,
                                        pend := m.pend ++ [MirCopy.mk region m.nextTag r status s.dt w] } }
  let s := dlfSend s (mirrorPort s r.addr.toNat) k
  if status = stOk then s else mirrorDiverged s region r.addr.toNat

/-! ### Tile presence -/

/-- Whether requests to tile `p` are absorbed (R33, R43, R440, R443): isolated, in reset or in quarantine, or its die
partition is in reset. -/
def tileAbsorbed (s : State) (p : Nat) : Bool :=
  let t := s.tiles.get p
  t.isoEn || t.inReset || t.role == 3 || s.fab.dieReset.get (dieOf p)

/-- Logical tile to physical through a map byte (R65): VACANT has bit 7 set. -/
def lmapPhys (b : Nat) : Option Nat := if bit b 7 then none else some (b % 64)

/-- The physical tile of a logical one in the firmware's map (R216). -/
def physOf (s : State) (l : Nat) : Option Nat := (s.bu.map.getD l none)

/-- The byte of TIL_LMAP for an entry of the map. -/
def lmapByte : Option Nat → Nat
  | none => 0xFF
  | some p => p % 64

/-- Logical number field: 0x3F if none. -/
def logicalField : Option Nat → Nat
  | none => 0x3F
  | some l => l

/-- The master code of mailbox `n` (R299). -/
def masterOfMbx (n : Nat) : Nat := 8 + n

end Sys2Proof.Machine
end

