-- ==== Sys2Proof/Machine/Cerfosil.lean ====
section
/-! DEFINITION. How the firmware takes, decodes, clamps and completes a Cerfosil command (R288–R295, R466). -/

namespace Sys2Proof.Machine

/-- A command as decoded: its channel, opcode, sequence number, own fields, flags and result buffer (R288, R292). -/
structure Cmd where
  ch      : Nat
  op      : Nat
  seq     : Half
  inPtr   : Bool
  outPtr  : Bool
  inLen   : Nat
  outAddr : Nat
  outLen  : Nat
  pay     : List Byte
  clamps  : Nat
  deriving DecidableEq, Repr

/-- What a command answers: status, clamps made on its own fields, inline response, bulk result (R289, R293). -/
structure Reply where
  status : Half
  clamps : Nat
  data   : List Byte
  bulk   : List Byte
  deriving DecidableEq, Repr

/-- A reply without bulk data. -/
def reply (st : Half) (clamps : Nat) (data : List Byte) : Reply := { status := st, clamps := clamps, data := data, bulk := [] }

/-- A numeric field of a command table: offset, size, legal range, alignment. A reserved field has the range 0–0. -/
structure FieldSpec where
  off  : Nat
  size : Nat
  lo   : Nat
  hi   : Nat
  step : Nat
  deriving DecidableEq, Repr

/-- A field with a range. -/
def fr (off size lo hi : Nat) : FieldSpec := ⟨off, size, lo, hi, 1⟩
/-- A field of any value. -/
def fa (off size : Nat) : FieldSpec := ⟨off, size, 0, 256 ^ size - 1, 1⟩
/-- A reserved field. -/
def fz (off size : Nat) : FieldSpec := ⟨off, size, 0, 0, 1⟩
/-- A field rounded down to a multiple. -/
def fm (off size lo hi step : Nat) : FieldSpec := ⟨off, size, lo, hi, step⟩

/-- The legal value nearest to the one sent (R295). -/
def FieldSpec.apply (f : FieldSpec) (v : Nat) : Nat := clampN f.lo f.hi v / f.step * f.step

/-- Fields of a payload clamped: the applied layout and the number of fields changed (R295). A payload shorter than its fields is
extended with zeros first. -/
def clampFields (pay : List Byte) (size : Nat) (fs : List FieldSpec) : List Byte × Nat :=
  fs.foldl (fun (a : List Byte × Nat) f =>
    let v := fld a.1 f.off f.size
    let w := f.apply v
    if v = w then a else (putBytes a.1 f.off (leBytes f.size w), a.2 + 1)) (slice pay 0 size, 0)

/-- The opcodes that some chapter defines (R301). -/
def definedOpcodes : List Nat :=
  [0x0000, 0x0001, 0x0002, 0x0003, 0x0010, 0x0011, 0x0012, 0x0013, 0x0014,
   0x0100, 0x0101, 0x0102, 0x0120, 0x0121, 0x0122, 0x0123, 0x0124, 0x0125] ++
  [0x0200, 0x0201, 0x0202, 0x0203, 0x0208, 0x0209, 0x020A, 0x0210, 0x0211, 0x0212,
   0x0220, 0x0221, 0x0230, 0x0231, 0x0232, 0x0233, 0x0234] ++
  [0x0300, 0x0301, 0x0302, 0x0303, 0x0400, 0x0401, 0x0402, 0x0410, 0x0411, 0x0412, 0x0413, 0x0414, 0x0415, 0x0416] ++
  [0x0500, 0x0501, 0x0502, 0x0503, 0x0600, 0x0601, 0x0602, 0x0603,
   0x0700, 0x0701, 0x0702, 0x0703, 0x0710, 0x0720, 0x0721, 0x0722, 0x0730, 0x0731, 0x0732, 0x0733] ++
  [0x0800, 0x0801, 0x0802, 0x0803, 0x0810, 0x0811, 0x0812, 0x0900, 0x0901, 0x0902, 0x0903, 0x0904]

/-- Whether the running service executes an opcode (R294, R428). An undefined opcode is always answered BAD_OPCODE under the
management firmware (log entry 5). -/
def accepts (s : State) (op : Nat) : Bool :=
  if s.bu.service = 1 then op = 0 || op = 1 || op = 3
  else if s.bu.phase = 2 || !definedOpcodes.contains op then true
  else op / 256 = 0 || op / 256 = 8 || (0x0230 ≤ op && op ≤ 0x0234) || (0x0400 ≤ op && op ≤ 0x0402)

/-- Decode of the header and the pointer block (R288, R292, R295): the command, or HOST_ERROR where its payload cannot be read
from the host. `bufOk`: the host completes accesses to the buffers; `extra`: clamps of reserved header fields. -/
def decodeCmd (s : State) (ch op : Nat) (r : Request) (bufOk : Bool) (extra : Nat) : Cmd × Bool :=
  let fl := r.flags.toNat
  let inP := bit fl 0
  let outP := bit fl 1
  let c0 := extra + (if 4 ≤ fl then 1 else 0) + (if 240 < r.length.toNat then 1 else 0)
  let len := min r.length.toNat 240
  if inP || outP then
    let c1 := c0 + (if inP && decide (32 < len) then 1 else 0)
    let blk := clampFields (slice r.payload 0 (min len 32)) 32
      [if inP then fm 0 8 0 (2 ^ 64 - 1) 64 else fz 0 8, if inP then fr 8 4 1 67108864 else fz 8 4, fz 12 4,
       if outP then fm 16 8 0 (2 ^ 64 - 1) 64 else fz 16 8, if outP then fr 24 4 64 67108928 else fz 24 4, fz 28 4]
    let inA := fld blk.1 0 8
    let inL := fld blk.1 8 4
    let okRead := bufOk && hostReach s inA inL && !s.host.poison.hit inA inL
    let pay := if inP then s.host.mem.readN inA inL else slice (r.payload.drop 32) 0 (len - 32)
    ({ ch := ch, op := op, seq := r.seq, inPtr := inP, outPtr := outP, inLen := inL, outAddr := fld blk.1 16 8,
       outLen := fld blk.1 24 4, pay := pay, clamps := c1 + blk.2 }, !inP || okRead)
  else
    ({ ch := ch, op := op, seq := r.seq, inPtr := false, outPtr := false, inLen := len, outAddr := 0, outLen := 0,
       pay := slice r.payload 0 len, clamps := c0 }, true)

/-- The 256 bytes of a response (R289). -/
def responseBytes (op : Nat) (seq status : Half) (clamps : Nat) (data : List Byte) : List Byte :=
  slice (leBytes 2 op ++ leBytes 2 seq.toNat ++ leBytes 2 status.toNat ++ leBytes 2 (min clamps 65535) ++
    leBytes 4 (min data.length 240) ++ leBytes 4 0 ++ data.take 240) 0 256

/-- The completion record (R293). -/
def completionRecord (c : Cmd) (status : Half) (n : Nat) : List Byte :=
  slice (leBytes 2 c.op ++ leBytes 2 c.seq.toNat ++ leBytes 2 status.toNat ++ leBytes 2 c.ch ++ leBytes 4 n) 0 64

/-- The commands that write a bulk result; the others ignore out_ptr (R292). -/
def bulkOps : List Nat := [0x0011, 0x0012, 0x0100, 0x0203, 0x0703, 0x0904]

/-- Completion in the order of R291: bulk data, completion record, response, done and busy, HUB_INT_STAT bit n. -/
def completeCmd (s : State) (c : Cmd) (bufOk : Bool) (r : Reply) : State :=
  let n := min r.bulk.length (c.outLen - 64)
  let out := c.outPtr && bulkOps.contains c.op
  let okOut := bufOk && hostReach s c.outAddr (64 + n)
  let status := if out && !okOut then stHostError else r.status
  let s := if out && okOut then
      let s := if n = 0 then s else hostPut s (c.outAddr + 64) (r.bulk.take n) false
      hostPut s c.outAddr (completionRecord c status n) false
    else s
  let clamps := c.clamps + r.clamps
  let s := s.modMbx c.ch (fun m =>
    { m with rsp := responseBytes c.op c.seq status clamps r.data, seq := c.seq, done := true, busy := false,
             cmdCnt := (m.cmdCnt + 1) % 4294967296, clampCnt := cnt m.clampCnt clamps })
  setInt s c.ch

/-- A command taken from channel `ch` and executed by the running service (R291–R295, R428). With no service running no command
is taken, and nothing happens. -/
def runCmd (s : State) (ch op : Nat) (r : Request) (extra : Nat) (f : State → Cmd → State × Reply) : State :=
  if s.bu.service = 0 then s
  else
    let bufOk := (s.host.mbx.get ch).bufOk
    let d := decodeCmd s ch op r bufOk extra
    if !accepts s op then completeCmd s { d.1 with clamps := 0 } bufOk (reply stBusy 0 [])
    else if !definedOpcodes.contains op then
      completeCmd s { d.1 with clamps := 0, outPtr := false } bufOk (reply stBadOpcode 0 [])
    else if !d.2 then completeCmd s d.1 bufOk (reply stHostError 0 [])
    else
      let x := f s d.1
      completeCmd x.1 d.1 bufOk x.2

/-- A command that may complete later: without a reply its channel stays busy (R290, R291). -/
def runCmdLater (s : State) (ch op : Nat) (r : Request) (extra : Nat) (f : State → Cmd → State × Option Reply) : State :=
  if s.bu.service = 0 then s
  else
    let bufOk := (s.host.mbx.get ch).bufOk
    let d := decodeCmd s ch op r bufOk extra
    if !accepts s op then completeCmd s { d.1 with clamps := 0 } bufOk (reply stBusy 0 [])
    else if !d.2 then completeCmd s d.1 bufOk (reply stHostError 0 [])
    else
      let x := f s d.1
      match x.2 with
      | some y => completeCmd x.1 d.1 bufOk y
      | none => x.1.modMbx ch (fun m => { m with busy := true, done := false })

/-- The request held in a channel's internal buffer: opcode, request, clamps of its reserved header fields (R288, R295). -/
def bufferedRequest (m : Mbox) : Nat × Request × Nat :=
  (fld m.inBuf 0 2,
   { seq := BitVec.ofNat 16 (fld m.inBuf 2 2), flags := BitVec.ofNat 16 (fld m.inBuf 4 2),
     length := BitVec.ofNat 32 (fld m.inBuf 8 4), payload := m.inBuf.drop 16 },
   (if fld m.inBuf 6 2 = 0 then 0 else 1) + (if fld m.inBuf 12 4 = 0 then 0 else 1))

/-- A running command as decoded: the clamps of its header's reserved fields count where its channel's buffer still holds it. -/
def runningCmd (s : State) (ch op : Nat) (r : Request) : Cmd :=
  let m := s.host.mbx.get ch
  let b := bufferedRequest m
  (decodeCmd s ch op r m.bufOk (if b.1 = op ∧ b.2.1 = r then b.2.2 else 0)).1

/-- The completion of a command that was left running; one that a function level reset has aborted has no channel, and completes
internally (R283). -/
def finishCmd (s : State) (ch op : Nat) (r : Request) (y : Reply) : State :=
  if ch < 4 then
    let bufOk := (s.host.mbx.get ch).bufOk
    completeCmd s (runningCmd s ch op r) bufOk y
  else s

/-- MBX_SEND (R290): what the host placed in its memory, then the write of go. While busy the write is ignored and counted. -/
def mbxSend (s : State) (ch : Nat) (ws : List (Nat × List Byte)) (bufOk : Bool) : State :=
  let s := ws.foldl (fun s w => hostPut s w.1 w.2 false) s
  let m := s.host.mbx.get ch
  if m.busy then s.modMbx ch (fun m => { m with sendLost := cnt m.sendLost 1 })
  else s.modMbx ch (fun m => { m with inBuf := m.req, busy := true, done := false, sent := true, bufOk := bufOk })

end Sys2Proof.Machine
end

