-- ==== Sys2Proof/Machine/Page.lean ====
section
/-! DEFINITION. Register pages as lists of registers, so that a read and a query response come from one table (R11, R14,
R29, R466). -/

namespace Sys2Proof.Machine

/-- A register of a page: offset, size in bytes, value. -/
structure Reg where
  off  : Nat
  size : Nat
  val  : Nat
  deriving DecidableEq, Repr

/-- A 32-bit register. -/
def r4 (off val : Nat) : Reg := ⟨off, 4, val % 2 ^ 32⟩
/-- A 64-bit register. -/
def r8 (off val : Nat) : Reg := ⟨off, 8, val % 2 ^ 64⟩

/-- The registers' values in the order given, each at its width (R466). -/
def regBytes (l : List Reg) : List Byte := (l.map (fun r => leBytes r.size r.val)).flatten

/-- One aligned 32-bit word of a page: 0 where no register lies (R14, R29). -/
def pageWord (l : List Reg) (off : Nat) : Nat :=
  match l.find? (fun r => r.off ≤ off && off < r.off + r.size) with
  | some r => r.val / 2 ^ (8 * (off - r.off)) % 2 ^ 32
  | none => 0

/-- A 32-bit or 64-bit read of a page. -/
def pageRead (l : List Reg) (off size : Nat) : Nat :=
  if size = 8 then pageWord l off + 2 ^ 32 * pageWord l (off + 4) else pageWord l off

/-- Registers for the indices below `n`. -/
def regsFor (n : Nat) (f : Nat → List Reg) : List Reg := ((List.range n).map f).flatten

end Sys2Proof.Machine
end

