-- ==== Sys2Proof/Machine/Qos.lean ====
section
/-! DEFINITION. Routes between dies and the bandwidth regulator Bellows (R250–R256). -/

namespace Sys2Proof.Machine

/-! ### Routes (R38, R250) -/

/-- The node of a source identifier: its die, or 4 for the hub (R37). -/
def nodeOfSrc (src : Nat) : Nat := if src < 36 then src / 9 else 4

/-- Index of an ordered pair of nodes in D2D_RT (R250). -/
def pairIndex (s t : Nat) : Nat := 4 * s + (if t < s then t else t - 1)

/-- The code of a pair in a route table. -/
def routeCode (rt s t : Nat) : Nat := field rt (2 * pairIndex s t + 1) (2 * pairIndex s t)

/-- The nodes a request passes from `s` to `t` under a code; none where there is no route (R250). -/
def routeNodes (s t code : Nat) : Option (List Nat) :=
  if s = t then some [s]
  else if s = 4 then
    match code with
    | 0 => some [4, t] | 1 => some [4, (t + 1) % 4, t] | 2 => some [4, (t + 3) % 4, t] | _ => none
  else if t = 4 then
    match code with
    | 0 => some [s, 4] | 1 => some [s, (s + 1) % 4, 4] | 2 => some [s, (s + 3) % 4, 4] | _ => none
  else if t = (s + 2) % 4 then
    match code with
    | 0 => some [s, 4, t] | 1 => some [s, (s + 1) % 4, t] | 2 => some [s, (s + 3) % 4, t] | _ => none
  else
    match code with
    | 0 => some [s, t] | 1 => some [s, 4, t] | _ => none

/-- The edge and its direction from node `a` to an adjacent node `b` (R256). -/
def hopEdge (a b : Nat) : Nat × Nat :=
  if a = 4 then (b, 0) else if b = 4 then (a, 1)
  else if b = (a + 1) % 4 then (4 + a, 0) else (4 + b, 1)

/-- The edges and directions along a list of nodes. -/
def hopsOf : List Nat → List (Nat × Nat)
  | a :: b :: r => hopEdge a b :: hopsOf (b :: r)
  | _ => []

/-- The edges of the path from `s` to `t` under a table; none where there is no route. -/
def pathEdges (rt s t : Nat) : Option (List (Nat × Nat)) := (routeNodes s t (routeCode rt s t)).map hopsOf

/-- The edge an index names is UP (R246). -/
def edgeUp (s : State) (k : Nat) : Bool := (s.fab.edges.get k).state == 2

/-- The number of a lane group of an edge in a direction. -/
def groupNo (k dir g : Nat) : Nat := (k * 2 + dir) * 8 + g

/-! ### Capacities and loads (R254, R256) -/

/-- Capacity of regulation point `p` in bytes per µs (R256, R382). -/
def qosCapacity (s : State) (p : Nat) : Nat :=
  if p < 4 then (if (s.fab.drm.get p).cap50 then 1740000 else 3480000)
  else if p < 20 then
    let k := (p - 4) / 2
    if (s.fab.edges.get k).state = 3 then 0
    else (List.range 8).foldl (fun a g => a + 116500 * (s.fab.groups.get (groupNo k ((p - 4) % 2) g)).width) 0
  else if p = 20 then 1600000
  else if p = 21 then
    let q := s.host.pci
    if q.up then 100000 * q.width.toNat / 8 / 2 ^ (6 - q.rate.toNat) else 0
  else
    403000 * ((List.range 8).foldl (fun a i =>
      let d := s.so.ports.get i
      a + (if d.state = 2 then d.width else 0)) 0) / 16

/-- The fields of a guarantee entry (R254, R260). -/
def qgValid (e : Nat) : Bool := bit e 63
def qgDir (e : Nat) : Nat := field e 59 58
def qgLabel (e : Nat) : Nat := field e 55 52
def qgTarget (e : Nat) : Nat := field e 51 48
def qgMaster (e : Nat) : Nat := field e 47 40
def qgBytes (e : Nat) : Nat := field e 31 0

/-- The class of a label (R252). -/
def qosClass (classes : Word) (label : Nat) : Nat := field classes.toNat (2 * label + 1) (2 * label)

/-- The regulation points that an entry's data crosses, in the direction the data flows (R256). -/
def entryPoints (rt e : Nat) : List Nat :=
  let m := nodeOfSrc (qgMaster e)
  let t := if qgTarget e < 4 then qgTarget e else 4
  let hops := (pathEdges rt m t).getD []
  let fwd := hops.map (fun h => 4 + 2 * h.1 + h.2)
  let back := hops.map (fun h => 4 + 2 * h.1 + (1 - h.2))
  let endp := if qgTarget e < 4 then [qgTarget e] else if qgTarget e = 4 then [20] else if qgTarget e = 5 then [21] else [22]
  (match qgDir e with
   | 0 => back
   | 1 => fwd
   | _ => fwd ++ back) ++ endp

/-- Real-time ceilings and guaranteed minimums committed at a point (R256). -/
def pointLoads (rt : Nat) (classes : Word) (entries : Tab Quad) (p : Nat) : Nat × Nat :=
  (List.range 64).foldl (fun (a : Nat × Nat) n =>
    let e := (entries.get n).toNat
    if qgValid e && (entryPoints rt e).contains p then
      match qosClass classes (qgLabel e) with
      | 2 => (a.1 + qgBytes e, a.2)
      | 1 => (a.1, a.2 + qgBytes e)
      | _ => a
    else a) (0, 0)

/-- An entry's minimum as scaled at a point (R256). -/
def scaledMin (cap ceil mins bytes : Nat) : Nat :=
  if ceil + mins ≤ cap then bytes else if cap ≤ ceil then 0 else bytes * (cap - ceil) / mins

/-- Bellows recomputes the committed loads, the breaches and the effective minimums (R256). -/
def qosRecompute (s : State) : State :=
  let q := s.fab.qos
  let rt := s.fab.routes.rt
  let loads := (List.range 23).map (fun p => (pointLoads rt q.classes q.entries p, qosCapacity s p))
  let eff := (List.range 64).foldl (fun (t : Tab Nat) n =>
    let e := (q.entries.get n).toNat
    if qgValid e && qosClass q.classes (qgLabel e) == 1 then
      t.set n ((entryPoints rt e).foldl (fun a p =>
        match loads[p]? with
        | some ((c, m), cap) => min a (scaledMin cap c m (qgBytes e))
        | none => a) (qgBytes e))
    else t.set n 0) q.eff
  let committed := (List.range 23).foldl (fun (t : Tab Nat) p =>
    match loads[p]? with
    | some ((c, m), _) => t.set p (c + m)
    | none => t) q.committed
  let s := { s with fab.qos := { q with eff := eff, committed := committed } }
  (List.range 23).foldl (fun s p =>
    match loads[p]? with
    | none => s
    | some ((c, m), cap) =>
      let load := c + m
      let was := bit s.fab.qos.breach p
      if cap < load && !was then
        raiseEvent { s with fab.qos.breach := s.fab.qos.breach + 2 ^ p, fab.qos.breachCnt := cnt s.fab.qos.breachCnt 1 }
          0x0108 p [cap % 2 ^ 32 * 2 ^ 32 + load % 2 ^ 32]
      else if load ≤ cap && was then
        raiseEvent { s with fab.qos.breach := s.fab.qos.breach - 2 ^ p } 0x0109 p [cap % 2 ^ 32 * 2 ^ 32 + load % 2 ^ 32]
      else s) s

/-- The entry of the table that regulates a master, label, target and direction (R254). -/
def qosEntryFor (s : State) (src label tgt : Nat) (write : Bool) : Option Nat :=
  (List.range 64).find? (fun n =>
    let e := (s.fab.qos.entries.get n).toNat
    qgValid e && qgMaster e == src && qgLabel e == label && qgTarget e == tgt &&
      (qgDir e == 2 || (qgDir e == 1) == write))

/-- The guarantee target of a device address (R254), if it has one. -/
def qosTarget : Target → Option Nat
  | .dram d _ => some d
  | .hubSram _ => some 4
  | .host _ => some 5
  | .remote _ _ => some 6
  | _ => none

/-- Whether Bellows lets a request pass in this window (R255): a real-time request whose entry has reached its ceiling waits. -/
def qosEligible (s : State) (r : NetReq) : Bool :=
  match qosTarget (target r.addr.toNat) with
  | none => true
  | some t =>
    if qosClass s.fab.qos.classes r.label.toNat = 2 then
      match qosEntryFor s r.src.toNat r.label.toNat t (r.op == 1) with
      | some n =>
        let c := qgBytes (s.fab.qos.entries.get n).toNat
        c == 0 || decide (s.fab.qos.used.get n < c)
      | none => true
    else true

/-- The bytes of a request charged to its source and its entry (R253). -/
def qosCharge (s : State) (r : NetReq) : State :=
  let s := { s with fab.qos.mBytes := s.fab.qos.mBytes.modify r.src.toNat (· + r.len) }
  match qosTarget (target r.addr.toNat) with
  | none => s
  | some t =>
    match qosEntryFor s r.src.toNat r.label.toNat t (r.op == 1) with
    | some n => { s with fab.qos.used := s.fab.qos.used.modify n (· + r.len) }
    | none => s

/-- The start of a 1 µs window (R253, R255, R256): the windows that ended short are counted, a changed table is taken into use. -/
def qosWindow (s : State) : State :=
  let q := s.fab.qos
  let waits := fun (n : Nat) => s.fab.net.inflight.any (fun r =>
    match qosTarget (target r.addr.toNat) with
    | some t => qosEntryFor s r.src.toNat r.label.toNat t (r.op == 1) == some n
    | none => false)
  let short := (List.range 64).foldl (fun (t : Tab Nat) n =>
    if waits n && decide (q.used.get n < q.eff.get n) then t.modify n (cnt · 1) else t) q.short
  let s := { s with fab.qos := { q with short := short, used := Tab.const 0, window := s.dt / 1000 } }
  match q.newTab with
  | none => qosRecompute s
  | some (cl, es) =>
    qosRecompute { s with fab.qos := { s.fab.qos with
      classes := cl, configured := true, newTab := none, entries := es.foldl (fun t e => t.set e.1 e.2) q.entries } }

/-- Class map with each reserved class taken as the nearest legal one, and the fields changed (R295). -/
def clampClasses (m : Nat) : Nat × Nat :=
  (List.range 16).foldl (fun (a : Nat × Nat) l =>
    let c := field m (2 * l + 1) (2 * l)
    (a.1 + min c 2 * 4 ^ l, a.2 + (if c = 3 then 1 else 0))) (0, 0)

/-- A guarantee entry with its fields clamped (R295). -/
def clampEntry (e : Nat) : Nat × Nat :=
  let d := field e 59 58
  let t := field e 51 48
  (pack [(32, qgBytes e), (8, 0), (8, qgMaster e), (4, min t 6), (4, qgLabel e), (2, 0), (2, min d 2), (3, 0), (1, b2n (qgValid e))],
   (if d = 3 then 1 else 0) + (if 6 < t then 1 else 0) + (if field e 39 32 = 0 then 0 else 1) +
   (if field e 57 56 = 0 then 0 else 1) + (if field e 62 60 = 0 then 0 else 1))

/-- QOS_CONFIG (R255, R261). -/
def cmdQosConfig (s : State) (c : Cmd) : State × Reply :=
  let h := clampFields c.pay 8 [fa 0 4, fr 4 1 0 63, fr 5 1 0 27, fz 6 2]
  let cm := clampClasses (fld h.1 0 4)
  let first := fld h.1 4 1
  let count := min (fld h.1 5 1) (64 - first)
  let es := (List.range count).map (fun i => (first + i, clampEntry (fld c.pay (8 + 8 * i) 8)))
  let clamps := h.2 + cm.2 + (if count = fld h.1 5 1 then 0 else 1) + (es.map (fun e => e.2.2)).sum
  let new := es.map (fun e => (e.1, BitVec.ofNat 64 e.2.1))
  let base := match s.fab.qos.newTab with
    | some (_, l) => l
    | none => []
  let s' := { s with fab.qos.newTab := some (BitVec.ofNat 32 cm.1, base ++ new) }
  let tbl := (base ++ new).foldl (fun t e => t.set e.1 e.2) s.fab.qos.entries
  let breach := maskOf 23 (fun p =>
    let l := pointLoads s.fab.routes.rt (BitVec.ofNat 32 cm.1) tbl p
    decide (qosCapacity s p < l.1 + l.2))
  (s', reply stOk clamps (leBytes 4 cm.1 ++ leBytes 1 first ++ leBytes 1 count ++ leBytes 2 0 ++
    (new.map (fun e => leBytes 8 e.2.toNat)).flatten ++ leBytes 8 (roundUp (s.dt + 1) 1000) ++ leBytes 4 breach))

/-- Page 0x40 of unit 0x00 (R260). -/
def pageQos (s : State) : List Reg :=
  let q := s.fab.qos
  [r4 0x000 0, r4 0x004 (pack [(23, q.breach), (8, 0), (1, b2n q.configured)]), r4 0x008 q.classes.toNat, r4 0x00C q.breachCnt] ++
  regsFor 64 (fun n => [r8 (0x100 + 8 * n) (q.entries.get n).toNat]) ++
  regsFor 64 (fun n => [r4 (0x300 + 4 * n) (q.short.get n)]) ++
  regsFor 23 (fun p => [r8 (0x400 + 8 * p) (qosCapacity s p % 2 ^ 32 * 2 ^ 32 + q.committed.get p % 2 ^ 32)]) ++
  regsFor 64 (fun m => [r8 (0x600 + 8 * m) (q.mBytes.get m)])

/-- QOS_QUERY (R261): QOS_STAT, QOS_CLASS and every QOS_PT_p. -/
def cmdQosQuery (s : State) (_ : Cmd) : State × Reply :=
  (s, reply stOk 0 (regBytes ((pageQos s).filter (fun r => r.off = 4 || r.off = 8 || (0x400 ≤ r.off && r.off < 0x4B8)))))

/-- QOS_CTRL.cnt_clr (R260). -/
def qosCntClr (s : State) : State :=
  { s with fab.qos := { s.fab.qos with breachCnt := 0, short := Tab.const 0, mBytes := Tab.const 0 } }

end Sys2Proof.Machine
end

