-- ==== Sys2Proof/Machine/Power.lean ====
section
/-! DEFINITION. DVFS, Quench, the power states and wake events, and their commands (chapter 15). -/

namespace Sys2Proof.Machine

/-! ### DVFS (R405–R407, R421) -/

/-- Frequency of an operating point in kHz, before the guard band (R405). -/
def opKhz (k : Nat) : Nat := (1000 + 200 * k) * 1000
/-- Maximum power of an operating point, in 0.1 W (R405). -/
def opPower (k : Nat) : Nat := [20, 28, 36, 48, 60, 74, 90].getD k 90

/-- Frequency a tile runs at, in kHz (R421). -/
def tileKhz (s : State) (p : Nat) : Nat :=
  let d := s.pwr.tiles.get p
  opKhz d.clkOp * (1000 - d.guard) / 1000

/-- The point that the host target, the Quench ceiling and the budget ceiling allow (R406). -/
def Dvfs.target (d : Dvfs) : Nat := min d.host (min d.ceil d.budget)

/-- Whether a transition is in progress (R407). -/
def Dvfs.trans (d : Dvfs) : Bool := d.clkOp != d.goal || d.voltOp != d.goal

/-- A new target: taken at once, or once the step in progress completes (R407). -/
def Dvfs.retarget (d : Dvfs) : Dvfs := if d.trans then d else { d with goal := d.target }

/-- A tile's points changed and its transition begun (R406, R407); the monitor makes no comparison in this window (R267). -/
def retarget (s : State) (p : Nat) (f : Dvfs → Dvfs) : State :=
  let d := f (s.pwr.tiles.get p)
  let s' := { s with pwr.tiles := s.pwr.tiles.set p d.retarget }
  if d.target = (s.pwr.tiles.get p).goal then s' else { s' with fab.clk := s'.fab.clk.modify p (fun c => { c with changed := true }) }

/-- The regulator reports the new voltage (R407): the voltage half of the step completes when it is its turn. -/
def dvfsVoltage (s : State) (p : Nat) : State :=
  let d := s.pwr.tiles.get p
  if d.voltOp ≠ d.goal ∧ (d.voltOp < d.goal ∨ d.clkOp ≤ d.goal) then
    let d := { d with voltOp := d.goal }
    { s with pwr.tiles := s.pwr.tiles.set p (if d.trans then d else { d with goal := d.target }) }
  else s

/-- The clock generator reports the new frequency (R407). -/
def dvfsClock (s : State) (p : Nat) : State :=
  let d := s.pwr.tiles.get p
  if d.clkOp ≠ d.goal ∧ (d.goal < d.clkOp ∨ d.goal ≤ d.voltOp) then
    let d := { d with clkOp := d.goal }
    { s with
      pwr.tiles := s.pwr.tiles.set p (if d.trans then d else { d with goal := d.target }), fab.clk := s.fab.clk.modify p (fun c => { c with changed := true }) }
  else s

/-- ARITH_GATE of a tile (R47): raised by the coolant-stop response on every tile, or by R409 on one. -/
def setGate (s : State) (p : Nat) : State :=
  s.modTile p (fun t => { t with arithGate := s.qch.gateAll || (s.pwr.tiles.get p).gated })

/-! ### Forecast (R227, R411) -/

/-- Thermal resistance of a tile in mK/W, within its trim range (R411). -/
def theta (p : Nat) : Nat := clampN 3500 4500 (Config.thetaTrim p)

/-- Coolant inlet temperature in °C × 64 as Quench uses it (R413). -/
def coolantIn (s : State) : Int := if s.qch.fallback then 45 * 64 else s.qch.tIn

/-- A target's estimated power at point `k` in 1/16 W, from `pw` mW at its host point (R411). -/
def estPower (d : Dvfs) (pw k : Nat) : Nat := pw * opPower k * 16 / (opPower d.host * 1000)

/-- The estimates of R411 hold at point `k` for the targets. The local coolant temperature is taken as the inlet
temperature (DESIGN CHOICE, log entry 12). -/
def forecastFits (s : State) (ts : List Nat) (pw k : Nat) : Bool :=
  let present := (ts.map (fun p => (s.pwr.tiles.get p).power)).sum
  let est := (ts.map (fun p => estPower (s.pwr.tiles.get p) pw k)).sum
  decide (s.pwr.avg1 - present + est ≤ s.pwr.budget * 16) &&
  ts.all (fun p => decide (coolantIn s * 1000 * 16 + (64 * (estPower (s.pwr.tiles.get p) pw k) * theta p : Nat) ≤ 100 * 64 * 1000 * 16))

/-- Quench pre-limits the targets of a launch (R411): their ceilings go to the highest point at which the estimates hold. -/
def forecast (s : State) (ts : List Nat) (pw : Nat) : State :=
  if pw = 0 ∨ ts = [] then s
  else
    let best := ((List.range 7).filter (forecastFits s ts pw)).foldl max 0
    if ts.any (fun p => decide (best < (s.pwr.tiles.get p).ceil)) then
      let s := { s with qch.fcCnt := cnt s.qch.fcCnt 1 }
      ts.foldl (fun s p => retarget s p (fun d => { d with ceil := min d.ceil best, cool := 0 })) s
    else s

/-! ### Wake and power states (R400–R404) -/

/-- The clock domains that a power state stops (R400). -/
def stoppedDomain (st : PwrState) (k : Nat) : Bool :=
  match st with
  | .run => false
  | .idle => k < 36 || k == 66 || k == 67
  | .sleep => k < 64 || k == 66 || k == 67 || (74 ≤ k && k < 98)
  | .deep => k != 72
  | .off => k != 72

/-- Nominal frequency of a domain in kHz (R263). -/
def nominalKhz (s : State) (k : Nat) : Nat :=
  if k < 36 then tileKhz s k else if k < 40 then 2000000 else if k < 64 then 1000000
  else if k = 64 then (if s.qch.stacksOff then 500000 else 2000000)
  else if k = 65 then (if s.qch.stacksOff then 375000 else 1500000)
  else if k = 66 then [1600000, 1200000, 800000, 400000].getD s.qch.plnClk 1600000
  else if k < 70 then 1000000 else if k < 72 then 200000 else if k = 72 then 32 else if k = 73 then 100000
  else if k < 86 then 375000 else if k < 90 then 390625 else 875000

/-- Every monitored domain put in or out of service (R267, R279, R400). -/
def setClocks (s : State) (st : PwrState) : State :=
  { s with fab.clk := (List.range 98).foldl (fun t k =>
      t.modify k (fun c =>
        if stoppedDomain st k then { c with state := 0, freq := 0 }
        else if c.state = 0 then { c with state := 2, changed := true } else c)) s.fab.clk }

/-- POWER_STATE (R424): new state and wake cause. -/
def powerEvent (s : State) (st cause : Nat) : State := raiseEvent s 0x0900 st [cause]

/-- The number of a power state, as PWR_STATE_SET names it (R423). -/
def PwrState.num : PwrState → Nat
  | .run => 0 | .idle => 1 | .sleep => 2 | .deep => 3 | .off => 4

/-- Every stack into or out of self-refresh (R400, R416). -/
def stacksSelfref (s : State) (on : Bool) : State :=
  (List.range 4).foldl (fun s d => s.modDrm d (fun x => { x with selfref := on })) s

/-- The device is back in Run (R403). The time base, stopped in Deep sleep, counts again and its servo enters ACQUIRE (R400). -/
def backToRun (s : State) (cause : Nat) : State :=
  let deep := s.pwr.state == .deep
  let s := if s.pwr.state == .sleep || deep then (if s.qch.stacksOff then s else stacksSelfref s false) else s
  let s := if deep then
      { s with
        time.counting := true, time.state := (if s.time.src = 0 then 0 else 1), time.good := 0, time.bad := 0, host.pci.up := true }
    else s
  let s := setClocks { s with pwr.state := .run, pwr.stage := 0, pwr.wake := cause, pwr.levelWake := none } .run
  powerEvent s 0 cause

/-- A wake event (R402): `level` or edge, its cause code, and whether it wakes from the state. In the entry window a level event
is held and an edge event is lost and counted; otherwise the staged return begins. -/
def wakeEvent (s : State) (level : Bool) (cause : Nat) (wakes : PwrState → Bool) : State :=
  match s.pwr.entering with
  | some st =>
    if !wakes st then s
    else if level then { s with pwr.levelWake := some cause }
    else
      let s := { s with pwr.lostWake := cnt s.pwr.lostWake 1 }
      raiseEvent s 0x0901 0 [s.pwr.lostWake]
  | none =>
    if s.pwr.state = .run || s.pwr.state = .off || !wakes s.pwr.state || s.pwr.stage ≠ 0 then s
    else if s.pwr.state = .idle then backToRun s cause
    else { s with pwr.stage := 1, pwr.wake := cause }

/-- A launch strobe that the calendar holds (R402). -/
def wakeStrobe (s : State) : State := wakeEvent s true 3 (· == .idle)
/-- A request held at a stopped tile or engine, or a word visible in a CSI_RX queue (R402). -/
def wakeInbound (s : State) : State := wakeEvent s true 4 (· == .idle)
/-- A write of MBX_n_SEND (R402). -/
def wakeMailbox (s : State) : State := wakeEvent s false 2 (fun st => st == .idle || st == .sleep)
/-- A BAR2 access (R402). -/
def wakeBar2 (s : State) : State := wakeEvent s false 5 (· == .idle)

/-- Entry into a requested power state begins (R401, R404): only from Run, with no entry in progress. -/
def powerEntry (s : State) : State :=
  match s.pwr.pendingReq with
  | some st =>
    if s.pwr.state = .run ∧ s.pwr.entering = none then
      { s with pwr.pendingReq := none, pwr.entering := some st, pwr.entryDt := s.dt, pwr.levelWake := none }
    else s
  | none => s

/-- The entry window in ns: three cycles of the 32.768 kHz AON clock (R402). -/
def entryWindow : Nat := 3 * 1000000000 / 32768

/-- The end of the entry window for the states but Off (R402–R404): abandoned on a level wake event, else the state is entered. -/
def entryEnd (s : State) (st : PwrState) : State :=
  match s.pwr.levelWake with
  | some c => { s with pwr.entering := none, pwr.levelWake := none, pwr.wake := c }
  | none =>
    let s := { s with pwr.entering := none, pwr.state := st, pwr.entryCnt := cnt s.pwr.entryCnt 1 }
    let s := if st = .sleep ∨ st = .deep then stacksSelfref s true else s
    let s := if st = .deep then { s with host.pci.up := false, time.counting := false } else s
    powerEvent (setClocks s st) st.num 0

/-- The next stage of the return to Run is ready (R403). -/
def returnStage (s : State) : State :=
  if s.pwr.stage = 0 then s
  else if s.pwr.stage < 4 then
    let s := if s.pwr.stage = 2 ∧ !s.qch.stacksOff then stacksSelfref s false else s
    { s with pwr.stage := s.pwr.stage + 1 }
  else backToRun s s.pwr.wake

/-! ### Coolant (R413–R418) -/

/-- Cooling power in 1/1000 W: flow in mL/min, c in J/(L·K), temperatures in °C × 64 (R413). -/
def coolPower (q c : Nat) (tOutMax10 : Nat) (tIn : Int) : Nat :=
  let dT : Int := (tOutMax10 : Int) * 64 - tIn * 10
  if dT ≤ 0 then 0 else q * c * dT.toNat / (60 * 640)

/-- The effective budget B in W (R413, R414). -/
def budgetOf (s : State) : Nat :=
  if !s.qch.flowValid ∨ s.qch.coolant = 2 then 150
  else min 480 (min s.pwr.hostLimit (coolPower s.qch.flow s.qch.c s.qch.tOutMax (coolantIn s) / 1000))

/-- The coolant state a flow calls for, with 0.05 L/min of hysteresis on the way up (R414). -/
def coolantState (old q : Nat) : Nat :=
  if q < 600 ∨ (old = 2 ∧ q < 650) then 2
  else if q < 1000 ∨ (old = 1 ∧ q < 1050) ∨ (old = 2 ∧ q < 1050) then 1 else 0

/-- The demand of Quench on COOL_DEMAND (R414). -/
def quenchDemand (s : State) : Nat :=
  if s.qch.coolant = 0 then min 1024 (256 + 768 * s.pwr.avg10 / (480 * 16)) else 1024

/-- The coolant readings brought to effect: flow, state and budget (R413, R414). -/
def coolantUpdate (s : State) (q : Nat) (valid : Bool) (src : Nat) : State :=
  let old := s.qch.coolant
  let st := if old = 3 then 3 else if valid then coolantState old q else old
  let s := { s with qch.flow := q, qch.flowValid := valid, qch.source := src, qch.coolant := st }
  let s := { s with pwr.budget := budgetOf s }
  let s := { s with qch.demand := quenchDemand s }
  if st = old then s
  else if st = 1 then raiseEvent s 0x0910 0 [q, s.pwr.budget]
  else if st = 2 then raiseEvent s 0x0911 0 [q, s.pwr.budget]
  else s

/-- The coolant-stop response, steps 1 to 3 of R416: gate, ceilings, COOLANT_STOP, safe-state requests. The planner's end of cycle
(R417) reads `gateAll`. -/
def coolantStop (s : State) (cause : Nat) : State :=
  if s.qch.coolant = 3 then s
  else
    let s := { s with
      qch.coolant := 3, qch.gateAll := true, qch.stopCnt := cnt s.qch.stopCnt 1, qch.stopDt := s.dt, qch.drained := false, qch.okSince := none }
    let s := raiseEvent s 0x0912 cause [s.pwr.avg1 / 16]
    let s := (List.range 36).foldl (fun s p => setGate (retarget s p (fun d => { d with ceil := 0, cool := 0 })) p) s
    let s := { s with qch.demand := quenchDemand s, pwr.budget := budgetOf s }
    { s with toIslands := s.toIslands ++ [(0, .safeRequest), (1, .safeRequest)] }

/-- PARTNER_FAILING to the pair partner on a pair port (R388). -/
def sendPartnerFailing (s : State) : State :=
  dlfSend s 4 { kind := 11, src := BitVec.ofNat 8 s.so.dlf.devnum, dst := BitVec.ofNat 8 s.so.dlf.partner, label := 0, hops := 0,
                tag := 0, status := 0, addr := 0, len := 0, master := 2, data := [] }

/-- The end of the drain of a coolant stop, steps 4 to 6 of R416: when no copy is pending, or after 10 ms. -/
def coolantDrain (s : State) : State :=
  if s.qch.coolant = 3 ∧ !s.qch.drained ∧ (s.fab.mir.pend = [] ∨ s.qch.stopDt + 10000000 ≤ s.dt) then
    let rs := (s.fab.mir.pend.map (·.region)).eraseDups
    let s := rs.foldl (fun s r => mirrorDiverged s r (s.fab.mir.regions.get r).base) s
    let s := if s.so.pair.role = 1 then let s := sendPartnerFailing s; { s with so.pair.role := 4 } else s
    let s := stacksSelfref s true
    { s with qch.drained := true, qch.stacksOff := true, qch.plnClk := 3 }
  else s

/-- Whether the conditions of R418 hold now. -/
def restoreOk (s : State) : Bool :=
  s.qch.flowValid && decide (1000 ≤ s.qch.flow) && (List.range 4).all (fun d => decide ((s.qch.cdT.get d).1 ≤ 6400)) &&
  (match s.qch.outlet with
   | [(t1, a), (t0, b)] => decide (t1 ≤ t0 ∨ (a - b) * 1000000000 * 10 ≤ (s.qch.stopRate : Int) * 64 * ((t1 - t0 : Nat) : Int))
   | _ => true)

/-- Watches how long the restore conditions have held (R418). -/
def restoreWatch (s : State) : State :=
  if s.qch.coolant ≠ 3 then s
  else if restoreOk s then (if s.qch.okSince = none then { s with qch.okSince := some s.dt } else s)
  else { s with qch.okSince := none }

/-- The coolant is restored (R418): the response reverses and COOLANT_RESTORED reports the stop's length. -/
def coolantRestore (s : State) : State :=
  match s.qch.okSince with
  | some t =>
    if s.qch.coolant = 3 ∧ s.qch.drained ∧ t + s.qch.restoreMs * 1000000 ≤ s.dt then
      let s := { s with
        qch.stacksOff := false, qch.plnClk := 0, qch.gateAll := false, qch.drained := false, qch.okSince := none, qch.coolant := coolantState 0 s.qch.flow }
      let s := if s.pwr.state = .sleep then s else stacksSelfref s false
      let s := (List.range 36).foldl setGate s
      let s := { s with pwr.budget := budgetOf s }
      let s := { s with qch.demand := quenchDemand s }
      raiseEvent s 0x0913 0 [(s.dt - s.qch.stopDt) / 1000000]
    else s
  | none => s

/-! ### The Quench sample (R399, R408–R410) -/

/-- THERM_THROTTLE, at most once per hot spot per 100 ms (R409). -/
def throttleEvent (s : State) (h ceil : Nat) (gated : Bool) : State :=
  let ok := match s.qch.throttled.get h with
    | some t => decide (t + 100000000 ≤ s.dt)
    | none => true
  if ok then raiseEvent { s with qch.throttled := s.qch.throttled.set h (some s.dt) } 0x0921 h [ceil + 16 * b2n gated] else s

/-- One hot spot's pair of readings: SUSPECT after three samples more than 6 °C apart; the value used (R408). -/
def pairSample (s : State) (h : Nat) (a b : Half) : State × Int :=
  let x := a.toInt
  let y := b.toInt
  let n := if 384 < (x - y).natAbs then s.qch.diff.get h + 1 else 0
  let was := bit s.qch.suspect.toNat h
  let s := { s with qch.diff := s.qch.diff.set h n }
  let s := if 3 ≤ n ∧ !was then
      raiseEvent { s with qch.suspect := s.qch.suspect ||| BitVec.ofNat 64 (2 ^ h) } 0x0920 h [a.toNat + b.toNat * 65536]
    else s
  let s := if h < 36 then s.modTile h (fun t => { t with therm := (a, b) }) else s
  (s, if was || 3 ≤ n then max x y + 192 else max x y)

/-- A tile's ceiling after a sample (R409). -/
def tileSample (s : State) (p : Nat) (t : Int) : State :=
  let d := s.pwr.tiles.get p
  if 6400 < t then
    let s := if d.ceil = 0 then s else
      throttleEvent (retarget { s with qch.throtCnt := cnt s.qch.throtCnt 1 } p (fun d => { d with ceil := d.ceil - 1, cool := 0 }))
        p (d.ceil - 1) d.gated
    if 6720 ≤ t ∧ d.clkOp = 0 ∧ !d.gated then
      throttleEvent (setGate (s.modDvfs p (fun d => { d with gated := true, cool := 0 })) p) p (s.pwr.tiles.get p).ceil true
    else s.modDvfs p (fun d => { d with cool := 0 })
  else
    let s := if d.gated then setGate (s.modDvfs p (fun d => { d with gated := false })) p else s
    if t ≤ 6208 then
      if d.cool + 1 = 40 then
        if s.qch.coolant = 3 then s.modDvfs p (fun d => { d with cool := 0 })
        else
          let up := decide (s.pwr.avg10 ≤ s.pwr.budget * 16)
          retarget s p (fun d => { d with ceil := min 6 (d.ceil + 1), budget := if up then min 6 (d.budget + 1) else d.budget, cool := 0 })
      else s.modDvfs p (fun d => { d with cool := d.cool + 1 })
    else s.modDvfs p (fun d => { d with cool := 0 })

/-- The planner clock after a sample of the hub's hot spots (R409). -/
def hubSample (s : State) (t : Int) : State :=
  let since : Nat → Bool := fun w => match s.qch.hubStep with
    | some x => decide (x + w ≤ s.dt)
    | none => true
  let s := { s with qch.hubT := t }
  if s.qch.coolant = 3 ∧ s.qch.drained then s
  else if 6400 < t ∧ s.qch.plnClk < 2 ∧ since 10000000 then
    throttleEvent { s with qch.plnClk := s.qch.plnClk + 1, qch.hubStep := some s.dt } 44 (s.qch.plnClk + 1) false
  else if t ≤ 6208 ∧ 0 < s.qch.plnClk ∧ since 100000000 then
    { s with qch.plnClk := s.qch.plnClk - 1, qch.hubStep := some s.dt }
  else s

/-- A stack's refresh and cap after a sample of its die (R410). -/
def stackSample (s : State) (d : Nat) (t : Int) : State :=
  s.modDrm d (fun x => { x with
    doubled := if 5760 ≤ t then true else if t ≤ 5568 then false else x.doubled,
    cap50 := if 6272 ≤ t then true else if t ≤ 6080 then false else x.cap50 })

/-- A tile put among others, longest period first, a tie keeping its place. -/
def insertPeriod (x : Nat × Nat) : List (Nat × Nat) → List (Nat × Nat)
  | [] => [x]
  | y :: r => if y.2 < x.2 then x :: y :: r else y :: insertPeriod x r

/-- The tiles in the order in which the budget lowers them: longest nominal period of their last launch first (R399). -/
def budgetOrder (s : State) : List Nat :=
  (((List.range 36).map (fun p => (p, (s.pwr.tiles.get p).period))).foldl (fun l x => insertPeriod x l) []).map (·.1)

/-- One round of budget reductions (R399): one point per tile, until the estimate is within the budget. -/
def budgetRound (s : State) (est : Nat) : State :=
  ((budgetOrder s).foldl (fun (a : State × Nat) p =>
    let d := a.1.pwr.tiles.get p
    if a.2 ≤ a.1.pwr.budget * 16 ∨ d.target = 0 then a
    else
      let k := d.target
      let save := d.power - d.power * opPower (k - 1) / opPower k
      (retarget { a.1 with qch.budCnt := cnt a.1.qch.budCnt 1 } p (fun d => { d with budget := k - 1 }), a.2 - save)) (s, est)).1

/-- The budget check of a sample (R399). -/
def budgetSample (s : State) : State :=
  let exceeds := decide (s.pwr.budget * 16 < s.pwr.avg1)
  let since := if exceeds then some (s.qch.overSince.getD s.dt) else none
  let s := { s with qch.overSince := since }
  let long := match since with
    | some t => decide (t + 10000000 < s.dt)
    | none => false
  if (long && decide (s.pwr.budget * 16 < s.pwr.avg10)) || decide (580 * 16 < s.pwr.avg1) then
    let s := budgetRound s (if long then s.pwr.avg10 else s.pwr.avg1)
    let fresh := match s.qch.lastBudEvt with
      | some t => decide (t + 1000000000 ≤ s.dt)
      | none => true
    if fresh then raiseEvent { s with qch.lastBudEvt := some s.dt } 0x0922 0 [s.pwr.budget, s.pwr.avg10 / 16] else s
  else s

/-- A Quench sample (R408): readings taken, then the actions of R409, R410 and R399. -/
def quenchSample (s : State) (r : QuenchReadings) : State :=
  let s := { s with pwr.avg1 := sat 16 r.avg1, pwr.avg10 := sat 16 r.avg10 }
  let s := (List.range 36).foldl (fun s p => s.modDvfs p (fun d => { d with power := ((r.tiles[p]?).map BitVec.toNat).getD d.power })) s
  let s := (List.range 4).foldl (fun s d =>
    match r.dies[d]? with
    | some (i, w) => { s with pwr.cd := s.pwr.cd.set d (i.toNat, w.toNat) }
    | none => s) s
  let x := (List.range 48).foldl (fun (a : State × List Int) h =>
    let v := pairSample a.1 h ((r.temps[h]?).getD (0, 0)).1 ((r.temps[h]?).getD (0, 0)).2
    (v.1, a.2 ++ [v.2])) (s, [])
  let used := fun (h : Nat) => (x.2[h]?).getD 0
  let s := x.1
  let dieT := fun (d : Nat) => (List.range 9).foldl (fun m i => max m (used (9 * d + i))) (used (36 + d))
  let s := (List.range 4).foldl (fun s d => { s with qch.cdT := s.qch.cdT.set d (dieT d, used (40 + d)) }) s
  let s := (List.range 36).foldl (fun s p => tileSample s p (used p)) s
  let s := hubSample s ((List.range 4).foldl (fun m i => max m (used (44 + i))) (used 44))
  let caps := (List.range 4).map (fun d => (s.fab.drm.get d).cap50)
  let s := (List.range 4).foldl (fun s d => stackSample s d (dieT d)) s
  let s := if (List.range 4).map (fun d => (s.fab.drm.get d).cap50) = caps then s else qosRecompute s
  let s := { s with qch.demand := quenchDemand s }
  restoreWatch (budgetSample s)

/-! ### Registers and commands (R422, R423) -/

/-- PWR_TILE_p (R422). -/
def pwrTileReg (s : State) (p : Nat) : Nat :=
  let d := s.pwr.tiles.get p
  pack [(8, d.power), (8, d.guard), (2, 0), (1, b2n d.gated), (1, b2n d.trans), (4, d.clkOp), (4, min d.ceil d.budget), (4, d.host)]

/-- Page 0x90 of unit 0x00 (R422). -/
def pagePwr (s : State) : List Reg :=
  let w := s.pwr
  [r4 0x000 (pack [(16, 0), (4, w.wake), (6, 0), (1, b2n (s.qch.coolant = 3)), (1, b2n s.qch.gateAll),
                   (1, b2n w.entering.isSome), (3, min w.state.num 2)]),
   r4 0x004 0, r4 0x008 (pack [(2, w.boot), (14, 0), (6, w.spot), (9, 0), (1, b2n w.trip)]),
   r4 0x00C (w.avg1 + w.avg10 * 65536), r4 0x010 (w.budget + w.hostLimit * 65536), r4 0x014 w.lostWake, r4 0x018 w.entryCnt] ++
  regsFor 36 (fun p => [r4 (0x100 + 4 * p) (pwrTileReg s p)]) ++
  regsFor 4 (fun d => [r4 (0x200 + 4 * d) ((w.cd.get d).2 + (w.cd.get d).1 * 65536)])

/-- Page 0x91 of unit 0x00 (R422). -/
def pageQch (s : State) : List Reg :=
  let q := s.qch
  [r4 0x000 (pack [(27, 0), (2, q.plnClk), (1, b2n q.fallback), (2, q.coolant)]),
   r4 0x008 (pack [(16, q.flow), (1, q.source)]), r4 0x00C (uint 16 q.tIn + uint 16 q.tOut * 65536)] ++
  regsFor 4 (fun d => [r4 (0x010 + 4 * d) (uint 16 (q.cdT.get d).2 + uint 16 (q.cdT.get d).1 * 65536)]) ++
  [r4 0x020 (uint 16 q.hubT), r8 0x028 q.suspect.toNat, r4 0x030 q.throtCnt, r4 0x034 q.fcCnt, r4 0x038 q.budCnt,
   r4 0x03C q.stopCnt, r8 0x040 q.stopDt]

/-- PWR_CTRL.cnt_clr (R422). -/
def pwrCntClr (s : State) : State :=
  { s with pwr.lostWake := 0, pwr.entryCnt := 0, qch.throtCnt := 0, qch.fcCnt := 0, qch.budCnt := 0, qch.stopCnt := 0 }

/-- The state a number of PWR_STATE_SET names. -/
def pwrOfNum : Nat → PwrState
  | 1 => .idle | 2 => .sleep | 3 => .deep | _ => .off

/-- Whether a requested state is refused (R401). `ch`: the commanding mailbox. -/
def pwrRefused (s : State) (ch n : Nat) : Bool :=
  if n = 1 then false
  else if n = 4 then s.so.pair.role == 1 || s.so.pair.role == 2
  else
    (List.range 8).any (fun c => (s.cal.chains.get c).state != .idle) || s.so.pair.role != 0 || s.fab.hdma.busy ||
    (List.range 4).any (fun m => m != ch && (s.host.mbx.get m).busy)

/-- PWR_STATE_SET (R401, R423). -/
def cmdPwrStateSet (s : State) (c : Cmd) : State × Reply :=
  let f := clampFields c.pay 1 [fr 0 1 1 4]
  let n := fld f.1 0 1
  if pwrRefused s c.ch n then (s, reply stBusy f.2 [])
  else ({ s with pwr.pendingReq := some (pwrOfNum n) }, reply stOk f.2 (leBytes 1 n))

/-- DVFS_SET (R406, R423): host target of the logical tiles of the mask that are not VACANT. -/
def cmdDvfsSet (s : State) (c : Cmd) : State × Reply :=
  let f := clampFields c.pay 5 [fa 0 4, fr 4 1 0 6]
  let k := fld f.1 4 1
  let ls := (bitsOf (fld f.1 0 4) 32).filter (fun l => (physOf s l).isSome)
  let s := ls.foldl (fun s l => match physOf s l with
    | some p => retarget s p (fun d => { d with host := k })
    | none => s) s
  let pts := (List.range 32).map (fun l => if ls.contains l then
      (match physOf s l with
       | some p => (s.pwr.tiles.get p).clkOp
       | none => 0) else 0)
  (s, reply stOk f.2 (leBytes 4 (maskOf 32 ls.contains) ++ (pts.map (leBytes 4 ·)).flatten))

/-- POWER_LIMIT (R413, R423). -/
def cmdPowerLimit (s : State) (c : Cmd) : State × Reply :=
  let f := clampFields c.pay 2 [fr 0 2 150 480]
  let s := { s with pwr.hostLimit := fld f.1 0 2 }
  let s := { s with pwr.budget := budgetOf s }
  (s, reply stOk f.2 (leBytes 4 s.pwr.hostLimit ++ leBytes 4 s.pwr.budget))

/-- THERMAL_CONFIG (R413, R423). -/
def cmdThermalConfig (s : State) (c : Cmd) : State × Reply :=
  let f := clampFields c.pay 8 [fr 0 2 3000 4200, fr 2 2 300 600, fr 4 1 10 100, fr 5 1 0 2, fr 6 2 1000 60000]
  ({ s with qch := { s.qch with
      c := fld f.1 0 2, tOutMax := fld f.1 2 2, stopRate := fld f.1 4 1, conf := fld f.1 5 1, restoreMs := fld f.1 6 2 } },
   reply stOk f.2 f.1)

/-- THERMAL_QUERY (R423): pages 0x90 and 0x91, as far as the inline response reaches. -/
def cmdThermalQuery (s : State) (_ : Cmd) : State × Reply :=
  let b := regBytes (pagePwr s) ++ regBytes (pageQch s)
  (s, { status := stOk, clamps := 0, data := b, bulk := b })

end Sys2Proof.Machine
end

