-- ==== Sys2Proof/Machine/Calendar.lean ====
section
/-! DEFINITION. The time base, its servo and the launch calendar (chapter 08). Accepting a launch at its target is in
Launch.lean. -/

namespace Sys2Proof.Machine

/-! ### Chains in general -/

/-- A chain is not IDLE (R231 chains_running). -/
def chainsRunning (s : State) : Bool := (List.range 8).any (fun c => (s.cal.chains.get c).state != .idle)

/-! ### Servo (R208–R212) -/

/-- A servo event: TIME_LOCK 0, TIME_UNLOCK 1, TIME_HOLDOVER 2, TIME_FAULT 3 (R312). -/
def servoEvent (s : State) (k : Nat) : State := raiseEvent s (0x0400 + k) s.time.state [uint 64 s.time.offset]

/-- The servo enters a state; leaving LOCKED is reported and counted (R211). -/
def servoEnter (s : State) (st : Nat) : State :=
  let was := s.time.state
  let s := { s with time.state := st, time.good := 0, time.bad := 0 }
  if was = 2 ∧ st ≠ 2 then servoEvent { s with time.unlockCnt := cnt s.time.unlockCnt 1 } 1 else s

/-- The average of the last 64 rates, at which TIM_RATE freezes (R211). -/
def avgRate (t : TimeBase) : Int := if t.rates = [] then t.rate else t.rates.sum / (t.rates.length : Int)

/-- The servo frozen in HOLDOVER or FAULT (R211). -/
def servoFreeze (s : State) (st : Nat) : State :=
  let s := servoEnter s st
  servoEvent { s with time.rate := avgRate s.time } (if st = 3 then 2 else 3)

/-- The servo slews: the manual gives the loop's clamp and not its gains, so the new rate is a free value within ±500 ppm (R208, R211;
log entry 6). -/
def servoSlew (s : State) : State :=
  let r := clampI (-2147484) 2147484 (s.freeVal.toInt)
  { s.took with time.rate := r, time.rates := (r :: s.time.rates).take 64 }

/-- DT stepped by −offset in one cycle (R211): offset in 2⁻¹⁶ ns. -/
def servoStep (s : State) : State :=
  let x : Int := ((s.time.dt * 2 ^ 48 + s.time.frac : Nat) : Int) - s.time.offset * 2 ^ 32
  let y := (max 0 x).toNat % 2 ^ 112
  { s with time.dt := y / 2 ^ 48, time.frac := y % 2 ^ 48, time.stepCnt := cnt s.time.stepCnt 1 }

/-- FAULT ends when no chain runs (R211). -/
def servoIdleCheck (s : State) : State := if s.time.state = 4 ∧ !chainsRunning s then servoEnter s 1 else s

/-- A sample in ACQUIRE or LOCKED (R211): counts of good and bad, step or slew, lock and unlock. -/
def servoSample (s : State) : State :=
  let off := s.time.offset
  let run := chainsRunning s
  let good := decide (off.natAbs ≤ 50 * 65536)
  let bad := decide (500 * 65536 < off.natAbs)
  let s := { s with time.good := if good then min 255 (s.time.good + 1) else 0, time.bad := if bad then s.time.bad + 1 else 0 }
  let far := decide (s.time.stepThr * 65536 < off.natAbs)
  let s := { s with time.stepInhibit := run && far && s.time.state == 1 }
  let s := if s.time.state = 1 ∧ far ∧ !run then servoStep s else servoSlew s
  if s.time.state = 1 ∧ 16 ≤ s.time.good then
    let g := s.time.good
    servoEvent { s with time.state := 2, time.good := g, time.bad := 0 } 0
  else if s.time.state = 2 ∧ 4 ≤ s.time.bad then servoEnter s 1
  else s

/-- A time sample (R210, R211): offset is DT minus the source time, in 2⁻¹⁶ ns. -/
def timeSample (s : State) (offset : Int) : State :=
  if s.time.src = 0 then s
  else
    let run := chainsRunning s
    let wild := decide (1000000 * 65536 < offset.natAbs) && run
    let s := { s with
      time.offset := offset, time.sampleCnt := cnt s.time.sampleCnt 1, time.lastSample := s.dt, time.srcReject := wild }
    if s.time.state = 4 then (if run then s else servoEnter s 1)
    else if wild then servoFreeze s 4
    else if s.time.state = 3 then servoSample (servoEnter s 1)
    else if s.time.state = 0 then servoSample (servoEnter s 1)
    else servoSample s

/-- The sample interval of the selected source in ns (R210). -/
def sampleInterval (t : TimeBase) : Nat :=
  if t.src = 1 then 1000000000 / 2 ^ (-t.syncLog).toNat else if t.src = 2 then 1000000 else 100000

/-- No sample for 8 intervals in ACQUIRE or LOCKED: HOLDOVER (R211). -/
def sampleTimeout (s : State) : State :=
  if (s.time.state = 1 ∨ s.time.state = 2) ∧ s.time.lastSample + 8 * sampleInterval s.time ≤ s.dt then servoFreeze s 3 else s

/-- One cycle of the time base: DT advances by 1 ns plus the servo correction (R208), to 48 fractional bits. -/
def timeTick (s : State) : State :=
  if s.time.counting then
    let x : Int := ((s.time.dt * 2 ^ 48 + s.time.frac : Nat) : Int) + 2 ^ 48 + s.time.rate * 2 ^ 16
    let y := x.toNat % 2 ^ 112
    { s with time.dt := y / 2 ^ 48, time.frac := y % 2 ^ 48 }
  else s

/-! ### Entries and ranges (R214, R217) -/

/-- The fields of an entry (R214). -/
def ceTmask (e : List Byte) : Nat := fld e 0 4
def ceOffset (e : List Byte) : Nat := fld e 4 4
def ceValid (e : List Byte) : Bool := bit (fld e 8 2) 4
def ceSeqBits (e : List Byte) : Nat := field (fld e 8 2) 9 5
def ceEngine (e : List Byte) : Nat := field (fld e 8 2) 11 10
def ceLabel (e : List Byte) : Nat := field (fld e 8 2) 15 12
def ceProg (e : List Byte) : Nat := fld e 10 2
def ceDeadline (e : List Byte) : Nat := fld e 12 4
def cePower (e : List Byte) : Nat := fld e 16 2
def ceDur (e : List Byte) : Nat := fld e 20 2
def ceTag (e : List Byte) : Nat := fld e 24 4

/-- The launches of a range with their effective offsets, in index order, and how many were adjusted (R217). -/
def effOffsets (entries : Tab (List Byte)) (first count pmin : Nat) : List (Nat × Nat) × Nat :=
  let r := (List.range count).foldl (fun (a : List (Nat × Nat) × Nat × Nat) i =>
    let e := entries.get (first + i)
    if ceValid e then
      let o := min (pmin - 1) (max (ceOffset e) a.2.1)
      (a.1 ++ [(first + i, o)], o, a.2.2 + (if o = ceOffset e then 0 else 1))
    else a) ([], 0, 0)
  (r.1, r.2.2)

/-- Grid point G(n) of a chain (R217). -/
def Chain.grid (c : Chain) (n : Nat) : Nat := c.start + n * c.nominal

/-- Launches of a chain made and not complete. -/
def chainOpen (s : State) (c : Nat) : Bool := s.cal.made.any (fun m => m.chain == c)

/-- A chain with nothing left to wait for becomes IDLE (R230); a FAULT of the servo may then end (R211). -/
def chainSettle (s : State) (c : Nat) : State :=
  let ch := s.cal.chains.get c
  let ends := ch.state = .stopping ∨ (ch.state = .running ∧ ch.runCount ≠ 0 ∧ ch.runCount ≤ ch.spent)
  let s := if ends ∧ ch.toMake = [] ∧ !chainOpen s c then s.modChain c (fun x => { x with state := .idle }) else s
  servoIdleCheck s

/-! ### Period starts (R216–R220, R226) -/

/-- The pair role, or a handover under way, keeps this device's chains from launching (R386, R390). -/
def roleSilent (s : State) : Bool := decide (2 ≤ s.so.pair.role) || s.so.pair.handover.isSome

/-- The start of period n, or the period re-gridded to under skip_en (R218, R220): index, start, first skipped index. -/
def nextPeriod (c : Chain) : Nat × Nat × Option Nat :=
  match c.n with
  | none => (0, c.start, none)
  | some n =>
    let a := max (c.grid (n + 1)) (max (c.at_ + c.min) c.w)
    if c.skipEn && decide (c.grid (n + 1) + c.maxLag < a) then
      let k := (a - c.start + c.nominal - 1) / c.nominal
      if n + 1 < k then (k, c.grid k, some (n + 1)) else (n + 1, a, none)
    else (n + 1, a, none)

/-- Late-period events and counts at a period start (R226). -/
def lateEvents (s : State) (c n lag : Nat) : State :=
  let ch := s.cal.chains.get c
  if 0 < lag then
    let s' := s.modChain c (fun x => { x with
      lateCnt := cnt x.lateCnt 1, lateRun := x.lateRun + 1, lateMax := max x.lateMax lag, maxLagSeen := sat 32 (max x.maxLagSeen lag) })
    if ch.lateRun = 0 then raiseEvent s' 0x0410 c [n, sat 32 lag] else s'
  else if 0 < ch.lateRun then
    raiseEvent (s.modChain c (fun x => { x with lateRun := 0, lateMax := 0 })) 0x0411 c
      [n, sat 32 ch.lateMax * 2 ^ 32 + ch.lateRun % 2 ^ 32]
  else s

/-- A period starts (R216–R220, R223, R226, R229, R386): all work of the one before complete, its start time come, run_count not
reached. Otherwise nothing happens. -/
def periodStart (s : State) (c : Nat) : State :=
  let ch := s.cal.chains.get c
  let live := ch.state = .waiting ∨ ch.state = .running
  let x := nextPeriod ch
  let n := x.1
  if live ∧ ch.toMake = [] ∧ !chainOpen s c ∧ x.2.1 ≤ s.dt then
    let s := match x.2.2 with
      | some f => raiseEvent (s.modChain c (fun y => { y with skipCnt := cnt y.skipCnt (n - f) })) 0x0412 c [f, n - 1]
      | none => s
    let spent := ch.spent + (match x.2.2 with
      | some f => n - f
      | none => 0)
    if ch.runCount ≠ 0 ∧ ch.runCount ≤ spent then
      chainSettle (s.modChain c (fun y => { y with spent := spent })) c
    else
      let rng := match ch.swap with
        | some (k, f, m) => if k ≤ n then (f, m, none) else (ch.first, ch.count, ch.swap)
        | none => (ch.first, ch.count, none)
      let a := x.2.1
      let lag := a - ch.grid n
      let silent := roleSilent s
      let work := if silent then [] else (effOffsets s.cal.entries rng.1 rng.2.1 ch.min).1
      let s := s.modChain c (fun y => { y with
        state := .running, first := rng.1, count := rng.2.1, swap := rng.2.2, n := some n, at_ := a, w := a,
        toMake := work, ran := y.ran + 1, spent := spent + 1, map := s.bu.map, lag := sat 32 lag })
      let s := { s with tiles := s.tiles.map (fun t => { t with heldOff := t.heldOff.filter (· != c) }) }
      let s := if silent then s else lateEvents s c n lag
      chainSettle s c
  else s

/-! ### Launches (R215, R216, R221, R222) -/

/-- A tile takes no strobe of chain `c`: in reset, its partition in reset, in quarantine (R222), or returned within the chain's
period (R443). -/
def tileUnlaunchable (s : State) (c p : Nat) : Bool := tileAbsorbed s p || (s.tiles.get p).heldOff.contains c

/-- LAUNCH_ERROR (R225, R312). -/
def launchError (s : State) (m : Made) (st : Half) (tgt : Nat) : State :=
  let ident := if tgt < 36 then tgt else if tgt = 36 then 0x31 else if tgt = 37 then 0x34 else 0x32
  raiseEvent (s.modChain m.chain (fun c => { c with errCnt := cnt c.errCnt 1 })) 0x0414 m.chain
    [m.idx % 2 ^ 32 + st.toNat * 2 ^ 32 + ident * 2 ^ 48, m.tag.toNat * 2 ^ 32 + m.entry % 4096 * 2 ^ 20]

/-- A launch whose last target has completed (R218, R224, R225, R230). -/
def madeComplete (s : State) (m : Made) : State :=
  let s := s.modChain m.chain (fun c => { c with w := max c.w s.dt })
  let s := if m.deadline ≠ 0 ∧ m.deadline < s.dt - m.sched then
      raiseEvent (s.modChain m.chain (fun c => { c with dlMissCnt := cnt c.dlMissCnt 1 })) 0x0413 m.chain
        [m.idx, m.tag.toNat * 2 ^ 32 + m.entry % 4096 * 2 ^ 20 + sat 20 ((s.dt - m.sched) / 1000)]
    else s
  let s := match m.err with
    | some (st, t) => launchError s m st t
    | none => s
  chainSettle s m.chain

/-- One target of a launch completes with a status (R224, R225). -/
def targetComplete (s : State) (id tgt : Nat) (st : Half) : State :=
  match s.cal.made.find? (fun m => m.id == id) with
  | none => s
  | some m =>
    let m' := { m with
      left := m.left.erase tgt, err := if st = stOk ∨ m.err.isSome then m.err else some (st, tgt) }
    if m'.left = [] then madeComplete { s with cal.made := s.cal.made.filter (fun x => x.id != id) } m'
    else { s with cal.made := s.cal.made.map (fun x => if x.id = id then m' else x) }

/-- A launch's completion at a target, calendar or not: only a calendar launch is accounted for. -/
def launchEnds (s : State) (l : Launch) (tgt : Nat) (st : Half) : State :=
  match l.link with
  | some id => targetComplete s id tgt st
  | none => s

/-- The targets of an entry under a chain's map: physical tiles, vacant logical tiles, the engine (R215, R216). -/
def entryTargets (map : List (Option Nat)) (e : List Byte) : List Nat × Nat :=
  let ls := bitsOf (ceTmask e) 32
  let eng := if ceEngine e = 0 then [] else [35 + ceEngine e]
  (ls.filterMap (fun l => map.getD l none) ++ eng, maskOf 32 (fun l => bit (ceTmask e) l && (map.getD l none).isNone))

/-- The strobe of an entry in period n, scheduled at `at_` (R214, R215). -/
def entryStrobe (e : List Byte) (n at_ : Nat) : Strobe :=
  { prog := BitVec.ofNat 16 (ceProg e), label := BitVec.ofNat 4 (ceLabel e),
    seq := BitVec.ofNat 32 (if ceSeqBits e = 0 then n else n % 2 ^ ceSeqBits e), dt := at_ }

/-- The next launch of a chain is due (R215): strobes go to its resolved targets' holds, or complete with TARGET_RESET where the
target is in reset (R222). A full hold makes the launch, and every later one of its chain, wait (R221). -/
def launchDue (s : State) (c : Nat) : State :=
  let ch := s.cal.chains.get c
  match ch.toMake, ch.n with
  | (e, off) :: rest, some n =>
    let ent := s.cal.entries.get e
    let tg := entryTargets ch.map ent
    let roomy := tg.1.all (fun t => decide ((s.cal.held.get t).length < 64))
    if ch.at_ + off ≤ s.dt ∧ roomy then
      let sched := ch.at_ + off
      let id := s.cal.nextId
      let m : Made := { id := id, chain := c, idx := n, entry := e, tag := BitVec.ofNat 32 (ceTag ent), sched := sched,
                        deadline := ceDeadline ent, left := tg.1, err := none }
      let s := { s with cal.nextId := id + 1, cal.made := s.cal.made ++ [m] }
      let s := s.modChain c (fun x => { x with toMake := rest })
      let s := if tg.2 = 0 then s else
        raiseEvent (s.modChain c (fun x => { x with vacCnt := cnt x.vacCnt 1 })) 0x0415 c
          [n % 2 ^ 32 + tg.2 * 2 ^ 32, ceTag ent * 2 ^ 32 + e % 4096 * 2 ^ 20]
      let s := if 0 < ch.lag then forecast s (tg.1.filter (· < 36)) (cePower ent) else s
      let s := (tg.1.filter (· < 36)).foldl (fun s p => s.modDvfs p (fun d => { d with period := ch.nominal })) s
      let l : Launch := { strobe := entryStrobe ent n sched, link := some id }
      let s := tg.1.foldl (fun s t =>
        if t < 36 ∧ tileUnlaunchable s c t then targetComplete s id t stTargetReset
        else { s with cal.held := s.cal.held.modify t (· ++ [{ launch := l, chain := c, counted := false }]) }) s
      if tg.1 = [] then madeComplete { s with cal.made := s.cal.made.filter (fun x => x.id != id) } m else s
    else s
  | _, _ => s

/-- Launches not accepted within 100 ns of their scheduled DT are counted as held (R221); such a strobe is a level wake event
(R402). -/
def launchHeld (s : State) (t : Nat) : State :=
  let l := s.cal.held.get t
  let late := fun (h : Held) => !h.counted && decide (h.launch.strobe.dt + 100 < s.dt)
  let s := (l.filter late).foldl (fun s h => s.modChain h.chain (fun c => { c with heldCnt := cnt c.heldCnt 1 })) s
  let s := { s with cal.held := s.cal.held.set t (l.map (fun h => if late h then { h with counted := true } else h)) }
  if l = [] then s else wakeStrobe s

/-- A completion reported by a target reaches the calendar (R218, R224, R225). -/
def launchComplete (s : State) (t : Nat) : State :=
  match s.cal.done.get t with
  | [] => s
  | (l, st) :: r => launchEnds { s with cal.done := s.cal.done.set t r } l t st

/-- A target reports a launch complete. -/
def reportDone (s : State) (t : Nat) (l : Launch) (st : Half) : State :=
  { s with cal.done := s.cal.done.modify t (· ++ [(l, st)]) }

/-- Launches held for a tile complete with TARGET_RESET when its reset begins (R222). -/
def dropHeld (s : State) (p : Nat) : State :=
  let l := s.cal.held.get p
  l.foldl (fun s h => launchEnds s h.launch p stTargetReset) { s with cal.held := s.cal.held.set p [] }

/-- The calendar passes Quench the items of a scheduled launch (R227, R411). -/
def quenchForecast (s : State) (c e : Nat) : State :=
  let ch := s.cal.chains.get c
  let ent := s.cal.entries.get e
  if ch.state ≠ .idle ∧ ch.first ≤ e ∧ e < ch.first + ch.count ∧ ceValid ent then
    let map := if ch.map = [] then s.bu.map else ch.map
    forecast s ((entryTargets map ent).1.filter (· < 36)) (cePower ent)
  else s

/-! ### Registers (R231) -/

/-- TIM_CFG. -/
def timCfg (t : TimeBase) : Nat :=
  pack [(3, t.src), (3, 0), (2, t.ethPort), (4, uint 4 t.syncLog), (4, 0), (6, t.delufMaster)]
/-- TIM_STAT. -/
def timStat (s : State) : Nat :=
  let t := s.time
  pack [(3, t.state), (5, 0), (1, b2n (chainsRunning s)), (1, b2n t.stepInhibit), (1, b2n t.srcReject), (5, 0), (8, t.good)]

/-- Page 0x10 of unit 0x00 (R231). -/
def pageTime (s : State) : List Reg :=
  let t := s.time
  [r8 0x000 t.dt, r8 0x008 (t.dt % 2 ^ 48 * 65536 + t.frac / 2 ^ 32), r4 0x010 (timCfg t), r4 0x014 (timStat s),
   r8 0x018 (uint 64 t.offset), r4 0x020 (uint 32 t.rate), r4 0x024 t.unlockCnt, r4 0x028 t.sampleCnt, r4 0x02C t.stepCnt,
   r8 0x030 t.lastSample]

/-- The code of a chain's state. -/
def ChainState.code : ChainState → Nat
  | .idle => 0 | .waiting => 1 | .running => 2 | .stopping => 3

/-- The registers of chain n (R231). -/
def chainRegs (c : Chain) (b : Nat) : List Reg :=
  let n := c.n.getD 0
  [r4 b (pack [(13, c.count), (3, 0), (12, c.first), (2, c.state.code), (1, b2n c.skipEn), (1, b2n c.swap.isSome)]),
   r4 (b + 4) c.lag, r8 (b + 8) n, r8 (b + 0x10) c.at_, r8 (b + 0x18) (if c.n.isSome then c.grid n else 0), r4 (b + 0x20) c.lateCnt,
   r4 (b + 0x24) c.maxLagSeen, r4 (b + 0x28) c.heldCnt, r4 (b + 0x2C) c.dlMissCnt, r4 (b + 0x30) c.skipCnt, r4 (b + 0x34) c.vacCnt,
   r4 (b + 0x38) c.errCnt]

/-- Page 0x11 of unit 0x00 (R231). -/
def pageCal (s : State) : List Reg := regsFor 8 (fun n => chainRegs (s.cal.chains.get n) (0x40 * n)) ++ [r4 0x200 0]

/-- TIM_CAL_CTRL.cnt_clr: every counter and MAXLAG of pages 0x10 and 0x11 (R231). -/
def calCntClr (s : State) : State :=
  { s with
    time.unlockCnt := 0, time.sampleCnt := 0, time.stepCnt := 0, cal.chains := s.cal.chains.map (fun c => { c with
      lateCnt := 0, maxLagSeen := 0, heldCnt := 0, dlMissCnt := 0, skipCnt := 0, vacCnt := 0, errCnt := 0 }) }

/-! ### Commands (R232, R467) -/

/-- TIME_CONFIG (R211, R232). sync_log is signed. -/
def cmdTimeConfig (s : State) (c : Cmd) : State × Reply :=
  let sl := sint 8 (fld c.pay 3 1)
  let sl' := clampI (-5) 0 sl
  let f := clampFields c.pay 16 [fr 0 1 0 3, fr 1 1 0 3, fr 2 1 0 47, fr 4 4 1000 1000000, fz 8 8]
  let out := putBytes f.1 3 (leBytes 1 (uint 8 sl'))
  let src := fld f.1 0 1
  let s := { s with time := { s.time with
    src := src, ethPort := fld f.1 1 1, delufMaster := fld f.1 2 1, syncLog := sl', stepThr := fld f.1 4 4, lastSample := s.dt } }
  let s := servoEnter s (if src = 0 then 0 else 1)
  (s, reply stOk (f.2 + (if sl = sl' then 0 else 1)) out)

/-- TIME_SET (R232). -/
def cmdTimeSet (s : State) (c : Cmd) : State × Reply :=
  if chainsRunning s ∨ s.time.src ≠ 0 then (s, reply stBusy 0 [])
  else ({ s with time.dt := fld c.pay 0 8, time.frac := 0 }, reply stOk 0 (leBytes 8 (fld c.pay 0 8)))

/-- TIME_QUERY (R232, R467). -/
def cmdTimeQuery (s : State) (_ : Cmd) : State × Reply :=
  let t := s.time
  (s, reply stOk 0 (leBytes 8 t.dt ++ leBytes 4 (timCfg t) ++ leBytes 4 (timStat s) ++ leBytes 8 (uint 64 t.offset) ++
    leBytes 4 (uint 32 t.rate) ++ leBytes 4 t.unlockCnt ++ leBytes 4 t.sampleCnt ++ leBytes 4 t.stepCnt))

/-- An entry with its reserved fields written 0, and the fields changed (R214, R232). -/
def clampCalEntry (e : List Byte) : List Byte × Nat :=
  let w1 := fld e 8 2
  let a := clampFields e 32 [fz 18 2, fz 22 2, fz 28 4]
  if w1 % 16 = 0 then a else (putBytes a.1 8 (leBytes 2 (w1 / 16 * 16)), a.2 + 1)

/-- Entries of `first`, `count` belong to a chain that is not IDLE or to a pending swap (R229). -/
def entriesLocked (s : State) (first count : Nat) : Bool :=
  let meets := fun (f n : Nat) => decide (first < f + n ∧ f < first + count)
  (List.range 8).any (fun c =>
    let ch := s.cal.chains.get c
    (ch.state != .idle && meets ch.first ch.count) ||
    (match ch.swap with
     | some (_, f, n) => meets f n
     | none => false))

/-- CAL_WRITE (R229, R232). -/
def cmdCalWrite (s : State) (c : Cmd) : State × Reply :=
  let f := clampFields c.pay 8 [fr 0 2 0 4095, fr 2 2 1 (if c.inPtr then 4096 else 7), fz 4 4]
  let first := fld f.1 0 2
  let count := min (fld f.1 2 2) (4096 - first)
  let es := (List.range count).map (fun i => clampCalEntry (slice c.pay (8 + 32 * i) 32))
  let clamps := f.2 + (if count = fld f.1 2 2 then 0 else 1) + (es.map (·.2)).sum
  if entriesLocked s first count then (s, reply stBusy clamps [])
  else
    let t := (es.zipIdx).foldl (fun (t : Tab (List Byte)) e => t.set (first + e.2) e.1.1) s.cal.entries
    ({ s with cal.entries := t }, reply stOk clamps (leBytes 2 count ++ leBytes 2 0 ++ leBytes 4 clamps))

/-- CAL_READ (R232). -/
def cmdCalRead (s : State) (c : Cmd) : State × Reply :=
  let f := clampFields c.pay 4 [fr 0 2 0 4095, fr 2 2 1 7]
  let first := fld f.1 0 2
  let count := min (fld f.1 2 2) (4096 - first)
  (s, reply stOk (f.2 + (if count = fld f.1 2 2 then 0 else 1)) ((List.range count).map (fun i => s.cal.entries.get (first + i))).flatten)

/-- A chain's configuration in the layout of CHAIN_CONFIG (R232). -/
def chainConfigBytes (n : Nat) (c : Chain) : List Byte :=
  leBytes 1 n ++ leBytes 1 (b2n c.skipEn) ++ leBytes 2 0 ++ leBytes 4 c.nominal ++ leBytes 4 c.min ++ leBytes 2 c.first ++
  leBytes 2 c.count ++ leBytes 4 c.runCount ++ leBytes 4 c.maxLag

/-- CHAIN_CONFIG with its fields clamped (R217, R232). -/
def clampChain (pay : List Byte) : List Byte × Nat :=
  let a := clampFields pay 24 [fr 0 1 0 7, fr 1 1 0 1, fz 2 2, fr 4 4 100000 1000000000]
  let p := fld a.1 4 4
  let b := clampFields a.1 24 [fr 8 4 ((p + 1) / 2) p, fr 12 2 0 4095, fr 20 4 p (2 ^ 32 - 1)]
  let d := clampFields b.1 24 [fr 14 2 0 (4096 - fld b.1 12 2)]
  (d.1, a.2 + b.2 + d.2)

/-- CHAIN_CONFIG (R217, R232). -/
def cmdChainConfig (s : State) (c : Cmd) : State × Reply :=
  let f := clampChain c.pay
  let n := fld f.1 0 1
  if (s.cal.chains.get n).state ≠ .idle then (s, reply stBusy f.2 [])
  else
    (s.modChain n (fun x => { x with
      configured := true, skipEn := fld f.1 1 1 == 1, nominal := fld f.1 4 4, min := fld f.1 8 4, first := fld f.1 12 2,
      count := fld f.1 14 2, runCount := fld f.1 16 4, maxLag := fld f.1 20 4 }), reply stOk f.2 f.1)

/-- The start of a chain moved forward to the first grid point at or after DT + 1 ms (R228). -/
def clampStart (now start p : Nat) : Nat :=
  if now + 1000000 ≤ start then start else start + (now + 1000000 - start + p - 1) / p * p

/-- CHAIN_START (R228, R232, R467). -/
def cmdChainStart (s : State) (c : Cmd) : State × Reply :=
  let f := clampFields c.pay 16 [fa 0 1, fz 1 7, fa 8 8]
  let m := bitsOf (fld f.1 0 1) 8
  if m.any (fun n => (s.cal.chains.get n).state != .idle) then (s, reply stBusy f.2 [])
  else if m.any (fun n => !(s.cal.chains.get n).configured) then (s, reply stNotDefined f.2 [])
  else
    let now := s.dt
    let s := m.foldl (fun s n => s.modChain n (fun x => { x with
      state := .waiting, start := clampStart now (fld f.1 8 8) x.nominal, n := none, at_ := 0, w := 0, toMake := [], ran := 0, spent := 0,
      swap := none, map := [], lateRun := 0, lateMax := 0, lag := 0 })) s
    (s, reply stOk f.2 ((List.range 8).map (fun n =>
      if m.contains n then
        let x := s.cal.chains.get n
        leBytes 8 x.start ++ leBytes 4 (effOffsets s.cal.entries x.first x.count x.min).2 ++ leBytes 4 0
      else leBytes 16 0)).flatten)

/-- CHAIN_STOP (R230, R232, R467). -/
def cmdChainStop (s : State) (c : Cmd) : State × Reply :=
  let f := clampFields c.pay 2 [fa 0 1, fr 1 1 0 1]
  let m := bitsOf (fld f.1 0 1) 8
  let out := ((List.range 8).map (fun n =>
      if m.contains n then leBytes 8 ((s.cal.chains.get n).n.getD (2 ^ 64 - 1)) else leBytes 8 0)).flatten
  let s := m.foldl (fun s n =>
    let x := s.cal.chains.get n
    if x.state = .idle then s
    else chainSettle (s.modChain n (fun x => { x with
      state := .stopping, swap := none, toMake := if fld f.1 1 1 = 1 ∨ x.state = .waiting then [] else x.toMake })) n) s
  (s, reply stOk f.2 out)

/-- CHAIN_SWAP (R229, R232, R467). -/
def cmdChainSwap (s : State) (c : Cmd) : State × Reply :=
  let a := clampFields c.pay 6 [fr 0 1 0 7, fz 1 1, fr 2 2 0 4095]
  let f := clampFields a.1 6 [fr 4 2 0 (4096 - fld a.1 2 2)]
  let n := fld f.1 0 1
  let x := s.cal.chains.get n
  if x.state ≠ .running then (s, reply stNotDefined (a.2 + f.2) [])
  else if x.swap.isSome then (s, reply stBusy (a.2 + f.2) [])
  else
    let k := if s.dt + 1000000 ≤ x.start then 0 else (s.dt + 1000000 - x.start + x.nominal - 1) / x.nominal
    (s.modChain n (fun y => { y with swap := some (k, fld f.1 2 2, fld f.1 4 2) }),
     reply stOk (a.2 + f.2) (leBytes 8 k ++ leBytes 4 (effOffsets s.cal.entries (fld f.1 2 2) (fld f.1 4 2) x.min).2))

/-- CHAIN_QUERY (R232, R467). -/
def cmdChainQuery (s : State) (c : Cmd) : State × Reply :=
  let f := clampFields c.pay 1 [fr 0 1 0 7]
  let n := fld f.1 0 1
  let x := s.cal.chains.get n
  (s, reply stOk f.2 (chainConfigBytes n x ++ regBytes (chainRegs x 0)))

/-! ### One meaning per command -/

/-- A Cerfosil command executed by the firmware. -/
def cerfosil (s : State) (ch : Fin 4) (op : Nat) (r : Request) (f : State → Cmd → State × Reply) : Out := .next (runCmd s ch op r 0 f)

def execTimeSample (now : Nat) (offset : Int) (s : State) : Out := .next (timeSample (s.advance now) offset)
def execSampleTimeout (now : Nat) (s : State) : Out := .next (sampleTimeout (s.advance now))
def execTimeConfig (ch : Fin 4) (r : Request) (s : State) : Out := cerfosil s ch 0x0400 r cmdTimeConfig
def execTimeSet (ch : Fin 4) (r : Request) (s : State) : Out := cerfosil s ch 0x0401 r cmdTimeSet
def execTimeQuery (ch : Fin 4) (r : Request) (s : State) : Out := cerfosil s ch 0x0402 r cmdTimeQuery
def execCalWrite (ch : Fin 4) (r : Request) (s : State) : Out := cerfosil s ch 0x0410 r cmdCalWrite
def execCalRead (ch : Fin 4) (r : Request) (s : State) : Out := cerfosil s ch 0x0411 r cmdCalRead
def execChainConfig (ch : Fin 4) (r : Request) (s : State) : Out := cerfosil s ch 0x0412 r cmdChainConfig
def execChainStart (ch : Fin 4) (r : Request) (s : State) : Out := cerfosil s ch 0x0413 r cmdChainStart
def execChainStop (ch : Fin 4) (r : Request) (s : State) : Out := cerfosil s ch 0x0414 r cmdChainStop
def execChainSwap (ch : Fin 4) (r : Request) (s : State) : Out := cerfosil s ch 0x0415 r cmdChainSwap
def execChainQuery (ch : Fin 4) (r : Request) (s : State) : Out := cerfosil s ch 0x0416 r cmdChainQuery
def execPeriodStart (c : Fin 8) (now : Nat) (s : State) : Out := .next (periodStart (s.advance now) c)
def execLaunchDue (c : Fin 8) (now : Nat) (s : State) : Out := .next (launchDue (s.advance now) c)
def execLaunchHeld (t : Fin 39) (now : Nat) (s : State) : Out := .next (launchHeld (s.advance now) t)
def execLaunchComplete (t : Fin 39) (now : Nat) (s : State) : Out := .next (launchComplete (s.advance now) t)
def execQuenchForecast (c : Fin 8) (e : Fin 4096) (now : Nat) (s : State) : Out := .next (quenchForecast (s.advance now) c e)
def execTimCalCtrlCntClr (s : State) : Out := .next (calCntClr s)

def execQosWindow (now : Nat) (s : State) : Out := .next (qosWindow (s.advance now))
def execQosConfig (ch : Fin 4) (r : Request) (s : State) : Out := cerfosil s ch 0x0220 r cmdQosConfig
def execQosQuery (ch : Fin 4) (r : Request) (s : State) : Out := cerfosil s ch 0x0221 r cmdQosQuery
def execQosCtrlCntClr (s : State) : Out := .next (qosCntClr s)

def execQuenchSample (r : QuenchReadings) (now : Nat) (s : State) : Out := .next (quenchSample (s.advance now) r)
def execPowerStateEntry (now : Nat) (s : State) : Out := .next (powerEntry (s.advance now))
def execPowerReturnStage (now : Nat) (s : State) : Out := .next (returnStage (s.advance now))
def execDvfsVoltageReached (p : Fin 36) (s : State) : Out := .next (dvfsVoltage s p)
def execDvfsClockChanged (p : Fin 36) (s : State) : Out := .next (dvfsClock s p)
def execCoolantStopDrain (now : Nat) (s : State) : Out := .next (coolantDrain (s.advance now))
def execCoolantRestored (now : Nat) (s : State) : Out := .next (coolantRestore (s.advance now))
def execPwrCtrlCntClr (s : State) : Out := .next (pwrCntClr s)
def execPwrStateSet (ch : Fin 4) (r : Request) (s : State) : Out := cerfosil s ch 0x0900 r cmdPwrStateSet
def execDvfsSet (ch : Fin 4) (r : Request) (s : State) : Out := cerfosil s ch 0x0901 r cmdDvfsSet
def execPowerLimit (ch : Fin 4) (r : Request) (s : State) : Out := cerfosil s ch 0x0902 r cmdPowerLimit
def execThermalConfig (ch : Fin 4) (r : Request) (s : State) : Out := cerfosil s ch 0x0903 r cmdThermalConfig
def execThermalQuery (ch : Fin 4) (r : Request) (s : State) : Out := cerfosil s ch 0x0904 r cmdThermalQuery

end Sys2Proof.Machine
end

