-- ==== Sys2Proof/Machine/Ladle.lean ====
section
/-! DEFINITION. Clock monitors and the dual-clock queues (chapter 10). -/

namespace Sys2Proof.Machine

/-! ### Instances (R277) -/

/-- The features of an instance: domains, widths in bytes, depth in bytes, pack, packets, mark, drop, cut-through, threshold at
reset, and whether its writer follows a handshake or credits (R269, R271, R277). -/
structure LadleCfg where
  unit  : Nat
  page  : Nat
  inst  : Nat
  wdom  : Nat
  rdom  : Nat
  w     : Nat
  r     : Nat
  depth : Nat
  pack  : Bool
  pkts  : Bool
  mark  : Bool
  drop  : Bool
  cut   : Bool
  thr   : Nat
  hand  : Bool
  deriving DecidableEq, Repr

/-- The number of an instance in the state. -/
def ladleKey : LadleId → Nat
  | .hub i => i
  | .ehub d g => 64 + 8 * d + g
  | .edie d e g => 128 + 32 * d + 8 * e + g
  | .tile p i => 256 + 8 * p + i

/-- The die edge behind a compute die's receive queue e (R260, R277): hub edge, ring edge to CD(d + 3), ring edge to CD(d + 1). -/
def dieEdge (d e : Nat) : Nat := if e = 0 then d else if e = 1 then 4 + (d + 3) % 4 else 4 + d

/-- The instance table of R277. -/
def ladleCfg : LadleId → LadleCfg
  | .hub i =>
    let n := i.val
    if n < 12 then ⟨0, 0x50, n, 74 + n, 67, 16, 64, 65536, true, true, false, true, true, 512, false⟩
    else if n < 16 then ⟨0, 0x50, n, 86 + (n - 12), 64, 8, 64, 32768, true, true, false, true, true, 2048, false⟩
    else if n < 20 then ⟨0, 0x50, n, 64, 86 + (n - 16), 8, 8, 16384, false, true, false, false, true, 1024, true⟩
    else if n < 28 then ⟨0, 0x50, n, 90 + (n - 20), 64, 64, 64, 16384, false, false, false, false, false, 0, true⟩
    else if n < 36 then ⟨0, 0x50, n, 64, 90 + (n - 28), 64, 64, 16384, false, false, false, false, false, 0, true⟩
    else if n = 36 then ⟨0, 0x50, n, 68, 64, 64, 64, 16384, false, false, false, false, false, 0, true⟩
    else if n = 37 then ⟨0, 0x50, n, 64, 68, 64, 64, 16384, false, false, false, false, false, 0, true⟩
    else if n = 38 then ⟨0, 0x50, n, 64, 73, 4, 4, 256, false, true, true, false, false, 0, true⟩
    else ⟨0, 0x50, n, 73, 64, 1, 4, 256, true, true, false, false, false, 0, true⟩
  | .ehub d g => ⟨0, 0x51, 8 * d + g, 49 + 2 * d, 64, 256, 256, 32768, false, false, false, false, false, 0, true⟩
  | .edie d e g =>
    let k := dieEdge d e
    let dir := if e.val = 0 then 0 else if e.val = 2 then 1 else 0
    ⟨0x10 + d, 0x01, 8 * e + g, 48 + 2 * k + dir, 36 + d, 256, 256, 32768, false, false, false, false, false, 0, true⟩
  | .tile p i =>
    let tr := 36 + p.val / 9
    match i.val with
    | 0 => ⟨0x40 + p, 4, 0, p, tr, 256, 256, 4096, false, false, false, false, false, 0, true⟩
    | 1 => ⟨0x40 + p, 4, 1, tr, p, 256, 256, 131072, false, false, false, false, false, 0, true⟩
    | 2 => ⟨0x40 + p, 4, 2, tr, p, 256, 256, 4096, false, false, false, false, false, 0, true⟩
    | 3 => ⟨0x40 + p, 4, 3, p, tr, 256, 256, 4096, false, false, false, false, false, 0, true⟩
    | 4 => ⟨0x40 + p, 4, 4, tr, p, 16, 16, 128, false, false, false, false, false, 0, true⟩
    | _ => ⟨0x40 + p, 4, 5, p, tr, 8, 8, 64, false, false, false, false, false, 0, true⟩

/-- The instance of a unit, page and number, if there is one. -/
def ladleAt (unit page i : Nat) : Option LadleId :=
  if unit = 0 ∧ page = 0x50 then (if h : i < 40 then some (.hub ⟨i, h⟩) else none)
  else if unit = 0 ∧ page = 0x51 then
    (if h : i / 8 < 4 then some (.ehub ⟨i / 8, h⟩ ⟨i % 8, Nat.mod_lt _ (by decide)⟩) else none)
  else if h : 0x10 ≤ unit ∧ unit - 0x10 < 4 ∧ page = 1 then
    (if h2 : i / 8 < 3 then some (.edie ⟨unit - 0x10, h.2.1⟩ ⟨i / 8, h2⟩ ⟨i % 8, Nat.mod_lt _ (by decide)⟩) else none)
  else if h : 0x40 ≤ unit ∧ unit - 0x40 < 36 ∧ page = 4 then
    (if h2 : i < 6 then some (.tile ⟨unit - 0x40, h.2.1⟩ ⟨i, h2⟩) else none)
  else none

/-- Overwrite mode (R272): forced, or the owning block is not in service: the hub and the dies before start-up has completed or
during their reset, a tile while in reset, in its SRAM initialisation or in quarantine. -/
def ladleOverwrite (s : State) (q : LadleId) : Bool :=
  let l := s.fab.ldl.get (ladleKey q)
  let pkg := match s.bu.rst with
    | some r => decide (3 ≤ r.scope)
    | none => false
  l.force || s.bu.phase != 2 || pkg ||
  (match q with
   | .tile p _ => tileAbsorbed s p || (s.tiles.get p).initBusy
   | .edie d _ _ => s.fab.transitDown.get d
   | .ehub d _ => s.fab.transitDown.get d
   | .hub _ => false)

/-- Read words an instance holds when full (R271): one fewer in overwrite mode. -/
def ladleCap (s : State) (q : LadleId) : Nat := (ladleCfg q).depth / (ladleCfg q).r - b2n (ladleOverwrite s q)

/-- The writer sees the queue full: `unseen` freed words are not yet visible to it (R268). -/
def ladleFull (s : State) (q : LadleId) (unseen : Nat) : Bool :=
  let l := s.fab.ldl.get (ladleKey q)
  l.part.isEmpty && decide (ladleCap s q ≤ l.words.length + unseen)

/-- The read word that write items make (R269): packed in arrival order, padded with zeros. -/
def packWord (c : LadleCfg) (items : List LadleItem) : LWord :=
  let full := items.map (fun i => if !i.eop then slice i.data 0 c.w else slice (i.data.take i.vbytes) 0 (min i.vbytes c.w))
  let bytes := full.flatten
  { data := slice bytes 0 c.r, eop := items.any (·.eop), vbytes := min bytes.length c.r,
    err := items.any (fun i => i.err || (!i.eop && decide (i.vbytes < c.w))), info := ((items.getLast?).map (·.info)).getD 0 }

/-- An item stored (R269): the word it closes joins the queue. -/
def ladlePut (c : LadleCfg) (l : Ladle) (i : LadleItem) : Ladle :=
  let part := l.part ++ [i]
  if i.eop || decide (c.r / c.w ≤ part.length) then
    { l with words := l.words ++ [packWord c part], part := [], inPkt := !i.eop }
  else { l with part := part, inPkt := !i.eop }

/-- A one-word err packet owed to the reader is stored when there is space (R271). -/
def ladlePayOwed (c : LadleCfg) (cap : Nat) (l : Ladle) : Ladle :=
  match l.owed with
  | some i =>
    if l.words.length < cap then
      { l with words := l.words ++ [{ data := List.replicate c.r 0, eop := true, err := true, vbytes := 1, info := i }], owed := none }
    else l
  | none => l

/-- The packet in progress closed with eop and err after an ignored write (R271). -/
def ladleCutPacket (c : LadleCfg) (l : Ladle) (info : Nat) : Ladle :=
  if l.part ≠ [] then
    let w := packWord c l.part
    { l with words := l.words ++ [{ w with eop := true, err := true }], part := [] }
  else match l.words.getLast? with
    | some w => if l.inPkt && !w.eop then { l with words := l.words.dropLast ++ [{ w with eop := true, err := true }] }
                else { l with owed := some info }
    | none => { l with owed := some info }

/-- The oldest item discarded in overwrite mode (R271, R273). -/
def ladleDiscard (l : Ladle) : Ladle :=
  { l with words := l.words.drop 1, rd := l.rd - 1, mark := l.mark - 1, lostCnt := cnt l.lostCnt 1,
           markLost := l.markLost || l.rd == 0 || l.mark == 0 }

/-- A write to a Ladle (R269–R274). A writer under a handshake or credits never writes while it sees the queue full. -/
def ladleWrite (s : State) (q : LadleId) (i : LadleItem) (unseen : Nat) : State :=
  let c := (ladleCfg q)
  let s := s.modLdl (ladleKey q) (ladlePayOwed c (ladleCap s q))
  let l := s.fab.ldl.get (ladleKey q)
  let full := ladleFull s q unseen
  if l.discard then s.modLdl (ladleKey q) (fun l => { l with discard := !i.eop, inPkt := !i.eop })
  else if l.skip then s.modLdl (ladleKey q) (fun l => { l with skip := !i.eop, inPkt := !i.eop })
  else if !full then s.modLdl (ladleKey q) (fun l => ladlePut c l i)
  else if c.hand then s
  else if ladleOverwrite s q then
    s.modLdl (ladleKey q) (fun l =>
      let l := { ladleDiscard l with markLost := if c.mark then (ladleDiscard l).markLost else l.markLost }
      ladlePut c l i)
  else
    s.modLdl (ladleKey q) (fun l =>
      let l := { l with overrun := true, ovrCnt := cnt l.ovrCnt 1 }
      if c.pkts then { ladleCutPacket c l i.info with skip := !i.eop, inPkt := !i.eop } else l)

/-- The words the reader sees: `hidden` of the newest are not yet visible (R268). -/
def ladleVisible (l : Ladle) (hidden : Nat) : List LWord := (l.words.drop l.rd).take (l.words.length - l.rd - hidden)

/-- The threshold in force: the written one, or the instance's at reset (R277, R278). -/
def ladleThr (c : LadleCfg) (l : Ladle) : Nat := if c.cut then l.thr.getD c.thr else 0

/-- The words of the first packet among visible words, through its eop. -/
def firstPacket : List LWord → List LWord
  | [] => []
  | w :: r => if w.eop then [w] else w :: firstPacket r

/-- The reader may take a word (R270): one is visible and its packet is readable. -/
def ladleReadable (c : LadleCfg) (l : Ladle) (hidden : Nat) : Bool :=
  let v := ladleVisible l hidden
  if v.isEmpty then false
  else if !c.pkts || l.inRead then true
  else
    let p := firstPacket v
    p.any (·.eop) || (c.cut && decide (ladleThr c l ≤ (p.map (·.vbytes)).sum))

/-- A read of a Ladle (R268, R270, R273): the word delivered, if any. -/
def ladleTake (s : State) (q : LadleId) (hidden : Nat) : State × Option LWord :=
  let c := (ladleCfg q)
  let l := s.fab.ldl.get (ladleKey q)
  if ladleReadable c l hidden then
    match (ladleVisible l hidden).head? with
    | some w =>
      let l' := if c.mark then { l with rd := l.rd + 1 } else { l with words := l.words.drop 1 }
      (s.modLdl (ladleKey q) (fun _ => { l' with inRead := c.pkts && !w.eop }), some w)
    | none => (s, none)
  else (s, none)

/-- MARK, REWIND and RELEASE of an instance with mark (R273). -/
def ladleMark (s : State) (q : LadleId) : State :=
  if (ladleCfg q).mark then s.modLdl (ladleKey q) (fun l => { l with mark := l.rd }) else s
def ladleRewind (s : State) (q : LadleId) : State :=
  if (ladleCfg q).mark then s.modLdl (ladleKey q) (fun l => { l with rd := l.mark }) else s
def ladleRelease (s : State) (q : LadleId) : State :=
  if (ladleCfg q).mark then s.modLdl (ladleKey q) (fun l => { l with words := l.words.drop l.rd, rd := 0, mark := 0 }) else s

/-- DROP inside a packet (R274, R276). -/
def ladleDrop (s : State) (q : LadleId) : State :=
  let l := s.fab.ldl.get (ladleKey q)
  if (ladleCfg q).drop && l.inRead then
    let rest := l.words.drop l.rd
    let p := firstPacket rest
    let s := s.modLdl (ladleKey q) (fun l => { l with dropCnt := cnt l.dropCnt 1, inRead := false })
    if p.any (·.eop) then s.modLdl (ladleKey q) (fun l => { l with words := l.words.take l.rd ++ rest.drop p.length })
    else s.modLdl (ladleKey q) (fun l => { l with words := l.words.take l.rd, part := [], discard := true })
  else s

/-- The queue reset of R275: every stored item lost, every pointer zero. -/
def ladleReset (s : State) (q : LadleId) : State :=
  s.modLdl (ladleKey q) (fun l => { l with
    lostCnt := cnt l.lostCnt (l.words.length + l.part.length), words := [], part := [], rd := 0, mark := 0, skip := false, inPkt := false,
    owed := none, discard := false, inRead := false })

/-- A pointer mismatch (R275, R277): the queue is reset, counted and reported; a tile whose queue it is has failed (R440); PCI_IN and
PCI_OUT report an uncorrectable internal error (R282). -/
def ladlePtrMismatch (s : State) (q : LadleId) : State :=
  let c := (ladleCfg q)
  let s := (ladleReset s q).modLdl (ladleKey q) (fun l => { l with ptrCnt := cnt l.ptrCnt 1 })
  let s := raiseEvent s 0x0005 c.inst [c.unit + c.page * 256]
  match q with
  | .tile p _ => if (s.tiles.get p).role != 2 then { s with bu.fails := s.bu.fails ++ [(p.val, 3)] } else s
  | .hub i => if i.val = 36 ∨ i.val = 37 then { s with host.pci.aer := s.host.pci.aer ||| 16 } else s
  | _ => s

/-! ### Registers (R278) -/

/-- log2 of a power of two. -/
def log2Of (n : Nat) : Nat := (List.range 24).foldl (fun a i => if 2 ^ i ≤ n then i else a) 0

/-- LDL_i_CFG. -/
def ldlCfgReg (c : LadleCfg) : Nat :=
  let items := c.page = 4 ∧ 4 ≤ c.inst
  pack [(4, log2Of c.r), (4, log2Of c.w), (4, if items then 0 else log2Of c.depth - 6), (1, b2n c.cut), (1, b2n c.drop),
        (1, b2n c.mark), (1, b2n c.pack), (7, c.rdom), (1, 0), (7, c.wdom)]

/-- LDL_i_STAT. The launch and completion queues of a tile are those of R52 and R53. -/
def ldlStatReg (s : State) (q : LadleId) : Nat :=
  let c := (ladleCfg q)
  let l := s.fab.ldl.get (ladleKey q)
  let n := match q with
    | .tile p i => if i.val = 4 then (s.tiles.get p).queue.length else if i.val = 5 then (s.cal.done.get p).length else l.words.length
    | _ => l.words.length
  pack [(18, n * c.r), (8, 0), (1, b2n (n = l.rd)), (1, b2n (decide (ladleCap s q ≤ n))), (1, b2n (ladleOverwrite s q)), (1, b2n l.discard),
        (1, b2n l.markLost), (1, b2n l.overrun)]

/-- The block of an instance at its page offset (R278). -/
def ldlRegs (s : State) (q : LadleId) : List Reg :=
  let c := (ladleCfg q)
  let l := s.fab.ldl.get (ladleKey q)
  let b := 0x20 * c.inst
  [r4 b (ldlCfgReg c), r4 (b + 4) (ldlStatReg s q), r4 (b + 8) (2 * b2n l.force), r4 (b + 0xC) (ladleThr c l), r4 (b + 0x10) l.ovrCnt,
   r4 (b + 0x14) l.lostCnt, r4 (b + 0x18) l.ptrCnt, r4 (b + 0x1C) l.dropCnt]

/-- LDL_i_CTRL.qreset: ignored in OPERATIONAL (R278). -/
def ldlQreset (s : State) (q : LadleId) : State := if s.host.opMode then s else ladleReset s q
/-- LDL_i_CTRL.force_ovw: ignored in OPERATIONAL (R272). -/
def ldlForce (s : State) (q : LadleId) (on : Bool) : State :=
  if s.host.opMode then s else s.modLdl (ladleKey q) (fun l => { l with force := on })
/-- LDL_i_CTRL.cnt_clr (R278). -/
def ldlCntClr (s : State) (q : LadleId) : State :=
  s.modLdl (ladleKey q) (fun l => { l with ovrCnt := 0, lostCnt := 0, ptrCnt := 0, dropCnt := 0 })
/-- W1C of LDL_i_STAT (R278). -/
def ldlStatClear (s : State) (q : LadleId) (m : Word) : State :=
  s.modLdl (ladleKey q) (fun l => { l with overrun := l.overrun && !bit m.toNat 31, markLost := l.markLost && !bit m.toNat 30 })
/-- A write of LDL_i_THR (R278). -/
def ldlThrWrite (s : State) (q : LadleId) (v : Word) : State :=
  let c := (ladleCfg q)
  if c.cut then s.modLdl (ladleKey q) (fun l => { l with thr := some (clampN 64 c.depth (v.toNat % 2 ^ 17 / 64 * 64)) }) else s

/-- Page 0x52 of unit 0x00 (R279). The AON domain reads 32 kHz. -/
def pageClk (s : State) : List Reg :=
  [r4 0 0, r4 4 s.fab.clkFaults] ++ regsFor 98 (fun k =>
    let c := s.fab.clk.get k
    [r4 (0x100 + 4 * k) (pack [(24, if k = 72 ∧ c.state ≠ 0 then 32 else if c.state = 0 then 0 else c.freq), (6, 0), (2, c.state)])])

/-- A 1 ms window of a domain's frequency monitor (R267, R440). No comparison in a window in which a tile's target changed. -/
def clkWindow (s : State) (k khz : Nat) : State :=
  let c := s.fab.clk.get k
  if c.state = 0 ∨ c.state = 1 then s
  else
    let want := nominalKhz s k
    let set := fun (s : State) (st : Nat) => { s with fab.clk := s.fab.clk.set k { state := st, freq := khz, changed := false } }
    if c.changed then set s c.state
    else if khz * 100 < want * 99 ∨ want * 101 < khz * 100 then
      let s := raiseEvent { set s 3 with fab.clkFaults := cnt s.fab.clkFaults 1 } 0x0004 k [khz % 2 ^ 24]
      if k < 36 then
        let n := (s.tiles.get k).clkFaults + 1
        let s := s.modTile k (fun t => { t with clkFaults := n })
        if n = 3 ∧ (s.tiles.get k).role ≠ 2 then { s with bu.fails := s.bu.fails ++ [(k, 4)] } else s
      else s
    else
      let s := set s 2
      if k < 36 then s.modTile k (fun t => { t with clkFaults := 0 }) else s

/-! ### One meaning per command -/

def execClkMonitorWindow (k : Fin 98) (khz now : Nat) (s : State) : Out := .next (clkWindow (s.advance now) k khz)
def execClkCtrlCntClr (s : State) : Out := .next { s with fab.clkFaults := 0 }
def execLadleMark (q : LadleId) (s : State) : Out := .next (ladleMark s q)
def execLadleRewind (q : LadleId) (s : State) : Out := .next (ladleRewind s q)
def execLadleRelease (q : LadleId) (s : State) : Out := .next (ladleRelease s q)
def execLdlCtrlQreset (q : LadleId) (s : State) : Out := .next (ldlQreset s q)
def execLdlCtrlForceOvw (q : LadleId) (on : Bool) (s : State) : Out := .next (ldlForce s q on)
def execLdlCtrlCntClr (q : LadleId) (s : State) : Out := .next (ldlCntClr s q)
def execLdlStatClear (q : LadleId) (m : Word) (s : State) : Out := .next (ldlStatClear s q m)
def execLdlThrWrite (q : LadleId) (v : Word) (s : State) : Out := .next (ldlThrWrite s q v)

end Sys2Proof.Machine
end

