-- ==== Sys2Proof/Machine/Kvt.lean ====
section
/-! DEFINITION. The sequence-table unit: pins, appends, commits and releases (chapter 06, R152–R178). -/

namespace Sys2Proof.Machine

/-- Commit numbers of the slots that are not FREE. -/
def liveCommits (t : KvTable) : List Nat := ((t.slots.list 8).filter (fun x => x.state != 0)).map (·.commit)

/-- KV_RELEASE for each commit number newly released, ascending, each once (R175). -/
def kvReleaseTo (s : State) (n c : Nat) : State :=
  let from_ := (s.kvt.tables.get n).released
  let s := (List.range (c - from_)).foldl (fun s i => raiseEvent s 0x0600 0 [n + (from_ + 1 + i) * 2 ^ 32]) s
  s.modTable n (fun t => { t with released := max t.released c })

/-- After a slot changed: releases (R175), and the end of a destroyed table (R176). -/
def kvSettle (s : State) (n : Nat) : State :=
  let t := s.kvt.tables.get n
  match liveCommits t with
  | [] =>
    if t.defined then
      (kvReleaseTo s n (t.commit + 1)).modTable n (fun t => { t with defined := false, destroying := false })
    else s
  | c :: r => kvReleaseTo s n (r.foldl min c)

/-- Release of a tile's pin (R173): a DRAINING slot becomes FREE when its count reaches 0. -/
def releasePin (s : State) (p : Nat) : State :=
  match s.kvt.pins.get p with
  | none => s
  | some (n, k) =>
    let s := { s with kvt.pins := s.kvt.pins.set p none }
    let s := s.modTable n (fun t => { t with
      slots := t.slots.modify k (fun x => { x with refs := x.refs - 1, state := if x.state = 2 ∧ x.refs ≤ 1 then 0 else x.state }) })
    kvSettle s n

/-- A KVT write that completes with DECODE_ERROR (R178 ERRCNT). -/
def kvtRefuse (s : State) : State × Half := ({ s with kvt.errCnt := cnt s.kvt.errCnt 1 }, stDecodeError)

/-- The CURRENT slot of a table (R154). -/
def currentSlot (t : KvTable) : Nat := ((List.range 8).find? (fun i => (t.slots.get i).state == 1)).getD 0

/-- A write of HUB_KVT_PIN (R165, R166, R176). -/
def kvtPin (s : State) (src v : Nat) : State × Half :=
  if 36 ≤ src then kvtRefuse s
  else
    let s := releasePin s src
    let n := v % 4096
    let t := s.kvt.tables.get n
    if !t.defined || t.destroying then kvtRefuse s
    else
      let k := currentSlot t
      let s := s.modTable n (fun t => { t with slots := t.slots.modify k (fun x => { x with refs := x.refs + 1 }) })
      ({ s with kvt.pins := s.kvt.pins.set src (some (n, k)) }, stOk)

/-- A write of HUB_KVT_UNPIN (R166, R173). -/
def kvtUnpin (s : State) (src : Nat) : State × Half := if 36 ≤ src then kvtRefuse s else (releasePin s src, stOk)

/-- Address of the entry of head `h`, page `p` in a generation's array (R154). -/
def pteAddr (x : KvSlot) (h p : Nat) : Nat := x.root + (h * x.hstride + p) * 8

/-- A write of HUB_KVT_APPEND (R168). -/
def kvtAppend (s : State) (src v : Nat) : State × Half :=
  let n := v % 4096
  let t := s.kvt.tables.get n
  let x := t.slots.get (currentSlot t)
  let h := field v 53 50
  let p := field v 49 36
  let c := field v 60 54
  if !t.defined || t.destroying || decide (t.heads ≤ h) || decide (x.npages ≤ p) || decide (64 < c) then kvtRefuse s
  else
    let a := pteAddr x h p
    let r := dramRead s src a 8
    let e := leNat r.2.1
    let s := if r.2.2 || decide (c ≤ field e 54 48) then r.1
      else (dramWrite r.1 src a (leBytes 8 (e - field e 54 48 * 2 ^ 48 + c * 2 ^ 48)) false).1
    (s.modTable n (fun t => { t with append := (t.append + 1) % 2 ^ 32 }), stOk)

/-- HUB_KVT_PINRES_A_p and _B_p (R178). -/
def pinRes (s : State) (p : Nat) : Nat × Nat :=
  match s.kvt.pins.get p with
  | none => (0, 0)
  | some (n, k) =>
    let t := s.kvt.tables.get n
    let x := t.slots.get k
    (pack [(6, 0), (42, x.root / 64), (9, 0), (3, x.commit), (3, k), (1, 1)],
     pack [(12, n), (4, t.heads - 1), (15, x.npages), (1, 0), (15, x.hstride), (6, t.parts - 1), (2, t.mode), (3, t.d / 32 - 1), (6, t.shard)])

/-- Page 0x30 of unit 0x00 (R178). -/
def pageKvt (s : State) : List Reg :=
  let t := s.kvt.tables.get s.kvt.tsel
  [r8 0x000 0, r8 0x008 0, r8 0x010 0, r4 0x018 s.kvt.tsel,
   r8 0x020 (pack [(32, t.commit), (24, t.append), (3, 0), (3, if t.defined then currentSlot t else 0), (1, b2n t.destroying), (1, b2n t.defined)]),
   r8 0x028 (((List.range 8).map (fun i => (t.slots.get i).refs % 64 * 64 ^ i)).sum +
     maskOf 8 (fun i => (t.slots.get i).state != 0) * 2 ^ 48),
   r4 0x030 s.kvt.errCnt] ++
  regsFor 36 (fun p => [r8 (0x100 + 16 * p) (pinRes s p).1, r8 (0x108 + 16 * p) (pinRes s p).2])

/-- The head dimension nearest to the one sent, a half going up (R177). -/
def nearestD (d : Nat) : Nat := clampN 32 256 ((d + 16) / 32 * 32)

/-- KV_TABLE_CREATE (R152, R154, R177). -/
def cmdKvCreate (s : State) (c : Cmd) : State × Reply :=
  let a := clampFields c.pay 32
    [fr 0 2 0 4095, fr 2 1 1 16, fr 5 1 0 2, fr 6 1 1 64, fm 8 8 0 (2 ^ 64 - 1) 64, fr 16 4 1 16384, fz 24 8]
  let d := fld a.1 3 2
  let b := clampFields (putBytes a.1 3 (leBytes 2 (nearestD d))) 32 [fr 7 1 0 (fld a.1 6 1 - 1), fr 20 4 (fld a.1 16 4) 16384]
  let clamps := a.2 + b.2 + (if nearestD d = d then 0 else 1)
  let n := fld b.1 0 2
  let t := s.kvt.tables.get n
  if t.defined then (s, reply stBusy clamps [])
  else if 4 * dieSpan ≤ fld b.1 8 8 then (s, reply stDecodeError clamps [])
  else
    let x : KvSlot := { state := 1, root := fld b.1 8 8, npages := fld b.1 16 4, hstride := fld b.1 20 4, commit := 1, refs := 0 }
    let free : KvSlot := { state := 0, root := 0, npages := 0, hstride := 0, commit := 0, refs := 0 }
    (s.modTable n (fun _ => { defined := true, destroying := false, heads := fld b.1 2 1, d := fld b.1 3 2, mode := fld b.1 5 1,
                              parts := fld b.1 6 1, shard := fld b.1 7 1, commit := 1, append := 0,
                              slots := (Tab.const free).set 0 x, released := 1 }),
     reply stOk clamps (b.1 ++ leBytes 4 1 ++ leBytes 4 0))

/-- KV_TABLE_DESTROY (R176, R177). -/
def cmdKvDestroy (s : State) (c : Cmd) : State × Reply :=
  let f := clampFields c.pay 2 [fr 0 2 0 4095]
  let n := fld f.1 0 2
  if !(s.kvt.tables.get n).defined then (s, reply stNotDefined f.2 [])
  else
    let s := s.modTable n (fun t => { t with
      destroying := true, slots := t.slots.map (fun x => { x with state := if x.state = 0 ∨ x.refs = 0 then 0 else 2 }) })
    let pinned := (((s.kvt.tables.get n).slots.list 8).filter (fun x => x.state != 0)).length
    (kvSettle s n, reply stOk f.2 (leBytes 4 pinned))

/-- PAGE_COMMIT, decided in the order of R174. -/
def cmdPageCommit (s : State) (c : Cmd) : State × Reply :=
  let a := clampFields c.pay 32 [fr 0 2 0 4095, fz 2 2, fr 12 4 1 16384, fm 16 8 0 (2 ^ 64 - 1) 64, fz 28 4]
  let b := clampFields a.1 32 [fr 24 4 (fld a.1 12 4) 16384]
  let clamps := a.2 + b.2
  let n := fld b.1 0 2
  let t := s.kvt.tables.get n
  if !t.defined || t.destroying then (s, reply stNotDefined clamps [])
  else if 4 * dieSpan ≤ fld b.1 16 8 then (s, reply stDecodeError clamps [])
  else if fld b.1 4 4 ≠ t.commit ∨ fld b.1 8 4 ≠ t.append then (s, reply stStale clamps [])
  else
    match (List.range 8).find? (fun i => (t.slots.get i).state == 0) with
    | none => (s, reply stRetry clamps [])
    | some k =>
      let cn := (t.commit + 1) % 2 ^ 32
      let x : KvSlot := { state := 1, root := fld b.1 16 8, npages := fld b.1 12 4, hstride := fld b.1 24 4, commit := cn, refs := 0 }
      let old := currentSlot t
      let s := s.modTable n (fun t => { t with
        commit := cn, slots := (t.slots.modify old (fun y => { y with state := if y.refs = 0 then 0 else 2 })).set k x })
      (kvSettle s n, reply stOk clamps (leBytes 4 cn ++ leBytes 4 k ++ leBytes 4 x.npages ++ leBytes 4 x.hstride))

/-- KV_TABLE_QUERY (R177). -/
def cmdKvQuery (s : State) (c : Cmd) : State × Reply :=
  let f := clampFields c.pay 2 [fr 0 2 0 4095]
  let t := s.kvt.tables.get (fld f.1 0 2)
  if !t.defined then (s, reply stNotDefined f.2 [])
  else
    (s, reply stOk f.2 (leBytes 4 t.heads ++ leBytes 4 t.d ++ leBytes 4 t.mode ++ leBytes 4 t.parts ++ leBytes 4 t.shard ++ leBytes 4 t.commit ++
      leBytes 4 t.append ++ leBytes 4 (currentSlot t) ++
      catMap 8 (fun i => let x := t.slots.get i; leBytes 4 x.state ++ leBytes 4 x.refs ++ leBytes 4 x.commit) ++ leBytes 4 t.released))

/-! ### One meaning per command -/

def execHubKvtPin (src : BitVec 8) (v : Quad) (s : State) : Out := .next (kvtPin s src.toNat v.toNat).1
def execHubKvtUnpin (src : BitVec 8) (s : State) : Out := .next (kvtUnpin s src.toNat).1
def execHubKvtAppend (src : BitVec 8) (v : Quad) (s : State) : Out := .next (kvtAppend s src.toNat v.toNat).1
def execKvTableCreate (ch : Fin 4) (r : Request) (s : State) : Out := cerfosil s ch 0x0600 r cmdKvCreate
def execKvTableDestroy (ch : Fin 4) (r : Request) (s : State) : Out := cerfosil s ch 0x0601 r cmdKvDestroy
def execPageCommit (ch : Fin 4) (r : Request) (s : State) : Out := cerfosil s ch 0x0602 r cmdPageCommit
def execKvTableQuery (ch : Fin 4) (r : Request) (s : State) : Out := cerfosil s ch 0x0603 r cmdKvQuery

end Sys2Proof.Machine
end

