-- ==== Sys2Proof/Machine/Edges.lean ====
section
/-! DEFINITION. DRAM scrubbing and mirror configuration, die edges, rerouting, fault injectors and their commands
(chapter 09, R236–R251, R258–R262). -/

namespace Sys2Proof.Machine

/-! ### Fault injectors disarmed (R7) -/

/-- Every injector disarmed and its pending trigger discarded (R7). -/
def disarmAll (s : State) : State :=
  (List.range 8).foldl (fun s i => s.modInj i (fun j => { j with armed := false, left := 0 })) s

/-! ### DRAM controllers (R237, R238) -/

/-- The patrol scrubber takes the next codeword (R237). -/
def patrolScrub (s : State) (d : Nat) : State :=
  let c := s.fab.drm.get d
  if c.scrubEn ∧ c.ready ∧ !c.selfref ∧ !c.cap50 then
    let a := d * dieSpan + c.scrubPos
    let b := a / 32
    let s := match s.fab.symErr.get b with
      | 0 => s
      | 1 => if s.fab.poison.hit a 32 then s else clearSymbols (dramCorrected s d (dramChannel c.scrubPos)) b 1
      | _ => if s.fab.poison.hit a 32 then s else
          clearSymbols (markPoison (dramUncorrectable s d a (dramChannel c.scrubPos) 1 0xFF) a 32 32) b 1
    s.modDrm d (fun c =>
      if c.scrubPos + 32 < dieSpan then { c with scrubPos := c.scrubPos + 32 }
      else { c with scrubPos := 0, scrubPass := cnt c.scrubPass 1 })
  else s

/-- The end of a second of correction counts (R238): a channel at 1,000 or more reports, once until a second below. -/
def ceRateWindow (s : State) (d : Nat) : State :=
  let s := (List.range 64).foldl (fun s ch =>
    let c := s.fab.drm.get d
    let n := c.ceWin.get ch
    if 1000 ≤ n then
      let s := s.modDrm d (fun c => { dramCapture c 0 ch 2 0xFF with ceRated := c.ceRated.set ch true })
      if c.ceRated.get ch then s else raiseEvent s 0x0101 d [ch, n]
    else s.modDrm d (fun c => { c with ceRated := c.ceRated.set ch false })) s
  s.modDrm d (fun c => { c with ceWin := Tab.const 0 })

/-- DRM_STAT (R260). -/
def drmStat (c : Dram) : Nat :=
  pack [(1, b2n c.ready), (1, 0), (1, b2n (c.scrubEn && c.ready && !c.selfref && !c.cap50)), (1, 0), (1, b2n c.selfref), (1, b2n c.cap50), (2, b2n c.doubled)]

/-- Page 0x40 of unit 0x10 + d (R260). -/
def pageDrm (s : State) (d : Nat) : List Reg :=
  let c := s.fab.drm.get d
  [r4 0x000 (drmStat c), r4 0x004 0, r4 0x008 c.ceCnt, r4 0x00C c.ueCnt, r4 0x010 c.poisonCnt, r4 0x014 c.scrubPass, r8 0x018 c.errAddr,
   r4 0x020 (drmErrInfo c), r8 0x028 c.scrubPos, r4 0x030 (b2n c.scrubEn + c.scrubHrs * 256)] ++
  regsFor 32 (fun k => [r4 (0x100 + 4 * k) (c.ceCh.get (2 * k) + c.ceCh.get (2 * k + 1) * 65536)])

/-- DRM_CTRL.cnt_clr (R260). -/
def drmCntClr (s : State) (d : Nat) : State :=
  s.modDrm d (fun c => { c with ceCnt := 0, ueCnt := 0, poisonCnt := 0, scrubPass := 0, ceCh := Tab.const 0 })

/-- DRAM_SCRUB_CONFIG (R261). -/
def cmdScrubConfig (s : State) (c : Cmd) : State × Reply :=
  let f := clampFields c.pay 3 [fr 1 1 0 1, fr 2 1 1 168]
  let m := fld f.1 0 1
  let out := putBytes f.1 0 (leBytes 1 (m % 16))
  let s := (bitsOf m 4).foldl (fun s d => s.modDrm d (fun x => { x with scrubEn := fld f.1 1 1 == 1, scrubHrs := fld f.1 2 1 })) s
  (s, reply stOk (f.2 + (if m < 16 then 0 else 1)) out)

/-! ### Mirror regions (R239, R260, R261) -/

/-- 64 MiB units of the regions of a type, leaving out one region. -/
def mirrorTotal (s : State) (type skip : Nat) : Nat :=
  ((List.range 8).map (fun i =>
    let r := s.fab.mir.regions.get i
    if i ≠ skip ∧ r.type = type then r.size else 0)).sum

/-- MIRROR_CONFIG (R239, R261). -/
def cmdMirrorConfig (s : State) (c : Cmd) : State × Reply :=
  let f := clampFields c.pay 16 [fr 0 1 0 7, fr 1 1 0 2, fr 2 2 1 128, fz 4 4, fm 8 8 0 (2 ^ 64 - 1) 0x4000000]
  let n := fld f.1 0 1
  let type := fld f.1 1 1
  let size := fld f.1 2 2
  let base := fld f.1 8 8
  let meets := fun (b e : Nat) => decide (base < e ∧ b < base + size * 0x4000000)
  let overlap := (List.range 8).any (fun i =>
    let r := s.fab.mir.regions.get i
    (i != n && r.type != 0 && meets r.range.1 r.range.2) ||
    (let a := s.so.acc.get i; a.fmt != 0 && meets a.base (a.base + a.size * 65536)))
  if (s.fab.mir.regions.get n).on then (s, reply stBusy f.2 [])
  else if type ≠ 0 ∧ ¬ (base + size * 0x4000000 ≤ 4 * dieSpan ∧ base / dieSpan = (base + size * 0x4000000 - 1) / dieSpan) then
    (s, reply stDecodeError f.2 [])
  else if type ≠ 0 ∧ (128 < mirrorTotal s type n + size ∨ overlap) then (s, reply stNoResource f.2 [])
  else
    let s := { s.modRegion n (fun _ => { type := type, size := size, base := base, on := false, diverged := false }) with
      so.pair.invalid := Nat.land s.so.pair.invalid (255 - 2 ^ n), so.pair.verified := Nat.land s.so.pair.verified (255 - 2 ^ n) }
    (s, reply stOk f.2 (f.1 ++ leBytes 4 (mirrorTotal s 1 8) ++ leBytes 4 (mirrorTotal s 2 8)))

/-- Page 0x41 of unit 0x00 (R260). -/
def pageMir (s : State) : List Reg :=
  let m := s.fab.mir
  [r4 0x000 (pack [(8, maskOf 8 (fun i => (m.regions.get i).type != 0)), (8, maskOf 8 (fun i => (m.regions.get i).on)),
                   (8, maskOf 8 (fun i => (m.regions.get i).diverged))]),
   r4 0x008 m.pend.length, r4 0x00C m.failCnt, r8 0x010 m.bytes] ++
  regsFor 8 (fun n =>
    let r := m.regions.get n
    [r8 (0x100 + 8 * n) (pack [(26, 0), (22, r.base / 0x4000000), (8, if r.type = 0 then 0 else r.size), (6, 0), (2, r.type)])])

/-! ### Lanes and groups (R244–R249) -/

/-- EDGE_LANE entries of the defect list for a group (R432, R444): they never return within a power cycle. -/
def defectLanes (s : State) (k dir g : Nat) : List Nat :=
  s.bu.defects.filterMap (fun e =>
    let v := e.toNat
    if field v 63 60 = 2 ∧ field v 2 0 = k ∧ field v 3 3 = dir ∧ field v 6 4 = g then some (field v 14 8) else none)

/-- The good physical lanes of a group, ascending. -/
def goodLanes (g : EGroup) : List Nat := (List.range 68).filter (fun l => !g.bad.contains l)

/-- The width that lanes allow: full with 64 or more good, half with 32 to 63, off below (R247). -/
def widthFor (n : Nat) : Nat := if 64 ≤ n then 2 else if 32 ≤ n then 1 else 0

/-- A group trained at the width its good lanes allow, on the lowest-numbered of them (R245, R247). -/
def trainGroup (g : EGroup) : EGroup :=
  let good := goodLanes g
  let w := widthFor good.length
  { g with width := w, sig := w, map := good.take (if w = 2 then 64 else if w = 1 then 32 else 0), spares := 0,
           retraining := false, leftOff := false, nak := none, replay := false, win := Tab.const 0 }

/-- The width signature of a direction (R247). -/
def widthSig (s : State) (k dir : Nat) : Nat :=
  ((List.range 8).map (fun g => (s.fab.groups.get (groupNo k dir g)).sig * 4 ^ g)).sum

/-- Live groups of an edge: the smaller count of its two directions (R246). -/
def liveGroups (s : State) (k : Nat) : Nat :=
  let n := fun (d : Nat) => ((List.range 8).filter (fun g => (s.fab.groups.get (groupNo k d g)).width != 0)).length
  min (n 0) (n 1)

/-- An edge lost (R246): DISABLED, EDGE_DOWN, its requests held for a reroute. -/
def edgeDown (s : State) (k : Nat) : State :=
  qosRecompute (raiseEvent (s.modEdge k (fun e => { e with state := 3, holding := true })) 0x0106 k [])

/-- An UP edge with fewer than 4 live groups goes down (R246). -/
def edgeCheck (s : State) (k : Nat) : State :=
  if (s.fab.edges.get k).state = 2 ∧ liveGroups s k < 4 then edgeDown s k else qosRecompute s

/-- Payload of the lane-group events (R312). -/
def groupPay (dir g : Nat) : Nat := dir + g * 2

/-- A lane becomes failing (R244, R245). -/
def laneFail (s : State) (k dir g lane : Nat) : State :=
  let n := groupNo k dir g
  let gr := s.fab.groups.get n
  if gr.bad.contains lane then s
  else
    let s := s.modGroup n (fun x => { x with bad := lane :: x.bad })
    let gr := s.fab.groups.get n
    match indexOf? (· == lane) gr.map with
    | none => s
    | some l =>
      let free := (goodLanes gr).filter (fun x => !gr.map.contains x)
      match free, gr.width with
      | x :: _, 2 =>
        let s := s.modGroup n (fun q => { q with map := q.map.set l x, spares := q.spares + 1 })
        raiseEvent s 0x0103 k [groupPay dir g + l * 256 + x * 65536]
      | x :: _, 1 => s.modGroup n (fun q => { q with map := q.map.set l x })
      | _, 2 =>
        let t := trainGroup gr
        edgeCheck (s.modGroup n (fun q => { t with sig := q.sig, retraining := true, spares := 0 })) k
      | _, 1 =>
        let s := s.modGroup n (fun q => { q with width := 0, sig := 0, map := [] })
        edgeCheck (raiseEvent s 0x0105 k [groupPay dir g, widthSig s k dir]) k
      | _, _ => s

/-- A group's retrain is done (R245, R249): it is live at the width it trained to and replays what it held. -/
def groupRetrainDone (s : State) (k dir g : Nat) : State :=
  let n := groupNo k dir g
  let gr := s.fab.groups.get n
  if !gr.retraining then s
  else
    let s := s.modGroup n (fun q => { q with retraining := false, sig := q.width, retrains := sat 8 (q.retrains + 1), replay := false })
    if gr.width < gr.sig then raiseEvent s 0x0104 k [groupPay dir g, widthSig s k dir] else s

/-- Requests of one network whose path under the table in force uses edge `k`. -/
def usesEdge (s : State) (k : Nat) (r : NetReq) : Bool :=
  let t := match target r.addr.toNat with
    | .dram d _ => d
    | .tileSram p _ => dieOf p
    | .reg u _ _ => if 0x10 ≤ u ∧ u < 0x14 then u - 0x10 else if 0x40 ≤ u ∧ u < 0x64 then dieOf (u - 0x40) else 4
    | _ => 4
  match pathEdges s.fab.routes.rt (nodeOfSrc r.src.toNat) t with
  | some l => l.any (fun h => h.1 == k)
  | none => false

/-- A request completes at its source with an error status, a read with poison (R28, R33, R246, R251). -/
def failRequest (s : State) (r : NetReq) (st : Half) : State :=
  netAnswer { s with fab.net.inflight := eraseFirst (· == r) s.fab.net.inflight } r st [] (r.op == 0)

/-- After 100 µs, the requests still held for a lost edge complete with NO_ROUTE (R246). -/
def edgeHoldTimeout (s : State) (k : Nat) : State :=
  if (s.fab.edges.get k).holding then
    let l := s.fab.net.inflight.filter (usesEdge s k)
    l.foldl (fun s r => failRequest s r stNoRoute) (s.modEdge k (fun e => { e with holding := false }))
  else s

/-- Training of an edge (R247): every lane tested, widths derived; an edge that is UP trains only its returning groups (R249). -/
def edgeTraining (s : State) (k : Nat) (fails : List LaneRef) : State :=
  let up := (s.fab.edges.get k).state = 2
  let s := (List.range 16).foldl (fun s i =>
    let dir := i / 8
    let g := i % 8
    s.modGroup (groupNo k dir g) (fun q =>
      let bad := (fails.filter (fun l => l.edge.val == k && l.dir.val == dir && l.group.val == g)).map (fun l => l.lane.val)
      let q' := { q with bad := (q.bad ++ bad ++ defectLanes s k dir g).eraseDups }
      if up && (q.width != 0 && !(q.width == 1 && decide (64 ≤ (goodLanes q').length))) then q' else trainGroup q')) s
  if up then qosRecompute s
  else qosRecompute (s.modEdge k (fun e => { e with state := 1, eseq := Tab.const 0, early := Tab.const [] }))

/-- The end of a training attempt (R248): the groups whose signatures disagree are left off. -/
def trainingAttemptDone (s : State) (k : Nat) (dis : List (Fin 2 × Fin 8)) : State :=
  if (s.fab.edges.get k).state ≠ 1 then s
  else
    let s := dis.foldl (fun s x =>
      s.modGroup (groupNo k x.1 x.2) (fun q => { q with width := 0, sig := 0, map := [], leftOff := true })) s
    let s := s.modEdge k (fun e => { e with mismatch := !dis.isEmpty })
    if 4 ≤ liveGroups s k then qosRecompute (s.modEdge k (fun e => { e with state := 2, attempts := 0, holding := false }))
    else
      let s := s.modEdge k (fun e => { e with attempts := min 3 (e.attempts + 1) })
      if (s.fab.edges.get k).attempts = 3 then edgeDown s k else s

/-- An automatic retrain window (R249): at most every 100 ms while a group is left off by disagreement. -/
def retrainWindow (s : State) (k : Nat) : State :=
  let e := s.fab.edges.get k
  let left := (List.range 16).filter (fun i => (s.fab.groups.get (groupNo k (i / 8) (i % 8))).leftOff)
  let due : Bool := match e.winAt with
    | some t => decide (t + 100000000 ≤ s.dt)
    | none => true
  if e.state = 2 ∧ left ≠ [] ∧ due then
    let s := s.modEdge k (fun e => { e with winAt := some s.dt })
    left.foldl (fun s i => s.modGroup (groupNo k (i / 8) (i % 8)) (fun q => { trainGroup q with sig := 0, retraining := true })) s
  else s

/-- `a` is at most `b` in 16-bit sequence order. -/
def seqLe (a b : Half) : Bool := decide ((b - a).toNat < 32768)

/-- In-order delivery by eseq across groups (R243): what is next is delivered, and with it what waited for it. -/
def drainEarly : Nat → Half → List (Half × List Byte) → Nat → Half × List (Half × List Byte) × Nat
  | 0, e, l, n => (e, l, n)
  | f + 1, e, l, n =>
    match l.find? (fun x => x.1 == e) with
    | some x => drainEarly f (e + 1) (l.filter (fun y => y.1 != e)) (n + x.2.length)
    | none => (e, l, n)

/-- A flit arrives at the receiver of a group (R242, R243, R259). -/
def edgeFlit (s : State) (k dir g : Nat) (f : EdgeFlit) : State :=
  let n := groupNo k dir g
  if (s.fab.groups.get n).width = 0 ∨ (s.fab.groups.get n).retraining then s
  else
    let x := inject s 0 k g dir
    let s := x.1
    let reject := fun (s : State) (lanes : List Nat) (count : Bool) =>
      s.modGroup n (fun q =>
        let ls := if count then lanes.filterMap (fun l => q.map[l]?) else []
        { q with rtyCnt := cnt q.rtyCnt 1, nak := some q.expect,
                 lerr := ls.foldl (fun t l => t.modify l (fun v => sat 8 (v + 1))) q.lerr,
                 win := ls.foldl (fun t l => t.modify l (· + 1)) q.win })
    match x.2 with
    | some .drop => s
    | some .reorder => reject s [] false
    | some (.corrupt l h) => reject s [l] h
    | _ =>
      if !f.crcOk || !f.badLanes.isEmpty then reject s (f.badLanes.map (·.val)) true
      else
        let back := groupNo k (1 - dir) g
        let s := s.modGroup back (fun q => { q with retry := q.retry.filter (fun a => !seqLe a f.ack), credits := q.credits + f.credit.toNat })
        let q := s.fab.groups.get n
        match f.kind.toNat with
        | 2 => s.modGroup back (fun q => { q with replay := true })
        | 0 =>
          if f.gseq ≠ q.expect then (if seqLe f.gseq q.expect then s else reject s [] false)
          else
            let s := s.modGroup n (fun q => { q with expect := q.expect + 1, nak := none })
            let e := s.fab.edges.get k
            let r := drainEarly 1024 (e.eseq.get dir) (e.early.get dir ++ [(f.eseq, slice f.data 0 1984)]) 0
            s.modEdge k (fun e => { e with eseq := e.eseq.set dir r.1, early := e.early.set dir r.2.1,
                                           delivered := e.delivered.modify dir (· + r.2.2) })
        | _ => s

/-! ### Rerouting (R250, R251) -/

/-- The ordered pairs of nodes, by index (R250). -/
def pairOf (i : Nat) : Nat × Nat := (i / 4, if i % 4 < i / 4 then i % 4 else i % 4 + 1)

/-- The code of flow `i` in a table. -/
def flowCode (rt i : Nat) : Nat := field rt (2 * i + 1) (2 * i)

/-- Flows whose code differs between two tables. -/
def changedFlows (a b : Nat) : List Nat := (List.range 20).filter (fun i => flowCode a i != flowCode b i)

/-- The flow of a request (R251): its index, if it crosses dies. -/
def flowOf (r : NetReq) : Option Nat :=
  let t := match target r.addr.toNat with
    | .dram d _ => d
    | .tileSram p _ => dieOf p
    | .reg u _ _ => if 0x10 ≤ u ∧ u < 0x14 then u - 0x10 else if 0x40 ≤ u ∧ u < 0x64 then dieOf (u - 0x40) else 4
    | _ => 4
  let f := nodeOfSrc r.src.toNat
  if f = t then none else some (pairIndex f t)

/-- Every new path of the changed flows uses edges that are UP (R251). -/
def routesUsable (s : State) (new : Nat) : Bool :=
  (changedFlows s.fab.routes.rt new).all (fun i =>
    match pathEdges new (pairOf i).1 (pairOf i).2 with
    | some l => l.all (fun h => edgeUp s h.1)
    | none => true)

/-- ROUTE_CHANGE when every flow has switched (R251). -/
def rerouteDone (s : State) : State :=
  let s := { s with fab.routes := { s.fab.routes with newRt := none, routeCnt := cnt s.fab.routes.routeCnt 1 } }
  qosRecompute (raiseEvent s 0x0107 0 [s.fab.routes.rt])

/-- A reroute begins (R251): its changed flows are held; the requests under way on the old paths drain. -/
def startReroute (s : State) (new : Nat) : State :=
  let fl := changedFlows s.fab.routes.rt new
  if fl = [] then rerouteDone s
  else
    let old := s.fab.net.inflight.filterMap (fun r => match flowOf r with
      | some i => if fl.contains i then some (i, r) else none
      | none => none)
    { s with fab.routes := { s.fab.routes with newRt := some new, held := fl, heldReqs := old, switched := 0 } }

/-- A flow whose old path has drained switches (R251). -/
def flowSwitch (s : State) (i : Nat) : State :=
  let r := s.fab.routes
  match r.newRt with
  | some new =>
    if r.held.contains i ∧ !r.heldReqs.any (fun x => x.1 == i) then
      let rt := r.rt - flowCode r.rt i * 4 ^ i + flowCode new i * 4 ^ i
      let s := { s with fab.routes := { r with rt := rt, held := r.held.erase i, switched := r.switched + 1 } }
      if s.fab.routes.held = [] then rerouteDone s else s
    else s
  | none => s

/-- After 20 µs the requests still on the old path complete with NO_ROUTE (R251). -/
def flowDrainTimeout (s : State) (i : Nat) : State :=
  let l := s.fab.routes.heldReqs.filter (fun x => x.1 == i)
  let s := { s with fab.routes.heldReqs := s.fab.routes.heldReqs.filter (fun x => x.1 != i) }
  l.foldl (fun s x => failRequest s x.2 stNoRoute) s

/-- Reserved codes taken as the nearest legal one, and reserved bits cleared (R250, R295). -/
def clampTable (t : Nat) : Nat × Nat :=
  let r := (List.range 20).foldl (fun (a : Nat × Nat) i =>
    let p := pairOf i
    let c := flowCode t i
    let ring := p.1 < 4 ∧ p.2 < 4 ∧ p.2 ≠ (p.1 + 2) % 4
    if ring ∧ c = 2 then (a.1 + 4 ^ i, a.2 + 1) else (a.1 + c * 4 ^ i, a.2)) (0, 0)
  (r.1, r.2 + (if t < 2 ^ 40 then 0 else 1))

/-- FABRIC_ROUTE (R251, R261). The longest drain, up to 20 µs, is a free value: the reroute ends in later steps. -/
def cmdFabricRoute (s : State) (c : Cmd) : State × Reply :=
  let t := clampTable (fld c.pay 0 8)
  if !routesUsable s t.1 then (s, reply stNoRoute t.2 [])
  else if s.fab.routes.newRt.isSome then (s, reply stBusy t.2 [])
  else
    let n := (changedFlows s.fab.routes.rt t.1).length
    (startReroute s.took t.1, reply stOk t.2 (leBytes 4 n ++ leBytes 4 (s.freeVal.toNat % 20001)))

/-! ### Edge stations (R260) -/

/-- The edge and receive direction of station `e` of node `n` (R260): compute dies 0–3, hub 4. -/
def stationEdge (n e : Nat) : Nat × Nat :=
  if n = 4 then (e, 1) else if e = 0 then (n, 0) else if e = 1 then (4 + (n + 3) % 4, 0) else (4 + n, 1)

/-- The registers of an edge station block at page offset `b` (R260). -/
def stationRegs (s : State) (n e b : Nat) : List Reg :=
  let x := stationEdge n e
  let ed := s.fab.edges.get x.1
  let gr := fun (g : Nat) => s.fab.groups.get (groupNo x.1 x.2 g)
  let live := ((List.range 8).filter (fun g => (gr g).width != 0)).length
  let good := fun (g l : Nat) => !(gr g).bad.contains l
  [r4 b (pack [(7, 0), (1, b2n ed.mismatch), (16, widthSig s x.1 x.2), (4, live), (2, ed.attempts), (2, ed.state)]), r4 (b + 4) 0] ++
  regsFor 8 (fun g => [r4 (b + 0x20 + 4 * g) (pack [(8, 0), (8, (gr g).retrains), (4, maskOf 4 (fun l => good g (64 + l))),
    (7, (goodLanes (gr g)).length), (3, (gr g).spares), (2, (gr g).sig)])]) ++
  regsFor 8 (fun g => [r4 (b + 0x40 + 4 * g) (gr g).rtyCnt]) ++
  regsFor 8 (fun g => [r8 (b + 0x60 + 8 * g) (maskOf 64 (good g))]) ++
  regsFor 8 (fun g => regsFor 17 (fun j =>
    [r4 (b + 0x100 + 0x48 * g + 4 * j) (((List.range 4).map (fun i => (gr g).lerr.get (4 * j + i) * 256 ^ i)).sum)]))

/-- D2D_ECTRL.cnt_clr of a station (R260). -/
def stationClr (s : State) (n e : Nat) : State :=
  let x := stationEdge n e
  (List.range 8).foldl (fun s g =>
    s.modGroup (groupNo x.1 x.2 g) (fun q => { q with rtyCnt := 0, lerr := Tab.const 0, retrains := 0 })) s

/-- Page 0x00 of unit 0x10 + d (R260). -/
def pageTransit (s : State) (d : Nat) : List Reg :=
  stationRegs s d 0 0x000 ++ stationRegs s d 1 0x400 ++ stationRegs s d 2 0x800 ++
  [r4 0xC00 (pack [(9, maskOf 9 (fun i => let t := s.tiles.get (9 * d + i); t.inReset || t.isoEn)), (1, b2n (s.fab.dieReset.get d))]),
   r4 0xC04 (s.fab.absorbs.get d), r4 0xC08 0]

/-- Page 0x44 of unit 0x00 (R260). -/
def pageHubEdges (s : State) : List Reg := regsFor 4 (fun d => stationRegs s 4 d (0x400 * d))

/-- D2D_TD_CTRL.cnt_clr: the die's page 0x00 (R260). -/
def transitClr (s : State) (d : Nat) : State :=
  stationClr (stationClr (stationClr { s with fab.absorbs := s.fab.absorbs.set d 0 } d 0) d 1) d 2

/-- Page 0x42 of unit 0x00 (R260). -/
def pageRoutes (s : State) : List Reg :=
  let r := s.fab.routes
  [r8 0x000 r.rt, r4 0x008 (maskOf 20 r.held.contains + 2 ^ 31 * b2n r.newRt.isSome), r4 0x00C r.routeCnt, r4 0x010 0] ++
  regsFor 8 (fun i =>
    let j := s.fab.inj.get i
    [r8 (0x100 + 32 * i) (j.cfg.toNat % 2 ^ 63 + 2 ^ 63 * b2n j.armed), r8 (0x108 + 32 * i) j.t, r4 (0x110 + 32 * i) j.count,
     r4 (0x114 + 32 * i) j.fired])

/-- D2D_FI_CTRL.cnt_clr (R260). -/
def fiCntClr (s : State) : State :=
  let s := { s with fab.routes.routeCnt := 0 }
  (List.range 8).foldl (fun s i => s.modInj i (fun j => { j with fired := 0 })) s

/-- FABRIC_QUERY (R261): the hub's or first die's end, then the other, then D2D_RT. -/
def cmdFabricQuery (s : State) (c : Cmd) : State × Reply :=
  let f := clampFields c.pay 1 [fr 0 1 0 7]
  let k := fld f.1 0 1
  let ends := if k < 4 then [(4, k), (k, 0)] else [(k - 4, 2), ((k - 3) % 4, 1)]
  let one := fun (x : Nat × Nat) => regBytes ((stationRegs s x.1 x.2 0).filter (fun r => r.off = 0 || (0x20 ≤ r.off && r.off < 0x40) ||
    (0x60 ≤ r.off && r.off < 0xA0)))
  (s, reply stOk f.2 ((ends.map one).flatten ++ leBytes 8 s.fab.routes.rt))

/-- Some code of the table in force uses an edge (R251). -/
def edgeInUse (s : State) (k : Nat) : Bool :=
  (List.range 20).any (fun i => match pathEdges s.fab.routes.rt (pairOf i).1 (pairOf i).2 with
    | some l => l.any (fun h => h.1 == k)
    | none => false)

/-- EDGE_CONTROL (R249, R251, R261). -/
def cmdEdgeControl (s : State) (c : Cmd) : State × Reply :=
  let f := clampFields c.pay 3 [fr 0 1 0 7, fr 1 1 0 2, fr 2 1 0 1]
  let k := fld f.1 0 1
  let act := fld f.1 1 1
  let clear := fld f.1 2 1 = 1
  let e := s.fab.edges.get k
  let answer := fun (s : State) => (s, reply stOk f.2 (leBytes 4 (s.fab.edges.get k).state))
  let forget := fun (s : State) => if clear then (List.range 16).foldl (fun s i =>
      s.modGroup (groupNo k (i / 8) (i % 8)) (fun q => { q with bad := defectLanes s k (i / 8) (i % 8) })) s else s
  if act = 1 then
    if edgeInUse s k then (s, reply stBusy f.2 [])
    else answer (qosRecompute (s.modEdge k (fun e => { e with state := 3 })))
  else if act = 2 then
    answer (if e.state = 3 then (forget s).modEdge k (fun e => { e with state := 1, attempts := 0 }) else s)
  else
    answer (if e.state = 2 then forget s else (forget s).modEdge k (fun e => { e with state := 1, attempts := 0 }))

/-! ### Injector and hub DMA commands (R258–R261) -/

/-- A configuration of an injector with its fields clamped (R260, R295). -/
def clampFi (v : Nat) : Nat × Nat :=
  let cl := min 2 (fiClass v)
  let ix := min (if cl = 1 then 5 else 7) (fiIndex v)
  let ac := min 3 (fiAction v)
  let ln := if fiLane v < 64 ∨ fiLane v = 255 then fiLane v else if fiLane v < 160 then 63 else 255
  let tr := min 2 (fiTrigger v)
  let n := if tr = 0 then clampN 1 30 (fiN v) else fiN v
  let ch := fun (a b : Nat) => if a = b then 0 else 1
  (pack [(1, v), (24, 0), (5, n), (2, tr), (8, ln), (4, ac), (1, fiDir v), (3, fiGroup v), (8, ix), (2, cl), (5, 0), (1, 0)],
   ch cl (fiClass v) + ch ix (fiIndex v) + ch ac (fiAction v) + ch ln (fiLane v) + ch tr (fiTrigger v) + ch n (fiN v) +
   ch (field v 24 1) 0 + ch (field v 62 58) 0)

/-- FAULT_INJECT (R6, R258, R259, R261). -/
def cmdFaultInject (s : State) (c : Cmd) : State × Reply :=
  let f := clampFields c.pay 28 [fr 0 1 0 7, fz 1 7, fr 24 4 1 (2 ^ 32 - 1)]
  let i := fld f.1 0 1
  let v := clampFi (fld f.1 8 8)
  let clamps := f.2 + v.2
  if s.host.opMode then (s, reply stDeniedMode clamps [])
  else if (s.fab.inj.get i).armed then (s, reply stBusy clamps [])
  else if fiAction v.1 = 2 ∧ fiClass v.1 ≠ 1 then (s, reply stBadField clamps [])
  else
    (s.modInj i (fun _ => { armed := true, cfg := BitVec.ofNat 64 v.1, t := fld f.1 16 8, count := fld f.1 24 4, fired := 0,
                            left := fld f.1 24 4, reported := false }),
     reply stOk clamps (putBytes f.1 8 (leBytes 8 v.1)))

/-- FAULT_DISARM (R258, R261). -/
def cmdFaultDisarm (s : State) (c : Cmd) : State × Reply :=
  let m := bitsOf (fld c.pay 0 1) 8
  let s := m.foldl (fun s i => s.modInj i (fun j => { j with armed := false, left := 0 })) s
  (s, reply stOk 0 (catMap 8 (fun i => leBytes 4 (if m.contains i then (s.fab.inj.get i).fired else 0))))

/-- FAULT_QUERY (R261). -/
def cmdFaultQuery (s : State) (_ : Cmd) : State × Reply :=
  (s, reply stOk 0 (regBytes ((pageRoutes s).filter (fun r => 0x100 ≤ r.off))))

/-- HUBDMA_CONFIG (R257, R261). -/
def cmdHubdmaConfig (s : State) (c : Cmd) : State × Reply :=
  let f := clampFields c.pay 10 [fm 0 8 0 (2 ^ 48 - 64) 64, fr 8 2 0 256]
  if s.fab.hdma.busy then (s, reply stBusy f.2 [])
  else ({ s with fab.hdma.pdirBase := fld f.1 0 8, fab.hdma.pdirCnt := fld f.1 8 2 }, reply stOk f.2 f.1)

/-! ### One meaning per command -/

def execDramPatrolScrub (d : Fin 4) (s : State) : Out := .next (patrolScrub s d)
def execCeRateWindow (d : Fin 4) (now : Nat) (s : State) : Out := .next (ceRateWindow (s.advance now) d)
def execEdgeFlitReceive (k : Fin 8) (dir : Fin 2) (g : Fin 8) (f : EdgeFlit) (s : State) : Out := .next (edgeFlit s k dir g f)
def execLaneFail (l : LaneRef) (s : State) : Out := .next (laneFail s l.edge l.dir l.group l.lane)
def execGroupRetrainDone (k : Fin 8) (dir : Fin 2) (g : Fin 8) (s : State) : Out := .next (groupRetrainDone s k dir g)
def execEdgeHoldTimeout (k : Fin 8) (s : State) : Out := .next (edgeHoldTimeout s k)
def execEdgeTraining (k : Fin 8) (fails : List LaneRef) (s : State) : Out := .next (edgeTraining s k fails)
def execTrainingAttemptDone (k : Fin 8) (dis : List (Fin 2 × Fin 8)) (s : State) : Out := .next (trainingAttemptDone s k dis)
def execRetrainWindow (k : Fin 8) (now : Nat) (s : State) : Out := .next (retrainWindow (s.advance now) k)
def execDrmCtrlCntClr (d : Fin 4) (s : State) : Out := .next (drmCntClr s d)
def execDrmErrInfoRearm (d : Fin 4) (s : State) : Out := .next (s.modDrm d (fun c => { c with errValid := false }))
def execD2dEctrlCntClr (n : Fin 5) (e : Fin 4) (s : State) : Out := .next (if n.val < 4 ∧ e.val = 3 then s else stationClr s n e)
def execD2dTdCtrlCntClr (d : Fin 4) (s : State) : Out := .next (transitClr s d)
def execD2dFiCtrlCntClr (s : State) : Out := .next (fiCntClr s)
def execDramScrubConfig (ch : Fin 4) (r : Request) (s : State) : Out := cerfosil s ch 0x0120 r cmdScrubConfig
def execMirrorConfig (ch : Fin 4) (r : Request) (s : State) : Out := cerfosil s ch 0x0121 r cmdMirrorConfig
def execFabricRoute (ch : Fin 4) (r : Request) (s : State) : Out := cerfosil s ch 0x0122 r cmdFabricRoute
def execFabricQuery (ch : Fin 4) (r : Request) (s : State) : Out := cerfosil s ch 0x0123 r cmdFabricQuery
def execEdgeControl (ch : Fin 4) (r : Request) (s : State) : Out := cerfosil s ch 0x0124 r cmdEdgeControl
def execHubdmaConfig (ch : Fin 4) (r : Request) (s : State) : Out := cerfosil s ch 0x0125 r cmdHubdmaConfig
def execFaultInject (ch : Fin 4) (r : Request) (s : State) : Out := cerfosil s ch 0x0810 r cmdFaultInject
def execFaultDisarm (ch : Fin 4) (r : Request) (s : State) : Out := cerfosil s ch 0x0811 r cmdFaultDisarm
def execFaultQuery (ch : Fin 4) (r : Request) (s : State) : Out := cerfosil s ch 0x0812 r cmdFaultQuery

end Sys2Proof.Machine
end

