-- ==== Sys2Proof/Machine/Access.lean ====
section
/-! DEFINITION. Reads and writes that a master makes of memory through the network, as their target performs them (R26–R33, R37,
R40, R236, R239–R241, R282, R465). Register pages are served in Regs.lean. -/

namespace Sys2Proof.Machine

/-- The node at which a target lies: a die, or 4 for the hub. -/
def nodeOf : Target → Nat
  | .dram d _ => d
  | .tileSram p _ => dieOf p
  | .reg u _ _ => if 0x10 ≤ u ∧ u < 0x14 then u - 0x10 else if 0x40 ≤ u ∧ u < 0x64 then dieOf (u - 0x40) else 4
  | _ => 4

/-- Whether the path from a source to a node is usable: every edge of its route is UP (R38, R246). -/
def pathUsable (s : State) (src node : Nat) : Bool :=
  if nodeOfSrc src = node then true
  else match pathEdges s.fab.routes.rt (nodeOfSrc src) node with
    | some l => l.all (fun h => edgeUp s h.1)
    | none => false

/-- A request to the device's own remote window goes to local DRAM (R31). -/
def localAddr (s : State) (a : Nat) : Nat :=
  match target a with
  | .remote n off => if n = s.so.dlf.devnum ∧ off < 4 * dieSpan then off else a
  | _ => a

/-- Buffer `b` of the Sieve is CURRENT or PINNED and meets a range (R189). -/
def sieveLocked (s : State) (addr len : Nat) : Bool :=
  s.sie.valid && (List.range 2).any (fun b =>
    let x := s.sie.bufs.get b
    (s.sie.cur == some b || decide (0 < s.sie.pins.get b)) && decide (x.1 < addr + len ∧ addr < x.1 + x.2))

/-- A request to remote window `n` has no way: the device is not joined or not reachable (R31). -/
def unreachable (s : State) (n : Nat) : Bool := !s.so.dlf.valid || !bit s.so.dlf.reach.toNat n || s.so.dlf.rt.get n == 0xF

/-- The RD_REQ or WR_REQ of a local master's request to device `n` sent on the route for it (R379). -/
def remotePacket (s : State) (r : NetReq) (n off : Nat) : State :=
  let d := s.so.dlf
  let k : DlfPacket := { kind := if r.op = 0 then 0 else 2, src := BitVec.ofNat 8 d.devnum, dst := BitVec.ofNat 8 n, label := r.label, hops := 0,
                         tag := BitVec.ofNat 16 d.nextTag, status := 0, addr := BitVec.ofNat 48 off, len := r.len, master := r.src,
                         data := if r.op = 0 then [] else r.data }
  dlfSend { s with so.dlf.nextTag := (d.nextTag + 1) % 65536 } (d.rt.get n) k

/-- A request to another device by a unit whose accesses are made within its step: the packet goes out, and what the other device answers is
a free value (log entry 3). -/
def remoteNow (s : State) (r : NetReq) (n off : Nat) : State × Half :=
  let s := remotePacket s r n off
  (s.took, [stOk, stNoRoute, stDecodeError, stTargetReset, stUncorrectable].getD (s.freeVal.toNat % 5) stOk)

/-- The status with which a memory target refuses an access; none where it performs it (R28, R33, R189, R241, R282). -/
def refusal (s : State) (write : Bool) (addr len : Nat) : Option Half :=
  match target addr with
  | .dram d _ =>
    if s.fab.transitDown.get d || s.fab.dieReset.get d || (s.fab.drm.get d).selfref then some stTargetReset
    else if write && (mirrorOf s 2 addr len).isSome then some stDecodeError
    else none
  | .tileSram p _ =>
    if (s.tiles.get p).defective then some stDecodeError
    else if tileAbsorbed s p || s.fab.transitDown.get (dieOf p) then some stTargetReset else none
  | .hubSram _ => if write && sieveLocked s addr len then some stDecodeError else none
  | .ingress _ _ => if write then none else some stDecodeError
  | .host bus => if hostReach s bus len then none else some stNoRoute
  | .reg _ _ _ => some stDecodeError
  | .remote n off => if 4 * dieSpan ≤ off then some stDecodeError else if unreachable s n then some stNoRoute else none
  | .reserved => some stDecodeError

/-- The transit domain that absorbs a request counts it (R33, R260). -/
def countAbsorb (s : State) (addr : Nat) : State :=
  match target addr with
  | .dram d _ => if (s.fab.drm.get d).selfref && !s.fab.dieReset.get d then s else { s with fab.absorbs := s.fab.absorbs.modify d (cnt · 1) }
  | .tileSram p _ => { s with fab.absorbs := s.fab.absorbs.modify (dieOf p) (cnt · 1) }
  | .reg u _ _ => { s with fab.absorbs := s.fab.absorbs.modify (nodeOf (.reg u 0 0)) (cnt · 1) }
  | _ => s

/-- A refused access: the decode error is reported (R28), an absorbed one counted (R33). -/
def refused (s : State) (src addr op : Nat) (st : Half) : State :=
  if st = stDecodeError then decodeErrorEvent s src addr op
  else if st = stTargetReset then countAbsorb s addr
  else s

/-- The island segment that carries a record from a writer (R25, R26): every live segment ends at the island. -/
def ingressWrite (s : State) (src island off : Nat) (bs : List Byte) : State :=
  { s with toIslands := s.toIslands ++ [(island, .record (BitVec.ofNat 8 src) (BitVec.ofNat 16 off) bs)] }

/-- A read of at most 256 bytes that a memory target performs: status, bytes, poison. -/
def readAt (s : State) (src addr0 len : Nat) : State × Half × List Byte × Bool :=
  let addr := localAddr s addr0
  if !pathUsable s src (nodeOf (target addr)) then (s, stNoRoute, List.replicate len 0, true)
  else match refusal s false addr len with
    | some st => (refused s src addr0 0 st, st, List.replicate len 0, true)
    | none =>
      match target addr with
      | .dram _ _ => let r := dramRead s src addr len; (r.1, if r.2.2 then stUncorrectable else stOk, r.2.1, r.2.2)
      | .tileSram p off =>
        let r := sramRead s p off len
        let bad := r.2.2.1 || r.2.2.2
        (r.1, if bad then stUncorrectable else stOk, r.2.1, bad)
      | .hubSram _ => let r := hubRead s addr len; (s, if r.2 then stUncorrectable else stOk, r.1, r.2)
      | .host bus =>
        let bad := s.host.poison.hit bus len
        (s, if bad then stUncorrectable else stOk, s.host.mem.readN bus len, bad)
      | .remote n off =>
        let r := remoteNow s { src := BitVec.ofNat 8 src, label := 0, tag := 0, op := 0, addr := BitVec.ofNat 48 addr, len := len, data := [], poison := false } n off
        if r.2 = stOk then (r.1.took, stOk, (List.range len).map (fun i => Config.remoteByte r.1.free (addr + i)), false)
        else (r.1, r.2, List.replicate len 0, true)
      | _ => (s, stDecodeError, List.replicate len 0, true)

/-- A write of at most 256 bytes that a memory target performs: status; `w` waits for it. A write to a SOURCE region while its mirroring is ON is copied
to the partner (R240). -/
def writeFor (w : Waiter) (tag : BitVec 9) (s : State) (src label addr0 : Nat) (bs : List Byte) (poison : Bool) : State × Half :=
  let addr := localAddr s addr0
  let len := bs.length
  if !pathUsable s src (nodeOf (target addr)) then (s, stNoRoute)
  else
    let x : State × Half := match refusal s true addr len with
      | some st => (refused s src addr0 1 st, st)
      | none =>
        match target addr with
        | .dram _ _ => dramWrite s src addr bs poison
        | .tileSram p off => (sramWrite s p off bs poison, stOk)
        | .hubSram _ => (hubWrite s addr bs poison, stOk)
        | .ingress i off => (ingressWrite s src i off bs, stOk)
        | .host bus => (hostPut s bus bs poison, stOk)
        | .remote n off =>
          remoteNow s { src := BitVec.ofNat 8 src, label := BitVec.ofNat 4 label, tag := tag, op := 1, addr := BitVec.ofNat 48 addr, len := len,
                        data := bs, poison := poison } n off
        | _ => (s, stDecodeError)
    match target addr, mirrorOf s 1 addr len with
    | .dram _ _, some r =>
      if (s.fab.mir.regions.get r).on then
        (mirrorCopy x.1 { src := BitVec.ofNat 8 src, label := BitVec.ofNat 4 label, tag := tag, op := 1, addr := BitVec.ofNat 48 addr,
                          len := len, data := bs, poison := poison } r x.2 w, x.2)
      else x
    | _, _ => x

/-- A write that no network response answers. -/
def writeAt (s : State) (src label addr : Nat) (bs : List Byte) (poison : Bool) : State × Half := writeFor .nobody 0 s src label addr bs poison

/-- A range cut at 256-byte boundaries (R37): (address, offset in the range, length). -/
def pieces (addr len : Nat) : List (Nat × Nat × Nat) :=
  (List.range ((addr + len + 255) / 256 - addr / 256)).map (fun i =>
    let lo := max addr ((addr / 256 + i) * 256)
    let hi := min (addr + len) ((addr / 256 + i + 1) * 256)
    (lo, lo - addr, hi - lo))

/-- The first error of two statuses. -/
def firstErr (a b : Half) : Half := if a = stOk then b else a

/-- A read of any length, request by request: the first error, the bytes, whether any is poisoned. -/
def readRange (s : State) (src addr len : Nat) : State × Half × List Byte × Bool :=
  (pieces addr len).foldl (fun (a : State × Half × List Byte × Bool) p =>
    let r := readAt a.1 src p.1 p.2.2
    (r.1, firstErr a.2.1 r.2.1, a.2.2.1 ++ r.2.2.1, a.2.2.2 || r.2.2.2)) (s, stOk, [], false)

/-- A write of any length, request by request: the first error. -/
def writeRange (s : State) (src label addr : Nat) (bs : List Byte) (poison : Bool) : State × Half :=
  (pieces addr bs.length).foldl (fun (a : State × Half) p =>
    let r := writeAt a.1 src label p.1 (slice bs p.2.1 p.2.2) poison
    (r.1, firstErr a.2 r.2)) (s, stOk)

/-- Whether a range lies within DRAM or within hub SRAM (R317, R326). -/
def inDramOrHub (addr len : Nat) : Bool :=
  match target addr, target (addr + len - 1) with
  | .dram _ _, .dram _ _ => true
  | .hubSram _, .hubSram _ => true
  | _, _ => false

/-- A post to an event counter of a tile (R63, R64): TIL_EVT_ADD with `inc` on counter `ctr`, modulo 2¹⁶. -/
def evtAdd (s : State) (p ctr inc : Nat) : State :=
  s.modTile p (fun t => { t with ev := t.ev.modify (ctr % 16) (fun n => (n + inc) % 65536) })

/-- A post from a master to a logical tile's counter: whether it was counted (R64). -/
def postLogical (s : State) (src l ctr inc : Nat) : State × Bool :=
  match physOf s l with
  | none => (s, false)
  | some p =>
    if tileAbsorbed s p || s.fab.transitDown.get (dieOf p) then (countAbsorb s (regAddr (0x40 + p) 0 0), false)
    else if !pathUsable s src (dieOf p) then (s, false)
    else (evtAdd s p ctr inc, true)

end Sys2Proof.Machine
end

