-- ==== Sys2Proof/Machine/Num.lean ====
section
/-! DEFINITION. Number formats and arithmetic (chapter 03): exact values, decoding, rounding, conversion and the SFU. -/

namespace Sys2Proof.Machine

/-! ### Exact values -/

/-- A value in the arithmetic of chapter 03: NaN, an infinity, or a finite magnitude with a sign, which a zero keeps (R71). -/
inductive Val where
  | nan
  | inf (neg : Bool)
  | fin (neg : Bool) (mag : Rat)
  deriving DecidableEq, Repr

/-- A power of two. -/
def pow2 (k : Int) : Rat := if 0 ≤ k then ((2 ^ k.toNat : Nat) : Rat) else 1 / ((2 ^ (-k).toNat : Nat) : Rat)

/-- ⌊log2 q⌋ of a positive rational. -/
def floorLog2 (q : Rat) : Int :=
  let k : Int := (Nat.log2 q.num.toNat : Int) - (Nat.log2 q.den : Int)
  if pow2 k ≤ q then k else k - 1

/-- The rational a finite value stands for. -/
def Val.toRat : Val → Rat
  | .fin n m => if n then -m else m
  | _ => 0

/-- The value of a rational; a zero is +0. -/
def Val.ofRat (q : Rat) : Val := if q < 0 then .fin true (-q) else .fin false q

/-- The value of an integer. -/
def Val.ofInt (i : Int) : Val := Val.ofRat (i : Rat)

/-- +0. -/
def vzero : Val := .fin false 0

def Val.isNan : Val → Bool
  | .nan => true
  | _ => false

def Val.isInf : Val → Bool
  | .inf _ => true
  | _ => false

/-- Sign of a value; NaN has none. -/
def Val.neg : Val → Bool
  | .nan => false
  | .inf n => n
  | .fin n _ => n

/-- The opposite value. -/
def Val.opp : Val → Val
  | .nan => .nan
  | .inf n => .inf (!n)
  | .fin n m => .fin (!n) m

/-- The magnitude. -/
def Val.abs : Val → Val
  | .nan => .nan
  | .inf _ => .inf false
  | .fin _ m => .fin false m

/-- Exact sum under IEEE 754-2019 (R71): opposite infinities give NaN; an exact zero sum of unlike signs is +0. -/
def Val.add : Val → Val → Val
  | .nan, _ => .nan
  | _, .nan => .nan
  | .inf a, .inf b => if a = b then .inf a else .nan
  | .inf a, _ => .inf a
  | _, .inf b => .inf b
  | .fin a x, .fin b y =>
    let s := (if a then -x else x) + (if b then -y else y)
    if s = 0 then .fin (a && b) 0 else Val.ofRat s

/-- Exact difference. -/
def Val.sub (a b : Val) : Val := a.add b.opp

/-- Exact product under IEEE 754-2019: infinity times zero is NaN. -/
def Val.mul : Val → Val → Val
  | .nan, _ => .nan
  | _, .nan => .nan
  | .inf a, .inf b => .inf (a != b)
  | .inf a, .fin b y => if y = 0 then .nan else .inf (a != b)
  | .fin a x, .inf b => if x = 0 then .nan else .inf (a != b)
  | .fin a x, .fin b y => .fin (a != b) (x * y)

/-- Exact quotient under IEEE 754-2019. -/
def Val.div : Val → Val → Val
  | .nan, _ => .nan
  | _, .nan => .nan
  | .inf _, .inf _ => .nan
  | .inf a, .fin b _ => .inf (a != b)
  | .fin a _, .inf b => .fin (a != b) 0
  | .fin a x, .fin b y => if y = 0 then (if x = 0 then .nan else .inf (a != b)) else .fin (a != b) (x / y)

/-- a < b; false with a NaN. -0 and +0 are equal. -/
def Val.lt : Val → Val → Bool
  | .nan, _ => false
  | _, .nan => false
  | .inf a, .inf b => a && !b
  | .inf a, .fin _ _ => a
  | .fin _ _, .inf b => !b
  | .fin a x, .fin b y => decide ((if a then -x else x) < (if b then -y else y))

/-- a = b as numbers; false with a NaN. -/
def Val.eq (a b : Val) : Bool := !a.isNan && !b.isNan && !a.lt b && !b.lt a

/-- Order of minimum and maximum: −0 below +0 (R91). -/
def Val.below (a b : Val) : Bool := a.lt b || (a.eq b && a.neg && !b.neg)

/-- Minimum and maximum return the operand that is not NaN (R91). -/
def Val.min (a b : Val) : Val := if a.isNan then b else if b.isNan then a else if b.below a then b else a
def Val.max (a b : Val) : Val := if a.isNan then b else if b.isNan then a else if a.below b then b else a

/-! ### Floating-point formats (R67, R70–R72) -/

/-- A floating-point layout: exponent and mantissa bits, bias; `style` 0 with infinities and NaNs in the top exponent, 1 E4M3 (NaN
0x7F and 0xFF only), 2 neither. -/
structure FloatFmt where
  e     : Nat
  m     : Nat
  bias  : Nat
  style : Nat
  deriving DecidableEq, Repr

def fp32 : FloatFmt := ⟨8, 23, 127, 0⟩
def bf16 : FloatFmt := ⟨8, 7, 127, 0⟩
def fp16 : FloatFmt := ⟨5, 10, 15, 0⟩
def e4m3 : FloatFmt := ⟨4, 3, 7, 1⟩
def e5m2 : FloatFmt := ⟨5, 2, 15, 0⟩
def e3m2 : FloatFmt := ⟨3, 2, 3, 2⟩
def e2m1 : FloatFmt := ⟨2, 1, 1, 2⟩

/-- The value of a code in a layout (R70, R71). -/
def FloatFmt.decode (f : FloatFmt) (c : Nat) : Val :=
  let s := bit c (f.e + f.m)
  let ex := field c (f.e + f.m - 1) f.m
  let man := c % 2 ^ f.m
  let top := 2 ^ f.e - 1
  if f.style = 0 ∧ ex = top then (if man = 0 then .inf s else .nan)
  else if f.style = 1 ∧ ex = top ∧ man = 2 ^ f.m - 1 then .nan
  else if ex = 0 then .fin s ((man : Rat) * pow2 (1 - f.bias - f.m))
  else .fin s (((2 ^ f.m + man : Nat) : Rat) * pow2 ((ex : Int) - f.bias - f.m))

/-- The largest finite magnitude. -/
def FloatFmt.largest (f : FloatFmt) : Rat :=
  let top := 2 ^ f.e - 1
  match f.style with
  | 0 => ((2 ^ (f.m + 1) - 1 : Nat) : Rat) * pow2 ((top : Int) - 1 - f.bias - f.m)
  | 1 => ((2 ^ (f.m + 1) - 2 : Nat) : Rat) * pow2 ((top : Int) - f.bias - f.m)
  | _ => ((2 ^ (f.m + 1) - 1 : Nat) : Rat) * pow2 ((top : Int) - f.bias - f.m)

/-- The code of a representable magnitude. -/
def FloatFmt.encodeMag (f : FloatFmt) (q : Rat) : Nat :=
  if q ≤ 0 then 0
  else
    let k := floorLog2 q
    if k < 1 - (f.bias : Int) then (q / pow2 (1 - f.bias - f.m)).floor.toNat
    else (q / pow2 (k - f.m)).floor.toNat - 2 ^ f.m + 2 ^ f.m * (k + f.bias).toNat

/-- The canonical NaN (R71). -/
def FloatFmt.nan (f : FloatFmt) : Nat :=
  if f.style = 1 then 2 ^ (f.e + f.m) - 1 else (2 ^ f.e - 1) * 2 ^ f.m + 2 ^ (f.m - 1)

/-- An infinity's code. -/
def FloatFmt.infCode (f : FloatFmt) (neg : Bool) : Nat := (2 ^ f.e - 1) * 2 ^ f.m + b2n neg * 2 ^ (f.e + f.m)

/-! ### Rounding (R86, R87) -/

/-- The lane generators of the vector unit and the count of free values: which lane rounds an element is not specified (R87), so
the lane is a free value. -/
structure Rng where
  tab  : Tab Word
  free : Nat
  deriving DecidableEq, Repr

/-- One step of the xorshift generator (R87). -/
def xorshift (s : Word) : Word :=
  let a := s ^^^ (s <<< 13)
  let b := a ^^^ (a >>> 17)
  b ^^^ (b <<< 5)

/-- The seed of lane `l` at a launch start (R87). -/
def laneSeed (seq : Word) (p l : Nat) : Word :=
  let s := (seq ^^^ BitVec.ofNat 32 (p * 1024) ^^^ BitVec.ofNat 32 l) * 0x9E3779B9#32
  if s = 0 then 1 else s

/-- A draw of one lane's generator: bits [31:16]. -/
def Rng.draw (g : Rng) : Rng × Nat :=
  let lane := (Config.freeQuad g.free).toNat % 1024
  let s := xorshift (g.tab.get lane)
  ({ tab := g.tab.set lane s, free := g.free + 1 }, s.toNat / 65536)

/-- Nearest natural number to a non-negative rational, ties to even (R86). -/
def rne (x : Rat) : Nat :=
  let n := x.floor.toNat
  let f := x - (n : Rat)
  if f < 1 / 2 then n else if 1 / 2 < f then n + 1 else n + n % 2

/-- A non-negative rational rounded to a natural number, to nearest or stochastically (R86, R87). -/
def roundTo (stoch : Bool) (g : Rng) (x : Rat) : Rng × Nat :=
  let n := x.floor.toNat
  let f := x - (n : Rat)
  if f = 0 then (g, n)
  else if stoch then
    let d := g.draw
    (d.1, if d.2 < (f * 65536).floor.toNat then n + 1 else n)
  else (g, rne x)

/-- Exponent of the unit in the last place at a magnitude (R70, R86). -/
def FloatFmt.ulp (f : FloatFmt) (q : Rat) : Int :=
  (if q = 0 then 1 - (f.bias : Int) else max (floorLog2 q) (1 - (f.bias : Int))) - f.m

/-- A magnitude rounded into a layout as if its exponents were unbounded above. -/
def FloatFmt.roundMag (f : FloatFmt) (stoch : Bool) (g : Rng) (q : Rat) : Rng × Rat :=
  let u := pow2 (f.ulp q)
  let r := roundTo stoch g (q / u)
  (r.1, (r.2 : Rat) * u)

/-- Conversion into a floating-point layout (R86–R88). -/
def FloatFmt.encode (f : FloatFmt) (sat stoch : Bool) (g : Rng) : Val → Rng × Nat
  | .nan => (g, f.nan)
  | .inf n =>
    (g, if sat || f.style = 2 then f.encodeMag f.largest + b2n n * 2 ^ (f.e + f.m)
        else if f.style = 1 then f.nan else f.infCode n)
  | .fin n q =>
    let r := f.roundMag stoch g q
    (r.1, if f.largest < r.2 then
        (if sat || f.style = 2 then f.encodeMag f.largest + b2n n * 2 ^ (f.e + f.m)
         else if f.style = 1 then f.nan else f.infCode n)
      else f.encodeMag r.2 + b2n n * 2 ^ (f.e + f.m))

/-- A generator state for conversions that draw nothing. -/
def noRng : Rng := ⟨Tab.const 0, 0⟩

/-- Round to nearest into a layout, without saturation. -/
def FloatFmt.rneCode (f : FloatFmt) (v : Val) : Nat := (f.encode false false noRng v).2

/-- RNE_FP32 (R82), as a value. -/
def rne32 (v : Val) : Val := fp32.decode (fp32.rneCode v)

/-- RNE_FP32 with subnormals flushed to zero of their sign, as an accumulator holds it (R83). -/
def flush32 (v : Val) : Val :=
  match rne32 v with
  | .fin n q => if q < pow2 (-126) then .fin n 0 else .fin n q
  | x => x

/-- The FP32 value of a word. -/
def ofFp32 (w : Nat) : Val := fp32.decode (w % 2 ^ 32)

/-- The FP32 code of a value (RNE). -/
def toFp32 (v : Val) : Nat := fp32.rneCode v

/-- An integer result saturated into `w` bits two's complement. -/
def satInt (w : Nat) (i : Int) : Int := clampI (-(2 ^ (w - 1) : Nat)) ((2 ^ (w - 1) : Nat) - 1) i

/-- Conversion into a two's complement integer (R86–R88): NaN gives 0. -/
def toInt (w : Nat) (stoch : Bool) (g : Rng) : Val → Rng × Int
  | .nan => (g, 0)
  | .inf n => (g, if n then -(2 ^ (w - 1) : Nat) else (2 ^ (w - 1) : Nat) - 1)
  | .fin n q =>
    let r := roundTo stoch g q
    (r.1, satInt w (if n then -(r.2 : Int) else (r.2 : Int)))

/-! ### The format field (R67–R69) -/

/-- The fields of a 16-bit format field. -/
def fmtCode (f : Nat) : Nat := f % 16
def fmtGsz (f : Nat) : Nat := field f 5 4
def fmtMx (f : Nat) : Bool := bit f 6
def fmtSat (f : Nat) : Bool := bit f 7
def fmtRnd (f : Nat) : Nat := field f 9 8

/-- Whether a format field is legal (R69); `dest`: it describes a result. -/
def fmtOk (dest : Bool) (f : Nat) : Bool :=
  let c := fmtCode f
  decide (f < 1024) && decide (c ≤ 0xA) && (!fmtMx f || c = 3 || c = 4) && (fmtGsz f = 0 || (c = 9 && fmtGsz f ≠ 3)) &&
  decide (fmtRnd f < 2) && (fmtRnd f = 0 || (dest && c ≠ 0)) && (!fmtSat f || dest)

/-- Element width in bits of a code but TQ5 (R67). -/
def fmtBits (c : Nat) : Nat := [32, 16, 16, 8, 8, 6, 4, 16, 8, 4].getD c 0

/-- Elements that share one scale; none for an unscaled format (R73). -/
def fmtBlock (f : Nat) : Option Nat :=
  let c := fmtCode f
  if c = 3 ∨ c = 4 then (if fmtMx f then some 32 else none)
  else if c = 5 ∨ c = 6 then some 32
  else if c = 9 then some (32 * 2 ^ fmtGsz f)
  else if c = 0xA then some 64
  else none

/-- Bytes of a scale (R74). -/
def scaleBytes (f : Nat) : Nat := if fmtCode f = 9 ∨ fmtCode f = 0xA then 2 else 1

/-- Elements of a storage unit of a row (R73). -/
def fmtUnit (f : Nat) : Nat := if fmtCode f = 0xA then 320 else (fmtBlock f).getD 1

/-- A row's stored length in elements (R73). -/
def rowElems (f n : Nat) : Nat := roundUp n (fmtUnit f)

/-- Bytes of a stored row of `n` elements (R73, R75, R78). -/
def rowBytes (f n : Nat) : Nat :=
  if fmtCode f = 0xA then rowElems f n / 5 else (rowElems f n * fmtBits (fmtCode f) + 7) / 8

/-- The layout of a floating-point code. -/
def floatOf : Nat → Option FloatFmt
  | 0 => some fp32 | 1 => some bf16 | 2 => some fp16 | 3 => some e4m3 | 4 => some e5m2 | 5 => some e3m2 | 6 => some e2m1
  | _ => none

/-- Whether a code is an integer format. -/
def isIntCode (c : Nat) : Bool := c == 7 || c == 8 || c == 9

/-- The value of an element code, without its scale (R70, R72). -/
def elemVal (c raw : Nat) : Val :=
  match floatOf c with
  | some f => f.decode raw
  | none => Val.ofInt (sint (fmtBits c) raw)

/-- The value of a scale code (R72, R77, R79). -/
def scaleVal (f raw : Nat) : Val :=
  if fmtCode f = 9 then fp16.decode raw
  else if fmtCode f = 0xA then bf16.decode raw
  else if raw = 0xFF then .nan else .fin false (pow2 ((raw : Int) - 127))

/-- The raw code of element `i` of a row's bytes (R75, R78); for TQ5 the digit, 3 for a byte that encodes no weights (R80). -/
def rowElem (f : Nat) (row : List Byte) (i : Nat) : Nat :=
  if fmtCode f = 0xA then
    let v := fld row (i / 5) 1
    if 243 ≤ v then 3 else v / 3 ^ (i % 5) % 3
  else
    let w := fmtBits (fmtCode f)
    fld row (i * w / 8) 4 / 2 ^ (i * w % 8) % 2 ^ w

/-- The value of a raw element, without its scale; a TQ5 digit d is the weight d − 1. -/
def rawVal (f raw : Nat) : Val := if fmtCode f = 0xA then Val.ofInt ((raw : Int) - 1) else elemVal (fmtCode f) raw

/-- A value times its scale (R76): a NaN scale makes every element NaN. -/
def scaled (s v : Val) : Val := s.mul v

/-- Conversion of one value into an unscaled destination (R86–R88): its raw code. -/
def convert (f : Nat) (g : Rng) (v : Val) : Rng × Nat :=
  let st := fmtRnd f == 1
  match floatOf (fmtCode f) with
  | some l => l.encode (fmtSat f) st g v
  | none =>
    let w := fmtBits (fmtCode f)
    let r := toInt w st g v
    (r.1, uint w r.2)

/-- `f` over a list with the generators carried through. -/
def mapRng {α β : Type} (f : Rng → α → Rng × β) (g : Rng) (l : List α) : Rng × List β :=
  let r := l.foldl (fun (a : Rng × List β) x => let y := f a.1 x; (y.1, y.2 :: a.2)) (g, [])
  (r.1, r.2.reverse)

/-- Exponent of the largest finite element magnitude (R89). -/
def emaxElem : Nat → Int
  | 3 => 8 | 4 => 15 | 5 => 4 | _ => 2

/-- The largest magnitude of finite values. -/
def amax (vs : List Val) : Rat := vs.foldl (fun m v => max m (v.abs.toRat)) 0

/-- Conversion of a block into an MX destination (R89): scale code and element codes. -/
def convertMx (f : Nat) (g : Rng) (vs : List Val) : Rng × Nat × List Nat :=
  let c := fmtCode f
  let l := (floatOf c).getD e2m1
  if vs.any (fun v => v.isNan || v.isInf) then (g, 0xFF, vs.map (fun _ => 0))
  else
    let a := amax vs
    if a = 0 then (g, 0x7F, vs.map (fun _ => 0))
    else
      let e := clampI (-127) 127 (floorLog2 a - emaxElem c)
      let r := mapRng (fun g v => l.encode true (fmtRnd f == 1) g (v.mul (.fin false (pow2 (-e))))) g vs
      (r.1, (e + 127).toNat, r.2)

/-- Conversion of a group into INT4 (R90): scale code and element codes. -/
def convertInt4 (f : Nat) (g : Rng) (vs : List Val) : Rng × Nat × List Nat :=
  if vs.any (fun v => v.isNan || v.isInf) then (g, fp16.nan, vs.map (fun _ => 0))
  else
    let a := amax vs
    if a = 0 then (g, 0, vs.map (fun _ => 0))
    else
      let sc := fp16.rneCode (.fin false (a / 7))
      let r := mapRng (fun g v => let x := toInt 4 (fmtRnd f == 1) g (v.div (fp16.decode sc)); (x.1, uint 4 x.2)) g vs
      (r.1, sc, r.2)

/-- Conversion of a group into TQ5 (R90): scale code and digits; `n` of the values are real, the rest padding with weight 0. -/
def convertTq5 (f : Nat) (g : Rng) (vs : List Val) (n : Nat) : Rng × Nat × List Nat :=
  let real := vs.take n
  if real.any (fun v => v.isNan || v.isInf) then (g, bf16.nan, vs.map (fun _ => 1))
  else
    let mean := (real.map (fun v => v.abs.toRat)).sum / 64
    if mean = 0 then (g, 0, vs.map (fun _ => 1))
    else
      let sc := bf16.rneCode (.fin false mean)
      let r := mapRng (fun g v => let x := toInt 8 (fmtRnd f == 1) g (v.div (bf16.decode sc)); (x.1, (clampI (-1) 1 x.2 + 1).toNat)) g real
      (r.1, sc, r.2 ++ List.replicate (vs.length - n) 1)

/-- Conversion of a group of values into a scaled destination: scale code and raw elements; `n` of them are real. -/
def convertGroup (f : Nat) (g : Rng) (vs : List Val) (n : Nat) : Rng × Nat × List Nat :=
  if fmtCode f = 9 then convertInt4 f g vs else if fmtCode f = 0xA then convertTq5 f g vs n else convertMx f g vs

/-- Raw elements packed into a row's bytes (R75, R78). -/
def packRow (f : Nat) (raws : List Nat) : List Byte :=
  if fmtCode f = 0xA then
    (List.range ((raws.length + 4) / 5)).map (fun j =>
      BitVec.ofNat 8 (((List.range 5).map (fun i => (raws.getD (5 * j + i) 1) * 3 ^ i)).sum))
  else
    let w := fmtBits (fmtCode f)
    leBytes ((raws.length * w + 7) / 8) (raws.reverse.foldl (fun a r => a * 2 ^ w + r % 2 ^ w) 0)

/-! ### Special functions (R93, R94) -/

/-- Fixed-point unit of the approximations below: far finer than any bound of R93. -/
def fixUnit : Int := 2 ^ 160

/-- Fixed-point value of a rational. -/
def toFix (q : Rat) : Int := (q * (fixUnit : Rat)).floor

/-- Σ t^k / k!, fixed-point. -/
def fixExp (t : Int) : Int :=
  ((List.range 120).foldl (fun (a : Int × Int) k =>
    let term := if k = 0 then fixUnit else a.2 * t / fixUnit / k
    (a.1 + term, term)) (0, 0)).1

/-- 2 · Σ z^(2k+1) / (2k+1), fixed-point: ln((1 + z)/(1 − z)). -/
def fixLog (z : Int) : Int :=
  2 * ((List.range 60).foldl (fun (a : Int × Int) k =>
    let p := if k = 0 then z else a.2 * (z * z / fixUnit) / fixUnit
    (a.1 + p / (2 * k + 1), p)) (0, 0)).1

/-- ln 2. -/
def fixLn2 : Int := fixLog (fixUnit / 3)

/-- 2^x for |x| ≤ 200, as a rational. -/
def approxExp2 (x : Rat) : Rat :=
  let n := x.floor
  let t := toFix (x - (n : Rat)) * fixLn2 / fixUnit
  mkRat (fixExp t) (2 ^ 160) * pow2 n

/-- log2 x of a positive rational. -/
def approxLog2 (x : Rat) : Rat :=
  let n := floorLog2 x
  let m := x / pow2 n
  (n : Rat) + mkRat (fixLog (toFix ((m - 1) / (m + 1)))) 1 / (fixLn2 : Rat)

/-- ⌊√n⌋ by bits. -/
def isqrt (n : Nat) : Nat :=
  ((List.range (Nat.log2 n / 2 + 1)).foldr (fun k r => if (r + 2 ^ k) * (r + 2 ^ k) ≤ n then r + 2 ^ k else r) 0)

/-- √x of a positive rational. -/
def approxSqrt (x : Rat) : Rat :=
  let k := floorLog2 x
  let s : Int := 240 - (k / 2)
  mkRat (isqrt ((x * pow2 (2 * s)).floor.toNat)) 1 * pow2 (-s)

/-- e^x for |x| ≤ 100. -/
def approxExp (x : Rat) : Rat := approxExp2 (x / mkRat fixLn2 (2 ^ 160))

/-- arctan(1/n), fixed-point. -/
def fixAtan (n : Nat) : Int :=
  ((List.range 120).foldl (fun (a : Int × Int) k =>
    let p := if k = 0 then fixUnit / n else a.2 / (n * n)
    (if k % 2 = 0 then a.1 + p / (2 * k + 1) else a.1 - p / (2 * k + 1), p)) (0, 0)).1

/-- π. -/
def approxPi : Rat := mkRat (16 * fixAtan 5 - 4 * fixAtan 239) (2 ^ 160)

/-- The normal cumulative distribution. -/
def approxPhi (x : Rat) : Rat :=
  if 8 < x then 1 else if x < -8 then 0
  else
    let t := toFix x
    let t2 := t * t / fixUnit
    let s := ((List.range 200).foldl (fun (a : Int × Int) k =>
      let p := if k = 0 then t else -(a.2 * t2 / fixUnit / (2 * k))
      (a.1 + p / (2 * k + 1), p)) (0, 0)).1
    1 / 2 + mkRat s (2 ^ 160) / approxSqrt (2 * approxPi)

/-- The value nearest to a free one on the FP32 grid of an exact result, within a tolerance of it. -/
def withinTol (fn : Nat) (x exact tol : Rat) : Val :=
  let u := pow2 (fp32.ulp (if exact < 0 then -exact else exact))
  let lo := ((exact - tol) / u).ceil
  let hi := ((exact + tol) / u).floor
  let n := clampI lo (max lo hi) ((Config.sfuValue fn x) / u).floor
  let q := (n : Rat) * u
  if q = 0 then .fin (decide (exact < 0)) 0 else rne32 (Val.ofRat q)

/-- One unit in the last place of an exact result in FP32. -/
def ulp32 (q : Rat) : Rat := pow2 (fp32.ulp (if q < 0 then -q else q))

/-- exp2 (R93). -/
def sfuExp2 : Val → Val
  | .nan => .nan
  | .inf n => if n then vzero else .inf false
  | .fin n q =>
    let x := if n then -q else q
    if 128 ≤ x then .inf false
    else if x < -200 then withinTol 0 x 0 (2 * pow2 (-149))
    else let e := approxExp2 x; withinTol 0 x e (2 * ulp32 e)

/-- log2 (R93). -/
def sfuLog2 : Val → Val
  | .nan => .nan
  | .inf n => if n then .nan else .inf false
  | .fin n q =>
    if q = 0 then .inf true else if n then .nan
    else
      let e := approxLog2 q
      withinTol 1 q e (if 1 / 2 ≤ q ∧ q ≤ 2 then pow2 (-21) else 2 * ulp32 e)

/-- reciprocal (R93). -/
def sfuRecip : Val → Val
  | .nan => .nan
  | .inf n => .fin n 0
  | .fin n q =>
    if q = 0 then .inf n
    else
      let e := 1 / q
      match withinTol 2 q e (ulp32 e) with
      | .fin _ m => .fin n m
      | .inf _ => .inf n
      | .nan => .nan

/-- rsqrt (R93). -/
def sfuRsqrt : Val → Val
  | .nan => .nan
  | .inf n => if n then .nan else vzero
  | .fin n q => if q = 0 then .inf n else if n then .nan else let e := 1 / approxSqrt q; withinTol 3 q e (2 * ulp32 e)

/-- sigmoid (R93). -/
def sfuSigmoid : Val → Val
  | .nan => .nan
  | .inf n => if n then vzero else .fin false 1
  | .fin n q =>
    let x := if n then -q else q
    let e := if x < -100 then 0 else if 100 < x then 1 else 1 / (1 + approxExp (-x))
    withinTol 4 x e (pow2 (-22))

/-- tanh (R93). -/
def sfuTanh : Val → Val
  | .nan => .nan
  | .inf n => .fin n 1
  | .fin n q =>
    let x := if n then -q else q
    let e := if x < -50 then -1 else if 50 < x then 1 else 1 - 2 / (approxExp (2 * x) + 1)
    withinTol 5 x e (pow2 (-22))

/-- GELU (R93). -/
def sfuGelu : Val → Val
  | .nan => .nan
  | .inf n => if n then .fin true 0 else .inf false
  | .fin n q =>
    let x := if n then -q else q
    withinTol 6 x (x * approxPhi x) (pow2 (-20) * max 1 q)

/-- exp(x) of ATTN_PAGE and ATTN_COMBINE (R94). -/
def expNat (v : Val) : Val := sfuExp2 (rne32 (v.mul (ofFp32 0x3FB8AA3B)))

end Sys2Proof.Machine
end

