-- ==== Sys2Proof/Machine/Sensors.lean ====
section
/-! DEFINITION. Cameras, the sensor front end, the frozen-frame taps, Ethernet and the tray (chapter 12). -/

namespace Sys2Proof.Machine

def State.modCsi (s : State) (n : Nat) (f : CsiPort → CsiPort) : State := { s with sen.csi := s.sen.csi.modify n f }
def State.modEth (s : State) (m : Nat) (f : EthMac → EthMac) : State := { s with sen.eth := s.sen.eth.modify m f }
def State.modSlot (s : State) (k : Nat) (f : TraySlot → TraySlot) : State := { s with sen.tray.slots := s.sen.tray.slots.modify k f }

/-! ### Data types and taps (R315, R322) -/

/-- The pixel group of a data type: pixels, bytes; none for a type that R315 does not list. -/
def pixelGroup (dt : Nat) : Option (Nat × Nat) :=
  if dt = 0x12 then some (1, 1) else if dt = 0x1E then some (2, 4) else if dt = 0x22 then some (1, 2)
  else if dt = 0x24 then some (1, 3) else if dt = 0x2A then some (1, 1) else if dt = 0x2B then some (4, 5)
  else if dt = 0x2C then some (2, 3) else if dt = 0x2D then some (4, 7) else if dt = 0x2E then some (1, 2)
  else if dt = 0x2F then some (2, 5) else if 0x30 ≤ dt ∧ dt ≤ 0x37 then some (1, 1) else none

/-- The output formats that a data type permits (R315). -/
def fmtsOf (dt : Nat) : List Nat :=
  if dt = 0x1E ∨ dt = 0x24 then [0, 2, 3, 4] else if dt = 0x22 then [0, 2, 3] else if 0x2A ≤ dt ∧ dt ≤ 0x2F then [0, 1] else [0]

/-- Rule `j` of a check table: its bytes (R355–R357). -/
def tableRule (t : List Byte) (j : Nat) : List Byte := slice t (64 + 16 * fld t 20 1 + 32 * j) 32

/-- The rules of a check table. -/
def tableRules (t : List Byte) : List (List Byte) := (List.range (fld t 21 1)).map (tableRule t)

/-- The FROZEN rule of a camera port in a table (R358). -/
def frozenRule (t : List Byte) (port : Nat) : Option (List Byte) :=
  (tableRules t).find? (fun r => fld r 0 1 == 8 && fld r 6 1 == port)

/-- What island `i` tells the tap of a port (R322): nothing while its running table has no FROZEN rule for it. -/
def tapCfgOf (s : State) (i port : Nat) : Option TapCfg :=
  let a := s.anv.isl.get i
  match a.state, a.table with
  | .run, some t => (frozenRule t port).map (fun r =>
      { seed := BitVec.ofNat 32 (fld r 24 4), w := fld r 28 2, h := fld r 30 2, emb := bit (fld r 7 1) 0 })
  | _, _ => none

/-- The sample positions of a frame (R322), as (x, y) in sample order. -/
def tapPositions (c : TapCfg) : List (Nat × Nat) :=
  let cw := max 1 (c.w / 32)
  let ch := max 1 (c.h / 32)
  let x := (List.range 1024).foldl (fun (a : Word × List (Nat × Nat)) i =>
    let r := xorshift a.1
    (r, ((i % 32 * cw + r.toNat % 65536 % cw) % c.w, (i / 32 * ch + r.toNat / 65536 % ch) % c.h) :: a.2))
    (if c.seed = 0 then 1 else c.seed, [])
  x.2.reverse

/-- The samples of a frame from its lines: bytes, and whether a line was missing (R322). -/
def tapSamples (c : TapCfg) (dt : Nat) (lines : List (Option (List Byte))) : List Byte × Bool :=
  let g := (pixelGroup dt).getD (1, 1)
  let xs := (tapPositions c).map (fun p =>
    match lines.getD p.2 none with
    | some l => (slice l (p.1 / g.1 * g.2) g.2, false)
    | none => (List.replicate g.2 (0 : Byte), true))
  ((xs.map (·.1)).flatten, xs.any (·.2))

/-- The frame at a port's taps ends: each enabled tap sends its island the frame (R322). -/
def tapSend (s : State) (n : Nat) (fnum : Half) : State :=
  let p := s.sen.csi.get n
  if !p.tapOpen then s
  else
    let dt := field (p.filters.get 0) 13 8
    let s := (List.range 2).foldl (fun s i =>
      match (p.taps.get i).cfg with
      | none => s
      | some c =>
        let x := tapSamples c dt p.tapLines
        let m : TapMessage := { port := Fin.ofNat 12 n, fnum := fnum, dtype := BitVec.ofNat 6 dt, samples := x.1,
                                embedded := if c.emb then (p.tapEmb.getD []).take 64 else [], trunc := x.2 }
        let s := s.modCsi n (fun p => { p with taps := p.taps.modify i (fun t => { t with trunc := x.2, sent := sat 24 (t.sent + 1) }) })
        { s with toIslands := s.toIslands ++ [(i, .tap m)] }) s
    s.modCsi n (fun p => { p with tapOpen := false, tapLines := [], tapEmb := none })

/-! ### Receivers (R314, R316, R318) -/

/-- A stream filter's fields. -/
def filtVc (f : Nat) : Nat := field f 4 0
def filtDt (f : Nat) : Nat := field f 13 8
def filtOn (f : Nat) : Bool := bit f 15

/-- The camera of the running capture at a port and filter, by number. -/
def cameraAt (s : State) (n f : Nat) : Option (Nat × Camera) :=
  match s.sen.capture with
  | none => none
  | some c =>
    match indexOf? (fun (x : Camera) => fld x.entry 0 1 == n && fld x.entry 1 1 == f) c.cams with
    | some i => (c.cams[i]?).map (fun x => (i, x))
    | none => none

/-- A camera of the running capture changed. -/
def State.modCam (s : State) (i : Nat) (f : Camera → Camera) : State :=
  match s.sen.capture with
  | some c => { s with sen.capture := some { c with cams := c.cams.modify i f } }
  | none => s

/-- A valid header arrived: the link is up (R332, R334). -/
def csiHeader (s : State) (n : Nat) : State :=
  if (s.sen.csi.get n).up then s else raiseEvent (s.modCsi n (fun p => { p with up := true })) 0x0A00 n [1]

/-- An open captured frame of a filter is closed (R316, R318). -/
def closeCamera (s : State) (n f flag : Nat) : State :=
  match cameraAt s n f with
  | some (i, x) => if x.phase = 1 then s.modCam i (fun x => { x with phase := 2, dtFe := s.dt, flags := x.flags ||| flag }) else s
  | none => s

/-- FS of a virtual channel at a port (R316, R318, R322). -/
def csiFrameStart (s : State) (n vc : Nat) (fnum : Half) : State :=
  let s := csiHeader s n
  let p := s.sen.csi.get n
  let s := s.modCsi n (fun p => { p with lastFs := s.dt })
  let s := if p.configured && filtVc (p.filters.get 0) == vc then
      let s := tapSend s n p.fnum
      s.modCsi n (fun p => { p with
        fnum := fnum, tapOpen := true, tapLines := [], tapEmb := none,
        taps := (List.range 2).foldl (fun t i => t.modify i (fun x => { x with cfg := tapCfgOf s i n })) p.taps })
    else s
  (List.range 4).foldl (fun s f =>
    if filtOn (p.filters.get f) && filtVc (p.filters.get f) == vc then
      let s := if p.openF.get f then closeCamera s n f 2 else s
      let s := s.modCsi n (fun p => { p with openF := p.openF.set f true })
      match cameraAt s n f with
      | some (i, x) =>
        if x.phase = 0 then s.modCam i (fun x => { x with phase := 1, dtFs := s.dt, fnum := fnum })
        else s.modCsi n (fun p => { p with noArm := cnt p.noArm 1 })
      | none => s.modCsi n (fun p => { p with noArm := cnt p.noArm 1 })
    else s) s

/-- FE of a virtual channel at a port (R318, R322). -/
def csiFrameEnd (s : State) (n vc : Nat) : State :=
  let s := csiHeader s n
  let p := s.sen.csi.get n
  let s := if p.configured && filtVc (p.filters.get 0) == vc then tapSend s n p.fnum else s
  (List.range 4).foldl (fun s f =>
    if p.openF.get f && filtVc (p.filters.get f) == vc then
      closeCamera (s.modCsi n (fun p => { p with openF := p.openF.set f false })) n f 0
    else s) s

/-- The items that carry bytes into a queue with a write side of `w` bytes. -/
def ladleItems (w info : Nat) (bs : List Byte) : List LadleItem :=
  let k := max 1 ((bs.length + w - 1) / w)
  (List.range k).map (fun i =>
    let d := (bs.drop (i * w)).take w
    { data := d, eop := i + 1 = k, err := false, vbytes := d.length, info := info })

/-- A long packet at a receiver output (R314–R316, R322). A captured line's info is its filter, 4 for a bad CRC and 8. -/
def csiLongPacket (s : State) (n : Nat) (k : CsiPacket) : State :=
  let s := s.modCsi n (fun p => { p with pktCnt := cnt p.pktCnt 1 })
  match k.ecc with
  | .uncorrectable => s.modCsi n (fun p => { p with hdrErr := cnt p.hdrErr 1 })
  | e =>
    let s := csiHeader s n
    let s := s.modCsi n (fun p => { p with
      eccCnt := if e = .corrected then cnt p.eccCnt 1 else p.eccCnt, crcErr := if k.crcOk then p.crcErr else cnt p.crcErr 1 })
    let p := s.sen.csi.get n
    let dt := k.dt.toNat
    let f0 := p.filters.get 0
    let s := if p.tapOpen && filtVc f0 == k.vc.val then
        s.modCsi n (fun p => { p with
          tapLines := if filtDt f0 = dt then p.tapLines ++ [some k.payload] else p.tapLines,
          tapEmb := if dt = 0x12 ∧ p.tapEmb = none then some (k.payload.take 64) else p.tapEmb })
      else s
    match (List.range 4).find? (fun f => filtOn (p.filters.get f) && filtVc (p.filters.get f) == k.vc.val && filtDt (p.filters.get f) == dt) with
    | none => s.modCsi n (fun p => { p with filtCnt := cnt p.filtCnt 1 })
    | some f =>
      let taken := match cameraAt s n f with
        | some (_, x) => x.phase == 1
        | none => false
      let info := f + (if k.crcOk then 0 else 4) + (if taken then 8 else 0)
      if h : n < 40 then
        let s := (ladleItems 16 info k.payload).foldl (fun s i => ladleWrite s (.hub ⟨n, h⟩) i 0) s
        wakeInbound s
      else s

/-- No header for 100 ms (R332, R334). -/
def csiLinkTimeout (s : State) (n : Nat) : State :=
  if (s.sen.csi.get n).up then raiseEvent (s.modCsi n (fun p => { p with up := false })) 0x0A00 n [0] else s

/-- A QUEUE_PTR reset of CSI_RX_n: every frame open on the port is closed with FRAME_LOST (R316). -/
def csiQueueLost (s : State) (n : Nat) : State :=
  (List.range 4).foldl (fun s f => closeCamera (s.modCsi n (fun p => { p with openF := p.openF.set f false })) n f 64)
    (s.modCsi n (fun p => { p with line := [] }))

/-! ### Pixel conversion (R319) -/

/-- Rounded to nearest and clamped to a byte, from 12 fractional bits. -/
def pix12 (x : Int) : Byte := BitVec.ofNat 8 (clampI 0 255 ((x + 2048) / 4096)).toNat

/-- A coefficient in 12 fractional bits, to nearest. -/
def coef (q : Rat) : Int := (q * 4096 + 1 / 2).floor

/-- The luma weights of red and blue: BT.601 or BT.709. -/
def lumaK (m709 : Bool) : Rat × Rat := if m709 then (2126 / 10000, 722 / 10000) else (299 / 1000, 114 / 1000)

/-- RGB from Y, U, V (R319). -/
def yuvRgb (m709 limited : Bool) (y u v : Nat) : List Byte :=
  let k := lumaK m709
  let kg := 1 - k.1 - k.2
  let ys : Rat := if limited then 255 / 219 else 1
  let cs : Rat := if limited then 255 / 224 else 1
  let l := coef ys * ((y : Int) - if limited then 16 else 0)
  let u := (u : Int) - 128
  let v := (v : Int) - 128
  [pix12 (l + coef (2 * (1 - k.1) * cs) * v),
   pix12 (l - coef (2 * (1 - k.2) * k.2 / kg * cs) * u - coef (2 * (1 - k.1) * k.1 / kg * cs) * v),
   pix12 (l + coef (2 * (1 - k.2) * cs) * u)]

/-- Luma of an RGB pixel (R319). -/
def rgbLuma (m709 limited : Bool) (r g b : Nat) : Byte :=
  let k := lumaK m709
  let sc : Rat := if limited then 219 / 255 else 1
  pix12 (coef (k.1 * sc) * r + coef ((1 - k.1 - k.2) * sc) * g + coef (k.2 * sc) * b + (if limited then 16 * 4096 else 0))

/-- The i-th sample of a RAW line, MSB-aligned in 16 bits (R315, R319), in the packing of CSI-2. -/
def rawPixel (dt : Nat) (l : List Byte) (i : Nat) : Nat :=
  if dt = 0x2A then fld l i 1 * 256
  else if dt = 0x2B then (fld l (i / 4 * 5 + i % 4) 1 * 4 + fld l (i / 4 * 5 + 4) 1 / 4 ^ (i % 4) % 4) * 64
  else if dt = 0x2C then (fld l (i / 2 * 3 + i % 2) 1 * 16 + fld l (i / 2 * 3 + 2) 1 / 16 ^ (i % 2) % 16) * 16
  else if dt = 0x2D then (fld l (i / 4 * 7 + i % 4) 1 * 64 + fld l (i / 4 * 7 + 4) 3 / 64 ^ (i % 4) % 64) * 4
  else if dt = 0x2E then fld l (2 * i) 1 * 256 + fld l (2 * i + 1) 1
  else fld l (i / 2 * 5 + 2 * (i % 2)) 1 * 256 + fld l (i / 2 * 5 + 2 * (i % 2) + 1) 1

/-- The i-th pixel of a colour line as R, G, B (R315, R319), in the byte order of CSI-2. -/
def rgbPixel (dt : Nat) (m709 limited : Bool) (l : List Byte) (i : Nat) : List Byte :=
  if dt = 0x24 then [(slice l (3 * i + 2) 1).getD 0 0, (slice l (3 * i + 1) 1).getD 0 0, (slice l (3 * i) 1).getD 0 0]
  else if dt = 0x22 then
    let v := fld l (2 * i) 2
    let r := v / 2048
    let g := v / 32 % 64
    let b := v % 32
    [BitVec.ofNat 8 (r * 8 + r / 4), BitVec.ofNat 8 (g * 4 + g / 16), BitVec.ofNat 8 (b * 8 + b / 4)]
  else yuvRgb m709 limited (fld l (i / 2 * 4 + 1 + 2 * (i % 2)) 1) (fld l (i / 2 * 4) 1) (fld l (i / 2 * 4 + 2) 1)

/-- Luma of the i-th pixel (R319). -/
def lumaPixel (dt : Nat) (m709 limited : Bool) (l : List Byte) (i : Nat) : Byte :=
  if dt = 0x24 then rgbLuma m709 limited (fld l (3 * i + 2) 1) (fld l (3 * i + 1) 1) (fld l (3 * i) 1)
  else BitVec.ofNat 8 (fld l (i / 2 * 4 + 1 + 2 * (i % 2)) 1)

/-- Payload bytes of `w` pixels of a data type. -/
def payloadBytes (dt w : Nat) : Nat := let g := (pixelGroup dt).getD (1, 1); (w + g.1 - 1) / g.1 * g.2

/-- Output row bytes of a format (R319); of one plane for format 3. -/
def outRow (fmt dt w : Nat) : Nat := if fmt = 0 then payloadBytes dt w else if fmt = 1 then 2 * w else if fmt = 2 then 3 * w else w

/-- A converted line: (offset from the row's first byte, bytes) for each run written (R319). -/
def convertLine (fmt dt opts w plane : Nat) (l : List Byte) : List (Nat × List Byte) :=
  let m := bit opts 0
  let lim := bit opts 1
  let n := (List.range w)
  match fmt with
  | 0 => [(0, slice l 0 (payloadBytes dt w))]
  | 1 => [(0, (n.map (fun i => leBytes 2 (rawPixel dt l i))).flatten)]
  | 2 => [(0, (n.map (rgbPixel dt m lim l)).flatten)]
  | 3 => (List.range 3).map (fun c => (c * plane, n.map (fun i => (rgbPixel dt m lim l i).getD c 0)))
  | _ => [(0, n.map (lumaPixel dt m lim l))]

/-! ### The front end (R317–R321) -/

/-- The slot of a capture (R318). -/
def camSlot (c : Capture) (x : Camera) : Nat := c.launch.strobe.seq.toNat % max 1 (fld x.entry 20 1)

/-- The first byte of row `y` of a camera's frame (R319). -/
def camRow (c : Capture) (x : Camera) (y : Nat) : Nat :=
  fld x.entry 8 8 + camSlot c x * fld x.entry 16 4 + y * fld x.entry 22 2 * 64

/-- Stripe posts are enabled and stripes have rows (R317, R320). -/
def camPosts (x : Camera) : Bool := bit (fld x.entry 31 1) 7 && decide (0 < fld x.entry 28 2)

/-- A line of a captured frame reaches the front end (R316, R319, R320). -/
def cameraLine (s : State) (n info : Nat) (bs : List Byte) (err : Bool) : State :=
  match s.sen.capture, cameraAt s n (info % 4) with
  | some c, some (i, x) =>
    if !bit info 3 || x.phase = 0 || x.phase = 3 then s
    else
      let e := x.entry
      let w := fld e 4 2
      let h := fld e 6 2
      let y := x.arrived
      if h ≤ y then s.modCam i (fun x => { x with flags := x.flags ||| 4 })
      else
        let dt := filtDt ((s.sen.csi.get n).filters.get (fld e 1 1))
        let fmt := fld e 2 1
        let want := payloadBytes dt w
        let runs := if err then (convertLine fmt dt (fld e 3 1) w (fld e 24 4) []).map (fun r => (r.1, r.2.map (fun _ => (0 : Byte))))
          else convertLine fmt dt (fld e 3 1) w (fld e 24 4) (bs.take want)
        let wr := runs.foldl (fun (a : State × Half) r =>
          let z := writeRange a.1 0x32 c.launch.strobe.label.toNat (camRow c x y + r.1) r.2 false
          (z.1, firstErr a.2 z.2)) (s, stOk)
        let flag := (if err then 32 else 0) + (if !err && bs.length != want then 8 else 0) + (if bit info 2 then 16 else 0) +
          (if wr.2 = stOk then 0 else 256)
        let s := if err then wr.1.modCsi n (fun p => { p with lineLost := cnt p.lineLost 1 }) else wr.1
        s.modCam i (fun x => { x with
          arrived := y + 1, rows := if err then x.rows else x.rows + 1, lost := if err then x.lost + 1 else x.lost,
          bytes := x.bytes + (runs.map (fun r => r.2.length)).sum, flags := x.flags ||| flag,
          posts := if camPosts x && (y + 1) % fld e 28 2 = 0 then x.posts + 1 else x.posts })
  | _, _ => s

/-- A word of CSI_RX_n reaches the front end (R268, R316). -/
def csiWord (s : State) (n : Nat) (w : LWord) : State :=
  let line := (s.sen.csi.get n).line ++ w.data.take w.vbytes
  if w.eop then cameraLine (s.modCsi n (fun p => { p with line := [] })) n w.info line w.err
  else s.modCsi n (fun p => { p with line := line })

/-- Nothing of a captured frame of port `n` waits in its queue. -/
def csiDrained (s : State) (n : Nat) : Bool :=
  !(s.fab.ldl.get n).words.any (fun w => bit w.info 3) && !(s.fab.ldl.get n).part.any (fun w => bit w.info 3)

/-- The camera of port `n` in the running capture. -/
def cameraOfPort (s : State) (n : Nat) : Option (Capture × Nat × Camera) :=
  match s.sen.capture with
  | none => none
  | some c =>
    match indexOf? (fun (x : Camera) => fld x.entry 0 1 == n) c.cams with
    | some i => (c.cams[i]?).map (fun x => (c, i, x))
    | none => none

/-- The last row written still needs its post (R320). -/
def lastPostDue (x : Camera) : Bool :=
  camPosts x && x.phase == 2 && decide (0 < x.arrived) && x.arrived % fld x.entry 28 2 != 0 && !bit x.flags 31

/-- A stripe post (R320). Flag bit 31, outside the record's flags, marks the post of the last row as made. -/
def stripePost (s : State) (n : Nat) : State :=
  match cameraOfPort s n with
  | none => s
  | some (_, i, x) =>
    let last := x.posts = 0 && lastPostDue x && csiDrained s n
    if x.posts = 0 ∧ !last then s
    else
      let r := postLogical s 0x32 (fld x.entry 30 1) (fld x.entry 31 1 % 16) 1
      r.1.modCam i (fun x => { x with
        posts := x.posts - 1, flags := (x.flags ||| (if r.2 then 0 else 128)) ||| (if last then 2 ^ 31 else 0) })

/-- The 64 bytes of a frame record (R321). -/
def frameRecord (c : Capture) (x : Camera) (flags : Nat) : List Byte :=
  slice (leBytes 8 x.dtFs ++ leBytes 8 x.dtFe ++ leBytes 4 c.launch.strobe.seq.toNat ++ leBytes 2 x.fnum.toNat ++
    leBytes 1 (fld x.entry 0 1) ++ leBytes 1 (camSlot c x) ++ leBytes 2 x.rows ++ leBytes 2 x.lost ++ leBytes 4 flags ++
    leBytes 4 x.bytes) 0 64

/-- A frame record is written; with the last one the launch completes (R318, R321). -/
def frameRecordWrite (s : State) (n : Nat) : State :=
  match cameraOfPort s n with
  | none => s
  | some (c, i, x) =>
    if x.phase ≠ 2 ∨ !csiDrained s n ∨ 0 < x.posts ∨ lastPostDue x then s
    else
      let short := x.arrived < fld x.entry 6 2 ∧ !bit x.flags 0
      let flags := (x.flags % 2 ^ 31) ||| (if short then 2 else 0)
      let at_ := fld x.entry 32 8 + 64 * camSlot c x
      let s := (writeRange s 0x32 c.launch.strobe.label.toNat at_ (frameRecord c x flags) false).1
      let s := s.modCsi n (fun p => { p with frameCnt := cnt p.frameCnt 1 })
      let s := if flags &&& 0x1BE ≠ 0 then raiseEvent s 0x0A01 n [flags + c.launch.strobe.seq.toNat * 2 ^ 32, at_] else s
      let s := s.modCam i (fun x => { x with phase := 3 })
      let bad := c.failed || flags &&& 0x41 != 0
      match s.sen.capture with
      | none => s
      | some c' =>
        if c'.cams.all (fun x => x.phase == 3) then
          reportDone { s with sen.capture := none } 38 c.launch (if bad then stEngineError else stOk)
        else { s with sen.capture := some { c' with failed := bad } }

/-- The launch of a strobe at a target: the held one if the calendar holds it, else an uncalendared one. -/
def takeHeld (s : State) (t : Nat) (b : Strobe) : State × Launch :=
  match s.cal.held.get t with
  | h :: r => if h.launch.strobe = b then ({ s with cal.held := s.cal.held.set t r }, h.launch) else (s, { strobe := b, link := none })
  | [] => (s, { strobe := b, link := none })

/-- The front end accepts a launch (R318); it runs one at a time. -/
def frontEndAccept (s : State) (l : Launch) : State :=
  match (if l.strobe.prog.toNat < 64 then s.sen.profiles.get l.strobe.prog.toNat else none) with
  | none => reportDone s 38 l stBadProgram
  | some pr =>
    let cams := (List.range (fld pr 1 1)).map (fun c =>
      ({ entry := slice pr (16 + 64 * c) 64, phase := 0, fnum := 0, dtFs := 0, dtFe := 0, arrived := 0, rows := 0, lost := 0,
         bytes := 0, flags := 0, posts := 0, trigPhase := 0 } : Camera))
    { s with sen.capture := some { launch := l, head := slice pr 0 16, since := s.dt, cams := cams, failed := false } }

/-- The front end can take a strobe: no launch runs and its clock does (R318, R400). -/
def frontEndReady (s : State) : Bool := s.sen.capture.isNone && !stoppedDomain s.pwr.state 67

/-- A strobe at the front end. -/
def frontEndLaunch (s : State) (b : Strobe) : State :=
  if frontEndReady s then let x := takeHeld s 38 b; frontEndAccept x.1 x.2 else s

/-- The start of a camera's trigger pulse (R318). -/
def trigStart (c : Capture) : Nat := max (c.launch.strobe.dt + fld c.head 4 4 * 1000) c.since

/-- CSI_TRIG_n rises (R318). -/
def csiTrigStart (s : State) (n : Nat) : State :=
  match cameraOfPort s n with
  | some (c, i, x) =>
    if bit (fld x.entry 3 1) 2 ∧ x.trigPhase = 0 ∧ trigStart c ≤ s.dt then
      (s.modCam i (fun x => { x with trigPhase := 1 })).modCsi n (fun p => { p with trig := true })
    else s
  | none => s

/-- CSI_TRIG_n falls after trig_w_us (R318). -/
def csiTrigEnd (s : State) (n : Nat) : State :=
  match cameraOfPort s n with
  | some (c, i, x) =>
    if x.trigPhase = 1 ∧ trigStart c + fld c.head 8 2 * 1000 ≤ s.dt then
      (s.modCam i (fun x => { x with trigPhase := 2 })).modCsi n (fun p => { p with trig := false })
    else s
  | none => s

/-- timeout_ms after acceptance (R318): cameras without FS get NO_FRAME, open frames TRUNC. -/
def captureTimeout (s : State) : State :=
  match s.sen.capture with
  | none => s
  | some c =>
    if s.dt < c.since + fld c.head 10 2 * 1000000 then s
    else { s with sen.capture := some { c with cams := c.cams.map (fun x =>
        if x.phase = 0 then { x with phase := 2, dtFe := s.dt, flags := x.flags ||| 1 }
        else if x.phase = 1 then { x with phase := 2, dtFe := s.dt, flags := x.flags ||| 2 } else x) } }

/-! ### Ethernet (R325–R327) -/

/-- The EtherType of a frame and its VLAN tag, if any (IEEE 802.1Q). -/
def ethType (b : List Byte) : Nat × Option Nat :=
  let be := fun o => fld b o 1 * 256 + fld b (o + 1) 1
  if be 12 = 0x8100 then (be 16, some (be 14)) else (be 12, none)

/-- The MAC that carries 802.1AS (R325). -/
def ptpMac (s : State) (m : Nat) : Bool := s.time.src == 1 && s.time.ethPort == m

/-- Whether a receive queue takes a frame (R325, R326). -/
def rxqMatches (s : State) (m q : Nat) (b : List Byte) : Bool :=
  let x := (s.sen.eth.get m).rxq.get q
  let t := ethType b
  if ptpMac s m && q == 3 then t.1 == 0x88F7
  else x.on && (match x.kind with
    | 0 => true
    | 1 => t.1 == x.value
    | _ => match t.2 with
      | some v => bit x.value (v / 8192)
      | none => false)

/-- A dropped frame (R326), reported at most once per second (R334). -/
def ethDrop (s : State) (m : Nat) : State :=
  let s := s.modEth m (fun e => { e with rxDrop := cnt e.rxDrop 1, drops := e.drops + 1 })
  let e := s.sen.eth.get m
  let fresh := match e.dropDt with
    | some t => decide (t + 1000000000 ≤ s.dt)
    | none => true
  if fresh then raiseEvent (s.modEth m (fun e => { e with drops := 0, dropDt := some s.dt })) 0x0A11 m [e.drops] else s

/-- A received frame (R325, R326). -/
def ethRx (s : State) (m : Nat) (f : EthFrame) : State :=
  let e := s.sen.eth.get m
  if !e.enable || !e.link then s
  else if !f.fcsOk then s.modEth m (fun e => { e with fcsErr := cnt e.fcsErr 1 })
  else
    match (List.range 4).find? (fun q => rxqMatches s m q f.bytes) with
    | none => ethDrop s m
    | some q =>
      if ptpMac s m && q == 3 then s.modEth m (fun e => { e with rxFrames := e.rxFrames + 1 })
      else
        let x := e.rxq.get q
        if (x.tail + 1) % x.nslots = x.head then ethDrop s m
        else
          let base := x.base + x.tail * x.slot
          let room := x.slot - 32
          let rec_ := slice (leBytes 8 s.dt ++ leBytes 4 f.bytes.length ++ leBytes 2 ((ethType f.bytes).2.getD 0) ++
            leBytes 2 (b2n (decide (room < f.bytes.length))) ++ leBytes 4 x.seq) 0 32
          let s := (writeRange s 0x30 x.label (base + 32) (f.bytes.take room) false).1
          let s := (writeRange s 0x30 x.label base rec_ false).1
          let n := x.count + 1
          let post := bit x.ctr 7 && decide (x.k ≤ n)
          let s := s.modEth m (fun e => { e with
            rxFrames := e.rxFrames + 1,
            rxq := e.rxq.set q { x with tail := (x.tail + 1) % x.nslots, seq := (x.seq + 1) % 2 ^ 32, count := if x.k ≤ n then 0 else n } })
          if post then (postLogical s 0x30 x.ltile (x.ctr % 16) 1).1 else s

/-- The address of a transmit queue's next descriptor. -/
def txDesc (x : EthTxq) : Nat := x.base + 32 * x.pos

/-- The MAC reads its queues' descriptors (R327): a queue is active while the descriptor it stands at is owned. -/
def ethTxPoll (s : State) (m : Nat) : State :=
  if !(s.sen.eth.get m).enable then s
  else (List.range 4).foldl (fun s q =>
    let x := (s.sen.eth.get m).txq.get q
    if !x.on then s
    else
      let r := readRange s 0x30 (txDesc x) 32
      r.1.modEth m (fun e => { e with txq := e.txq.set q { x with active := r.2.1 == stOk && bit (fld r.2.2.1 12 2) 0 } })) s

/-- A frame of a queue has left (R327): the lowest active queue sends; its descriptor is written back and the next one looked at. -/
def ethTxDone (s : State) (m q : Nat) : State :=
  let e := s.sen.eth.get m
  let x := e.txq.get q
  if !e.enable || !e.link || !x.active || (List.range q).any (fun i => (e.txq.get i).active) then s
  else
    let r := readRange s 0x30 (txDesc x) 32
    let d := r.2.2.1
    let f := readRange r.1 0x30 (fld d 0 8) (fld d 8 4)
    let st := f.2.1
    let back := putBytes (putBytes (putBytes d 12 (leBytes 2 (fld d 12 2 / 2 % 2 * 2 + 4))) 14 (leBytes 2 st.toNat)) 16
      (leBytes 8 (if bit (fld d 12 2) 1 then s.dt else fld d 16 8))
    let s := (writeRange f.1 0x30 x.label (txDesc x) back false).1
    let y := { x with pos := (x.pos + 1) % x.nslots }
    let nx := readRange s 0x30 (txDesc y) 32
    nx.1.modEth m (fun e => { e with
      txFrames := e.txFrames + 1, wire := e.wire ++ [(f.2.2.1, st == stOk)],
      txq := e.txq.set q { y with active := nx.2.1 == stOk && bit (fld nx.2.2.1 12 2) 0 } })

/-- A write of ETH_m_RXQ_q_HEAD: ignored if it would pass TAIL (R326, R332). -/
def ethHead (s : State) (m q v : Nat) : State :=
  let x := (s.sen.eth.get m).rxq.get q
  let v := v % 65536
  if x.nslots ≤ v ∨ x.nslots = 0 then s
  else if (v + x.nslots - x.head) % x.nslots ≤ (x.tail + x.nslots - x.head) % x.nslots then
    s.modEth m (fun e => { e with rxq := e.rxq.set q { x with head := v } })
  else s

/-- A MAC's link changes (R332, R334). -/
def ethLink (s : State) (m : Nat) (up : Bool) : State :=
  if (s.sen.eth.get m).link = up then s else raiseEvent (s.modEth m (fun e => { e with link := up })) 0x0A10 m [b2n up]

/-! ### The tray (R329–R331, R413–R415) -/

/-- The slot of a role, if one is configured. -/
def slotOfRole (s : State) (role : Nat) : Option TraySlot :=
  ((List.range 8).map s.sen.tray.slots.get).find? (fun x => fld x.conf 1 1 == role)

/-- A slot gives no usable reading (R413): absent, never read, in fault, or older than 1 s. -/
def slotBad (s : State) : Option TraySlot → Bool
  | none => true
  | some x => !x.valid || x.fault || decide (x.good + 1000000000 < s.dt)

/-- Quench takes the coolant readings as they stand (R413, R414). -/
def coolantRefresh (s : State) : State :=
  let s := { s with qch.fallback := slotBad s (slotOfRole s 1) || slotBad s (slotOfRole s 2) }
  let slot := slotOfRole s 3
  let slotOk := !slotBad s slot
  let slotQ := uint 16 ((slot.map (·.value)).getD 0)
  let pulseOk := !s.sen.tray.stalled
  let pulseQ := s.sen.tray.flow
  let pick : Nat × Bool × Nat :=
    if s.qch.conf = 0 then (pulseQ, pulseOk, 0)
    else if s.qch.conf = 1 then (slotQ, slotOk, 1)
    else if pulseOk && slotOk then (min pulseQ slotQ, true, if slotQ < pulseQ then 1 else 0)
    else if slotOk then (slotQ, true, 1) else (pulseQ, pulseOk, 0)
  restoreWatch (coolantUpdate s pick.1 pick.2.1 pick.2.2)

/-- The outlet-rate test of R415 on a new outlet reading, in °C × 64. -/
def outletRate (s : State) (v : Int) : State :=
  let per := ((slotOfRole s 2).map (fun x => fld x.conf 6 2)).getD 1000
  match s.qch.outlet with
  | (t0, b) :: _ =>
    if s.dt < t0 + 100000000 then s
    else
      let s' := { s with qch.outlet := [(s.dt, v), (t0, b)] }
      if per ≤ 100 ∧ !s.qch.fallback ∧ (s.qch.stopRate : Int) * 64 * ((s.dt - t0 : Nat) : Int) < (v - b) * 1000000000 * 10 then
        coolantStop s' 1
      else s'
  | [] => { s with qch.outlet := [(s.dt, v)] }

/-- A sensor read begins (R329). -/
def traySensorRead (s : State) (k : Nat) : State :=
  let x := s.sen.tray.slots.get k
  let due := match x.lastRd with
    | some t => decide (t + fld x.conf 6 2 * 1000000 ≤ s.dt)
    | none => true
  if fld x.conf 1 1 = 0 ∨ x.busy ∨ !due ∨ stoppedDomain s.pwr.state 73 then s
  else s.modSlot k (fun x => { x with busy := true, lastRd := some s.dt })

/-- The reading of a raw value (R329): raw × scale + offset in FP32, rounded to the role's unit. -/
def trayValue (conf : List Byte) (raw : Nat) : Int :=
  let two := bit (fld conf 5 1) 0
  let v := if bit (fld conf 5 1) 1 then sint (if two then 16 else 8) raw else ((raw % (if two then 65536 else 256) : Nat) : Int)
  let y := rne32 ((rne32 ((Val.ofInt v).mul (ofFp32 (fld conf 8 4)))).add (ofFp32 (fld conf 12 4)))
  let role := fld conf 1 1
  let y := if role = 1 ∨ role = 2 then y.mul (Val.ofInt 64) else y
  if role = 3 then clampI 0 65535 (toInt 17 false noRng y).2 else (toInt 16 false noRng y).2

/-- A sensor read ends, with a value or by NACK or timeout (R329). -/
def trayReadDone (s : State) (k : Nat) (raw : Option (BitVec 16)) : State :=
  let x := s.sen.tray.slots.get k
  if !x.busy then s
  else match raw with
    | none =>
      let s := { s with sen.tray.faultCnt := cnt s.sen.tray.faultCnt 1 }
      let s := s.modSlot k (fun x => { x with busy := false, fails := x.fails + 1, fault := x.fault || decide (2 ≤ x.fails) })
      let s := if x.fails = 2 ∧ !x.fault then raiseEvent s 0x0A20 k [1] else s
      coolantRefresh s
    | some r =>
      let v := trayValue x.conf r.toNat
      let s := s.modSlot k (fun x => { x with busy := false, fails := 0, fault := false, valid := true, good := s.dt, value := v })
      let s := if x.fault then raiseEvent s 0x0A20 k [0] else s
      let role := fld x.conf 1 1
      let s := if role = 1 then { s with qch.tIn := v } else if role = 2 then { s with qch.tOut := v } else s
      let s := coolantRefresh s
      if role = 2 then outletRate s v else s

/-- Flow from the time between two edges, in mL/min (R330). A flow between two whole numbers is reported as one of them: which, is a
free value. -/
def trayFlow (s : State) (t : Nat) : State × Nat :=
  match ofFp32 s.sen.tray.k.toNat with
  | .fin false k =>
    if t = 0 ∨ k = 0 then (s, 65535)
    else
      let x : Rat := 60000000000000 / ((t : Rat) * k)
      let n := x.floor.toNat
      if x = (n : Rat) then (s, sat 16 n) else (s.took, sat 16 (n + s.freeVal.toNat % 2))
  | _ => (s, 65535)

/-- An edge of FLOW_PULSE (R330); a pulse with a phase shorter than 20 µs is ignored. -/
def flowPulse (s : State) (clean : Bool) : State :=
  if !clean then s
  else
    let t := s.sen.tray
    let n := t.edges + 1
    let s' := { s with sen.tray := { t with pulseDt := s.dt, edges := n, stalled := t.stalled && decide (n < 2) } }
    if 2 ≤ n then
      let r := trayFlow s' (s.dt - t.pulseDt)
      coolantRefresh { r.1 with sen.tray.flow := r.2 }
    else s'

/-- No edge for 250 ms (R330, R415): the flow reads 0 and a coolant stop is detected. -/
def flowStall (s : State) : State :=
  if s.sen.tray.stalled ∨ s.dt < s.sen.tray.pulseDt + 250000000 then s
  else
    let s := { s with sen.tray.stalled := true, sen.tray.flow := 0, sen.tray.edges := 0 }
    coolantRefresh (coolantStop s 0)

/-- The duty of COOL_DEMAND in 1/1,024 (R331): full demand while the PWM does not run. -/
def coolDuty (s : State) : Nat :=
  if !s.sen.tray.configured || stoppedDomain s.pwr.state 73 then 1024 else max s.qch.demand s.sen.tray.floor

/-! ### Registers (R332) -/

/-- CSI_n_STAT. -/
def csiStat (s : State) (n : Nat) : Nat :=
  let p := s.sen.csi.get n
  let armed := match cameraOfPort s n with
    | some (_, _, x) => x.phase == 0
    | none => false
  pack [(16, p.fnum.toNat), (4, maskOf 4 (fun f => filtOn (p.filters.get f))), (5, 0), (1, b2n ((List.range 4).any p.openF.get)),
        (1, b2n armed), (3, p.lanes), (1, p.phy), (1, b2n p.up)]

/-- The registers of port `n` on page 0x60. -/
def csiRegs (s : State) (n b : Nat) : List Reg :=
  let p := s.sen.csi.get n
  [r4 b (csiStat s n), r4 (b + 4) p.pktCnt, r4 (b + 8) p.eccCnt, r4 (b + 0xC) p.hdrErr, r4 (b + 0x10) p.crcErr, r4 (b + 0x14) p.filtCnt,
   r4 (b + 0x18) p.noArm, r4 (b + 0x1C) p.lineLost, r4 (b + 0x20) p.frameCnt, r8 (b + 0x28) p.lastFs]

/-- CSI_FE_STAT. -/
def feStat (s : State) : Nat :=
  match s.sen.capture with
  | none => 0
  | some c => pack [(12, maskOf 12 (fun n => c.cams.any (fun x => fld x.entry 0 1 == n && x.phase != 3))), (4, 0), (6, fld c.head 0 1),
                    (9, 0), (1, 1)]

/-- Page 0x60 of unit 0x00. -/
def pageCsi (s : State) : List Reg := regsFor 12 (fun n => csiRegs s n (0x40 * n)) ++ [r4 0x300 0, r4 0x304 (feStat s)]

/-- SKM_n_TAP_x. -/
def skmReg (s : State) (n i : Nat) : Nat :=
  let t := (s.sen.csi.get n).taps.get i
  pack [(24, t.sent), (6, 0), (1, b2n t.trunc), (1, b2n (tapCfgOf s i n).isSome)]

/-- Page 0x61 of unit 0x00. -/
def pageSkm (s : State) : List Reg := regsFor 12 (fun n => [r4 (8 * n) (skmReg s n 0), r4 (8 * n + 4) (skmReg s n 1)])

/-- The registers of MAC `m` on page 0x62. -/
def ethRegs (s : State) (m b : Nat) : List Reg :=
  let e := s.sen.eth.get m
  let en := maskOf 4 (fun q => (e.rxq.get q).on || (ptpMac s m && q == 3))
  [r4 b (pack [(12, 0), (4, maskOf 4 (fun q => (e.txq.get q).on)), (4, en), (8, 0), (1, b2n (ptpMac s m)), (2, e.fec), (1, b2n e.link)]),
   r8 (b + 8) e.rxFrames, r8 (b + 0x10) e.txFrames, r4 (b + 0x18) e.fcsErr, r4 (b + 0x1C) e.rxDrop] ++
  regsFor 4 (fun q => [r4 (b + 0x20 + 8 * q) ((e.rxq.get q).head % 65536), r4 (b + 0x24 + 8 * q) ((e.rxq.get q).tail % 65536)])

/-- Page 0x62 of unit 0x00. -/
def pageEth (s : State) : List Reg := regsFor 4 (fun m => ethRegs s m (0x100 * m)) ++ [r4 0x400 0]

/-- HUB_TRAY_SENS_s. -/
def trayReg (s : State) (k : Nat) : Nat :=
  let x := s.sen.tray.slots.get k
  pack [(16, uint 16 x.value), (14, if x.valid then sat 14 ((s.dt - x.good) / 1000000) else 0), (1, b2n x.fault), (1, b2n x.valid)]

/-- Page 0x63 of unit 0x00. -/
def pageTray (s : State) : List Reg :=
  let t := s.sen.tray
  regsFor 8 (fun k => [r4 (4 * k) (trayReg s k)]) ++
  [r4 0x020 (pack [(16, t.flow), (15, 0), (1, b2n t.stalled)]), r8 0x028 t.pulseDt,
   r4 0x030 (pack [(11, coolDuty s), (5, 0), (11, s.qch.demand)]), r4 0x034 t.faultCnt, r4 0x038 0]

/-- CSI_CTRL.cnt_clr: the counters of pages 0x60 and 0x61. -/
def csiCntClr (s : State) : State :=
  (List.range 12).foldl (fun s n => s.modCsi n (fun p => { p with
    pktCnt := 0, eccCnt := 0, hdrErr := 0, crcErr := 0, filtCnt := 0, noArm := 0, lineLost := 0, frameCnt := 0,
    taps := (List.range 2).foldl (fun t i => t.modify i (fun x => { x with sent := 0 })) p.taps })) s

/-- ETH_CTRL.cnt_clr. -/
def ethCntClr (s : State) : State :=
  (List.range 4).foldl (fun s m => s.modEth m (fun e => { e with rxFrames := 0, txFrames := 0, fcsErr := 0, rxDrop := 0 })) s

/-! ### Commands (R317, R333) -/

/-- The bytes of a port's configuration, in the layout of CSI_PORT_CONFIG. -/
def csiConfBytes (n : Nat) (p : CsiPort) : List Byte :=
  leBytes 1 n ++ leBytes 1 p.phy ++ leBytes 1 p.lanes ++ leBytes 1 p.scramble ++ leBytes 2 p.rate ++ leBytes 2 0 ++
    catMap 4 (fun f => leBytes 2 (p.filters.get f))

/-- CSI_PORT_CONFIG (R315, R333). -/
def cmdCsiConfig (s : State) (c : Cmd) : State × Reply :=
  let a := clampFields c.pay 16 [fr 0 1 0 11, fr 1 1 0 1, fr 3 1 0 1, fz 6 2]
  let phy := fld a.1 1 1
  let ln := fld a.1 2 1
  let ln' := if phy = 0 then (if ln < 2 then 1 else if ln < 4 then 2 else 4) else clampN 1 3 ln
  let rate := fld a.1 4 2
  let rate' := if phy = 0 then clampN 80 4500 rate else clampN 80 6000 rate
  let fs := (List.range 4).map (fun f => fld a.1 (8 + 2 * f) 2)
  let fs' := fs.map (fun v => v &&& 0xBF1F)
  let clamps := a.2 + b2n (decide (ln ≠ ln')) + b2n (decide (rate ≠ rate')) + (List.range 4).countP (fun f => fs.getD f 0 != fs'.getD f 0)
  let n := fld a.1 0 1
  let busy := match cameraOfPort s n with
    | some (_, _, x) => x.phase != 3
    | none => false
  if busy then (s, reply stBusy clamps [])
  else if (List.range 4).any (fun f => (f = 0 || filtOn (fs'.getD f 0)) && (pixelGroup (filtDt (fs'.getD f 0))).isNone) then
    (s, reply stBadField clamps [])
  else
    let s := s.modCsi n (fun p => { p with
      phy := phy, lanes := ln', scramble := fld a.1 3 1, rate := rate', configured := true,
      filters := (List.range 4).foldl (fun t f => t.set f (fs'.getD f 0)) p.filters })
    (s, reply stOk clamps (csiConfBytes n (s.sen.csi.get n)))

/-- CSI_PORT_QUERY (R333). -/
def cmdCsiQuery (s : State) (c : Cmd) : State × Reply :=
  let a := clampFields c.pay 1 [fr 0 1 0 11]
  let n := fld a.1 0 1
  (s, reply stOk a.2 (csiConfBytes n (s.sen.csi.get n) ++ regBytes (csiRegs s n 0) ++ leBytes 4 (skmReg s n 0) ++ leBytes 4 (skmReg s n 1)))

/-- The bytes that a camera entry's frame takes in a plane, and in a slot (R317). -/
def camExtent (s : State) (e : List Byte) : Nat × Nat :=
  let dt := filtDt ((s.sen.csi.get (fld e 0 1)).filters.get (fld e 1 1))
  let fmt := fld e 2 1
  let plane := (fld e 6 2 - 1) * fld e 22 2 * 64 + outRow fmt dt (fld e 4 2)
  (plane, if fmt = 3 then 2 * fld e 24 4 + plane else plane)

/-- A profile that R317 does not permit. -/
def profileBad (s : State) (es : List (List Byte)) : Bool :=
  let ports := es.map (fun e => fld e 0 1)
  ports.eraseDups.length != ports.length ||
  es.any (fun e =>
    let dt := filtDt ((s.sen.csi.get (fld e 0 1)).filters.get (fld e 1 1))
    let fmt := fld e 2 1
    let x := camExtent s e
    !(fmtsOf dt).contains fmt || decide (fld e 22 2 * 64 < outRow fmt dt (fld e 4 2)) ||
    (fmt = 3 && decide (fld e 24 4 < x.1)) || (decide (1 < fld e 20 1) && decide (fld e 16 4 < x.2)))

/-- An address of a profile outside DRAM and hub SRAM. -/
def profileOutside (s : State) (es : List (List Byte)) : Bool :=
  es.any (fun e => !inDramOrHub (fld e 8 8) ((fld e 20 1 - 1) * fld e 16 4 + (camExtent s e).2) ||
    !inDramOrHub (fld e 32 8) (64 * fld e 20 1))

/-- CAPTURE_PROFILE_SET (R317, R333). -/
def cmdProfileSet (s : State) (c : Cmd) : State × Reply :=
  let a := clampFields c.pay 16 [fr 0 1 0 63, fr 1 1 1 12, fz 2 2, fr 4 4 0 1000000, fr 8 2 1 1000, fr 10 2 1 1000, fz 12 4]
  let n := fld a.1 1 1
  let es := (List.range n).map (fun i =>
    let raw := slice c.pay (16 + 64 * i) 64
    let f3 := fld raw 2 1 = 3
    let x := clampFields raw 64 [fr 0 1 0 11, fr 1 1 0 3, fr 2 1 0 4, fr 3 1 0 255, fr 4 2 1 8192, fr 6 2 1 8192, fm 8 8 0 (2 ^ 64 - 1) 64,
      fm 16 4 0 (2 ^ 32 - 1) 64, fr 20 1 1 8, fz 21 1, fr 22 2 1 65535, if f3 then fm 24 4 0 (2 ^ 32 - 1) 64 else fz 24 4, fr 28 2 0 8192,
      fr 30 1 0 31, fm 32 8 0 (2 ^ 64 - 1) 64, fz 40 24]
    let o := fld x.1 3 1
    let t := fld x.1 31 1
    (putBytes (putBytes x.1 3 (leBytes 1 (o % 8))) 31 (leBytes 1 (t &&& 0x8F)),
     x.2 + b2n (decide (8 ≤ o)) + b2n (decide (t &&& 0x70 ≠ 0))))
  let clamps := a.2 + (es.map (·.2)).sum
  let es := es.map (·.1)
  let used := match s.sen.capture with
    | some k => k.launch.strobe.prog.toNat == fld a.1 0 1
    | none => false
  if used then (s, reply stBusy clamps [])
  else if profileBad s es then (s, reply stBadField clamps [])
  else if profileOutside s es then (s, reply stDecodeError clamps [])
  else ({ s with sen.profiles := s.sen.profiles.set (fld a.1 0 1) (some (a.1 ++ es.flatten)) }, reply stOk clamps a.1)

/-- CAPTURE_PROFILE_QUERY (R333). -/
def cmdProfileQuery (s : State) (c : Cmd) : State × Reply :=
  let a := clampFields c.pay 1 [fr 0 1 0 63]
  match s.sen.profiles.get (fld a.1 0 1) with
  | none => (s, reply stNotDefined a.2 [])
  | some p => (s, { status := stOk, clamps := a.2, data := p, bulk := p })

/-- ETH_CONFIG (R325, R333). -/
def cmdEthConfig (s : State) (c : Cmd) : State × Reply :=
  let a := clampFields c.pay 16 [fr 0 1 0 3, fr 1 1 0 1, fr 2 1 0 2, fz 3 1, fr 4 2 64 9216, fz 6 2, fr 14 2 1 1000]
  (s.modEth (fld a.1 0 1) (fun e => { e with
      enable := fld a.1 1 1 = 1, fec := fld a.1 2 1, mtu := fld a.1 4 2, addr := slice a.1 8 6, pollUs := fld a.1 14 2 }),
   reply stOk a.2 a.1)

/-- ETH_QUEUE_CONFIG (R326, R327, R333). -/
def cmdEthQueue (s : State) (c : Cmd) : State × Reply :=
  let a := clampFields c.pay 30 [fr 0 1 0 3, fr 1 1 0 1, fr 2 1 0 3, fr 3 1 0 15, fz 4 4, fm 8 8 0 (2 ^ 64 - 1) 64, fr 16 4 16 65536,
    fm 20 2 2048 16384 64, fr 22 1 0 2, fz 23 1, fr 26 1 0 31, fr 28 2 1 65535]
  let ctr := fld a.1 27 1
  let p := putBytes a.1 27 (leBytes 1 (ctr &&& 0x8F))
  let clamps := a.2 + b2n (decide (ctr &&& 0x70 ≠ 0))
  let m := fld p 0 1
  let q := fld p 2 1
  let rx := fld p 1 1 = 0
  let e := s.sen.eth.get m
  let bytes := if rx then fld p 16 4 * fld p 20 2 else fld p 16 4 * 32
  if (!rx && (e.txq.get q).active) || (rx && q == 3 && ptpMac s m) then (s, reply stBusy clamps [])
  else if !inDramOrHub (fld p 8 8) bytes then (s, reply stDecodeError clamps [])
  else if rx then
    let x : EthRxq := ⟨true, fld p 3 1, fld p 8 8, fld p 16 4, fld p 20 2, fld p 22 1, fld p 24 2, fld p 26 1, fld p 27 1, fld p 28 2, 0, 0, 0, 0⟩
    (s.modEth m (fun e => { e with rxq := e.rxq.set q x }), reply stOk clamps p)
  else
    let x : EthTxq := ⟨true, fld p 3 1, fld p 8 8, fld p 16 4, 0, false⟩
    (s.modEth m (fun e => { e with txq := e.txq.set q x }), reply stOk clamps p)

/-- ETH_QUERY (R333). -/
def cmdEthQuery (s : State) (c : Cmd) : State × Reply :=
  let a := clampFields c.pay 1 [fr 0 1 0 3]
  (s, reply stOk a.2 (regBytes (ethRegs s (fld a.1 0 1) 0)))

/-- An FP32 code clamped to a range of finite values (R295): NaN is taken as the lower end. -/
def clampFp32 (lo hi : Rat) (w : Nat) : Nat :=
  match ofFp32 w with
  | .nan => toFp32 (Val.ofRat lo)
  | v => if v.lt (Val.ofRat lo) then toFp32 (Val.ofRat lo) else if (Val.ofRat hi).lt v then toFp32 (Val.ofRat hi) else w

/-- TRAY_CONFIG (R329, R330, R333). -/
def cmdTrayConfig (s : State) (c : Cmd) : State × Reply :=
  let a := clampFields c.pay 20 [fr 0 1 0 7, fr 1 1 0 4, fr 2 1 0 1, fr 3 1 0x08 0x77, fr 5 1 0 3, fr 6 2 10 1000]
  let n := fld a.1 0 1
  let k := fld a.1 16 4
  let k' := if n = 0 then clampFp32 1 100000 k else k
  let p := putBytes a.1 16 (leBytes 4 k')
  let s := s.modSlot n (fun x => { x with conf := slice p 0 16 })
  let s := { s with sen.tray.configured := true, sen.tray.k := if n = 0 then BitVec.ofNat 32 k' else s.sen.tray.k }
  (s, reply stOk (a.2 + b2n (decide (k ≠ k'))) p)

/-- TRAY_DEMAND (R331, R333). -/
def cmdTrayDemand (s : State) (c : Cmd) : State × Reply :=
  let a := clampFields c.pay 2 [fr 0 2 0 1024]
  let s := { s with sen.tray.floor := fld a.1 0 2 }
  (s, reply stOk a.2 (leBytes 4 (coolDuty s)))

/-- TRAY_QUERY (R333). -/
def cmdTrayQuery (s : State) (_ : Cmd) : State × Reply := (s, reply stOk 0 (regBytes (pageTray s)))

/-! ### One meaning per command -/

def execLadleWrite (q : LadleId) (i : LadleItem) (unseen : Nat) (s : State) : Out :=
  let s := ladleWrite s q i unseen
  .next (if ladleKey q < 12 then wakeInbound s else s)
def execLadleRead (q : LadleId) (hidden : Nat) (s : State) : Out :=
  let x := ladleTake s q hidden
  .next (match x.2 with
    | some w => if ladleKey q < 12 then csiWord x.1 (ladleKey q) w else x.1
    | none => x.1)
def execLadleDrop (q : LadleId) (s : State) : Out :=
  let inside := (s.fab.ldl.get (ladleKey q)).inRead
  let s := ladleDrop s q
  .next (if ladleKey q < 12 ∧ inside then s.modCsi (ladleKey q) (fun p => { p with line := [] }) else s)
def execLadlePtrMismatch (q : LadleId) (s : State) : Out :=
  let s := ladlePtrMismatch s q
  .next (if ladleKey q < 12 then csiQueueLost s (ladleKey q) else s)
def execCsiLongPacket (n : Fin 12) (k : CsiPacket) (now : Nat) (s : State) : Out := .next (csiLongPacket (s.advance now) n k)
def execCsiFrameStart (n : Fin 12) (vc : Fin 32) (fnum : Half) (now : Nat) (s : State) : Out := .next (csiFrameStart (s.advance now) n vc fnum)
def execCsiFrameEnd (n : Fin 12) (vc : Fin 32) (_fnum : Half) (now : Nat) (s : State) : Out := .next (csiFrameEnd (s.advance now) n vc)
def execCsiLinkTimeout (n : Fin 12) (s : State) : Out := .next (csiLinkTimeout s n)
def execFrontEndLaunch (b : Strobe) (now : Nat) (s : State) : Out := .next (frontEndLaunch (s.advance now) b)
def execCsiTrigStart (n : Fin 12) (now : Nat) (s : State) : Out := .next (csiTrigStart (s.advance now) n)
def execCsiTrigEnd (n : Fin 12) (now : Nat) (s : State) : Out := .next (csiTrigEnd (s.advance now) n)
def execCaptureTimeout (now : Nat) (s : State) : Out := .next (captureTimeout (s.advance now))
def execStripePost (n : Fin 12) (s : State) : Out := .next (stripePost s n)
def execFrameRecordWrite (n : Fin 12) (s : State) : Out := .next (frameRecordWrite s n)
def execEthRxFrame (m : Fin 4) (f : EthFrame) (now : Nat) (s : State) : Out := .next (ethRx (s.advance now) m f)
def execEthTxPoll (m : Fin 4) (now : Nat) (s : State) : Out := .next (ethTxPoll (s.advance now) m)
def execEthTxDone (m q : Fin 4) (now : Nat) (s : State) : Out := .next (ethTxDone (s.advance now) m q)
def execEthRxqHeadWrite (m q : Fin 4) (v : Word) (s : State) : Out := .next (ethHead s m q v.toNat)
def execEthLink (m : Fin 4) (up : Bool) (s : State) : Out := .next (ethLink s m up)
def execCsiCtrlCntClr (s : State) : Out := .next (csiCntClr s)
def execEthCtrlCntClr (s : State) : Out := .next (ethCntClr s)
def execTraySensorRead (k : Fin 8) (now : Nat) (s : State) : Out := .next (traySensorRead (s.advance now) k)
def execTrayReadDone (k : Fin 8) (raw : Option (BitVec 16)) (now : Nat) (s : State) : Out := .next (trayReadDone (s.advance now) k raw)
def execFlowPulseEdge (clean : Bool) (now : Nat) (s : State) : Out := .next (flowPulse (s.advance now) clean)
def execFlowStall (now : Nat) (s : State) : Out := .next (flowStall (s.advance now))
def execHubTrayCtrlCntClr (s : State) : Out := .next { s with sen.tray.faultCnt := 0 }
def execCsiPortConfig (ch : Fin 4) (r : Request) (s : State) : Out := cerfosil s ch 0x0200 r cmdCsiConfig
def execCsiPortQuery (ch : Fin 4) (r : Request) (s : State) : Out := cerfosil s ch 0x0201 r cmdCsiQuery
def execCaptureProfileSet (ch : Fin 4) (r : Request) (s : State) : Out := cerfosil s ch 0x0202 r cmdProfileSet
def execCaptureProfileQuery (ch : Fin 4) (r : Request) (s : State) : Out := cerfosil s ch 0x0203 r cmdProfileQuery
def execEthConfig (ch : Fin 4) (r : Request) (s : State) : Out := cerfosil s ch 0x0208 r cmdEthConfig
def execEthQueueConfig (ch : Fin 4) (r : Request) (s : State) : Out := cerfosil s ch 0x0209 r cmdEthQueue
def execEthQuery (ch : Fin 4) (r : Request) (s : State) : Out := cerfosil s ch 0x020A r cmdEthQuery
def execTrayConfig (ch : Fin 4) (r : Request) (s : State) : Out := cerfosil s ch 0x0210 r cmdTrayConfig
def execTrayDemand (ch : Fin 4) (r : Request) (s : State) : Out := cerfosil s ch 0x0211 r cmdTrayDemand
def execTrayQuery (ch : Fin 4) (r : Request) (s : State) : Out := cerfosil s ch 0x0212 r cmdTrayQuery

end Sys2Proof.Machine
end

