-- ==== Sys2Proof/Machine/Islands.lean ====
section
/-! DEFINITION. The safety islands (chapter 13): states, loading, E2E records, check tables, judgement, the DEGRADED latch and its
clear, self-tests, the status mirror and the island commands. -/

namespace Sys2Proof.Machine

/-- One island changed. -/
def State.modIsl (s : State) (i : Nat) (f : Island → Island) : State := { s with anv.isl := s.anv.isl.modify i f }

/-- Island `i`. -/
def State.isle (s : State) (i : Nat) : Island := s.anv.isl.get i

/-! ### Links (R25, R26) -/

/-- The whole package except the islands is in reset (R436). -/
def packageReset (s : State) : Bool :=
  match s.bu.rst with
  | some r => decide (3 ≤ r.scope)
  | none => false

/-- The hub segments carry frames: the hub is powered, out of reset and clocked (R25, R26, R400, R436). -/
def hubLinkUp (s : State) : Bool := s.bu.service != 0 && !packageReset s && !stoppedDomain s.pwr.state 64

/-- The compute-die segment of die `d` carries frames: its transit fabric runs (R26). -/
def dieLinkUp (s : State) (d : Nat) : Bool := hubLinkUp s && !s.fab.transitDown.get d && !stoppedDomain s.pwr.state (36 + d)

/-- The number of a segment (R260), its island, and whether it is up. -/
def segIndex : Segment → Nat
  | .aH => 0 | .a0 => 1 | .a3 => 2 | .bH => 3 | .b1 => 4 | .b2 => 5
def segIsland (g : Segment) : Nat := segIndex g / 3
def segUp (s : State) : Segment → Bool
  | .aH => hubLinkUp s | .bH => hubLinkUp s
  | .a0 => dieLinkUp s 0 | .a3 => dieLinkUp s 3 | .b1 => dieLinkUp s 1 | .b2 => dieLinkUp s 2
def segHub : Segment → Bool
  | .aH => true | .bH => true | _ => false

/-! ### Outputs, notes, the latch (R335, R336, R362) -/

/-- The outputs are driven high: RUN with DEGRADED clear (R335, R341). -/
def outHigh (a : Island) : Bool := a.state == .run && !a.degraded

/-- The outputs read low on at least one pin. -/
def outAsserted (a : Island) : Bool := !a.pin0 || !a.pin1

/-- What the island reports beside its registers, while its hub segment is up (R370, R371). -/
def note (up : Bool) (code p0 p1 : Nat) (a : Island) : Island := if up then { a with notes := a.notes ++ [(code, p0, p1)] } else a

/-- Levels read at the pins; a change of assertion is reported (R371). -/
def setPins (up p0 p1 : Bool) (a : Island) : Island :=
  let b := { a with pin0 := p0, pin1 := p1 }
  if outAsserted a = outAsserted b then b else note up 0x0B05 (b2n (outAsserted b)) 0 b

/-- The pins follow the commanded level when it changes (R336, R337). -/
def drive (up : Bool) (old new : Island) : Island :=
  if outHigh old = outHigh new then new else setPins up (outHigh new) (outHigh new) new

/-- The island with its pins driven after a change `f`. -/
def driven (up : Bool) (f : Island → Island) (a : Island) : Island := drive up a (f a)

/-- A new nonce from the island generator (R362, R87). -/
def newNonce (a : Island) : Island := { a with rng := xorshift a.rng, nonce := xorshift a.rng }

/-- DEGRADED latched with cause bits (R362): the first latching event counts and draws a nonce. The latch is the firmware's, which
runs in CONFIG and RUN (log entry 21). -/
def latch (up : Bool) (bits : Nat) (a : Island) : Island :=
  if a.state = .run ∨ a.state = .config then
    let b := { a with cause := a.cause ||| bits }
    driven up (fun _ => if a.degraded then b else newNonce { b with degraded := true, latchCnt := cnt a.latchCnt 1 }) a
  else a

/-! Cause bits (R370). -/
def cStart : Nat := 1
def cFail2 : Nat := 2
def cFail3 : Nat := 4
def cFrozen : Nat := 8
def cLatent : Nat := 16
def cHold : Nat := 32
def cMode : Nat := 64
def cTable : Nat := 128
def cDebug : Nat := 256
def cOutput : Nat := 512
def cHubReq : Nat := 1024

/-- FAULT with a code: the outputs fall, the cores halt (R337, R341). -/
def islFault (up : Bool) (code : Nat) (a : Island) : Island :=
  if a.state = .reset ∨ a.state = .fault then a
  else driven up (fun a => { a with state := .fault, fault := code, judge := none, slice := none, offer := none, deferred := false }) a

/-- Island time: the newest instant a command names. -/
def tickIt (it : Nat) (a : Island) : Island := { a with it := max a.it it }

/-! ### Tables (R355–R358) -/

def tblNs (t : List Byte) : Nat := fld t 20 1
def tblNr (t : List Byte) : Nat := fld t 21 1
def tblFlags (t : List Byte) : Nat := fld t 40 1
def tblFrame (t : List Byte) : Nat := fld t 24 4 * 1000
def tblPhase (t : List Byte) : Nat := fld t 28 4 * 1000
/-- Stream entry `n` of a table. -/
def tblStream (t : List Byte) (n : Nat) : List Byte := slice t (64 + 16 * n) 16
/-- The stream entries. -/
def tblStreams (t : List Byte) : List (List Byte) := (List.range (tblNs t)).map (tblStream t)

/-- Device time as the island estimates it at IT `it` (R350). -/
def dteAt (a : Island) (it : Nat) : Int :=
  match a.anchor with
  | some (d, i0) => (d : Int) + it - i0
  | none => 0

/-- The first frame number whose end lies after an instant (R351). -/
def firstK (t : List Byte) (dte : Int) : Nat :=
  let x := dte - tblPhase t
  if x < 0 then 0 else (x / tblFrame t).toNat + 1

/-- The boundary that follows the table's acceptance and the anchoring of DTe (R351). -/
def setFirst (a : Island) : Island :=
  match a.table, a.anchor with
  | some t, some _ => { a with nextK := some (firstK t (dteAt a a.it)) }
  | _, _ => a

/-- IT of the next safety-task release. -/
def nextRelease (a : Island) : Option Int :=
  match a.table, a.anchor, a.nextK with
  | some t, some (d, i0), some k => some ((tblPhase t + k * tblFrame t : Nat) - (d : Int) + i0)
  | _, _, _ => none

/-- A table in force at its acceptance or at the boundary after it (R358, R365): streams keep their records and numbers, records that
arrived before the acceptance are no previous record (R358), and a change of seed restarts the SIG count (R323). -/
def applyTable (t : List Byte) (a : Island) : Island :=
  let old := match a.table with
    | some o => tblStreams o
    | none => []
  let keep : Option E2eRec → Option E2eRec := fun r => r.bind (fun r => if a.gen ≤ r.gen then some r else none)
  let ss := (tblStreams t).map (fun e =>
    match indexOf? (fun o => fld o 0 2 == fld e 0 2) old with
    | some n =>
      let x := a.streams.getD n streamFresh
      { x with last := keep x.last, prev := keep x.prev }
    | none => streamFresh)
  let cams := (List.range 12).foldl (fun (c : Tab Frozen) p =>
    match frozenRule t p with
    | none => c.set p (frozenFresh a.accIt)
    | some r =>
      let x := a.cams.get p
      let was := (a.table.bind (fun o => frozenRule o p)).map (fun o => fld o 24 4)
      let x := { x with lastIt := max x.lastIt a.accIt }
      c.set p (if was = some (fld r 24 4) then x else { x with sig := none, same := 0, now := 0 })) a.cams
  { a with table := some t, nextTable := none, streams := ss, cams := cams }

/-! ### E2E records (R352–R354) -/

/-- The place of (src, stream) in a table. -/
def streamIndex (t : List Byte) (src st : Nat) : Option Nat :=
  indexOf? (fun e => fld e 0 1 == src && fld e 1 1 == st) (tblStreams t)

/-- A stream changed. -/
def modStream (n : Nat) (f : E2eStream → E2eStream) (a : Island) : Island :=
  { a with streams := a.streams.set n (f (a.streams.getD n streamFresh)) }

/-- A record discarded (R354): counted, its stream marked with an error for the frame, and reported. -/
def e2eReject (up : Bool) (src st kind : Nat) (mark : Option Nat) (a : Island) : Island :=
  let a := { a with e2eErr := cnt a.e2eErr 1 }
  let a := match mark with
    | some n => modStream n (fun x => { x with err := true }) a
    | none => a
  note up 0x0B02 (src + st * 256 + kind * 65536) 0 a

/-- The bytes of a lane, unwritten ones 0. -/
def laneBytes (l : Lane) (off n : Nat) : List Byte := (List.range n).map (fun i => assocGet 0 l.bytes (off + i))

/-- Whether the first `n` bytes of a lane have been written. -/
def laneHas (l : Lane) (n : Nat) : Bool := (List.range n).all (fun i => l.bytes.any (fun c => c.1 == i))

/-- The number of bits [2n + 1 ...] aside, CRC-32C over the header with its crc field 0, followed by the payload (R352). -/
def recordCrc (h pay : List Byte) : Nat := (crc32c (putBytes h 20 (leBytes 4 0) ++ pay)).toNat

/-- Checks 2 to 6 of a complete record in order (R354): the first that fails, or 0; the second value says whether the stream is
marked. -/
def e2eCheck (a : Island) (t : List Byte) (src : Nat) (dup : Bool) (h pay : List Byte) : Nat :=
  let n := streamIndex t src (fld h 2 1)
  let e := tblStream t (n.getD 0)
  let seqOk := match (a.streams.getD (n.getD 0) streamFresh).seq with
    | none => true
    | some q =>
      let g := (fld h 4 4 + 2 ^ 32 - q) % 2 ^ 32
      decide (1 ≤ g ∧ g ≤ fld e 6 1)
  if dup then 2
  else if fld h 0 1 ≠ 1 ∨ fld h 3 1 ≠ 0 ∨ fld h 18 2 ≠ 0 ∨ fld h 1 1 ≠ src then 3
  else if n.isNone ∨ pay.length < fld e 2 2 ∨ fld e 4 2 < pay.length then 4
  else if recordCrc h pay ≠ fld h 20 4 then 5
  else if !seqOk then 6
  else 0

/-- A complete record validated and taken (R351, R354). -/
def e2eRecord (up : Bool) (src : Nat) (dup : Bool) (h pay : List Byte) (tooLong : Bool) (a : Island) : Island :=
  match a.table with
  | none => a
  | some t =>
    let n := streamIndex t src (fld h 2 1)
    let k := if tooLong then (if dup then 2 else 3) else e2eCheck a t src dup h pay
    if k ≠ 0 then e2eReject up src (fld h 2 1) k (if k = 4 then none else n) a
    else
      modStream (n.getD 0) (fun x => { x with
        seq := some (fld h 4 4), prev := x.last, inFrame := true,
        last := some { seq := fld h 4 4, dt := fld h 8 8, crc := fld h 20 4, pay := pay, gen := a.gen } }) a

/-- A write to the ingress window as the island receives it (R353, R354). `unknown`: what the report names as stream where no stream
byte was written (log entry 3). -/
def e2eWrite (up : Bool) (src off : Nat) (data : List Byte) (unknown : Nat) (a : Island) : Island :=
  let ln := off / 1024
  let o := off % 1024
  let l := a.lanes.get ln
  if a.state ≠ .run then a
  else if src ≠ ln then
    let st := if l.bytes.any (fun c => c.1 == 2) then (assocGet 0 l.bytes 2).toNat else unknown
    let mark := if l.bytes.any (fun c => c.1 == 2) then a.table.bind (fun t => streamIndex t ln st) else none
    e2eReject up ln st 1 mark { a with lanes := a.lanes.set ln laneEmpty }
  else if !l.active && o != 0 then a
  else
    let ws := (List.range (min data.length (1024 - o))).map (fun i => (o + i, data.getD i 0))
    let l := { l with active := true, dup := l.dup || ws.any (fun w => l.bytes.any (fun c => c.1 == w.1)),
                      bytes := ws.foldl (fun b w => assocSet w.1 w.2 b) l.bytes }
    let h := laneBytes l 0 24
    let n := fld h 16 2
    if !laneHas l 24 then { a with lanes := a.lanes.set ln l }
    else if 1000 < n then e2eRecord up src l.dup h [] true { a with lanes := a.lanes.set ln laneEmpty }
    else if !laneHas l (24 + n) then { a with lanes := a.lanes.set ln l }
    else e2eRecord up src l.dup h (laneBytes l 24 n) false { a with lanes := a.lanes.set ln laneEmpty }

/-! ### Taps and frozen cameras (R323, R324) -/

/-- gap_max of a FROZEN rule in ns. -/
def frozenGap (r : List Byte) : Rat := (ofFp32 (fld r 12 4)).toRat * 1000000
/-- N of a FROZEN rule. -/
def frozenN (r : List Byte) : Nat := (ofFp32 (fld r 8 4)).toRat.floor.toNat

/-- A tap's message for a frame (R323). -/
def tapArrive (m : TapMessage) (it : Nat) (a : Island) : Island :=
  match a.state, a.table.bind (fun t => frozenRule t m.port) with
  | .run, some r =>
    let x := a.cams.get m.port
    let sig := crc32c (m.samples ++ (if bit (fld r 7 1) 0 then slice m.embedded 0 64 else []))
    let same := if x.sig = some sig then x.same + 1 else 1
    let now := b2n (decide (frozenN r ≤ same)) + 2 * b2n (decide (x.seen ∧ m.fnum ≠ 0 ∧ m.fnum = x.fnum))
    let gap := decide (frozenGap r < ((it : Int) - x.lastIt : Int))
    let why := now + 4 * b2n gap
    { a with cams := a.cams.set m.port { x with
        sig := some sig, same := same, fnum := m.fnum, seen := true, lastIt := it, now := now, trunc := m.trunc,
        cause := x.cause ||| why, frozen := x.frozen || why != 0 } }
  | _, _ => a

/-- No frame of a camera for gap_max (R323). -/
def frozenGapOut (port it : Nat) (a : Island) : Island :=
  match a.state, a.table.bind (fun t => frozenRule t port) with
  | .run, some r =>
    let x := a.cams.get port
    if frozenGap r ≤ ((it : Int) - x.lastIt : Int) then
      { a with cams := a.cams.set port { x with now := x.now ||| 4, cause := x.cause ||| 4, frozen := true } }
    else a
  | _, _ => a

/-- The camera of a FROZEN rule meets a condition of R323 at IT `it` (R358). -/
def frozenNow (r : List Byte) (x : Frozen) (it : Nat) : Bool := x.now != 0 || decide (frozenGap r ≤ ((it : Int) - x.lastIt : Int))

/-- ANV_i_CAM_n (R324). -/
def camWord (x : Frozen) : Nat := pack [(16, x.fnum.toNat), (1, b2n x.trunc), (7, 0), (4, min x.same 15), (3, x.cause), (1, b2n x.frozen)]

/-- A safety-sensor frame (R360). -/
def sensorArrive (ethertype : Nat) (p : List Byte) (it : Nat) (a : Island) : Island :=
  match a.state, a.table, a.cfg with
  | .run, some t, some c =>
    let n := fld t 41 1
    let e := 16 + 2 * n
    if fld c 24 1 = 0 ∨ n = 0 ∨ ethertype ≠ fld t 42 2 then a
    else if p.length < e + 4 ∨ fld p 0 1 ≠ 1 ∨ fld p 1 1 ≠ n ∨ (crc32c (p.take e)).toNat ≠ fld p e 4 ∨ a.sensSeq = some (fld p 4 4) then
      { a with sensErr := cnt a.sensErr 1 }
    else { a with sensSeq := some (fld p 4 4), sensor := some (it, (List.range n).map (fun q => fld p (16 + 2 * q) 2)) }
  | _, _, _ => a

/-! ### Judgement (R357, R358, R361) -/

/-- A field of a rule, none where it does not lie wholly within the payload (R357). -/
def ruleField (r pay : List Byte) : Option Val :=
  let ty := fld r 3 1
  let off := fld r 4 2
  let size := [1, 1, 2, 2, 4, 4, 2, 4].getD ty 4
  let raw := fld pay off size
  if pay.length < off + size then none
  else some (match ty with
    | 0 => Val.ofInt raw | 1 => Val.ofInt (sint 8 raw) | 2 => Val.ofInt raw | 3 => Val.ofInt (sint 16 raw)
    | 4 => rne32 (Val.ofInt raw) | 5 => rne32 (Val.ofInt (sint 32 raw)) | 6 => fp16.decode raw | _ => fp32.decode raw)

/-- Parameter p_n of a rule. -/
def ruleP (r : List Byte) (n : Nat) : Val := ofFp32 (fld r (8 + 4 * n) 4)

/-- A distance in cm as metres; 0xFFFF is unbounded (R358). -/
def metres (cm : Nat) : Val := if cm = 0xFFFF then .inf false else .fin false ((cm : Rat) / 100)

/-- The smallest sensor distance over sectors a to b, wrapping (R358). -/
def dMin (d : List Nat) (lo hi : Nat) : Val :=
  let n := d.length
  (List.range ((hi + n - lo) % n + 1)).foldl (fun m i => Val.min m (metres (d.getD ((lo + i) % n) 0xFFFF))) (.inf false)

/-- Whether a rule that has a record, and a sensor frame where it needs one, is violated (R358). -/
def ruleViolated (r : List Byte) (dte : Int) (x : E2eStream) (rec : E2eRec) (d : List Nat) : Bool :=
  let v := ruleField r rec.pay
  match fld r 0 1 with
  | 1 => match v with
    | some v => v.isNan || v.lt (ruleP r 0) || (ruleP r 1).lt v
    | none => true
  | 2 => match v with
    | none => true
    | some v =>
      match x.prev with
      | none => v.isNan
      | some p =>
        let gap : Int := (rec.dt : Int) - p.dt
        match ruleField r p.pay with
        | none => true
        | some w =>
          v.isNan || w.isNan || decide (gap ≤ 0) ||
            ((ruleP r 0).mul (.fin false (mkRat gap 1000000000))).lt (v.sub w).abs
  | 3 =>
    let old : Val := Val.ofInt (dte - rec.dt)
    let us : Val := .fin false 1000
    ((ruleP r 0).mul us).lt old || ((ruleP r 1).mul us).lt old.opp
  | 5 => match v with
    | none => true
    | some v =>
      let rot := if v.lt vzero then d.length / 2 else 0
      let n := max 1 d.length
      let need := ((v.abs.mul (ruleP r 1)).add ((v.mul v).div ((ruleP r 0).mul (.fin false 2)))).add (ruleP r 2)
      v.isNan || (dMin d ((fld r 6 1 + rot) % n) ((fld r 7 1 + rot) % n)).lt need
  | 6 =>
    let off := fld r 4 2
    let hits := (List.range d.length).filter (fun q =>
      let ds := metres (d.getD q 0)
      !((ruleP r 2).lt ds) && !(ruleP r 2).isNan && (ds.add (ruleP r 0)).lt (metres (fld rec.pay (off + 2 * q) 2)))
    decide (rec.pay.length < off + 2 * d.length) || (ruleP r 1).lt (Val.ofInt hits.length)
  | _ =>
    let u := fld rec.pay 0 2
    decide (rec.pay.length < 2) || u == 3 || (u == 2 && bit (fld r 6 1) 0)

/-- The outcome of a rule in a judgement and what ANV_i_RULE shows (R358, R361): 0 PASS, 1 DOUBT, 2 FAIL, shown 3 where the missing
outcome was taken. -/
def ruleOutcome (j : Judging) (r : List Byte) : Nat × Nat :=
  let sev := fld r 2 1
  let x := j.streams.getD (fld r 1 1) streamFresh
  let bad := (sev % 4, sev % 4)
  let miss := (field sev 3 2, 3)
  if fld r 0 1 = 8 then (0, if frozenNow r (j.cams.get (fld r 6 1)) j.it then 2 else 0)
  else if fld r 0 1 = 4 then
    if x.err || (!x.inFrame && bit (fld (tblStream j.table (fld r 1 1)) 7 1) 0) then bad
    else if x.inFrame then (0, 0) else miss
  else match (if x.inFrame then x.last else none) with
    | none => miss
    | some rec =>
      if fld r 0 1 = 5 ∨ fld r 0 1 = 6 then
        match j.sensor with
        | some (at_, d) =>
          if j.it ≤ at_ + fld j.table 44 4 * 1000 then (if ruleViolated r j.dte x rec d then bad else (0, 0)) else miss
        | none => miss
      else if ruleViolated r j.dte x rec [] then bad else (0, 0)

/-- The approve stream of a table (R356, R359). -/
def approveIndex (t : List Byte) : Nat := (indexOf? (fun e => bit (fld e 7 1) 1) (tblStreams t)).getD 0

/-- The record a frame approves, as the output message holds it (R361, R364). -/
def approved (j : Judging) : Option HeldRec :=
  let n := approveIndex j.table
  let e := tblStream j.table n
  let x := j.streams.getD n streamFresh
  if x.inFrame then
    x.last.map (fun r => { src := fld e 0 1, stream := fld e 1 1, seq := r.seq, crc := r.crc,
                           excerpt := slice (slice r.pay (fld e 8 2) (fld e 10 1)) 0 22 })
  else none

/-- The output message (R364). -/
def outputMessage (i : Nat) (a : Island) (k : Nat) (dte : Int) (doubt : Bool) : List Byte :=
  let h : HeldRec := a.held.getD { src := 0, stream := 0, seq := 0, crc := 0, excerpt := List.replicate 22 0 }
  let split := match a.cfg with
    | some c => fld c 6 1
    | none => 0
  let m := leBytes 1 (i + 2) ++ leBytes 1 (pack [(2, a.verdict), (1, b2n a.degraded), (1, b2n a.hold), (1, b2n doubt), (1, split)]) ++
    leBytes 2 0 ++ leBytes 4 k ++ leBytes 8 (uint 64 dte) ++ leBytes 4 a.nonce.toNat ++ leBytes 2 (min a.age 65535) ++ leBytes 1 h.src ++
    leBytes 1 h.stream ++ leBytes 4 h.seq ++ leBytes 4 h.crc ++ leBytes 4 a.latchCnt ++ leBytes 2 a.cause ++ slice h.excerpt 0 22
  m ++ leBytes 4 (crc32c m).toNat

/-- The FAILs among the last 20 frames. -/
def failsIn (l : List Bool) : Nat := (l.filter id).length

/-- A judgement (R361, R362): outcomes, verdict, approval and hold, causes, the output message. `unknown`: the first failing rule that
ANV_FAIL names where the manual gives none. -/
def judgeFrame (up : Bool) (i : Nat) (j : Judging) (unknown : Nat) (a : Island) : Island :=
  let outs := (tableRules j.table).map (ruleOutcome j)
  let worst := outs.foldl (fun m o => max m o.1) (if j.timeBad then 2 else 0)
  let run := if worst = 1 then a.doubtRun + 1 else 0
  let lim := fld j.table 22 1
  let byRun := worst == 1 && lim != 0 && decide (lim ≤ run)
  let verdict := if byRun || a.overdue then 2 else worst
  let first := match indexOf? (fun o => o.1 == 2) outs with
    | some n => n
    | none => if j.timeBad then 0xFF else if byRun then 0xFE else unknown
  let ap := if verdict = 2 then none else approved j
  let a := { a with
    judge := none, doubtRun := run, verdict := verdict, frame := j.k % 2 ^ 32,
    ruleOut := { dflt := 0, cells := (List.range outs.length).map (fun n => (n, (outs.getD n (0, 0)).2)) },
    age := if ap.isSome then 0 else min (a.age + 1) 65535, hold := ap.isNone, held := if ap.isSome then ap else a.held,
    fails := ((verdict == 2) :: a.fails).take 20, failCnt := if verdict = 2 then cnt a.failCnt 1 else a.failCnt,
    doubtCnt := if verdict = 1 then cnt a.doubtCnt 1 else a.doubtCnt }
  let a := if verdict = 2 then note up 0x0B01 (j.k % 2 ^ 32) first a else a
  let frozen := (List.range 12).any (fun p => (frozenRule j.table p).isSome && (j.cams.get p).frozen)
  let bits := (if a.fails.take 2 = [true, true] then cFail2 else 0) + (if 3 ≤ failsIn a.fails then cFail3 else 0) +
    (if frozen then cFrozen else 0) + (if a.hold ∧ fld j.table 23 1 ≤ a.age then cHold else 0) + (if a.overdue then cLatent else 0)
  let a := if bits = 0 then a else latch up bits a
  let m := outputMessage i a j.k j.dte (verdict == 1 && !a.hold)
  let id_ := fld j.table 36 2
  { a with canOut := a.canOut ++ (0, id_, m) :: (if bit (tblFlags j.table) 1 then [(1, id_, m)] else []) }

/-! ### Clears (R363–R365) -/

/-- A latched cause is still active (R363). -/
def causeActive (a : Island) : Bool :=
  let has := fun c => a.cause / c % 2 == 1
  let maintLatch := match a.table with
    | some t => bit (tblFlags t) 0
    | none => false
  let violating := match a.table with
    | some t => (List.range 12).any (fun p => match frozenRule t p with
      | some r => frozenNow r (a.cams.get p) a.it
      | none => false)
    | none => false
  (has cFrozen && violating) || (has cLatent && a.overdue) || (has cMode && a.maint && maintLatch) || (has cDebug && a.debug) ||
    ((has cFail2 || has cFail3 || has cHold) && (a.verdict == 2 || a.hold))

/-- A clear decided (R363). -/
def decideClear (up : Bool) (f : CanFrame) (a : Island) : Island :=
  let ok := a.state == .run && fld f.data 4 4 == a.nonce.toNat && fld f.data 8 4 == a.latchCnt && !causeActive a
  if ok then
    note up 0x0B04 1 a.latchCnt (driven up (fun a => newNonce { a with
      degraded := false, cause := 0, fails := [], doubtRun := 0,
      cams := a.cams.map (fun x => { x with frozen := false, cause := 0 }),
      streams := a.streams.map (fun (x : E2eStream) => { x with seq := none }) }) a)
  else note up 0x0B04 0 a.latchCnt { a with clrRej := cnt a.clrRej 1 }

/-- A frame received on a CAN FD controller (R364). -/
def canReceive (up : Bool) (i ctrl : Nat) (f : CanFrame) (a : Island) : Island :=
  match a.state, a.table with
  | .run, some t =>
    if f.id.toNat ≠ fld t 38 2 then a
    else if f.data.length < 16 ∨ (crc32c (f.data.take 12)).toNat ≠ fld f.data 12 4 then { a with clrRej := cnt a.clrRej 1 }
    else if fld f.data 0 1 ≠ i then a
    else if fld f.data 1 1 = 2 then { latch up cHubReq a with reqs := true }
    else if fld f.data 1 1 = 1 ∧ ctrl = b2n (bit (tblFlags t) 2) then { a with clears := a.clears ++ [f] }
    else a
  | _, _ => a

/-- The end of a message time (R365): a clear that shares it with a safe-state request is rejected; one that arrived during a judgement
waits for its end. -/
def messageEnd (up : Bool) (a : Island) : Island :=
  let b := { a with clears := [], reqs := false }
  if a.reqs then a.clears.foldl (fun b _ => note up 0x0B04 0 b.latchCnt { b with clrRej := cnt b.clrRej 1 }) b
  else if a.judge.isSome then { b with due := b.due ++ a.clears }
  else a.clears.foldl (fun b f => decideClear up f b) b

/-- A safe-state request from the hub or Cerfosil (R362, R365). -/
def safeRequest (up : Bool) (a : Island) : Island :=
  if a.state = .run ∨ a.state = .config then { latch up cHubReq a with reqs := true } else a

/-- A mode event (R8, R362). -/
def modeEvent (up operational : Bool) (a : Island) : Island :=
  if a.state = .reset ∨ a.state = .fault then a
  else
    let b := { a with maint := !operational }
    match a.table with
    | some t => if !operational && bit (tblFlags t) 0 then latch up cMode b else b
    | none => b

/-- A debug session attaches or detaches (R349, R362). -/
def islandDebug (up on : Bool) (a : Island) : Island :=
  if on then latch up cDebug { a with debug := true } else { a with debug := false }

/-! ### Self-test slices (R366–R369) -/

/-- Split mode of the accepted configuration block (R348). -/
def isSplit (a : Island) : Bool :=
  match a.cfg with
  | some c => fld c 6 1 == 1
  | none => false

/-- The first slice of a rotation (R366). -/
def firstSlice (a : Island) : Nat := if isSplit a then 12 else 0

/-- Worst-case time of a slice in ns (R366). -/
def sliceTime (n : Nat) : Nat := if n < 12 then 4000 else if n < 13 then 6000 else if n < 21 then 25000 else 20000

/-- The pending slice is offered (R367). -/
def offerSlice (it : Nat) (a : Island) : Island :=
  let fits := match nextRelease a with
    | some r => decide ((it : Int) + sliceTime a.pos ≤ r - 50000)
    | none => true
  if a.judge.isNone && fits then { a with slice := some (a.pos, it), offer := some (it + 100000000), deferred := false }
  else { a with deferCnt := cnt a.deferCnt 1, deferred := true, offer := none }

/-- SELFTEST_SLICE_OFFER. -/
def sliceOffer (it : Nat) (a : Island) : Island :=
  match a.state, a.offer with
  | .run, some t => if t ≤ it ∧ a.slice.isNone then offerSlice it a else a
  | _, _ => a

/-- The code of a fault that a slice finds (R366, R367). -/
def sliceFault (n : Nat) : Nat := if n < 12 then 3 else if n < 21 then 8 else 7

/-- A slice ends (R367–R369). -/
def sliceDone (up : Bool) (fault it : Nat) (a : Island) : Island :=
  match a.slice with
  | none => a
  | some (n, _) =>
    if fault ≠ 0 then islFault up (sliceFault n) a
    else if n < 276 then { a with slice := none, pos := n + 1 }
    else
      let secs := (it - a.rotFrom) / 1000000000
      note up 0x0B03 0 (secs % 2 ^ 32) { a with
        slice := none, pos := firstSlice a, rotations := min (a.rotations + 1) 8191, lastS := min secs 1023, rotFrom := it,
        overdue := false }

/-- 600 s without a completed rotation (R369). -/
def latentOut (up : Bool) (it : Nat) (a : Island) : Island :=
  if a.state = .run ∧ !a.overdue ∧ a.rotFrom + 600000000000 ≤ it then
    note up 0x0B03 1 ((it - a.rotFrom) / 1000000000 % 2 ^ 32) { a with overdue := true }
  else a

/-! ### Frames (R350, R351) -/

/-- A DT received over the hub segment: it anchors DTe if unanchored (R350). -/
def dtReceive (dt it : Nat) (a : Island) : Island :=
  if a.state = .reset ∨ a.state = .fault ∨ a.anchor.isSome then a else setFirst (tickIt it { a with anchor := some (dt, it) })

/-- A frame boundary (R350, R351, R365): DT compared, the judgement released, the next frame begun, a replacement table applied. -/
def frameBoundary (dt : Option Nat) (it : Nat) (a : Island) : Island :=
  match a.state, a.table, a.nextK, a.anchor with
  | .run, some t, some k, some _ =>
    let dte := dteAt a it
    if dte < (tblPhase t + k * tblFrame t : Nat) ∨ a.judge.isSome then a
    else
      let diff : Option Int := dt.map (fun d => (d : Int) - dte)
      let good := match diff with
        | some x => decide (x.natAbs ≤ fld t 32 4)
        | none => false
      let a := { a with
        dtDiff := diff.getD a.dtDiff, anchor := if good then dt.map (fun d => (d, it)) else a.anchor, nextK := some (k + 1),
        judge := some { k := k, dte := dte, timeBad := !good, table := t, streams := a.streams, cams := a.cams, sensor := a.sensor, it := it },
        streams := a.streams.map (fun (x : E2eStream) => { x with inFrame := false, err := false }) }
      match a.nextTable with
      | some n =>
        let b := applyTable n a
        { b with nextK := some (firstK n (dteAt b it)) }
      | none => a
  | _, _, _, _ => a

/-- The end of a judgement, the clears that waited for it and a deferred slice (R361, R365, R367). -/
def judgementDone (up : Bool) (i it unknown : Nat) (a : Island) : Island :=
  match a.judge with
  | none => a
  | some j =>
    let b := judgeFrame up i j unknown a
    let b := b.due.foldl (fun b f => decideClear up f b) { b with due := [] }
    if b.deferred && b.state == .run then offerSlice it b else b

/-! ### Reset and start-up (R341, R342) -/

/-- Reset release with the supply in limits: STARTTEST, and the generator takes a free start (R362, R87). -/
def startTest (s : State) (i : Nat) : State :=
  let a := s.isle i
  if a.rstN && a.supply && a.state == .reset then
    let g : Word := s.freeVal.setWidth 32
    s.took.modIsl i (fun a => { a with state := .starttest, fault := 0, rng := if g = 0 then 1 else g })
  else s

/-- An island back in RESET; its outputs fall (R337, R341). -/
def islReset (s : State) (i : Nat) (rstN supply : Bool) (fault : Nat) : State :=
  s.modIsl i (fun a => { islandFresh rstN supply a.keys with fault := fault, canOut := a.canOut })

/-- SIx_RST_N (R341). -/
def islandReset (s : State) (i : Nat) (level : Bool) : State :=
  if level then startTest (s.modIsl i (fun a => { a with rstN := true })) i
  else islReset s i false (s.isle i).supply (if (s.isle i).supply then 0 else (s.isle i).fault)

/-- VDD_SIx outside its limits, or back (R341). -/
def islandSupply (s : State) (i : Nat) (restored : Bool) : State :=
  if restored then startTest (s.modIsl i (fun a => { a with supply := true })) i
  else islReset s i (s.isle i).rstN false 5

/-- The end of the start-up tests (R342). -/
def startTestDone (fault : Nat) (a : Island) : Island :=
  if a.state = .starttest then
    (if fault = 0 then { a with state := .boot } else { a with state := .fault, fault := fault })
  else a

/-! ### Loading (R343–R345, R355–R359) -/

/-- The hash of a key is that of a live integrator slot (R343, R344). -/
def liveKey (a : Island) (h : Nat) : Bool := (List.range 2).any (fun n => (a.keys.get n).1 == some h && !(a.keys.get n).2)

/-- A header field lies in its range, or reserved bytes are 0. -/
def inR (t : List Byte) (off n lo hi : Nat) : Bool := decide (lo ≤ fld t off n ∧ fld t off n ≤ hi)

/-- A rule entry in range; entries that its type does not name are 0 (R357, R358). -/
def ruleOk (t r : List Byte) : Bool :=
  let ty := fld r 0 1
  let z := fun off n => fld r off n == 0
  let sev := fld r 2 1
  let sevOk := (sev % 4 == 1 || sev % 4 == 2) && field sev 3 2 != 3 && sev / 16 == 0
  let n := fld t 41 1
  let sect := n == 0 || (decide (fld r 6 1 < n) && decide (fld r 7 1 < n))
  let p0 := ruleP r 0
  let p1 := ruleP r 1
  let ft := decide (fld r 3 1 ≤ 7)
  let src := fld (tblStream t (fld r 1 1)) 0 1
  match ty with
  | 1 => sevOk && ft && z 6 2 && z 16 16
  | 2 => sevOk && ft && z 6 2 && z 12 20
  | 3 => sevOk && z 3 5 && z 16 16
  | 4 => sevOk && z 3 29
  | 5 => sevOk && ft && sect && vzero.lt p0 && z 20 12
  | 6 => sevOk && fld r 3 1 == 2 && z 6 2 && z 20 12
  | 7 => sevOk && z 3 3 && decide (fld r 6 1 ≤ 1) && z 7 25 && (decide (tblNs t ≤ fld r 1 1) || src == 0x31)
  | 8 =>
    let q := p0.toRat
    z 2 4 && fld r 1 1 == 0xFF && decide (fld r 6 1 ≤ 11) && decide (fld r 7 1 ≤ 1) && z 16 8 && !p0.isNan && !p0.isInf && q.den == 1 &&
      decide (2 ≤ q ∧ q ≤ 16) && !p1.isNan && !p1.isInf && decide (1 ≤ p1.toRat ∧ p1.toRat ≤ 1000) && inR r 28 2 1 8192 && inR r 30 2 1 8192
  | _ => false

/-- A stream entry in range (R356). -/
def streamOk (e : List Byte) : Bool :=
  inR e 2 2 0 1000 && inR e 4 2 0 1000 && inR e 6 1 1 255 && inR e 7 1 0 3 && inR e 10 1 0 22 && inR e 11 5 0 0

/-- Every field of a table in range and reserved bytes 0 (check 5 of R359). -/
def tableInRange (t : List Byte) : Bool :=
  let fr := fld t 24 4
  let n := fld t 41 1
  inR t 5 1 0 3 && inR t 6 2 0 0 && inR t 20 1 1 32 && inR t 21 1 1 128 && inR t 22 1 0 15 && inR t 23 1 1 255 && inR t 24 4 1000 100000 &&
    decide (fld t 28 4 < fr) && inR t 32 4 100 1000000 && inR t 36 2 0 2047 && inR t 38 2 0 2047 && inR t 40 1 0 7 &&
    (n == 0 || (decide (8 ≤ n) && decide (n ≤ 64))) && inR t 42 2 0x600 0xFFFF && inR t 44 4 1000 1000000 && inR t 48 16 0 0 &&
    (tblStreams t).all streamOk && (tableRules t).all (ruleOk t)

/-- No two equal entries of a list. -/
def allDistinct (l : List Nat) : Bool := decide l.Nodup

/-- The checks of R359 on an object, in order: the code that fails, or 0. -/
def tableCheck (a : Island) (i : Nat) (o : List Byte) : Nat :=
  let ns := tblNs o
  let nr := tblNr o
  let rs := tableRules o
  let want := 256 + 16 * ns + 32 * nr
  if o.length < 64 ∨ fld o 0 4 ≠ 0x41544231 ∨ fld o 4 1 ≠ 1 ∨ bit (fld o 5 1) i = false then 1
  else if fld o 16 4 ≠ want ∨ o.length ≠ want then 2
  else if !liveKey a (sigKeyHash o) then 3
  else if !sigOk o then 4
  else if !tableInRange o then 5
  else if ((tblStreams o).filter (fun e => bit (fld e 7 1) 1)).length ≠ 1 then 6
  else if rs.any (fun r => fld r 0 1 != 8 && decide (ns ≤ fld r 1 1)) ||
      !allDistinct ((rs.filter (fun r => fld r 0 1 == 8)).map (fun r => fld r 6 1)) ||
      (fld o 41 1 == 0 && rs.any (fun r => fld r 0 1 == 5 || fld r 0 1 == 6)) ||
      !allDistinct ((tblStreams o).map (fun e => fld e 0 2)) then 7
  else if fld o 24 4 < 125 + 2 * nr then 8
  else 0

/-- The status of a check code (R359). -/
def checkStatus (code : Nat) : Half := if code = 0 then stOk else if code = 3 ∨ code = 4 then stBadSignature else stBadField

/-- A firmware image (R342, R343, R345). -/
def firmwareStatus (o : List Byte) : Half :=
  if o.length < 208 ∨ fld o 0 4 ≠ 0x41465731 ∨ 1572864 < fld o 8 4 ∨ o.length ≠ 208 + fld o 8 4 then stBadField
  else if sigKeyHash o ≠ Config.vendorKeyHash ∨ !sigOk o then stBadSignature
  else stOk

/-- A configuration block (R343, R345). -/
def configStatus (a : Island) (i : Nat) (o : List Byte) : Half :=
  let rate := fun off => inR o off 4 125000 1000000 && inR o (off + 4) 4 0 8000000
  if o.length ≠ 256 ∨ fld o 0 4 ≠ 0x41434642 ∨ fld o 4 1 ≠ 1 ∨ fld o 5 1 ≠ i then stBadField
  else if !liveKey a (sigKeyHash o) || !sigOk o then stBadSignature
  else if inR o 6 1 0 1 && inR o 7 1 0 1 && rate 8 && rate 16 && inR o 24 1 0 1 && inR o 25 3 0 0 && inR o 28 4 2 1000 && inR o 32 32 0 0 then stOk
  else stBadField

/-- A table accepted (R341, R342, R362, R365): from CONFIG the island enters RUN; in RUN it replaces the table at the next boundary. -/
def acceptTable (up : Bool) (o : List Byte) (a : Island) : Island :=
  let t := sigBody o
  let a := { a with gen := a.gen + 1, accIt := a.it, streams := a.streams.map (fun (x : E2eStream) => { x with seq := none }) }
  if a.state = .config then
    let b := applyTable t { a with state := .run, lanes := Tab.const laneEmpty, rotFrom := a.it, pos := firstSlice a,
                                   offer := some (a.it + 100000000) }
    latch up cStart (setFirst b)
  else latch up cTable { a with nextTable := some t }

/-- One island's answer to ANV_LOAD: status, check code where one is given, the island (R372). -/
def islLoad (s : State) (i kind : Nat) (o : List Byte) : Half × Option Nat × Island :=
  let a := s.isle i
  let up := hubLinkUp s
  match kind with
  | 0 =>
    if a.state ≠ .boot then (stBusy, some 0, a)
    else
      let st := firmwareStatus o
      if st = stOk then (st, some 0, { a with fwver := fld o 4 4, fwOk := true }) else (st, none, a)
  | 1 =>
    if a.state ≠ .boot ∨ !a.fwOk then (stBusy, some 0, a)
    else
      let st := configStatus a i o
      if st = stOk then (st, some 0, { a with cfg := some (o.take 64), state := .config }) else (st, none, a)
  | _ =>
    if a.state ≠ .config ∧ a.state ≠ .run then (stBusy, some 0, a)
    else if a.state = .run ∧ s.host.opMode then (stDeniedMode, some 0, a)
    else
      let c := tableCheck a i o
      if c = 0 then (stOk, some 0, acceptTable up o a) else (checkStatus c, some c, a)

/-! ### Registers and the mirror (R370, R371) -/

/-- Numbers of the states. -/
def islandStateNum : IslandState → Nat
  | .reset => 0 | .starttest => 1 | .boot => 2 | .config => 3 | .run => 4 | .fault => 5

/-- ANV_i_STAT. -/
def anvStat (a : Island) : Nat :=
  pack [(5, failsIn a.fails), (3, 0), (8, a.fault), (2, 0), (1, b2n a.overdue), (1, b2n a.debug), (1, b2n a.maint), (1, b2n a.hold),
        (2, a.verdict), (1, b2n (!a.pin1)), (1, b2n (!a.pin0)), (1, b2n (isSplit a)), (1, b2n a.degraded), (4, islandStateNum a.state)]

/-- The island's own registers at their mirror offsets. -/
def islandRegs (a : Island) : List (Nat × Nat × Nat) :=
  let t := a.table.getD []
  [(0, 4, anvStat a), (4, 4, a.cause), (8, 4, a.frame), (0xC, 4, a.nonce.toNat), (0x10, 4, a.fwver), (0x14, 4, fld t 8 4), (0x18, 4, fld t 12 4),
   (0x1C, 4, a.latchCnt), (0x20, 4, a.failCnt), (0x24, 4, a.doubtCnt), (0x28, 4, a.e2eErr), (0x2C, 4, a.linkErr), (0x30, 4, a.sensErr),
   (0x34, 4, a.clrRej), (0x38, 4, min a.age 255), (0x3C, 4, pack [(9, a.pos), (13, a.rotations), (10, a.lastS)]), (0x40, 4, a.deferCnt),
   (0x48, 8, uint 64 a.dtDiff)] ++
  (List.range 8).map (fun j => (0x50 + 4 * j, 4, pack ((List.range 16).map (fun r => (2, a.ruleOut.get (16 * j + r)))))) ++
  (List.range 12).map (fun n => (0x80 + 4 * n, 4, if (a.table.bind (fun t => frozenRule t n)).isSome then camWord (a.cams.get n) else 0)) ++
  (List.range 3).map (fun c => (0xC0 + 4 * c, 4, a.clk.get c % 2 ^ 24))

/-- Page 0x70 of unit 0x00: the mirrors. -/
def pageAnv (s : State) : List Reg :=
  regsFor 2 (fun i =>
    let m := s.anv.mirror.get i
    m.regs.map (fun r => ⟨0x800 * i + r.1, r.2.1, r.2.2 % 2 ^ (8 * r.2.1)⟩) ++ [r8 (0x800 * i + 0x7F8) m.dt])

/-- A status update reaches the hub (R313, R370, R371). -/
def statusUpdate (s : State) (i : Nat) (clk : List Nat) : State :=
  let a := s.isle i
  if a.state = .reset ∨ !hubLinkUp s then s
  else
    let a := { a with clk := (List.range 3).foldl (fun t c => t.set c (clk.getD c 0)) a.clk }
    let m := s.anv.mirror.get i
    let st := anvStat a
    let s := s.modIsl i (fun _ => { a with notes := [] })
    let s := { s with anv.mirror := s.anv.mirror.set i { regs := islandRegs a, stat := st, cause := a.cause, dt := s.dt } }
    let s := a.notes.foldl (fun s n => raiseEvent s n.1 i [n.2.1, n.2.2]) s
    if m.stat = st ∧ m.cause = a.cause then s else raiseEvent (setInt s 5) 0x0B00 i [st, a.cause]

/-! ### Safety-link frames (R25, R259) -/

/-- A frame taken from those on their way to an island. -/
def takeFrame (s : State) (i : Nat) (b : SafetyPayload) : State :=
  { s with toIslands := eraseFirst (fun x => x == (i, b)) s.toIslands }

/-- An operation of an island that its hub segment brings about. -/
def atIsland (s : State) (i : Nat) (f : Bool → Island → Island) : State := s.modIsl i (f (hubLinkUp s))

/-- A record's write received over a segment (R353, R354). -/
def recordReceive (s : State) (i src off : Nat) (data : List Byte) : State :=
  let a := s.isle i
  let masq := a.state == .run && src != off / 1024 && !((a.lanes.get (off / 1024)).bytes.any (fun c => c.1 == 2))
  let s' := if masq then s.took else s
  atIsland s' i (fun up => e2eWrite up src off data (s.freeVal.toNat % 256))

/-- One byte of a payload flipped, which one is a free value. -/
def flipByte (s : State) (bs : List Byte) : List Byte :=
  let n := s.freeVal.toNat % max 1 bs.length
  bs.set n (bs.getD n 0 ^^^ 1)

/-- What an accepted frame does. -/
def framePayload (s : State) (i : Nat) (it : Nat) : SafetyPayload → State
  | .record src off data => recordReceive s i src.toNat off.toNat data
  | .tap m => atIsland s i (fun _ a => tapArrive m it (tickIt it a))
  | .modeEvent op => atIsland s i (fun up => modeEvent up op)
  | .deviceTime dt => atIsland s i (fun _ => dtReceive dt it)
  | .safeRequest => atIsland s i safeRequest
  | .status => statusUpdate s i (((s.isle i).clk).list 3)
  | .safeState => statusUpdate s i (((s.isle i).clk).list 3)

/-- Whether a payload travels from the island. -/
def fromIsland : SafetyPayload → Bool
  | .status => true | .safeState => true | _ => false

/-- A payload with flipped bits under a recomputed link CRC (R259). -/
def corrupted (s : State) : SafetyPayload → SafetyPayload
  | .record src off data => .record src off (flipByte s data)
  | .tap m => .tap { m with samples := flipByte s m.samples }
  | b => b

/-- A frame sent over a safety-link segment (R25, R259). -/
def safetyFrame (s : State) (g : Segment) (crcOk : Bool) (b : SafetyPayload) (it : Nat) : State :=
  let i := segIsland g
  let s := takeFrame s i b
  if !segUp s g then s
  else
    let x := inject s 1 (segIndex g) 0 (b2n (fromIsland b))
    let s := x.1
    let lost := s.modIsl i (fun a => { a with linkErr := cnt a.linkErr 1 })
    let alive := (s.isle i).state != .reset
    match x.2 with
    | some .drop => if alive then lost else s
    | some (.corrupt _ _) => if alive then lost else s
    | some .corruptPayload => if crcOk then framePayload s.took i it (corrupted s b) else if alive then lost else s
    | _ => if crcOk then framePayload s i it b else if alive then lost else s

/-! ### Commands (R372) -/

/-- Islands of a mask. -/
def islandsOf (m : Nat) : List Nat := bitsOf m 2

/-- One island's slot of a response: status, check code, ANV_i_STAT. -/
def islandSlot (st : Half) (code stat : Nat) : List Byte := leBytes 2 st.toNat ++ leBytes 4 code ++ leBytes 4 stat

/-- The response of a command on masked islands: each island's slot, zeros for one not named, and the worst status. -/
def islandReply (s : State) (clamps : Nat) (rs : List (Nat × Half × Nat)) : Reply :=
  let worst := rs.foldl (fun (w : Half) r => if w < r.2.1 then r.2.1 else w) stOk
  { status := worst, clamps := clamps, bulk := [],
    data := catMap 2 (fun i => match rs.find? (fun r => r.1 == i) with
      | some r => islandSlot r.2.1 r.2.2 (anvStat (s.isle i))
      | none => List.replicate 10 0) }

/-- ANV_LOAD. A failing check of a firmware image or a configuration block has no code in the manual: it is a free value. -/
def cmdAnvLoad (s : State) (c : Cmd) : State × Reply :=
  let f := clampFields c.pay 16 [fr 0 1 1 3, fr 1 1 0 2, fz 2 8, fz 10 6]
  if !c.inPtr then (s, reply stBadField f.2 [])
  else
    let o := c.pay.drop 16
    let kind := fld f.1 1 1
    let r := (islandsOf (fld f.1 0 1)).foldl (fun (a : State × List (Nat × Half × Nat)) i =>
      let x := islLoad a.1 i kind o
      let s' := a.1.modIsl i (fun _ => x.2.2)
      match x.2.1 with
      | some code => (s', a.2 ++ [(i, x.1, code)])
      | none => (s'.took, a.2 ++ [(i, x.1, s'.freeVal.toNat % 256)])) (s, [])
    (r.1, islandReply r.1 f.2 r.2)

/-- ANV_QUERY: the mirror words at 0x000–0x0CB. -/
def cmdAnvQuery (s : State) (c : Cmd) : State × Reply :=
  let f := clampFields c.pay 1 [fr 0 1 0 1]
  let i := fld f.1 0 1
  (s, reply stOk f.2 (catMap 51 (fun w => leBytes 4 (pageWord (pageAnv s) (0x800 * i + 4 * w)))))

/-- ANV_KEY_PROGRAM (R344). -/
def cmdAnvKeyProgram (s : State) (c : Cmd) : State × Reply :=
  let f := clampFields c.pay 64 [fr 0 1 1 3, fr 1 1 0 1]
  let n := fld f.1 1 1
  let h := beNat (slice c.pay 16 48)
  let r := (islandsOf (fld f.1 0 1)).foldl (fun (a : State × List (Nat × Half × Nat)) i =>
    if s.host.opMode then (a.1, a.2 ++ [(i, stDeniedMode, 0)])
    else if ((a.1.isle i).keys.get n).1.isSome then (a.1, a.2 ++ [(i, stBusy, 0)])
    else (a.1.modIsl i (fun b => { b with keys := b.keys.set n (some h, (b.keys.get n).2) }), a.2 ++ [(i, stOk, 0)])) (s, [])
  (r.1, islandReply r.1 f.2 r.2)

/-- ANV_KEY_REVOKE (R344). -/
def cmdAnvKeyRevoke (s : State) (c : Cmd) : State × Reply :=
  let f := clampFields c.pay 2 [fr 0 1 1 3, fr 1 1 0 1]
  let n := fld f.1 1 1
  let r := (islandsOf (fld f.1 0 1)).foldl (fun (a : State × List (Nat × Half × Nat)) i =>
    if s.host.opMode then (a.1, a.2 ++ [(i, stDeniedMode, 0)])
    else (a.1.modIsl i (fun b => { b with keys := b.keys.set n ((b.keys.get n).1, true) }), a.2 ++ [(i, stOk, 0)])) (s, [])
  (r.1, islandReply r.1 f.2 r.2)

/-- ANV_SAFE_REQUEST: a safe-state request goes to each masked island (R25, R362). -/
def cmdAnvSafeRequest (s : State) (c : Cmd) : State × Reply :=
  let f := clampFields c.pay 1 [fr 0 1 1 3]
  let is_ := islandsOf (fld f.1 0 1)
  let s := { s with toIslands := s.toIslands ++ is_.map (fun i => (i, .safeRequest)) }
  (s, islandReply s f.2 (is_.map (fun i => (i, stOk, 0))))

/-- Capability 0x000B (R373) and 0x000E (R374). -/
def capIslands : Nat := pack [(4, 2), (4, 2), (8, 60), (10, 600), (6, 47), (8, 32), (8, 128)]
def capSplit (s : State) : Nat :=
  pack [(1, b2n (s.isle 0).cfg.isSome), (1, b2n (isSplit (s.isle 0))), (1, b2n (s.isle 1).cfg.isSome), (1, b2n (isSplit (s.isle 1)))]

/-! ### One meaning per command -/

def execIslandReset (i : Fin 2) (level : Bool) (s : State) : Out := .next (islandReset s i level)
def execIslandStarttestDone (i : Fin 2) (fault : BitVec 8) (s : State) : Out := .next (s.modIsl i (startTestDone fault.toNat))
def execIslandSupplyFault (i : Fin 2) (restored : Bool) (s : State) : Out := .next (islandSupply s i restored)
def execIslandClockFault (i : Fin 2) (s : State) : Out := .next (atIsland s i (fun up => islFault up 6))
def execLockStepMismatch (i : Fin 2) (_point : Fin 47) (s : State) : Out :=
  .next (if isSplit (s.isle i) then s else atIsland s i (fun up => islFault up 3))
def execWatchdogExpiry (i : Fin 2) (s : State) : Out := .next (atIsland s i (fun up => islFault up 4))
def execIslandSramUe (i : Fin 2) (s : State) : Out := .next (atIsland s i (fun up => islFault up 7))
def execSafetyLinkFrame (g : Segment) (crcOk : Bool) (b : SafetyPayload) (it : Nat) (s : State) : Out := .next (safetyFrame s g crcOk b it)
def execIslandDtReceive (i : Fin 2) (dt it : Nat) (s : State) : Out :=
  .next (if hubLinkUp s then s.modIsl i (dtReceive dt it) else s)
def execE2eRecordWrite (i : Fin 2) (src : BitVec 8) (off : BitVec 16) (data : List Byte) (s : State) : Out :=
  .next (recordReceive (takeFrame s i (.record src off data)) i src.toNat off.toNat data)
def execIslandTapMessage (i : Fin 2) (m : TapMessage) (it : Nat) (s : State) : Out :=
  .next (if hubLinkUp s then atIsland (takeFrame s i (.tap m)) i (fun _ a => tapArrive m it (tickIt it a)) else s)
def execFrozenGapTimeout (i : Fin 2) (port : Fin 12) (it : Nat) (s : State) : Out :=
  .next (s.modIsl i (fun a => frozenGapOut port it (tickIt it a)))
def execSafetySensorFrame (i : Fin 2) (e : Half) (p : List Byte) (it : Nat) (s : State) : Out :=
  .next (s.modIsl i (fun a => sensorArrive e.toNat p it (tickIt it a)))
def execIslandFrameBoundary (i : Fin 2) (dt : Option Nat) (it : Nat) (s : State) : Out :=
  .next (s.modIsl i (fun a => frameBoundary (if hubLinkUp s then dt else none) it (tickIt it a)))
def execIslandJudgementDone (i : Fin 2) (it : Nat) (s : State) : Out :=
  .next (atIsland s.took i (fun up a => judgementDone up i it (s.freeVal.toNat % 256) (tickIt it a)))
def execCanClear (i ctrl : Fin 2) (f : CanFrame) (s : State) : Out := .next (atIsland s i (fun up => canReceive up i ctrl f))
def execCanSafeRequest (i ctrl : Fin 2) (f : CanFrame) (s : State) : Out := .next (atIsland s i (fun up a => canReceive up i ctrl f a))
def execIslandMessageTimeEnd (i : Fin 2) (it : Nat) (s : State) : Out := .next (atIsland s i (fun up a => messageEnd up (tickIt it a)))
def execHubSafeRequest (i : Fin 2) (s : State) : Out :=
  .next (if hubLinkUp s then atIsland (takeFrame s i .safeRequest) i safeRequest else s)
def execIslandModeEvent (i : Fin 2) (op : Bool) (s : State) : Out :=
  .next (if hubLinkUp s then atIsland (takeFrame s i (.modeEvent op)) i (fun up => modeEvent up op) else s)
def execOutputReadback (i : Fin 2) (p0 p1 : Bool) (s : State) : Out :=
  .next (atIsland s i (fun up a =>
    let b := setPins up p0 p1 a
    if p0 = outHigh a ∧ p1 = outHigh a then b else latch up cOutput b))
def execSelftestSliceOffer (i : Fin 2) (it : Nat) (s : State) : Out := .next (s.modIsl i (fun a => sliceOffer it (tickIt it a)))
def execSelftestSliceDone (i : Fin 2) (fault : BitVec 8) (it : Nat) (s : State) : Out :=
  .next (atIsland s i (fun up a => sliceDone up fault.toNat it (tickIt it a)))
def execLatentOverdue (i : Fin 2) (it : Nat) (s : State) : Out := .next (atIsland s i (fun up a => latentOut up it (tickIt it a)))
def execIslandStatusUpdate (i : Fin 2) (clk : List Nat) (s : State) : Out := .next (statusUpdate s i clk)
def execAnvLoad (ch : Fin 4) (r : Request) (s : State) : Out := cerfosil s ch 0x0230 r cmdAnvLoad
def execAnvQuery (ch : Fin 4) (r : Request) (s : State) : Out := cerfosil s ch 0x0231 r cmdAnvQuery
def execAnvKeyProgram (ch : Fin 4) (r : Request) (s : State) : Out := cerfosil s ch 0x0232 r cmdAnvKeyProgram
def execAnvKeyRevoke (ch : Fin 4) (r : Request) (s : State) : Out := cerfosil s ch 0x0233 r cmdAnvKeyRevoke
def execAnvSafeRequest (ch : Fin 4) (r : Request) (s : State) : Out := cerfosil s ch 0x0234 r cmdAnvSafeRequest

end Sys2Proof.Machine
end

