-- ==== Sys2Proof/Machine/Planner.lean ====
section
/-! DEFINITION. The lattice planner and the Sieve (chapter 07): the search, the collision checks, release and fallback, primitive sets,
epoch buffers, and the planner commands. -/

namespace Sys2Proof.Machine

/-- The planner's source identifier (R37). -/
def srcPlanner : Nat := 0x31

/-- A signed 32-bit coordinate. -/
def s32 (i : Int) : Int := sint 32 (uint 32 i)

/-! ### Rotation (R181) -/

/-- A brick offset or sample cell rotated q times by 90°. -/
def rotCell : Nat → Int × Int → Int × Int
  | 0, p => p
  | q + 1, p => let r := rotCell q p; (-r.2 - 1, r.1)

/-- An end displacement rotated q times. -/
def rotEnd : Nat → Int × Int → Int × Int
  | 0, p => p
  | q + 1, p => let r := rotEnd q p; (-r.2, r.1)

/-- A voxel mask rotated once: voxel (i, j, k) goes to (3 − j, i, k). -/
def rotMask1 (m : Nat) : Nat :=
  (List.range 64).foldl (fun a n => a + (if bit m n then 2 ^ (3 - n / 4 % 4 + 4 * (n % 4) + 16 * (n / 16)) else 0)) 0

/-- A voxel mask rotated q times. -/
def rotMask : Nat → Nat → Nat
  | 0, m => m
  | q + 1, m => rotMask1 (rotMask q m)

/-! ### The Sieve (R187–R191) -/

/-- A map fault in a buffer (R188): counted, reported, and marked in the running cycle. -/
def mapFault (s : State) (buf epoch off : Nat) : State :=
  let s := { s with sie.mapErr := cnt s.sie.mapErr 1 }
  let s := { s with pln.cycle := s.pln.cycle.map (fun c => { c with mapBad := true }) }
  raiseEvent s 0x0503 buf [epoch, off]

/-- A 64-bit word of an epoch buffer, none where its read fails. -/
def bufWord (s : State) (buf off : Nat) : Option Nat :=
  let b := s.sie.bufs.get buf
  let r := hubRead s (b.1 + off) 8
  if decide (b.2 < off + 8) || r.2 then none else some (leNat r.1)

/-- What a descent finds (R188, R191). -/
inductive Cube where
  | empty | full | brick (mask : Nat) | fault (off : Nat)
  deriving DecidableEq, Repr

/-- The cube that holds a map brick: descent from an entry at byte offset `eoff` of the buffer for a cube of 2^l voxels (R188). -/
def descend (s : State) (buf used : Nat) (bx by_ bz : Nat) : Nat → Nat → Cube
  | l, eoff =>
    match bufWord s buf eoff with
    | none => .fault eoff
    | some e =>
      let o := field e 23 0 * 8
      match field e 63 62 with
      | 0 => .empty
      | 1 => .full
      | 3 =>
        if l ≠ 2 ∨ used < o + 8 then .fault eoff
        else match bufWord s buf o with
          | some m => .brick m
          | none => .fault o
      | _ =>
        match l with
        | l' + 1 =>
          if l' + 1 < 3 ∨ o % 64 ≠ 0 ∨ used < o + 64 then .fault eoff
          else
            let n := l' - 2
            let c := b2n (bit bx n) + 2 * b2n (bit by_ n) + 4 * b2n (bit bz n)
            descend s buf used bx by_ bz l' (o + 8 * c)
        | 0 => .fault eoff
  termination_by structural l => l

/-- The header of a pinned buffer. -/
def bufHdr (s : State) (buf : Nat) : List Byte := s.fab.mem.readN (s.sie.bufs.get buf).1 64

/-- Whether one swept entry collides (R191), rotated by q, from lattice point (x, y) at height z. -/
def entryCollides (s : State) (buf epoch : Nat) (e : List Byte) (q : Nat) (x y z : Int) : State × Bool :=
  let h := bufHdr s buf
  let d := rotCell q (sint 16 (fld e 8 2), sint 16 (fld e 10 2))
  let bx := x + d.1 - sint 32 (fld h 0x18 4)
  let by_ := y + d.2 - sint 32 (fld h 0x1C 4)
  let bz := z + sint 8 (fld e 12 1) - sint 32 (fld h 0x20 4)
  let n : Int := 2 ^ (s.sie.depth - 2)
  if bx < 0 ∨ n ≤ bx ∨ by_ < 0 ∨ n ≤ by_ ∨ bz < 0 ∨ n ≤ bz then (s, true)
  else match descend s buf (fld h 0x24 4) bx.toNat by_.toNat bz.toNat s.sie.depth 0x10 with
    | .empty => (s, false)
    | .full => (s, true)
    | .brick m => (s, Nat.land m (rotMask q (fld e 0 8)) != 0)
    | .fault off => (mapFault s buf epoch off, true)

/-- Primitive record `idx` of a set, none where it cannot be read (log entry 22). -/
def primRecord (s : State) (st : PlanSet) (idx : Nat) : State × Option (List Byte) :=
  let r := readRange s srcPlanner (st.addr + 0x100 + 64 * idx) 64
  (r.1, if r.2.1 = stOk then some r.2.2.1 else none)

/-- The swept entries from number `i` on: the state, whether one collides, and how many were taken in order. -/
def sweep (s : State) (buf epoch : Nat) (st : PlanSet) (rec : List Byte) (q : Nat) (x y z : Int) : Nat → Nat → State × Bool × Nat
  | _, 0 => (s, false, 0)
  | i, n + 1 =>
    let r := readRange s srcPlanner (st.addr + 16 * (fld rec 0x18 4 + i)) 16
    let c := if r.2.1 = stOk then entryCollides r.1 buf epoch r.2.2.1 q x y z
             else (mapFault r.1.took buf epoch (r.1.freeVal.toNat % 2 ^ 32), true)
    if c.2 then (c.1, true, 1)
    else
      let t := sweep c.1 buf epoch st rec q x y z (i + 1) n
      (t.1, t.2.1, t.2.2 + 1)

/-- A primitive checked against a pinned epoch (R191). With no epoch every check collides (R195); a set of another voxel size collides
and counts as a map fault (R205). How many entries are examined before a collision is found is a free value between the first and the
last. -/
def sieveCheck (s : State) (pin : Option (Nat × Nat)) (slot : Nat) (rec : List Byte) (q : Nat) (x y z : Int) : State × Bool :=
  match pin, s.pln.sets.get slot with
  | some (buf, epoch), some st =>
    if st.voxel ≠ s.sie.voxel then (mapFault s.took buf epoch (s.freeVal.toNat % 2 ^ 32), true)
    else
      let n := fld rec 6 2
      let r := sweep s buf epoch st rec q x y z 0 n
      let took := if r.2.1 then 1 + r.1.freeVal.toNat % max 1 n else n
      let s := if r.2.1 then r.1.took else r.1
      ({ s with sie.entries := (s.sie.entries + took) % 2 ^ 64 }, r.2.1)
  | _, _ => (s, true)

/-! ### Search (R196, R197) -/

/-- A request block's fields (R193). -/
def rqX (r : List Byte) : Int := sint 32 (fld r 0 4)
def rqY (r : List Byte) : Int := sint 32 (fld r 4 4)
def rqHb (r : List Byte) : Nat := fld r 8 1
def rqSb (r : List Byte) : Nat := fld r 9 1
def rqZ (r : List Byte) : Int := sint 16 (fld r 0xA 2)
def rqHorizon (r : List Byte) : Nat := fld r 0xD 1
def rqT0 (r : List Byte) : Nat := fld r 0x20 8
def rqBudget (r : List Byte) : Nat := fld r 0x28 4
def rqOut (r : List Byte) : Nat := fld r 0x48 8

/-- Every request field in its range (R193, R195). -/
def requestOk (r : List Byte) : Bool :=
  let le := fun off n hi => decide (fld r off n ≤ hi)
  let ge1 := fun off n => decide (1 ≤ fld r off n)
  le 8 1 63 && le 9 1 31 && ge1 0xD 1 && le 0xD 1 16 && le 0xE 1 1 && le 0xF 1 0 && le 0x1A 1 63 && le 0x1B 1 63 && le 0x1C 1 31 && le 0x1D 1 31 &&
    le 0x1E 2 0 && decide (1000000 ≤ rqBudget r) && le 0x28 4 1000000000 && ge1 0x38 2 && le 0x38 2 4096 && ge1 0x3A 2 && le 0x3A 2 4096 &&
    decide (rqOut r % 64 = 0 ∧ rqOut r < hostBase) && ge1 0x54 4 && le 0x54 4 1048576 && le 0x58 40 0

/-- A cost-map cell for a site brick (R194); 0xFFFF is lethal, and so is a cell that cannot be read (R207). -/
def costCell (s : State) (r : List Byte) (x y : Int) : State × Nat :=
  let m := fld r 0x30 8
  let cx := x - sint 32 (fld r 0x40 4)
  let cy := y - sint 32 (fld r 0x44 4)
  let w : Int := fld r 0x38 2
  let h : Int := fld r 0x3A 2
  if m = 0 then (s, 0)
  else if cx < 0 ∨ w ≤ cx ∨ cy < 0 ∨ h ≤ cy then (s, fld r 0x3C 2)
  else
    let a := readRange s srcPlanner (m + (cy * w + cx).toNat * 2) 2
    (a.1, if a.2.1 = stOk then leNat a.2.2.1 else 0xFFFF)

/-- The edge cost of a primitive from a lattice point, none where a sample is lethal (R196). -/
def edgeCost (s : State) (r rec : List Byte) (q : Nat) (x y : Int) : State × Option Nat :=
  let c := (List.range (fld rec 0x1C 1)).foldl (fun (a : State × Option Nat) n =>
    let p := rotCell q (sint 8 (fld rec (0x20 + 2 * n) 1), sint 8 (fld rec (0x21 + 2 * n) 1))
    let v := costCell a.1 r (x + p.1) (y + p.2)
    (v.1, if v.2 = 0xFFFF then none else a.2.map (· + v.2))) (s, some 0)
  (c.1, c.2.map (fun sum => fld rec 0x10 4 + fld r 0x3E 2 * sum))

/-- An open state of the search: position, heading, speed, depth, path cost, f, the classes that may follow, and the chain to it with
its duration in µs. -/
structure OpenSt where
  x     : Int
  y     : Int
  hb    : Nat
  sb    : Nat
  depth : Nat
  g     : Nat
  f     : Nat
  succ  : Nat
  chain : List PlanPrim
  dur   : Nat
  deriving DecidableEq, Repr

/-- The stores of a running search: open states in the order they entered, visited states with their cost, the ranked list. -/
structure Search where
  opens   : List OpenSt
  visited : List ((Int × Int × Nat × Nat) × Nat)
  ranked  : List Ranked
  deriving DecidableEq, Repr

/-- The heuristic (R197). -/
def fOf (r : List Byte) (x y : Int) (g : Nat) : Nat :=
  let dx := x - sint 32 (fld r 0x10 4)
  let dy := y - sint 32 (fld r 0x14 4)
  (g + fld r 0x2C 4 * isqrt (dx * dx + dy * dy).toNat) % 2 ^ 64

/-- The goal region (R196). -/
def inGoal (r : List Byte) (x y : Int) (he se : Nat) : Bool :=
  let gr : Int := fld r 0x18 2
  let lo := fld r 0x1A 1
  let hi := fld r 0x1B 1
  decide ((x - sint 32 (fld r 0x10 4)).natAbs ≤ gr ∧ (y - sint 32 (fld r 0x14 4)).natAbs ≤ gr) &&
    (if lo ≤ hi then decide (lo ≤ he ∧ he ≤ hi) else decide (lo ≤ he ∨ he ≤ hi)) &&
    decide (fld r 0x1C 1 ≤ se ∧ se ≤ fld r 0x1D 1)

/-- The ranked list with a terminal state (R197): at most 9, by f; a newcomer goes behind equals. -/
def rankInsert (x : Ranked) : List Ranked → List Ranked
  | [] => [x]
  | y :: l => if x.f < y.f then x :: y :: l else y :: rankInsert x l

/-- The stores are full (R197). -/
def Search.full (t : Search) : Bool := decide (1048576 ≤ t.opens.length + t.visited.length)

/-- One candidate of an expansion (R196): set slot, record index and record. -/
def candidate (r : List Byte) (pin : Option (Nat × Nat)) (n : OpenSt) (a : State × Search) (slot idx : Nat) (rec : List Byte) : State × Search :=
  let q := n.hb / 16
  if fld rec 0 1 ≠ n.hb % 16 ∨ fld rec 1 1 ≠ n.sb ∨ bit n.succ (fld rec 4 1) = false ∨ a.2.full then a
  else
    let e := rotEnd q (sint 16 (fld rec 8 2), sint 16 (fld rec 10 2))
    let x := s32 (n.x + e.1)
    let y := s32 (n.y + e.2)
    let he := (fld rec 2 1 + 16 * q) % 64
    let se := fld rec 3 1
    let c := edgeCost a.1 r rec q n.x n.y
    match c.2 with
    | none => (c.1, a.2)
    | some cost =>
      let g := n.g + cost
      let key := (x, y, he, se)
      let seen := (a.2.visited.find? (fun v => v.1 == key)).map (·.2)
      if 2 ^ 32 ≤ g ∨ (seen.any (· ≤ g)) then (c.1, a.2)
      else
        let t := { a.2 with visited := (key, g) :: a.2.visited.filter (fun v => v.1 != key) }
        let s := { c.1 with sie.cand := (c.1.sie.cand + 1) % 2 ^ 64 }
        let k := sieveCheck s pin slot rec q n.x n.y (rqZ r)
        if k.2 then (k.1, t)
        else
          let f := fOf r x y g
          let chain := n.chain ++ [{ set := slot, q := q, idx := idx, x := n.x, y := n.y, off := n.dur }]
          if inGoal r x y he se ∨ n.depth + 1 = rqHorizon r then
            (k.1, { t with ranked := (rankInsert { f := f, g := g, chain := chain } t.ranked).take 9 })
          else
            (k.1, { t with opens := t.opens ++ [{ x := x, y := y, hb := he, sb := se, depth := n.depth + 1, g := g, f := f,
                                                  succ := fld rec 0x14 4, chain := chain, dur := n.dur + fld rec 0xC 4 }] })

/-- The open state with the lowest f, the first entered among equals (R197). -/
def bestOpen : List OpenSt → Option OpenSt
  | [] => none
  | x :: l => match bestOpen l with
    | some y => if y.f < x.f then some y else some x
    | none => some x

/-- The search with a number of expansions left (R197): the state, the ranked list and the flag BUDGET. -/
def searchLoop (r : List Byte) (pin : Option (Nat × Nat)) (cands : List (Nat × Nat × List Byte)) : Nat → State → Search → State × List Ranked × Bool
  | fuel, s, t =>
    match bestOpen t.opens with
    | none => (s, t.ranked, false)
    | some n =>
      if t.ranked.length = 9 ∧ (t.ranked.getLast?.map (·.f)).any (· ≤ n.f) then (s, t.ranked, false)
      else if t.full then (s, t.ranked, true)
      else match fuel with
        | 0 => (s, t.ranked, true)
        | fuel + 1 =>
          let t := { t with opens := eraseFirst (· == n) t.opens }
          let a := cands.foldl (fun a c => candidate r pin n a c.1 c.2.1 c.2.2) (s, t)
          searchLoop r pin cands fuel a.1 a.2
  termination_by structural fuel => fuel

/-- The primitives of the enabled NORMAL sets in order (R196). -/
def candidates (s : State) (mask : Nat) : State × List (Nat × Nat × List Byte) :=
  (bitsOf mask 8).foldl (fun (a : State × List (Nat × Nat × List Byte)) slot =>
    match s.pln.sets.get slot with
    | some st =>
      if st.kind = 0 then
        (List.range st.nprim).foldl (fun (a : State × List (Nat × Nat × List Byte)) i =>
          let r := primRecord a.1 st i
          (r.1, match r.2 with
            | some rec => a.2 ++ [(slot, i, rec)]
            | none => a.2)) a
      else a
    | none => a) (s, [])

/-- The whole search of a cycle with at most `limit` expansions (R196, R197). -/
def runSearch (s : State) (c : Cycle) (limit : Nat) : State × List Ranked × Bool :=
  let r := c.req
  let k := candidates s (fld r 0xC 1)
  let start : OpenSt := { x := rqX r, y := rqY r, hb := rqHb r, sb := rqSb r, depth := 0, g := 0, f := fOf r (rqX r) (rqY r) 0,
                          succ := fld r 0x50 4, chain := [], dur := 0 }
  searchLoop r (c.pinE.map (fun b => (b, c.eSearch))) k.2 (min limit (fld r 0x54 4)) k.1 { opens := [start], visited := [], ranked := [] }

/-! ### A cycle (R195, R199) -/

/-- A pin on a buffer taken or released (R189). -/
def addPin (s : State) (b : Option Nat) : State :=
  match b with
  | some n => { s with sie.pins := s.sie.pins.modify n (· + 1) }
  | none => s
def dropPin (s : State) (b : Option Nat) : State :=
  match b with
  | some n => { s with sie.pins := s.sie.pins.modify n (· - 1) }
  | none => s

/-- A strobe's cycle starts (R195). -/
def cycleStart (s : State) (l : Launch) : State :=
  let p := l.strobe.prog.toNat
  if 15 < p then reportDone (raiseEvent s 0x0502 0 [1 + p * 65536]) 36 l stBadProgram
  else
    let r := readRange s srcPlanner (s.pln.reqBase + 128 * p) 128
    let s := r.1
    let rangeBad := r.2.1 == stOk && !requestOk r.2.2.1
    let bad := r.2.1 != stOk || rangeBad
    let s := addPin s s.sie.cur
    let c : Cycle := { launch := l, req := r.2.2.1, reqBad := bad, pinE := s.sie.cur, eSearch := s.sie.curEpoch, pinN := none, eCheck := 0,
                       mapBad := false, ended := if bad then some ([], false) else none }
    let s := { s with pln.cycle := some c }
    if rangeBad then raiseEvent s 0x0502 0 [2 + p * 65536] else s

/-- The planner takes strobes (R195, R400, R417). -/
def plannerReady (s : State) : Bool :=
  s.pln.launchEn && s.pln.waiting.isNone && !stoppedDomain s.pwr.state 66 && !(s.qch.coolant == 3 && s.pln.cycle.isNone)

/-- A strobe at the planner (R195): it starts a cycle, or waits as the single pending one. -/
def plannerStrobe (s : State) (b : Strobe) : State :=
  if plannerReady s then
    let x := takeHeld s 36 b
    if x.1.pln.cycle.isNone then cycleStart x.1 x.2 else { x.1 with pln.waiting := some x.2 }
  else s

/-- The search ends (R197, R199): the newest epoch is pinned as the check epoch. -/
def searchEnd (s : State) (c : Cycle) (limit : Nat) (timed : Bool) : State :=
  let r := runSearch s c limit
  let s := addPin r.1 r.1.sie.cur
  let bad := match s.pln.cycle with
    | some d => d.mapBad
    | none => c.mapBad
  let atTime := timed && r.2.2
  { s with pln.cycle := some { c with pinN := s.sie.cur, eCheck := s.sie.curEpoch, mapBad := bad, ended := some (r.2.1, atTime || r.2.2) } }

/-- PLAN_SEARCH_END: the search ends proven, exhausted or at its expansion budget. -/
def planSearchEnd (s : State) : State :=
  match s.pln.cycle with
  | some c => if c.ended.isNone then searchEnd s c (2 ^ 32) false else s
  | none => s

/-- The time condition of a cycle (R197), or the coolant stop that stands for it (R417). -/
def timeUp (s : State) (c : Cycle) : Bool :=
  decide (c.launch.strobe.dt + rqBudget c.req ≤ s.dt + s.pln.reserve * 1000) || s.qch.coolant == 3

/-- PLAN_TIME_LIMIT after a number of expansions. -/
def planTimeLimit (s : State) (expanded : Nat) : State :=
  match s.pln.cycle with
  | some c => if c.ended.isNone && timeUp s c then searchEnd s c expanded true else s
  | none => s

/-! ### Release (R199–R203) -/

/-- A primitive of a plan checked against an epoch: it collides where its set or record is gone. -/
def planPrimCheck (s : State) (pin : Option (Nat × Nat)) (z : Int) (p : PlanPrim) : State × Bool :=
  match s.pln.sets.get p.set with
  | some st =>
    let r := primRecord s st p.idx
    match (if p.idx < st.nprim then r.2 else none) with
    | some rec => sieveCheck r.1 pin p.set rec p.q p.x p.y z
    | none => (r.1, true)
  | none => (s, true)

/-- Whether a chain passes: primitives in order up to the first that collides. -/
def chainPasses (pin : Option (Nat × Nat)) (z : Int) : State → List PlanPrim → State × Bool
  | s, [] => (s, true)
  | s, p :: l =>
    let r := planPrimCheck s pin z p
    if r.2 then (r.1, false) else chainPasses pin z r.1 l

/-- The first rank that passes the final check, from rank `n` on (R199). -/
def firstRank (pin : Option (Nat × Nat)) (z : Int) : State → Nat → List Ranked → State × Option (Nat × Ranked)
  | s, _, [] => (s, none)
  | s, n, x :: l =>
    let r := chainPasses pin z s x.chain
    if r.2 then (r.1, some (n, x)) else firstRank pin z r.1 (n + 1) l

/-- A released plan before it is written: status, rank, primitives, t0, cost (none where the manual states none), start. -/
structure Plan where
  status : Nat
  rank   : Nat
  prims  : List PlanPrim
  t0     : Nat
  cost   : Option Nat
  x      : Int
  y      : Int
  deriving DecidableEq, Repr

/-- The primitives of a record (R202). -/
def recordPrims (r : List Byte) : List PlanPrim :=
  (List.range (fld r 0xA 1)).map (fun n =>
    let o := 0x40 + 16 * n
    { set := fld r o 1, q := fld r (o + 1) 1, idx := fld r (o + 2) 2, x := sint 32 (fld r (o + 4) 4), y := sint 32 (fld r (o + 8) 4),
      off := fld r (o + 12) 4 })

/-- Duration of a plan's primitive in µs from its set. -/
def primDur (s : State) (p : PlanPrim) : Nat :=
  match s.pln.sets.get p.set with
  | some st => if p.idx < st.nprim then ((primRecord s st p.idx).2.map (fun r => fld r 0xC 4)).getD 0 else 0
  | none => 0

/-- The kept plan (R200): the previous plan's primitives that end after t0, if they all pass. -/
def keptPlan (s : State) (c : Cycle) (pin : Option (Nat × Nat)) : State × Option Plan :=
  match s.pln.prev with
  | some r =>
    let base := fld r 0x18 8
    let left := (recordPrims r).filter (fun p => rqT0 c.req < base + (p.off + primDur s p) * 1000)
    match left with
    | p :: _ =>
      if bit (fld c.req 0xE 1) 0 ∧ fld r 0 2 ≠ 3 then
        let k := chainPasses pin (rqZ c.req) s left
        (k.1, if k.2 then some { status := 1, rank := 0xFF, prims := left.map (fun (x : PlanPrim) => { x with off := x.off - p.off }),
                                 t0 := base + p.off * 1000, cost := none, x := p.x, y := p.y } else none)
      else (s, none)
    | [] => (s, none)
  | none => (s, none)

/-- The loaded STOP set (R182, R205). -/
def stopSlot (s : State) : Option (Nat × PlanSet) :=
  (List.range 8).findSome? (fun n => (s.pln.sets.get n).bind (fun st => if st.kind = 1 then some (n, st) else none))

/-- An entry placed in ascending cost, behind equals. -/
def costInsert (x : Nat × Nat × List Byte) : List (Nat × Nat × List Byte) → List (Nat × Nat × List Byte)
  | [] => [x]
  | y :: l => if x.1 < y.1 then x :: y :: l else y :: costInsert x l

/-- The stop primitive that passes, by edge cost and then record order (R200). -/
def stopTry (c : Cycle) (pin : Option (Nat × Nat)) (slot q : Nat) : State → List (Nat × Nat × List Byte) → State × Option Plan
  | s, [] => (s, none)
  | s, (cost, i, rec) :: l =>
    let k := sieveCheck s pin slot rec q (rqX c.req) (rqY c.req) (rqZ c.req)
    if k.2 then stopTry c pin slot q k.1 l
    else (k.1, some { status := 2, rank := 0xFF, prims := [{ set := slot, q := q, idx := i, x := rqX c.req, y := rqY c.req, off := 0 }],
                      t0 := rqT0 c.req, cost := some cost, x := rqX c.req, y := rqY c.req })

/-- The stop plan (R200). -/
def stopPlan (s : State) (c : Cycle) (pin : Option (Nat × Nat)) : State × Option Plan :=
  match stopSlot s with
  | none => (s, none)
  | some (slot, st) =>
    let q := rqHb c.req / 16
    let a := (List.range st.nprim).foldl (fun (a : State × List (Nat × Nat × List Byte)) i =>
      let r := primRecord a.1 st i
      match r.2 with
      | some rec =>
        if fld rec 0 1 = rqHb c.req % 16 ∧ fld rec 1 1 = rqSb c.req then
          let e := edgeCost r.1 c.req rec q (rqX c.req) (rqY c.req)
          (e.1, match e.2 with
            | some cost => costInsert (cost, i, rec) a.2
            | none => a.2)
        else (r.1, a.2)
      | none => (r.1, a.2)) (s, [])
    stopTry c pin slot q a.1 a.2

/-- The plan of a cycle (R199, R200), and whether rank 0 collided in the final check. -/
def choosePlan (s : State) (c : Cycle) (ranked : List Ranked) : State × Plan × Bool :=
  let r := c.req
  let z := rqZ r
  let none_ : Plan := { status := 3, rank := 0xFF, prims := [], t0 := rqT0 r, cost := none, x := rqX r, y := rqY r }
  let new := fun (n : Nat) (x : Ranked) =>
    ({ status := 0, rank := n, prims := x.chain, t0 := rqT0 r, cost := some x.g, x := rqX r, y := rqY r } : Plan)
  let pin := c.pinN.map (fun b => (b, c.eCheck))
  let same := c.pinN == c.pinE && c.eCheck == c.eSearch
  if c.reqBad then (s, none_, false)
  else
    let f : State × Option (Nat × Ranked) :=
      if same then (s, ranked.head?.map (fun x => (0, x))) else firstRank pin z s 0 ranked
    match f.2 with
    | some (n, x) => (f.1, new n x, n != 0)
    | none =>
      let bad := !same && !ranked.isEmpty
      let k := keptPlan f.1 c pin
      match k.2 with
      | some p => (k.1, p, bad)
      | none =>
        let t := stopPlan k.1 c pin
        match t.2 with
        | some p => (t.1, p, bad)
        | none => (t.1, none_, bad)

/-- The plan record (R202). -/
def planRecord (req : Nat) (p : Plan) (flags seq eSearch eCheck rel sensor cost : Nat) : List Byte :=
  slice (leBytes 2 p.status ++ leBytes 2 flags ++ leBytes 4 seq ++ leBytes 1 req ++ leBytes 1 p.rank ++ leBytes 1 p.prims.length ++ leBytes 1 0 ++
    leBytes 4 eSearch ++ leBytes 4 eCheck ++ leBytes 4 0 ++ leBytes 8 p.t0 ++ leBytes 8 rel ++ leBytes 8 sensor ++ leBytes 4 cost ++ leBytes 4 0 ++
    leBytes 4 (uint 32 p.x) ++ leBytes 4 (uint 32 p.y) ++
    (p.prims.map (fun x => leBytes 1 x.set ++ leBytes 1 x.q ++ leBytes 2 x.idx ++ leBytes 4 (uint 32 x.x) ++ leBytes 4 (uint 32 x.y) ++
      leBytes 4 x.off)).flatten) 0 320

/-- An E2E record (R352). -/
def e2eBytes (src stream seq dt : Nat) (pay : List Byte) : List Byte :=
  let h := leBytes 1 1 ++ leBytes 1 src ++ leBytes 1 stream ++ leBytes 1 0 ++ leBytes 4 seq ++ leBytes 8 dt ++ leBytes 2 pay.length ++ leBytes 2 0 ++
    leBytes 4 0
  putBytes h 20 (leBytes 4 (recordCrc h pay)) ++ pay

/-- The ingress lane of a source at an island (R27, R353). -/
def ingressLane (island src : Nat) : Nat := 0x7000000000 + island * 0x1000000 + src * 0x400

/-- PLAN_RELEASE (R199–R203). The epoch numbers and sensor_dt of a cycle without an epoch, and the cost of a plan that the manual gives
none, are free values. -/
def planRelease (s : State) : State :=
  match s.pln.cycle with
  | none => s
  | some c =>
    match c.ended with
    | none => s
    | some (ranked, budget) =>
      let x := choosePlan s c ranked
      let s := x.1
      let p := x.2.1
      let bad := match s.pln.cycle with
        | some d => d.mapBad
        | none => false
      let late := decide (c.launch.strobe.dt + rqBudget c.req < s.dt)
      let flags := pack [(1, b2n budget), (1, b2n x.2.2), (1, b2n bad), (1, b2n late), (1, b2n c.reqBad)]
      let fv := fun n => Config.freeQuad (s.free + n)
      let eS := if c.pinE.isSome then c.eSearch else (fv 0).toNat % 2 ^ 32
      let eC := if c.pinN.isSome then c.eCheck else (fv 1).toNat % 2 ^ 32
      let sens := match c.pinN with
        | some b => fld (bufHdr s b) 0x28 8
        | none => (fv 2).toNat
      let cost := p.cost.getD ((fv 3).toNat % 2 ^ 32)
      let s := { s with free := s.free + 4 }
      let req := c.launch.strobe.prog.toNat
      let seq := (s.pln.seq + 1) % 2 ^ 32
      let rec_ := planRecord req p flags seq eS eC s.dt sens cost
      let w := writeRange s srcPlanner c.launch.strobe.label.toNat (rqOut c.req) rec_ false
      let s := w.1
      let e := e2eBytes srcPlanner Config.planStream.toNat s.pln.e2eSeq s.dt rec_
      let s := (List.range 2).foldl (fun s i => (writeRange s srcPlanner c.launch.strobe.label.toNat (ingressLane i srcPlanner) e false).1) s
      let s := raiseEvent s (if p.status = 3 then 0x0501 else 0x0500) req
        [seq + p.status * 2 ^ 32 + p.rank * 2 ^ 40 + flags * 2 ^ 48, rqOut c.req]
      let s := dropPin (dropPin s c.pinE) c.pinN
      let q := s.pln
      let s := { s with pln := { q with
        cycle := none, seq := seq, lastDt := s.dt, lastReq := req, lastStat := p.status, prev := some rec_,
        e2eSeq := (q.e2eSeq + 1) % 2 ^ 32, cycCnt := cnt q.cycCnt 1, budCnt := cnt q.budCnt (b2n budget),
        rechkCnt := cnt q.rechkCnt (b2n x.2.2), keptCnt := cnt q.keptCnt (b2n (p.status = 1)),
        stopCnt := cnt q.stopCnt (b2n (p.status = 2)), nspCnt := cnt q.nspCnt (b2n (p.status = 3)), lateCnt := cnt q.lateCnt (b2n late),
        outErr := cnt q.outErr (b2n (w.2 ≠ stOk)), waiting := none } }
      let s := reportDone s 36 c.launch stOk
      match q.waiting with
      | some l => cycleStart s l
      | none => s

/-! ### Publishing (R187, R190) -/

/-- A header that passes R187. -/
def bufHdrOk (s : State) (h : List Byte) : Bool :=
  fld h 0 2 == 1 && fld h 2 1 == s.sie.depth && fld h 3 1 == 0 && fld h 4 2 == s.sie.voxel && fld h 6 2 == 0 && fld h 0xC 4 == 0 && fld h 0x30 16 == 0

/-- SIE_PUBLISH (R190). -/
def siePublish (s : State) (src value : Nat) : State × Half :=
  let b := value % 2
  let x := s.sie.bufs.get b
  let r := hubRead s x.1 64
  let e := fld r.1 8 4
  let ok := s.sie.valid && s.sie.cur != some b && s.sie.pins.get b == 0 && decide (64 ≤ x.2) && !r.2 && bufHdrOk s r.1 &&
    (s.sie.cur.isNone || e == (s.sie.curEpoch + 1) % 2 ^ 32)
  if ok then ({ s with sie := { s.sie with cur := some b, curEpoch := e } }, stOk)
  else (decodeErrorEvent { s with sie.pubRej := cnt s.sie.pubRej 1 } src (regAddr 0 0x21 0x18) 1, stDecodeError)

/-! ### Registers (R204) -/

/-- PLN_STAT. A running cycle shows its search until the search has ended, and its final check from then to its release. -/
def plnStat (s : State) : Nat :=
  let p := s.pln
  let phase := match p.cycle with
    | none => 0
    | some c => if c.ended.isNone then 1 else 2
  pack [(1, b2n p.cycle.isSome), (7, 0), (1, b2n p.waiting.isSome), (3, phase), (4, 0), (4, p.lastStat), (4, 0), (4, p.lastReq)]

/-- SIE_CFG and SIE_EPOCH_STAT. -/
def sieCfg (s : State) : Nat := pack [(1, b2n s.sie.valid), (7, 0), (4, s.sie.depth), (4, 0), (9, s.sie.voxel)]
def sieBufState (s : State) (b : Nat) : Nat := if s.sie.cur = some b then 1 else if 0 < s.sie.pins.get b then 2 else 0
def sieEpochStat (s : State) : Nat :=
  pack [(1, b2n (s.sie.cur == some 1)), (1, b2n s.sie.cur.isSome), (6, 0), (2, sieBufState s 0), (2, sieBufState s 1), (4, 0),
        (2, s.sie.pins.get 0), (2, s.sie.pins.get 1), (12, 0), (32, if s.sie.cur.isSome then s.sie.curEpoch else 0)]

/-- Counters of R204 in register order. -/
def plnCounters (s : State) : List Reg :=
  let p := s.pln
  [r4 0x30 p.cycCnt, r4 0x34 p.budCnt, r4 0x38 p.rechkCnt, r4 0x3C p.keptCnt, r4 0x40 p.stopCnt, r4 0x44 p.nspCnt, r4 0x48 p.lateCnt, r4 0x4C p.outErr]
def sieCounters (s : State) : List Reg := [r8 0x28 s.sie.entries, r8 0x30 s.sie.cand, r4 0x38 s.sie.mapErr, r4 0x3C s.sie.pubRej]

/-- Pages 0x20 and 0x21 of unit 0x00. -/
def pagePln (s : State) : List Reg :=
  let p := s.pln
  [r4 0 (b2n p.launchEn), r4 4 (plnStat s), r8 8 p.reqBase, r4 0x10 p.reserve, r4 0x14 p.seq, r8 0x18 p.lastDt,
   r4 0x20 (pack [(8, maskOf 8 (fun n => (p.sets.get n).isSome)), (8, maskOf 8 (fun n => ((p.sets.get n).map (·.kind)) == some 1))])] ++ plnCounters s
def pageSie (s : State) : List Reg :=
  [r4 0 (sieCfg s), r8 8 (s.sie.bufs.get 0).1, r8 0x10 (s.sie.bufs.get 1).1, r8 0x20 (sieEpochStat s)] ++ sieCounters s

/-- PLN_CTRL.cnt_clr. -/
def plnCntClr (s : State) : State :=
  { s with
    pln := { s.pln with cycCnt := 0, budCnt := 0, rechkCnt := 0, keptCnt := 0, stopCnt := 0, nspCnt := 0, lateCnt := 0, outErr := 0 },
    sie := { s.sie with entries := 0, cand := 0, mapErr := 0, pubRej := 0 } }

/-! ### Primitive sets and commands (R182–R185, R205) -/

/-- Check 6 of R185 for one record. -/
def recordOk (nprim nentries : Nat) (r : List Byte) : Bool :=
  let le := fun off n hi => decide (fld r off n ≤ hi)
  let ge1 := fun off n => decide (1 ≤ fld r off n)
  let base := 16 + 4 * nprim
  le 0 1 15 && le 1 1 31 && le 2 1 63 && le 3 1 31 && le 4 1 31 && le 5 1 1 && ge1 6 2 && le 6 2 16384 && ge1 0xC 4 && le 0xC 4 10000000 &&
    le 0x1C 1 8 && le 0x1D 3 0 && le 0x3C 4 0 && (List.range 8).all (fun n => decide (n < fld r 0x1C 1) || fld r (0x20 + 2 * n) 2 == 0) &&
    decide (base ≤ fld r 0x18 4 ∧ fld r 0x18 4 + fld r 6 2 ≤ base + nentries)

/-- Check 7 of R185 for one record: extremes within the header's limits, a_min the most negative. -/
def extOk (h r : List Byte) : Bool :=
  (List.range 6).all (fun n =>
    let e := fp16.decode (fld r (0x30 + 2 * n) 2)
    let l := fp16.decode (fld h (0x18 + 2 * n) 2)
    !e.isNan && !l.isNan && (if n = 4 then !e.lt l else !l.lt e))

/-- The checks of R185 on an image: the code of the first that fails, or 0. -/
def setCheck (s : State) (len : Nat) (img : List Byte) : Nat :=
  let h := img.take 256
  let np := fld h 8 4
  let ne := fld h 0xC 4
  let recs := (List.range np).map (fun i => slice img (0x100 + 64 * i) 64)
  let sp := (List.range 32).map (fun i => fp16.decode (fld h (0x40 + 2 * i) 2))
  if fld h 0 4 ≠ 0x5031534B ∨ 1 < fld h 4 1 ∨ fld h 5 1 ≠ 0 ∨ fld h 0x24 28 ≠ 0 ∨ fld h 0x80 128 ≠ 0 then 1
  else if fld h 0x10 4 ≠ len ∨ np < 1 ∨ 4096 < np ∨ ne < 1 ∨ 4194304 < ne ∨ len ≠ roundUp (0x100 + 64 * np + 16 * ne) 64 then 2
  else if (crc32c (putBytes img 0x14 (leBytes 4 0))).toNat ≠ fld h 0x14 4 then 3
  else if fld h 6 2 ≠ s.sie.voxel then 4
  else if !((sp.headD .nan).eq vzero) || sp.any (fun v => v.isNan || v.isInf) ||
      (List.range 31).any (fun i => !((sp.getD i .nan).lt (sp.getD (i + 1) .nan))) then 5
  else if recs.any (fun r => !recordOk np ne r) then 6
  else if recs.any (fun r => !extOk h r) then 7
  else if (List.range ne).any (fun i =>
      let o := 0x100 + 64 * np + 16 * i
      fld img o 8 == 0 || fld img (o + 13) 3 != 0) then 8
  else if fld h 4 1 = 1 ∧ recs.any (fun r => fld r 3 1 != 0 || fld r 0x14 4 != 0 || (fld r 1 1 == 0 && fld r 8 4 != 0)) then 9
  else 0

/-- A cycle runs or a strobe waits. -/
def plnBusy (s : State) : Bool := s.pln.cycle.isSome || s.pln.waiting.isSome

/-- PLN_CONFIG. -/
def cmdPlnConfig (s : State) (c : Cmd) : State × Reply :=
  let f := clampFields c.pay 48 [fr 0 2 50 400, fr 2 1 3 12, fz 3 1, fr 4 4 50 5000, fm 8 8 0 (2 ^ 64 - 1) 64, fr 16 4 0 25165824, fz 20 4,
    fm 24 8 0 (2 ^ 64 - 1) 64, fr 32 4 0 25165824, fz 36 4, fm 40 8 0 (2 ^ 64 - 1) 64]
  let b0 := fld f.1 8 8
  let l0 := fld f.1 16 4
  let b1 := fld f.1 24 8
  let l1 := fld f.1 32 4
  let req := fld f.1 40 8
  let outside := fun b l => decide (b < hubBase ∨ hubBase + 0x4000000 < b + l)
  if s.pln.launchEn || plnBusy s then (s, reply stBusy f.2 [])
  else if outside b0 l0 || outside b1 l1 || decide (b0 < b1 + l1 ∧ b1 < b0 + l0) || decide (hostBase ≤ req) then (s, reply stDecodeError f.2 [])
  else
    ({ s with
       pln := { s.pln with reqBase := req, reserve := fld f.1 4 4, seq := 0, lastStat := 0xF, prev := none },
       sie := { s.sie with valid := true, voxel := fld f.1 0 2, depth := fld f.1 2 1,
                           bufs := { dflt := (0, 0), cells := [(0, (b0, l0)), (1, (b1, l1))] }, cur := none, curEpoch := 0,
                           pins := Tab.const 0 } }, reply stOk f.2 f.1)

/-- PLN_SET_LOAD. -/
def cmdPlnSetLoad (s : State) (c : Cmd) : State × Reply :=
  let f := clampFields c.pay 20 [fr 0 1 0 7, fz 1 7, fm 8 8 0 (2 ^ 64 - 1) 64, fa 16 4]
  let n := fld f.1 0 1
  let addr := fld f.1 8 8
  let len := fld f.1 16 4
  if plnBusy s || (s.pln.sets.get n).isSome then (s, reply stBusy f.2 [])
  else if len = 0 ∨ !inDramOrHub addr len then (s, reply stDecodeError f.2 [])
  else
    let h := readRange s srcPlanner addr (min len 256)
    let want := roundUp (0x100 + 64 * fld h.2.2.1 8 4 + 16 * fld h.2.2.1 0xC 4) 64
    let r := if want = len then readRange s srcPlanner addr len else h
    let code := setCheck s len r.2.2.1
    let kind := fld r.2.2.1 4 1
    if code ≠ 0 then (r.1, reply stBadSet f.2 (leBytes 4 code))
    else if kind = 1 ∧ (stopSlot s).isSome then (r.1, reply stNoResource f.2 [])
    else
      let st : PlanSet := { kind := kind, nprim := fld r.2.2.1 8 4, nentries := fld r.2.2.1 0xC 4, addr := addr, length := len, voxel := fld r.2.2.1 6 2 }
      ({ r.1 with pln.sets := r.1.pln.sets.set n (some st) }, reply stOk f.2 (leBytes 1 kind ++ leBytes 4 st.nprim ++ leBytes 4 st.nentries))

/-- PLN_SET_UNLOAD. -/
def cmdPlnSetUnload (s : State) (c : Cmd) : State × Reply :=
  let f := clampFields c.pay 1 [fr 0 1 0 7]
  let n := fld f.1 0 1
  if plnBusy s then (s, reply stBusy f.2 [])
  else if (s.pln.sets.get n).isNone then (s, reply stNotDefined f.2 [])
  else ({ s with pln.sets := s.pln.sets.set n none }, reply stOk f.2 [])

/-- PLN_QUERY. -/
def cmdPlnQuery (s : State) (_ : Cmd) : State × Reply :=
  (s, reply stOk 0 (leBytes 4 (sieCfg s) ++ leBytes 4 s.pln.reserve ++
    catMap 8 (fun n => match s.pln.sets.get n with
      | some st => leBytes 1 st.kind ++ leBytes 4 st.nprim ++ leBytes 8 st.addr
      | none => List.replicate 13 0) ++
    leBytes 8 (sieEpochStat s) ++ slice (s.pln.prev.getD []) 0 64 ++ regBytes (plnCounters s) ++ regBytes (sieCounters s)))

/-- Everything the planner holds cleared (R207). -/
def plannerReset (s : State) : State :=
  { s with
    pln := { launchEn := false, reqBase := 0, reserve := 0, seq := 0, lastDt := 0, lastReq := 0, lastStat := 0xF, sets := Tab.const none, cycle := none,
             waiting := none, prev := none, e2eSeq := s.pln.e2eSeq, cycCnt := 0, budCnt := 0, rechkCnt := 0, keptCnt := 0, stopCnt := 0, nspCnt := 0,
             lateCnt := 0, outErr := 0 },
    sie := { valid := false, voxel := 0, depth := 0, bufs := Tab.const (0, 0), cur := none, curEpoch := 0, pins := Tab.const 0, entries := 0,
             cand := 0, mapErr := 0, pubRej := 0 } }

/-- Capability 0x0008 (R206). -/
def capPlanner : Nat := pack [(4, 8), (15, 4096), (6, 32), (7, 64), (4, 8), (5, 16), (4, 12), (7, 64), (4, 4)]

/-! ### One meaning per command -/

def execPlannerStrobe (b : Strobe) (s : State) : Out := .next (plannerStrobe s b)
def execPlanSearchEnd (now : Nat) (s : State) : Out := .next (planSearchEnd (s.advance now))
def execPlanTimeLimit (now expanded : Nat) (s : State) : Out := .next (planTimeLimit (s.advance now) expanded)
def execPlanRelease (now : Nat) (s : State) : Out := .next (planRelease (s.advance now))
def execSiePublish (src : BitVec 8) (v : Word) (s : State) : Out := .next (siePublish s src.toNat v.toNat).1
def execPlnCtrlCntClr (s : State) : Out := .next (plnCntClr s)
def execPlnCtrlLaunchEn (on : Bool) (s : State) : Out := .next { s with pln.launchEn := on }
def execPlnConfig (ch : Fin 4) (r : Request) (s : State) : Out := cerfosil s ch 0x0500 r cmdPlnConfig
def execPlnSetLoad (ch : Fin 4) (r : Request) (s : State) : Out := cerfosil s ch 0x0501 r cmdPlnSetLoad
def execPlnSetUnload (ch : Fin 4) (r : Request) (s : State) : Out := cerfosil s ch 0x0502 r cmdPlnSetUnload
def execPlnQuery (ch : Fin 4) (r : Request) (s : State) : Out := cerfosil s ch 0x0503 r cmdPlnQuery

end Sys2Proof.Machine
end

