-- ==== Sys2Proof/Machine/Deluf.lean ====
section
/-! DEFINITION. Deluf links, routes, remote requests, accumulation, barriers, and the mirrored pair (chapter 14, R239–R241). -/

namespace Sys2Proof.Machine

/-! ### Routes (R380–R382) -/

/-- Port `p` is UP. -/
def portUp (s : State) (p : Nat) : Bool := (s.so.ports.get p).state == 2

/-- Devices of the system (R380). -/
def dlfCount (s : State) : Nat := (s.so.dlf.xM1 + 1) * (s.so.dlf.yM1 + 1)

/-- The device number of a column and row. -/
def dlfAt (s : State) (x y : Nat) : Nat := x + y * (s.so.dlf.xM1 + 1)

/-- The neighbour that the topology gives a torus port (R380). -/
def torusPeer (s : State) (p : Nat) : Option Nat :=
  let d := s.so.dlf
  let x := dlfCol s d.devnum
  let y := dlfRow s d.devnum
  let nx := d.xM1 + 1
  let ny := d.yM1 + 1
  match p with
  | 0 => if nx = 1 then none else some (dlfAt s ((x + 1) % nx) y)
  | 1 => if nx = 1 then none else some (dlfAt s ((x + nx - 1) % nx) y)
  | 2 => if ny = 1 then none else some (dlfAt s x ((y + 1) % ny))
  | 3 => if ny = 1 then none else some (dlfAt s x ((y + ny - 1) % ny))
  | _ => none

/-- Mode and argument of DL6 or DL7 (R380). -/
def expressOf (s : State) (p : Nat) : Nat × Nat := if p = 6 then s.so.dlf.dl6 else if p = 7 then s.so.dlf.dl7 else (0, 0)

/-- The device that the topology expects behind a port (R380). -/
def expectedPeer (s : State) (p : Nat) : Option Nat :=
  if !s.so.dlf.valid then none
  else if p < 4 then torusPeer s p
  else if p < 6 then (if s.so.dlf.partner < 48 then some s.so.dlf.partner else none)
  else match expressOf s p with
    | (1, d) => some d
    | (2, t) => torusPeer s t
    | _ => none

/-- The torus port of the default route (R381): x first, the shorter way round, ties to plus. -/
def torusPort (s : State) (dst : Nat) : Nat :=
  let nx := s.so.dlf.xM1 + 1
  let ny := s.so.dlf.yM1 + 1
  let dx := (dlfCol s dst + nx - dlfCol s s.so.dlf.devnum) % nx
  let dy := (dlfRow s dst + ny - dlfRow s s.so.dlf.devnum) % ny
  if dx ≠ 0 then (if dx ≤ nx - dx then 0 else 1) else if dy ≤ ny - dy then 2 else 3

/-- The port for a destination with the ports that are UP (R381, R382). Around a lost link without a SPARE the port is one of the torus
ports that are UP: which, the manual does not say (a free value). -/
def routeFor (s : State) (dst : Nat) : State × Nat :=
  if !s.so.dlf.valid || dst == s.so.dlf.devnum || decide (dlfCount s ≤ dst) then (s, 0xF)
  else match [6, 7].find? (fun p => expressOf s p == (1, dst) && portUp s p) with
    | some p => (s, p)
    | none =>
      let t := torusPort s dst
      if portUp s t then (s, t)
      else match [6, 7].find? (fun p => expressOf s p == (2, t) && portUp s p) with
        | some p => (s, p)
        | none =>
          let ups := [0, 1, 2, 3].filter (portUp s)
          if ups.isEmpty then (s, 0xF) else (s.took, ups.getD (s.freeVal.toNat % ups.length) 0xF)

/-- The route table as the firmware computes it. -/
def computeTable (s : State) : State × List Nat :=
  (List.range 48).foldl (fun (a : State × List Nat) d =>
    let r := routeFor a.1 d
    (r.1, a.2 ++ [r.2])) (s, [])

/-- DLF_RT_k. -/
def rtWord (rt : Tab Nat) (k : Nat) : Nat := pack ((List.range 16).map (fun i => (4, rt.get (16 * k + i))))

/-- DLF_REACH follows the table: a destination with a port, and the device itself. -/
def setReach (s : State) : State :=
  { s with so.dlf.reach := BitVec.ofNat 64 (maskOf 48 (fun d => (s.so.dlf.valid && d == s.so.dlf.devnum) || s.so.dlf.rt.get d != 0xF)) }

/-- Whether remote requests to a destination are outstanding on its old path. -/
def hasRemote (s : State) (d : Nat) : Bool := s.so.dlf.remotes.any (fun r => r.dst == d)

/-- The end of a reroute (R382). -/
def dlfRerouteDone (s : State) : State :=
  let s := setReach { s with so.dlf.rrCnt := cnt s.so.dlf.rrCnt 1, so.dlf.newRt := none }
  qosRecompute (raiseEvent s 0x0702 0 [rtWord s.so.dlf.rt 0, rtWord s.so.dlf.rt 1])

/-- One destination switched to the new table; the last one ends the reroute. -/
def switchDest (s : State) (d : Nat) : State :=
  match s.so.dlf.newRt with
  | none => s
  | some t =>
    let left := s.so.dlf.draining.filter (· != d)
    let s := { s with so.dlf.rt := s.so.dlf.rt.set d (t.getD d 0xF), so.dlf.draining := left }
    if left.isEmpty then dlfRerouteDone s else s

/-- A new table applied by destination (R251, R382): those with nothing outstanding switch at once. -/
def applyRoutes (s : State) (t : List Nat) : State × Nat :=
  let changed := (List.range 48).filter (fun d => t.getD d 0xF != s.so.dlf.rt.get d)
  if changed.isEmpty then (s, 0)
  else
    let wait := changed.filter (hasRemote s)
    let now := changed.filter (fun d => !hasRemote s d)
    let s := { s with so.dlf.newRt := some t, so.dlf.draining := wait,
                      so.dlf.rt := now.foldl (fun r d => r.set d (t.getD d 0xF)) s.so.dlf.rt }
    (if wait.isEmpty then dlfRerouteDone s else s, changed.length)

/-- The firmware recomputes the table after a port has changed. -/
def reroute (s : State) : State :=
  let r := computeTable s
  (applyRoutes r.1 r.2).1

/-! ### Remote requests (R31, R379) -/

/-- A destination whose reroute is draining holds new requests (R382). -/
def destHeld (s : State) (d : Nat) : Bool := s.so.dlf.draining.contains d

/-- A local master's request goes to device `n` (R379). -/
def remoteSend (s : State) (r : NetReq) (n off : Nat) : State :=
  let t := s.so.dlf.nextTag
  remotePacket { s with so.dlf.remotes := s.so.dlf.remotes ++ [{ tag := t, req := r, dst := n, sent := s.dt }] } r n off

/-- A remote request taken from those outstanding; a draining destination with none left switches (R382). -/
def remoteTake (s : State) (tag : Nat) : State :=
  let dst := (s.so.dlf.remotes.find? (fun r => r.tag == tag)).map (·.dst)
  let s := { s with so.dlf.remotes := s.so.dlf.remotes.filter (fun r => r.tag != tag) }
  match dst with
  | some d => if destHeld s d && !hasRemote s d then switchDest s d else s
  | none => s

/-- A remote request completes at its master. -/
def remoteDone (s : State) (r : Remote) (st : Half) (data : List Byte) : State :=
  let rd := r.req.op == 0
  netAnswer (remoteTake s r.tag) r.req st (if rd then slice data 0 r.req.len else []) (rd && st != stOk)

/-- REMOTE_TIMEOUT (R379). -/
def remoteTimeout (s : State) (tag : Nat) : State :=
  match s.so.dlf.remotes.find? (fun r => r.tag == tag) with
  | some r => remoteDone { s with so.dlf.rmtTmo := cnt s.so.dlf.rmtTmo 1 } r stNoRoute []
  | none => s

/-- The end of a destination's drain (R382): what is outstanding times out, and it switches. -/
def drainTimeout (s : State) (d : Nat) : State :=
  if destHeld s d then
    let l := s.so.dlf.remotes.filter (fun r => r.dst == d)
    let s := l.foldl (fun s r => remoteTimeout s r.tag) s
    if destHeld s d then switchDest s d else s
  else s

/-! ### Ports (R375, R377) -/

/-- A port goes DOWN with a cause (R396): its held traffic is lost, and the firmware recomputes the table (R382). -/
def portDown (s : State) (p cause : Nat) : State :=
  let s := s.modPort p (fun q => { q with state := 0, width := 0, downCnt := cnt q.downCnt 1, retry := [], replays := 0, nak := none })
  reroute (raiseEvent s 0x0701 p [cause])

/-- Lanes of the defect list for a port (R432). -/
def defectDlf (s : State) (p : Nat) : Nat :=
  maskOf 4 (fun l => s.bu.defects.any (fun e => field e.toNat 63 60 == 3 && field e.toNat 2 0 == p && field e.toNat 5 4 == l))

/-- Training ends (R375, R380). -/
def portTrained (s : State) (p : Nat) (t : DlfTrain) : State :=
  let q := s.so.ports.get p
  let good := Nat.land t.lanes.toNat (15 - (Nat.lor (defectDlf s p) q.bad.toNat))
  let w := if good = 15 then 2 else if good % 4 = 3 ∨ good / 4 = 3 then 1 else 0
  let wrong := decide (expectedPeer s p ≠ some t.peer.toNat)
  if q.state = 3 then s
  else
    let s := s.modPort p (fun q => { q with lanes := BitVec.ofNat 4 good, peer := t.peer, peerPort := t.peerPort, mismatch := s.so.dlf.valid && wrong })
    if w = 0 ∨ wrong then
      (if q.state = 0 then s.modPort p (fun q => { q with width := 0 }) else portDown s p 2)
    else
      let s := s.modPort p (fun q => { q with
        state := 2, width := w, replays := 0, rtyCnt := if q.retry.isEmpty then q.rtyCnt else cnt q.rtyCnt 1 })
      reroute (raiseEvent s 0x0700 p [w, t.peer.toNat])

/-- A lane stops carrying codewords (R375): the port retrains on the pair that is left, or goes DOWN. -/
def laneLoss (s : State) (p lane : Nat) : State :=
  let q := s.so.ports.get p
  if q.state = 2 ∧ bit q.lanes.toNat lane then
    let left := q.lanes.toNat - 2 ^ lane
    let s := s.modPort p (fun q => { q with lanes := BitVec.ofNat 4 left })
    if left % 4 = 3 ∨ left / 4 = 3 then s.modPort p (fun q => { q with state := 1 }) else portDown s p 2
  else s

/-- A second's codewords (R375). -/
def fecWindow (s : State) (p ce ue : Nat) : State :=
  let s := s.modPort p (fun q => { q with fecCe := cnt q.fecCe ce, fecUe := cnt q.fecUe ue, ueSec := ue })
  if 1000 ≤ ue ∧ portUp s p then portDown s p 1 else s

/-- A replay (R377): counted, and the sixteenth in a row without progress takes the port DOWN. -/
def replay (s : State) (p : Nat) : State :=
  let s := s.modPort p (fun q => { q with rtyCnt := cnt q.rtyCnt 1, replays := q.replays + 1 })
  if 16 ≤ (s.so.ports.get p).replays then portDown s p 0 else s

/-- Flits through a sequence number leave the retry buffer: progress (R377). -/
def ackThrough (q : DlfPort) (a : BitVec 12) : DlfPort :=
  if q.retry.any (fun x => x.1 == a) then
    { q with retry := (q.retry.dropWhile (fun x => x.1 != a)).drop 1, replays := 0 }
  else q

/-- A flit rejected at the receiver (R377): the NAK names the expected seq. -/
def flitReject (s : State) (p : Nat) : State := s.modPort p (fun q => { q with nak := some q.expect })

/-- A flit arrives (R376, R377); an injector of the inbound direction may act on it (R259). -/
def flitReceive (s : State) (p : Nat) (f : DlfFlit) : State :=
  if !portUp s p then s
  else
    let x := inject s 2 p 0 1
    let s := x.1
    match x.2 with
    | some .drop => s
    | _ =>
      let hurt := match x.2 with
        | some _ => true
        | none => false
      if !f.ok || hurt then flitReject s p
      else
        let s := s.modPort p (fun q => ackThrough { q with credits := q.credits.modify f.vc.toNat (· + f.credits.toNat) } f.ack)
        match f.kind.toNat with
        | 1 =>
          if f.seq = (s.so.ports.get p).expect then
            s.modPort p (fun q => { q with expect := q.expect + 1, rxFlits := q.rxFlits + 1, nak := none })
          else flitReject s p
        | 2 =>
          let s := s.modPort p (fun q => ackThrough q (f.seq - 1))
          if (s.so.ports.get p).retry.isEmpty then s else replay s p
        | _ => s

/-- No advance of ack for 2 µs (R377). -/
def ackTimeout (s : State) (p : Nat) : State :=
  if portUp s p ∧ (s.so.ports.get p).retry ≠ [] then replay s p else s

/-! ### Packets (R378, R379, R381) -/

/-- A packet for another device goes on by the table, or is discarded (R381). -/
def forward (s : State) (k : DlfPacket) : State :=
  let o := s.so.dlf.rt.get k.dst.toNat
  if 15 ≤ k.hops ∨ o = 0xF then s else dlfSend s o { k with hops := k.hops + 1 }

/-- A packet arrives for this device. -/
def forMe (s : State) (k : DlfPacket) : Bool := s.so.dlf.valid && k.dst.toNat == s.so.dlf.devnum

/-- The response packet of a request, by the port it came through. -/
def respond (s : State) (p : Nat) (k : DlfPacket) (st : Half) (data : List Byte) : State :=
  dlfSend s p { kind := k.kind + 1, src := k.dst, dst := k.src, label := k.label, hops := 0, tag := k.tag, status := st, addr := k.addr, len := k.len,
                master := k.master, data := data }

/-- A remote request as the arriving port issues it (R379). -/
def portRequest (p : Nat) (k : DlfPacket) : NetReq :=
  { src := BitVec.ofNat 8 (0x38 + p), label := k.label, tag := 0, op := if k.kind = 0 then 0 else 1, addr := k.addr, len := k.len,
    data := k.data, poison := false }

/-- RD_REQ. -/
def rdReq (s : State) (p : Nat) (k : DlfPacket) : State :=
  if !forMe s k then forward s k
  else
    let s := qosCharge s (portRequest p k)
    let a := k.addr.toNat
    if 4 * dieSpan < a + k.len then respond (decodeErrorEvent s (0x38 + p) a 0) p k stDecodeError (List.replicate k.len 0)
    else
      let r := readAt s (0x38 + p) a k.len
      respond r.1 p k r.2.1 r.2.2.1

/-! ### Accumulating writes (R383) -/

/-- The accumulation region that an address lies in. -/
def accRegionOf (s : State) (a len : Nat) : Option AccRegion :=
  ((List.range 8).map s.so.acc.get).find? (fun r => r.fmt != 0 && decide (r.base ≤ a ∧ a + len ≤ r.base + r.size * 65536))

/-- One element added (R91, R383). -/
def accAdd (fmt a b : Nat) : Nat :=
  match fmt with
  | 1 => fp32.rneCode ((fp32.decode a).add (fp32.decode b))
  | 2 => bf16.rneCode ((bf16.decode a).add (bf16.decode b))
  | _ => (a + b) % 2 ^ 32

/-- A WR_REQ into an accumulation region: status. -/
def accumulate (s : State) (src a : Nat) (fmt : Nat) (data : List Byte) : State × Half :=
  let w := if fmt = 2 then 2 else 4
  let len := data.length
  if a % w ≠ 0 ∨ len % w ≠ 0 then (decodeErrorEvent s src a 1, stDecodeError)
  else match refusal s true a len with
    | some st => (refused s src a 1 st, st)
    | none =>
      let r := dramRead s src a len
      let out := catMap (len / w) (fun i => leBytes w (accAdd fmt (fld r.2.1 (w * i) w) (fld data (w * i) w)))
      let x := dramWrite r.1 src a out r.2.2
      ({ x.1 with so.accAdds := (x.1.so.accAdds + len / w) % 2 ^ 64 }, if r.2.2 then stUncorrectable else x.2)

/-- A write of a region whose mirroring is ON is not complete until the partner has acknowledged it (R240). -/
def mirrorWaits (s : State) (addr len : Nat) : Bool :=
  match mirrorOf s 1 addr len with
  | some r => (s.fab.mir.regions.get r).on
  | none => false

/-- WR_REQ. -/
def wrReq (s : State) (p : Nat) (k : DlfPacket) : State :=
  if !forMe s k then forward s k
  else
    let s := qosCharge s (portRequest p k)
    let a := k.addr.toNat
    if 4 * dieSpan < a + k.len then respond (decodeErrorEvent s (0x38 + p) a 1) p k stDecodeError []
    else match accRegionOf s a k.len with
      | some g => let x := accumulate s (0x38 + p) a g.fmt (slice k.data 0 k.len); respond x.1 p k x.2 []
      | none =>
        let waits := mirrorWaits s a k.len && pathUsable s (0x38 + p) (nodeOf (target a))
        let x := writeFor (.deluf p k) 0 s (0x38 + p) k.label.toNat a (slice k.data 0 k.len) false
        if waits then x.1 else respond x.1 p k x.2 []

/-- RD_RSP and WR_RSP: a response reaches its master, or is passed on. -/
def remoteResponse (s : State) (k : DlfPacket) : State :=
  if !forMe s k then forward s k
  else match s.so.dlf.remotes.find? (fun r => r.tag == k.tag.toNat && r.dst == k.src.toNat && (r.req.op == 0) == (k.kind == 1)) with
    | some r => remoteDone s r k.status k.data
    | none => s

/-! ### Pair messages and mirror copies (R240, R241, R387–R393) -/

/-- A message to the pair partner over the torus: 1 PARTNER_FAILING, 2 HANDOVER, 3 STALE, 4 PROBE, 5 the answer to a probe. -/
def pairSend (s : State) (dst code : Nat) : State :=
  let o := s.so.dlf.rt.get dst
  if o = 0xF then s
  else dlfSend s o { kind := 11, src := BitVec.ofNat 8 s.so.dlf.devnum, dst := BitVec.ofNat 8 dst, label := 0, hops := 0, tag := 0, status := 0, addr := 0,
                     len := 1, master := 0x30, data := [BitVec.ofNat 8 code] }

/-- A mirrored write completes at whoever waits for it (R240). -/
def mirrorComplete (s : State) (c : MirCopy) : State :=
  let s := { s with fab.mir.pend := s.fab.mir.pend.filter (fun x => x.tag != c.tag) }
  match c.waiter with
  | .nobody => s
  | .network => netAnswer s c.req c.status [] false
  | .deluf p k => respond s p k c.status []

/-- A copy failed (R241, R393): the write completes with its local status, the region's mirroring goes OFF, and a PRIMARY sends STALE. -/
def mirrorFails (s : State) (c : MirCopy) : State :=
  let s := mirrorComplete { s with fab.mir.failCnt := cnt s.fab.mir.failCnt 1 } c
  if (s.fab.mir.regions.get c.region).on then
    let s := mirrorFault (s.modRegion c.region (fun r => { r with on := false })) c.region 1 c.req.addr.toNat
    if s.so.pair.role = 1 then pairSend s s.so.dlf.partner 3 else s
  else s

/-- MIRROR_ACK_TIMEOUT: copies of a region unacknowledged for 100 µs (R241). -/
def mirrorAckTimeout (s : State) (region : Nat) : State :=
  (s.fab.mir.pend.filter (fun c => c.region == region && decide (c.sentAt + 100000 ≤ s.dt))).foldl mirrorFails s

/-- MIR_ACK: the acknowledgement of a mirror copy, or of a chunk copied in a join. -/
def mirAck (s : State) (k : DlfPacket) : State :=
  match s.fab.mir.pend.find? (fun c => c.tag == k.tag.toNat) with
  | some c => if k.status = stOk then mirrorComplete s c else mirrorFails s c
  | none => { s with so.pair.unacked := s.so.pair.unacked.filter (fun u => u.1 != k.tag.toNat) }

/-- The region of type TARGET that holds a whole range. -/
def targetRegion (s : State) (a len : Nat) : Option Nat :=
  (List.range 8).find? (fun i =>
    let r := s.fab.mir.regions.get i
    r.type == 2 && decide (r.range.1 ≤ a ∧ a + len ≤ r.range.2))

/-- An answer to the partner on a mirror port. -/
def mirrorAnswer (s : State) (k : DlfPacket) (kind : Byte) (st : Half) (data : List Byte) : State :=
  dlfSend s (mirrorPort s k.addr.toNat) { kind := kind, src := k.dst, dst := k.src, label := k.label, hops := 0, tag := k.tag, status := st, addr := k.addr,
                                          len := data.length, master := k.master, data := data }

/-- A partner's write into a TARGET region: status (R241). -/
def partnerWrite (s : State) (k : DlfPacket) : State × Half :=
  let a := k.addr.toNat
  match targetRegion s a k.len with
  | none => (s, stDecodeError)
  | some _ =>
    match refusal s false a k.len with
    | some st => (refused s k.master.toNat a 1 st, st)
    | none => dramWrite s k.master.toNat a (slice k.data 0 k.len) false

/-- MIR_WR. -/
def mirWr (s : State) (k : DlfPacket) : State :=
  let x := partnerWrite s k
  mirrorAnswer x.1 k 5 x.2 []

/-- COPY (R391): only a joiner takes it. -/
def copyChunk (s : State) (k : DlfPacket) : State :=
  if s.so.pair.role = 3 then
    let x := partnerWrite { s with so.pair.join := true } k
    mirrorAnswer { x.1 with so.pair.joinPos := if x.2 = stOk then x.1.so.pair.joinPos + k.len else x.1.so.pair.joinPos } k 5 x.2 []
  else s

/-- The chunk size of a join in bytes (R391). -/
def chunkBytes : Nat := 4096

/-- A chunk's bytes as the pair's firmware reads them. -/
def chunkRead (s : State) (a : Nat) : State × List Byte := let r := dramRead s 0x30 a chunkBytes; (r.1, r.2.1)

/-- The number of chunks of a region. -/
def chunksIn (r : MirRegion) : Nat := r.size * 0x4000000 / chunkBytes

/-- The signature of a verified region: CRC-32C of its chunk CRCs in ascending order (R392). -/
def regionSig (l : List (Nat × Word)) (n : Nat) : Nat := (crc32c (catMap n (fun i => leBytes 4 (assocGet 0 l i).toNat))).toNat

/-- A chunk of region `n` has matched (R392): the region is VERIFIED with its last one. -/
def chunkMatched (s : State) (n chunk : Nat) (crc : Word) : State :=
  let p := s.so.pair
  let m := assocSet chunk crc p.matched
  let r := s.fab.mir.regions.get n
  if m.length = chunksIn r then
    { s.modRegion n (fun r => { r with diverged := false }) with
      so.pair := { p with matched := [], mism := 0, verified := Nat.lor p.verified (2 ^ n), sigs := p.sigs.set n (regionSig m (chunksIn r)) } }
  else { s with so.pair := { p with matched := m } }

/-- The regions of a type. -/
def regionsOf (s : State) (type : Nat) : List Nat := (List.range 8).filter (fun i => (s.fab.mir.regions.get i).type == type)

/-- Every region of a type is VERIFIED. -/
def allVerified (s : State) (type : Nat) : Bool := (regionsOf s type).all (fun i => bit s.so.pair.verified i)

/-- PAIR_JOIN_DONE. -/
def joinDone (s : State) : State :=
  let p := s.so.pair
  raiseEvent { s with so.pair := { p with join := false, verify := false } } 0x0721 s.so.dlf.partner [p.joinPos, p.joinMism]

/-- A mismatch of a chunk in region `n`: the sixteenth fails the join (R392). -/
def chunkMismatch (s : State) (n chunk : Nat) : State × Bool :=
  let p := s.so.pair
  let s := { s with so.pair := { p with mism := p.mism + 1, joinMism := cnt p.joinMism 1, todo := p.todo ++ [chunk],
                                        matched := p.matched.filter (fun x => x.1 != chunk) } }
  if 16 ≤ p.mism + 1 then
    (raiseEvent { s with so.pair := { s.so.pair with join := false, verify := false, todo := [] } } 0x0722 n [p.mism + 1], true)
  else (s, false)

/-- CHUNK_CRC (R392): at a joiner the comparison and its answer; at the primary the joiner's answer. -/
def chunkCrc (s : State) (k : DlfPacket) : State :=
  let a := k.addr.toNat
  if s.so.pair.role = 3 then
    match targetRegion s a chunkBytes with
    | none => s
    | some n =>
      let chunk := (a - (s.fab.mir.regions.get n).base) / chunkBytes
      let r := chunkRead s a
      let crc := crc32c r.2
      if crc.toNat = fld k.data 0 4 then
        let s := mirrorAnswer (chunkMatched r.1 n chunk crc) k 7 stOk (leBytes 4 crc.toNat)
        if allVerified s 2 then joinDone { s with so.pair.role := 2 } else s
      else
        let x := chunkMismatch r.1 n chunk
        let s := mirrorAnswer { x.1 with so.pair.todo := [] } k 7 stRetry []
        if x.2 then { s with so.pair.role := 4 } else s
  else if s.so.pair.role = 1 ∧ s.so.pair.join then
    let n := s.so.pair.joinRegion
    let chunk := (a - (s.fab.mir.regions.get n).base) / chunkBytes
    if k.status = stOk then
      let s := chunkMatched s n chunk (BitVec.ofNat 32 (fld k.data 0 4))
      if !bit s.so.pair.verified n then s
      else match (regionsOf s 1).find? (fun i => decide (n < i)) with
        | some m => { s with so.pair := { s.so.pair with joinRegion := m, joinOff := 0, verify := false } }
        | none => joinDone s
    else
      let x := chunkMismatch s n chunk
      if x.2 then pairSend x.1 s.so.dlf.partner 3 else x.1
  else s

/-- The COPY packets of a chunk; each is unacknowledged until its MIR_ACK. -/
def sendChunk (s : State) (a : Nat) : State :=
  let r := chunkRead s a
  (List.range 16).foldl (fun s i =>
    let m := s.fab.mir
    let s := { s with fab.mir.nextTag := (m.nextTag + 1) % 65536, so.pair.unacked := s.so.pair.unacked ++ [(m.nextTag, a)] }
    dlfSend s (mirrorPort s (a + 256 * i)) { kind := 6, src := BitVec.ofNat 8 s.so.dlf.devnum, dst := BitVec.ofNat 8 s.so.dlf.partner, label := 0,
                                             hops := 0, tag := BitVec.ofNat 16 m.nextTag, status := 0, addr := BitVec.ofNat 48 (a + 256 * i), len := 256,
                                             master := 0x30, data := slice r.2 (256 * i) 256 }) r.1

/-- The CHUNK_CRC packet of a chunk. -/
def sendCrc (s : State) (a : Nat) : State :=
  let r := chunkRead s a
  dlfSend r.1 (mirrorPort s a) { kind := 7, src := BitVec.ofNat 8 s.so.dlf.devnum, dst := BitVec.ofNat 8 s.so.dlf.partner, label := 0, hops := 0, tag := 0,
                                 status := 0, addr := BitVec.ofNat 48 a, len := 4, master := 0x30, data := leBytes 4 (crc32c r.2).toNat }

/-- JOIN_CHUNK_COPY (R391, R392): the next chunk is copied at no more than the commanded rate, or verified. -/
def joinChunk (s : State) : State :=
  let p := s.so.pair
  if p.role ≠ 1 ∨ !p.join then s
  else
    let r := s.fab.mir.regions.get p.joinRegion
    match p.todo with
    | c :: l => sendCrc (sendChunk { s with so.pair.todo := l } (r.base + c * chunkBytes)) (r.base + c * chunkBytes)
    | [] =>
      let a := r.base + p.joinOff
      let off := p.joinOff + chunkBytes
      let last := decide (r.size * 0x4000000 ≤ off)
      if p.verify then
        (if r.size * 0x4000000 ≤ p.joinOff then s else sendCrc { s with so.pair.joinOff := off } a)
      else if p.rate * (s.dt - p.joinFrom) < (p.joinPos + chunkBytes) * 1000 then s
      else
        sendChunk { s with so.pair := { p with joinPos := p.joinPos + chunkBytes, joinOff := if last then 0 else off, verify := last } } a

/-- A write to a chunk that a join has copied and the joiner not acknowledged waits (R391). -/
def chunkHeld (s : State) (addr : Nat) : Bool := s.so.pair.unacked.any (fun u => u.2 == addr / chunkBytes * chunkBytes)

/-- A STANDBY takes over (R389). -/
def takeover (s : State) (byHandover : Bool) : State :=
  let old := s.so.pair.role
  let s := (regionsOf s 2).foldl (fun s i => s.modRegion i (fun r => { r with type := 1, on := false })) s
  let s := { s with so.pair := { s.so.pair with role := 1, switchDt := s.dt, switches := min (s.so.pair.switches + 1) 255, probe := none } }
  raiseEvent s 0x0720 old [b2n byHandover, s.dt]

/-- A JOINING or STALE device loses its primary (R389): its regions become INVALID and their contents undefined. -/
def pairLost (s : State) : State :=
  let p := s.so.pair
  let rs := regionsOf s 2
  let s := raiseEvent s 0x0723 s.so.dlf.partner [p.role, p.joinPos]
  let s := rs.foldl (fun s i =>
    let r := s.fab.mir.regions.get i
    { s.took with fab.lost := carve s.fab.lost r.range.1 r.range.2 ++ [(r.range.1, r.range.2, s.free)] }) s
  { s with so.pair := { s.so.pair with role := 0, join := false, verify := false, verified := 0, probe := none,
                                       invalid := rs.foldl (fun m i => Nat.lor m (2 ^ i)) s.so.pair.invalid } }

/-- The partner is declared failed (R388, R389, R393). -/
def partnerFailed (s : State) (byHandover : Bool) : State :=
  match s.so.pair.role with
  | 2 => takeover s byHandover
  | 3 => pairLost s
  | 4 => pairLost s
  | _ => s

/-- STALE received (R393). -/
def staleReceive (s : State) : State :=
  if s.so.pair.role = 2 ∨ s.so.pair.role = 3 then { s with so.pair := { s.so.pair with role := 4, join := false, verify := false } } else s

/-- PROBE received over the torus: it is answered (R388). -/
def probeReceive (s : State) (src : Nat) : State := pairSend s src 5

/-- The probe is answered: no takeover (R388). -/
def probeAnswered (s : State) : State :=
  if s.so.pair.probe.isSome then raiseEvent { s with so.pair.probe := none } 0x0724 s.so.dlf.partner [] else s

/-- A heartbeat on DL4 or DL5 (R387). -/
def heartbeatReceive (s : State) (m : HeartbeatMsg) : State :=
  if portUp s (4 + m.port) then
    { s with so.pair := { s.so.pair with hbRx := s.so.pair.hbRx.set (4 + m.port) (some s.dt), peerRole := m.role.toNat, peerState := m.state.toNat } }
  else s

/-- A heartbeat was received on a port within hb_timeout. -/
def hbFresh (s : State) (p : Nat) : Bool :=
  match s.so.pair.hbRx.get p with
  | some t => decide (s.dt < t + s.so.pair.hbTimeout * 1000)
  | none => false

/-- Every 10 µs a heartbeat goes out on the mirror ports that are UP (R387). -/
def heartbeatSend (s : State) : State :=
  let due : Bool := match s.so.pair.lastSend with
    | some t => decide (t + 10000 ≤ s.dt)
    | none => true
  if due && s.so.dlf.valid && decide (s.so.dlf.partner < 48) then
    [4, 5].foldl (fun s p => if portUp s p then { s with so.dlf.msgs := s.so.dlf.msgs ++ [(p, 3, s.dt)] } else s)
      { s with so.pair.lastSend := some s.dt }
  else s

/-- No heartbeat for hb_timeout at a STANDBY, JOINING or STALE device sends a PROBE (R388, R393). -/
def heartbeatTimeout (s : State) : State :=
  if 2 ≤ s.so.pair.role ∧ s.so.pair.probe = none ∧ !hbFresh s 4 ∧ !hbFresh s 5 then
    pairSend { s with so.pair.probe := some s.dt } s.so.dlf.partner 4
  else s

/-- A probe unanswered for 50 µs (R388). -/
def probeTimeout (s : State) : State :=
  match s.so.pair.probe with
  | some t => if t + 50000 ≤ s.dt then partnerFailed { s with so.pair.probe := none } false else s
  | none => s

/-- HANDOVER_READY (R390): launches complete and no copy pending, the primary hands over and the command completes. -/
def handoverReady (s : State) : State :=
  match s.so.pair.handover with
  | some (ch, r) =>
    if s.cal.made.isEmpty ∧ s.fab.mir.pend.isEmpty then
      let s := pairSend s s.so.dlf.partner 2
      let s := (regionsOf s 1).foldl (fun s i => s.modRegion i (fun r => { r with type := 2, on := false })) s
      finishCmd { s with so.pair := { s.so.pair with role := 2, handover := none } } ch 0x0732 r (reply stOk 0 (leBytes 8 s.dt))
    else s
  | none => s

/-- DELUF_TIME_MESSAGE (R210): the time master, which follows another source, sends its DT to every reachable device. -/
def delufTime (s : State) : State :=
  if s.so.dlf.valid ∧ s.time.src ≠ 3 ∧ s.time.delufMaster = s.so.dlf.devnum then
    { s with so.dlf.msgs := s.so.dlf.msgs ++
        ((List.range 48).filter (fun d => d != s.so.dlf.devnum && s.so.dlf.rt.get d != 0xF)).map (fun d => (d, 4, s.dt)) }
  else s

/-! ### Barriers (R384, R385) -/

/-- A packet to a device by the table; none to the device itself. -/
def torusSend (s : State) (dst : Nat) (kind : Byte) (data : List Byte) : State :=
  let o := s.so.dlf.rt.get dst
  if dst = s.so.dlf.devnum ∨ o = 0xF then s
  else dlfSend s o { kind := kind, src := BitVec.ofNat 8 s.so.dlf.devnum, dst := BitVec.ofNat 8 dst, label := 0, hops := 0, tag := 0, status := 0, addr := 0,
                     len := data.length, master := 0x30, data := data }

/-- This device is the barrier root. -/
def isRoot (s : State) : Bool := s.so.dlf.valid && s.so.dlf.barRoot == s.so.dlf.devnum

/-- One group changed. -/
def State.modBar (s : State) (g : Nat) (f : BarGroup → BarGroup) : State := { s with so.bars := s.so.bars.modify g f }

/-- Marks in a history. -/
def popcount16 (h : Half) : Nat := (bitsOf h.toNat 16).length

/-- SUSPECT set or cleared at this device (R385). -/
def suspectHere (s : State) (dev : Nat) (set : Bool) (marks : Nat) : State :=
  let m := s.so.dlf.suspect.toNat
  let v := if set then Nat.lor m (2 ^ dev) else m - (if bit m dev then 2 ^ dev else 0)
  raiseEvent { s with so.dlf.suspect := BitVec.ofNat 64 v } (if set then 0x0710 else 0x0711) dev [marks]

/-- SUSPECT sent to every device (R385). -/
def suspectAll (s : State) (dev : Nat) (set : Bool) (marks : Nat) : State :=
  let s := (List.range 48).foldl (fun s d => torusSend s d 10 [BitVec.ofNat 8 dev, BitVec.ofNat 8 (b2n set), BitVec.ofNat 8 marks]) s
  suspectHere s dev set marks

/-- The root's history of a member after a completion (R385). -/
def lateMark (s : State) (dev : Nat) (mark : Bool) : State :=
  let h := (s.so.late.get dev).history <<< 1 ||| (if mark then 1 else 0)
  let n := popcount16 h
  let s := { s with so.late := s.so.late.set dev { history := h, marks := n } }
  let was := bit s.so.dlf.suspect.toNat dev
  if 6 ≤ n ∧ !was then suspectAll s dev true n else if was ∧ n ≤ 2 then suspectAll s dev false n else s

/-- BAR_RELEASE at a member (R384). -/
def barRelease (s : State) (g : Nat) : State :=
  let b := s.so.bars.get g
  if b.defined then
    let s := (bitsOf b.tmask 32).foldl (fun s l => (postLogical s 0x30 l b.ctr 1).1) s
    s.modBar g (fun b => { b with epoch := (b.epoch + 1) % 2 ^ 32, arrived := b.arrived - b.local_ })
  else s

/-- The root completes a barrier whose members have all arrived (R384, R385). Where the root is a member and its local arrivals beyond L
make it arrive at the next epoch already, that arrival is recorded, `n` times at most. -/
def barComplete (n : Nat) (s : State) (g : Nat) : State :=
  let b := s.so.bars.get g
  let mem := bitsOf b.members 48
  let got := b.root.map (·.1)
  if mem.isEmpty || !(mem.all (fun m => got.contains m)) then s
  else
    let arr := b.root.filter (fun a => mem.contains a.1)
    let late : Option Nat := match arr.reverse with
      | (d, t1) :: (_, t0) :: _ => if b.margin * 1000 < t1 - t0 then some d else none
      | _ => none
    let s := s.modBar g (fun b => { b with root := [], stalled := false })
    let s := mem.foldl (fun s d => lateMark s d (late == some d)) s
    let s := mem.foldl (fun s d => torusSend s d 9 [BitVec.ofNat 8 g]) s
    if mem.contains s.so.dlf.devnum then
      let s := barRelease s g
      match n with
      | 0 => s
      | n + 1 =>
        if b.local_ ≤ b.arrived - b.local_ then barComplete n (s.modBar g (fun b => { b with root := [(s.so.dlf.devnum, s.dt)] })) g else s
    else s.modBar g (fun b => { b with epoch := (b.epoch + 1) % 2 ^ 32 })

/-- BAR_ARRIVE at the root (R384). -/
def barArrive (s : State) (g dev : Nat) : State :=
  let b := s.so.bars.get g
  if isRoot s && b.defined && bit b.members dev && !(b.root.any (fun a => a.1 == dev)) then
    barComplete b.arrived (s.modBar g (fun b => { b with root := b.root ++ [(dev, s.dt)] })) g
  else s

/-- This device has arrived: it tells the root. -/
def barSend (s : State) (g : Nat) : State :=
  if isRoot s then barArrive s g s.so.dlf.devnum else torusSend s s.so.dlf.barRoot 8 [BitVec.ofNat 8 g]

/-- DLF_BAR_ARRIVE: a local arrival (R384). -/
def localArrive (s : State) (g : Nat) : State :=
  let b := s.so.bars.get g
  if b.defined then
    let s := s.modBar g (fun b => { b with arrived := b.arrived + 1 })
    if b.arrived + 1 = b.local_ then barSend s g else s
  else s

/-- BAR_RELEASE received: arrivals beyond L count towards the next epoch, which may be complete already (R384). -/
def barReleased (s : State) (g : Nat) : State :=
  let s := barRelease s g
  let b := s.so.bars.get g
  if b.defined ∧ b.local_ ≤ b.arrived then barSend s g else s

/-- Members of a group that have not arrived at the root. -/
def barMissing (b : BarGroup) : Nat := maskOf 48 (fun d => bit b.members d && !(b.root.any (fun a => a.1 == d)))

/-- BARRIER_STALL: 100 ms after the first arrival without completion, once per epoch (R384). -/
def barStall (s : State) (g : Nat) : State :=
  let b := s.so.bars.get g
  match b.root with
  | (_, t) :: _ =>
    if isRoot s ∧ !b.stalled ∧ t + 100000000 ≤ s.dt then raiseEvent (s.modBar g (fun b => { b with stalled := true })) 0x0712 g [b.epoch, barMissing b]
    else s
  | [] => s

/-! ### Registers (R394) -/

/-- DLF_TOPO and DLF_XCFG. -/
def dlfTopo (d : Dlf) : Nat := pack [(6, d.devnum), (1, b2n d.valid), (5, 0), (3, d.xM1), (3, d.yM1), (6, d.partner), (6, d.barRoot)]
def dlfXcfg (d : Dlf) : Nat := pack [(8, 0), (6, d.dl6.2), (2, d.dl6.1), (8, 0), (6, d.dl7.2), (2, d.dl7.1)]

/-- DLF_p_STAT. -/
def dlfStat (p : DlfPort) : Nat :=
  pack [(14, 0), (1, b2n p.mismatch), (3, p.peerPort.toNat), (6, p.peer.toNat), (4, p.lanes.toNat), (2, p.width), (2, p.state)]

/-- Pages 0x80 to 0x83 of unit 0x00. -/
def pageDlf (s : State) : List Reg :=
  let d := s.so.dlf
  [r4 0 (dlfTopo d), r4 4 0, r8 8 d.suspect.toNat, r8 0x10 d.reach.toNat, r8 0x18 (rtWord d.rt 0), r8 0x20 (rtWord d.rt 1), r8 0x28 (rtWord d.rt 2),
   r4 0x30 d.rrCnt, r4 0x34 d.rmtTmo, r4 0x38 (dlfXcfg d)]
def pageDlfPorts (s : State) : List Reg :=
  regsFor 8 (fun n =>
    let p := s.so.ports.get n
    let b := 0x40 * n
    [r4 b (dlfStat p), r4 (b + 4) p.rtyCnt, r4 (b + 8) p.fecCe, r4 (b + 0xC) p.fecUe, r8 (b + 0x10) p.txFlits, r8 (b + 0x18) p.rxFlits,
     r4 (b + 0x20) p.downCnt])
def pairStat (s : State) : Nat :=
  let p := s.so.pair
  pack [(8, p.switches), (8, p.verified), (9, 0), (1, b2n p.verify), (1, b2n p.join), (1, b2n (hbFresh s 5)), (1, b2n (hbFresh s 4)), (3, p.role)]
def pagePair (s : State) : List Reg :=
  let p := s.so.pair
  [r4 0 (pairStat s), r4 4 (pack [(6, s.so.dlf.partner), (10, 0), (16, p.hbTimeout)]), r8 8 p.joinPos, r4 0x10 p.joinMism, r8 0x18 p.switchDt] ++
  regsFor 8 (fun n => let a := s.so.acc.get n; [r8 (0x20 + 8 * n) (pack [(16, 0), (32, a.base / 65536), (14, a.size), (2, a.fmt)])]) ++ [r8 0x60 s.so.accAdds]
def pageBar (s : State) : List Reg :=
  [r4 0 0] ++ regsFor 16 (fun g =>
    let b := s.so.bars.get g
    [r8 (0x40 + 0x10 * g) (pack [(7, b.arrived), (25, 0), (32, b.epoch)]), r8 (0x48 + 0x10 * g) b.members]) ++
  regsFor 48 (fun n => let l := s.so.late.get n; [r4 (0x200 + 4 * n) (pack [(16, l.history.toNat), (5, l.marks)])])

/-- DLF_CTRL.cnt_clr. -/
def dlfCntClr (s : State) : State :=
  { s with
    so.dlf.rrCnt := 0, so.dlf.rmtTmo := 0, so.accAdds := 0, so.pair.joinMism := 0,
    so.ports := s.so.ports.map (fun p => { p with rtyCnt := 0, fecCe := 0, fecUe := 0, txFlits := 0, rxFlits := 0, downCnt := 0 }) }

/-! ### Commands (R395) -/

/-- A partner number: 0–47 or 0x3F, the nearest legal value (R295). -/
def clampPartner (v : Nat) : Nat := if v ≤ 47 then v else if v < 56 then 47 else 0x3F

/-- DLF_TOPOLOGY. -/
def cmdTopology (s : State) (c : Cmd) : State × Reply :=
  let f := clampFields c.pay 9 [fr 0 1 0 47, fr 1 1 1 8, fr 2 1 1 6, fr 4 1 0 47, fr 5 1 0 2, fr 6 1 0 63, fr 7 1 0 2, fr 8 1 0 63]
  let pt := clampPartner (fld f.1 3 1)
  let n := f.2 + b2n (pt != fld f.1 3 1)
  let a := putBytes f.1 3 (leBytes 1 pt)
  let x := fld a 1 1
  let y := fld a 2 1
  if s.so.pair.role ≠ 0 then (s, reply stBusy n [])
  else if x * y ≤ fld a 0 1 ∨ x * y < 2 then (s, reply stBadField n [])
  else
    let s := { s with so.dlf := { s.so.dlf with
      valid := true, devnum := fld a 0 1, xM1 := x - 1, yM1 := y - 1, partner := pt, barRoot := fld a 4 1, dl6 := (fld a 5 1, fld a 6 1),
      dl7 := (fld a 7 1, fld a 8 1), newRt := none, draining := [] } }
    let t := computeTable s
    let s := setReach { t.1 with so.dlf.rt := { dflt := 0xF, cells := (List.range 48).map (fun d => (d, t.2.getD d 0xF)) } }
    (qosRecompute s, reply stOk n a)

/-- Disabling a port would leave a destination in use without a route. -/
def lastPort (s : State) (p : Nat) : Bool :=
  let t := s.modPort p (fun q => { q with state := 3 })
  (List.range 48).any (fun d => s.so.dlf.rt.get d == p && (routeFor t d).2 == 0xF)

/-- DLF_PORT_CONTROL. -/
def cmdPortControl (s : State) (c : Cmd) : State × Reply :=
  let f := clampFields c.pay 2 [fr 0 1 0 7, fr 1 1 0 2]
  let p := fld f.1 0 1
  let q := s.so.ports.get p
  let done := fun (s : State) => (s, reply stOk f.2 (leBytes 4 (dlfStat (s.so.ports.get p))))
  match fld f.1 1 1 with
  | 0 => done (if q.state = 3 then s else s.modPort p (fun q => { q with state := 1 }))
  | 1 =>
    if q.state = 3 then done s
    else if lastPort s p then (s, reply stBusy f.2 (leBytes 4 (dlfStat q)))
    else
      let s := s.modPort p (fun q => { q with state := 3, width := 0, retry := [], replays := 0 })
      done (reroute (if q.state = 2 then raiseEvent s 0x0701 p [3] else s))
  | _ => done (if q.state = 3 then s.modPort p (fun q => { q with state := 1 }) else s)

/-- DLF_ROUTE. -/
def cmdDlfRoute (s : State) (c : Cmd) : State × Reply :=
  let b := slice c.pay 0 24
  let t := (List.range 48).map (fun d => field (leNat b) (4 * d + 3) (4 * d))
  if !s.so.dlf.draining.isEmpty then (s, reply stBusy 0 [])
  else if t.any (fun p => p != 0xF && !portUp s p) then (s, reply stNoRoute 0 [])
  else
    let r := applyRoutes s t
    (r.1, reply stOk 0 (leBytes 4 r.2))

/-- DLF_QUERY. -/
def cmdDlfQuery (s : State) (_ : Cmd) : State × Reply :=
  let b := regBytes (pageDlf s) ++ regBytes (pageDlfPorts s)
  (s, { status := stOk, clamps := 0, data := b, bulk := b })

/-- ACCUM_CONFIG. -/
def cmdAccum (s : State) (c : Cmd) : State × Reply :=
  let f := clampFields c.pay 16 [fr 0 1 0 7, fr 1 1 0 3, fr 2 2 1 16383, fz 4 4, fm 8 8 0 (2 ^ 64 - 1) 65536]
  let n := fld f.1 0 1
  let fmt := fld f.1 1 1
  let size := fld f.1 2 2
  let base := fld f.1 8 8
  let stop := base + size * 65536
  let meets := fun (b e : Nat) => decide (base < e ∧ b < stop)
  let clash := (List.range 8).any (fun i =>
    let a := s.so.acc.get i
    let r := s.fab.mir.regions.get i
    (i != n && a.fmt != 0 && meets a.base (a.base + a.size * 65536)) || (r.type != 0 && meets r.range.1 r.range.2))
  if fmt = 0 then ({ s with so.acc := s.so.acc.set n { fmt := 0, size := 0, base := 0 } }, reply stOk f.2 f.1)
  else if ¬ (stop ≤ 4 * dieSpan ∧ base / dieSpan = (stop - 1) / dieSpan) then (s, reply stDecodeError f.2 [])
  else if clash then (s, reply stNoResource f.2 [])
  else ({ s with so.acc := s.so.acc.set n { fmt := fmt, size := size, base := base } }, reply stOk f.2 f.1)

/-- BARRIER_CONFIG. On the root, a barrier whose remaining members have all arrived is released. -/
def cmdBarrierConfig (s : State) (c : Cmd) : State × Reply :=
  let f := clampFields c.pay 20 [fr 0 1 0 15, fr 1 1 1 64, fr 2 1 0 15, fz 3 1, fz 14 2, fr 16 4 1 100000]
  let g := fld f.1 0 1
  let s := s.modBar g (fun b => { b with
    defined := true, local_ := fld f.1 1 1, ctr := fld f.1 2 1, tmask := fld f.1 4 4, members := fld f.1 8 8, margin := fld f.1 16 4 })
  let s := if isRoot s then barComplete (s.so.bars.get g).arrived s g else s
  (s, reply stOk f.2 (f.1 ++ leBytes 4 (s.so.bars.get g).epoch))

/-- BARRIER_QUERY. -/
def cmdBarrierQuery (s : State) (c : Cmd) : State × Reply :=
  let f := clampFields c.pay 1 [fr 0 1 0 15]
  let b := s.so.bars.get (fld f.1 0 1)
  if b.defined then
    (s, reply stOk f.2 (leBytes 4 b.epoch ++ leBytes 4 b.arrived ++ leBytes 8 (maskOf 48 (fun d => b.root.any (fun a => a.1 == d)))))
  else (s, reply stNotDefined f.2 [])

/-- SUSPECT_CLEAR. -/
def cmdSuspectClear (s : State) (c : Cmd) : State × Reply :=
  let f := clampFields c.pay 1 [fr 0 1 0 47]
  let d := fld f.1 0 1
  if !isRoot s then (s, reply stBusy f.2 [])
  else
    let s := suspectAll { s with so.late := s.so.late.set d { history := 0, marks := 0 } } d false 0
    (s, reply stOk f.2 (leBytes 8 s.so.dlf.suspect.toNat))

/-- PAIR_CONFIG. Of the roles a host may set, 2 is nearest to 1 and to 3: the lower is taken. -/
def cmdPairConfig (s : State) (c : Cmd) : State × Reply :=
  let f := clampFields c.pay 8 [fr 0 1 0 3, fz 1 3, fr 4 4 100 10000]
  let r0 := fld f.1 0 1
  let role := if r0 = 2 then 1 else r0
  let a := putBytes f.1 0 (leBytes 1 role)
  let n := f.2 + b2n (r0 == 2)
  if s.so.pair.role = 2 ∨ s.so.pair.join then (s, reply stBusy n [])
  else
    ({ s with so.pair := { s.so.pair with role := role, hbTimeout := fld a 4 4, probe := none, matched := [], mism := 0,
                                          verified := if role = 3 then 0 else s.so.pair.verified,
                                          joinPos := if role = 3 then 0 else s.so.pair.joinPos,
                                          joinMism := if role = 3 then 0 else s.so.pair.joinMism } }, reply stOk n a)

/-- Bytes of the regions of a type. -/
def regionBytes (s : State) (type : Nat) : Nat := ((regionsOf s type).map (fun i => (s.fab.mir.regions.get i).size * 0x4000000)).sum

/-- PAIR_JOIN (R391). -/
def cmdPairJoin (s : State) (c : Cmd) : State × Reply :=
  let f := clampFields c.pay 4 [fr 0 4 1000 100000]
  if s.so.pair.role ≠ 1 ∨ s.so.pair.join then (s, reply stBusy f.2 [])
  else match (if s.so.pair.peerRole = 3 then regionsOf s 1 else []) with
    | [] => (s, reply stNotDefined f.2 [])
    | n :: l =>
      let s := (n :: l).foldl (fun s i => s.modRegion i (fun r => { r with on := true })) s
      let s := { s with so.pair := { s.so.pair with
        join := true, verify := false, verified := 0, joinPos := 0, joinMism := 0, joinRegion := n, joinOff := 0, todo := [], matched := [],
        mism := 0, unacked := [], rate := fld f.1 0 4, joinFrom := s.dt } }
      (s, reply stOk f.2 (leBytes 8 (regionBytes s 1)))

/-- PAIR_SWITCHOVER (R390): it completes at the handover. -/
def cmdSwitchover (r : Request) (s : State) (c : Cmd) : State × Option Reply :=
  if s.so.pair.role ≠ 1 ∨ s.so.pair.peerRole ≠ 2 ∨ s.so.pair.handover.isSome then (s, some (reply stBusy 0 []))
  else ({ s with so.pair.handover := some (c.ch, r) }, none)

/-- The state of a mirror region as PAIR_QUERY gives it: 0 none, 1 defined, 2 mirroring ON, 3 VERIFIED, 4 INVALID. -/
def regionState (s : State) (i : Nat) : Nat :=
  let r := s.fab.mir.regions.get i
  if r.type = 0 then 0 else if bit s.so.pair.invalid i then 4 else if bit s.so.pair.verified i then 3 else if r.on then 2 else 1

/-- PAIR_QUERY. -/
def cmdPairQuery (s : State) (_ : Cmd) : State × Reply :=
  (s, reply stOk 0 (regBytes (pagePair s) ++ catMap 8 (fun i => leBytes 4 (regionState s i) ++ leBytes 4 (s.so.pair.sigs.get i))))

/-- Capabilities 0x0009 and 0x000A (R397). -/
def capDeluf : Nat := pack [(8, 8), (4, 3), (4, 8), (8, 16), (8, 48)]
def capMirror : Nat := pack [(8, 8), (8, 4), (8, 8)]

/-! ### One meaning per command -/

def execMirrorAckTimeout (r : Fin 8) (now : Nat) (s : State) : Out := .next (mirrorAckTimeout (s.advance now) r)
def execDlfPortTrainDone (p : Fin 8) (t : DlfTrain) (s : State) : Out := .next (portTrained s p t)
def execDlfLaneLoss (p : Fin 8) (l : Fin 4) (s : State) : Out := .next (laneLoss s p l)
def execDlfFecRateWindow (p : Fin 8) (ce ue : Nat) (s : State) : Out := .next (fecWindow s p ce ue)
def execDlfFlitReceive (p : Fin 8) (f : DlfFlit) (s : State) : Out := .next (flitReceive s p f)
def execDlfAckTimeout (p : Fin 8) (s : State) : Out := .next (ackTimeout s p)
def execRdReq (p : Fin 8) (k : DlfPacket) (s : State) : Out := .next (rdReq s p { k with kind := 0 })
def execRdRsp (_p : Fin 8) (k : DlfPacket) (s : State) : Out := .next (remoteResponse s { k with kind := 1 })
def execWrReq (p : Fin 8) (k : DlfPacket) (s : State) : Out := .next (wrReq s p { k with kind := 2 })
def execWrRsp (_p : Fin 8) (k : DlfPacket) (s : State) : Out := .next (remoteResponse s { k with kind := 3 })
def execMirWr (k : DlfPacket) (s : State) : Out := .next (mirWr s k)
def execMirAck (k : DlfPacket) (s : State) : Out := .next (mirAck s k)
def execCopy (k : DlfPacket) (s : State) : Out := .next (copyChunk s k)
def execChunkCrc (k : DlfPacket) (s : State) : Out := .next (chunkCrc s k)
def execBarArrive (g : Fin 16) (d : Fin 48) (now : Nat) (s : State) : Out := .next (barArrive (s.advance now) g d)
def execBarRelease (g : Fin 16) (s : State) : Out := .next (barReleased s g)
def execSuspect (d : Fin 48) (set : Bool) (marks : Nat) (s : State) : Out := .next (suspectHere s d set marks)
def execPartnerFailing (now : Nat) (s : State) : Out := .next (partnerFailed (s.advance now) false)
def execHandover (now : Nat) (s : State) : Out := .next (if s.so.pair.role = 2 then takeover (s.advance now) true else s.advance now)
def execStale (s : State) : Out := .next (staleReceive s)
def execProbe (src : Fin 48) (s : State) : Out := .next (probeReceive s src)
def execProbeAnswer (s : State) : Out := .next (probeAnswered s)
def execHeartbeat (m : HeartbeatMsg) (now : Nat) (s : State) : Out := .next (heartbeatReceive (s.advance now) m)
def execHeartbeatSend (now : Nat) (s : State) : Out := .next (heartbeatSend (s.advance now))
def execHeartbeatTimeout (now : Nat) (s : State) : Out := .next (heartbeatTimeout (s.advance now))
def execProbeTimeout (now : Nat) (s : State) : Out := .next (probeTimeout (s.advance now))
def execRemoteTimeout (tag : Half) (s : State) : Out := .next (remoteTimeout s tag.toNat)
def execDlfDrainTimeout (d : Fin 48) (s : State) : Out := .next (drainTimeout s d)
def execBarrierStall (g : Fin 16) (now : Nat) (s : State) : Out := .next (barStall (s.advance now) g)
def execDlfBarArrive (v : Word) (now : Nat) (s : State) : Out := .next (localArrive (s.advance now) (v.toNat % 16))
def execJoinChunkCopy (now : Nat) (s : State) : Out := .next (joinChunk (s.advance now))
def execHandoverReady (now : Nat) (s : State) : Out := .next (handoverReady (s.advance now))
def execDlfCtrlCntClr (s : State) : Out := .next (dlfCntClr s)
def execDlfTopology (ch : Fin 4) (r : Request) (s : State) : Out := cerfosil s ch 0x0700 r cmdTopology
def execDlfPortControl (ch : Fin 4) (r : Request) (s : State) : Out := cerfosil s ch 0x0701 r cmdPortControl
def execDlfRoute (ch : Fin 4) (r : Request) (s : State) : Out := cerfosil s ch 0x0702 r cmdDlfRoute
def execDlfQuery (ch : Fin 4) (r : Request) (s : State) : Out := cerfosil s ch 0x0703 r cmdDlfQuery
def execAccumConfig (ch : Fin 4) (r : Request) (s : State) : Out := cerfosil s ch 0x0710 r cmdAccum
def execBarrierConfig (ch : Fin 4) (r : Request) (s : State) : Out := cerfosil s ch 0x0720 r cmdBarrierConfig
def execBarrierQuery (ch : Fin 4) (r : Request) (s : State) : Out := cerfosil s ch 0x0721 r cmdBarrierQuery
def execSuspectClear (ch : Fin 4) (r : Request) (s : State) : Out := cerfosil s ch 0x0722 r cmdSuspectClear
def execPairConfig (ch : Fin 4) (r : Request) (s : State) : Out := cerfosil s ch 0x0730 r cmdPairConfig
def execPairJoin (ch : Fin 4) (r : Request) (s : State) : Out := cerfosil s ch 0x0731 r cmdPairJoin
def execPairSwitchover (ch : Fin 4) (r : Request) (s : State) : Out := .next (runCmdLater s ch 0x0732 r 0 (cmdSwitchover r))
def execPairQuery (ch : Fin 4) (r : Request) (s : State) : Out := cerfosil s ch 0x0733 r cmdPairQuery
def execDelufTimeMessage (now : Nat) (s : State) : Out := .next (delufTime (s.advance now))

end Sys2Proof.Machine
end

