-- ==== Sys2Proof/Machine/Hostif.lean ====
section
/-! DEFINITION. The host interface of the hub (chapter 11): identification and capabilities, event ring, interrupts, clamp and
arbitration counters, PCIe link, trace and debug sessions, and the registers of page 0x01 of unit 0x00. -/

namespace Sys2Proof.Machine

/-! ### Identification (R285) -/

/-- HUB_IDENT: part 0x4B34, stepping A0. -/
def hubIdent : Nat := 0x4B34A000
/-- PCI_LINK. -/
def pciLink (s : State) : Nat := pack [(4, s.host.pci.rate.toNat), (4, s.host.pci.width.toNat), (1, b2n s.host.pci.flit)]
/-- HUB_FWVER: 0 under the boot service. -/
def hubFwver (s : State) : Nat := if s.bu.service = 2 then s.bu.fwver.toNat else 0
/-- MBX_n_STAT (R287). -/
def mbxStat (m : Mbox) : Nat := pack [(16, m.seq.toNat), (13, 0), (1, b2n m.ready), (1, b2n m.busy), (1, b2n m.done)]

/-! ### Capabilities (R307, R308 and the capability rules of the other chapters) -/

/-- Logical tiles that are not VACANT, as a mask. -/
def lmask (s : State) : Nat := maskOf 32 (fun l => (physOf s l).isSome)
/-- Tiles in service. -/
def inService (s : State) : Nat := ((List.range 32).filter (fun l => (physOf s l).isSome)).length
/-- Dies with a spare. -/
def spareDies (s : State) : Nat := (s.bu.spares.filter (·.isSome)).length
/-- Physical tiles defective or failed, as a mask. -/
def defectiveMask (s : State) : Nat := maskOf 36 (fun p => (s.tiles.get p).defective || (s.tiles.get p).failed)

/-- The body words of each capability with its ID. The order of the list is the model's (log entry 23). -/
def capabilities (s : State) : List (Nat × List Nat) :=
  [(0x0001, [pack [(32, hubFwver s), (8, 0), (8, 0xA0), (16, 0x4B34)]]),
   (0x0002, [pack [(4, 4), (12, 240), (8, 10), (8, 64)]]),
   (0x0003, [pack [(16, 20), (8, 64), (4, 0xF), (4, 8), (13, 4096)]]),
   (0x0004, [pack [(32, lmask s), (8, inService s), (4, spareDies s)], defectiveMask s]),
   (0x0005, [pack [(11, 0x7FF), (5, 0), (1, 1), (1, 1), (1, 0), (1, 0), (8, 0x20)]]),
   (0x0006, [pack [(4, 0xF), (13, 4096), (15, 16384), (5, 16), (9, 256), (4, 8), (4, 8)]]),
   (0x0007, [pack [(4, 15), (4, 8), (4, 8), (4, 15), (1, 1), (5, 16), (5, 2), (5, 16), (11, 1024), (7, 64)]]),
   (0x0008, [capPlanner]), (0x0009, [capDeluf]), (0x000A, [capMirror]), (0x000B, [capIslands]),
   (0x000C, [pack [(4, 5), (8, 250), (10, 580), (10, 480), (12, 2200), (12, 1000), (4, 7)]]),
   (0x000D, [pack [(4, 8), (4, 0), (4, 7), (4, 7), (4, 0xF)]]), (0x000E, [capSplit s])]

/-- The offset of the first capability entry (CAP_HEAD). -/
def capHead : Nat := 0x4000

/-- The registers of the capability entries from an offset on (R307). -/
def capRegs : Nat → List (Nat × List Nat) → List Reg
  | _, [] => []
  | off, (id, body) :: r =>
    let stop := off + 16 + 8 * body.length
    [r4 off (id + 0x10000), r4 (off + 4) (8 * body.length), r4 (off + 8) (if r.isEmpty then 0 else stop), r4 (off + 12) 0] ++
    (body.zipIdx.map (fun x => r8 (off + 16 + 8 * x.2) x.1)) ++ capRegs stop r

/-! ### Event ring (R309–R311) -/

/-- Words of the ring. -/
def ringSize (s : State) : Nat := 2 ^ s.host.evt.log2
/-- Words of the ring that the host owns. -/
def ringUsed (s : State) : Nat := (s.host.evt.tail + ringSize s - s.host.evt.head) % ringSize s

/-- Words 0 to 3 of an event (R311). -/
def eventWords (phase : Bool) (e : Event) : List Nat :=
  [pack [(32, e.eseq.toNat), (8, e.aux.toNat), (16, e.code.toNat), (2, 0), (2, e.pay.length), (3, 0), (1, b2n phase)], e.dt] ++ e.pay.map (·.toNat)

/-- The event-ring interrupt, as its moderation lets it fire (R313). -/
def moderate (s : State) : State :=
  let e := s.host.evt
  let due : Bool := match e.lastSet with
    | some t => decide (t + e.mod * 1000 ≤ s.dt)
    | none => true
  if e.moved && due then setInt { s with host.evt.moved := false, host.evt.lastSet := some s.dt } 4 else s

/-- EVENTS_LOST, raised in the cycle in which the buffer has room again (R310). -/
def eventsLost (s : State) : State :=
  if s.host.evt.lost = 0 then s else raiseEvent { s with host.evt.lost := 0 } 0x0002 0 [s.host.evt.lost]

/-- The oldest buffered event is written to the ring once, after it, at least 4 words remain free (R310). -/
def eventRingWrite (s : State) : State :=
  let e := s.host.evt
  match e.buf with
  | [] => s
  | x :: r =>
    let ws := eventWords e.phase x
    let size := ringSize s
    if e.enable ∧ ringUsed s + ws.length + 4 ≤ size then
      let s := (ws.zipIdx).reverse.foldl (fun s w =>
        let a := e.base + 8 * ((e.tail + w.2) % size)
        if hostReach s a 8 then hostPut s a (leBytes 8 w.1) false else s) s
      let wraps := decide (size ≤ e.tail + ws.length)
      moderate (eventsLost { s with
        host.evt.buf := r, host.evt.tail := (e.tail + ws.length) % size, host.evt.phase := e.phase != wraps, host.evt.moved := true })
    else s

/-- A write of EVT_CTRL (R309): ring size while disabled, counter clear, and enable. -/
def evtCtrl (s : State) (v : Nat) : State :=
  let e := s.host.evt
  let e := if e.enable then e else { e with log2 := clampN 6 20 (field v 7 3) }
  let e := if bit v 2 then { e with dropCnt := 0 } else e
  let on := bit v 0
  { s with host.evt := if on && !e.enable then { e with enable := true, tail := 0, head := 0, phase := true } else { e with enable := on } }

/-- A write of EVT_HEAD (R309, R310). -/
def evtHead (s : State) (v : Nat) : State :=
  let e := s.host.evt
  if v < ringSize s ∧ (v + ringSize s - e.head) % ringSize s ≤ ringUsed s then { s with host.evt.head := v }
  else { s with host.evt.badHead := true }

/-- A write of EVT_BASE or EVT_MOD (R309). -/
def evtBase (s : State) (v : Nat) : State := if s.host.evt.enable then s else { s with host.evt.base := v / 4096 * 4096 }
def evtMod (s : State) (v : Nat) : State := { s with host.evt.mod := min (field v 9 0) 1000 }

/-- EVT_CTRL and EVT_STAT as read (R309). -/
def evtCtrlReg (e : EvtRing) : Nat := pack [(1, b2n e.enable), (1, 0), (1, 0), (5, e.log2)]
def evtStatReg (e : EvtRing) : Nat := pack [(1, b2n e.phase), (1, b2n (!e.buf.isEmpty)), (1, b2n e.badHead)]

/-! ### Interrupts (R313) -/

/-- Bits of HUB_INT_STAT cleared by W1C. -/
def intClear (s : State) (m : Word) : State := { s with host.ints.stat := s.host.ints.stat &&& ~~~m }

/-- A write of HUB_INT_MASK: a message for each bit unmasked while set. -/
def intMask (s : State) (m : Word) : State :=
  let was := s.host.ints.mask.toNat
  let s := { s with host.ints.mask := m &&& 0x1FF }
  (List.range 9).foldl (fun s i => if bit was i && !bit m.toNat i && bit s.host.ints.stat.toNat i then sendMsix s i else s) s

/-- A vector unmasked in the MSI-X table with its pending bit set sends its message (R280). -/
def msixUnmask (s : State) (v : Nat) : State :=
  let e := s.host.ints.msix.get v
  let s := { s with host.ints.msix := s.host.ints.msix.set v { e with masked := false } }
  if bit s.host.ints.pba.toNat v then sendMsix { s with host.ints.pba := s.host.ints.pba &&& ~~~(BitVec.ofNat 64 (2 ^ v)) } v else s

/-- A 32-bit write of the MSI-X table (R280, R284): word `w` of entry `v`. -/
def msixWrite (s : State) (v w val : Nat) : State :=
  let e := s.host.ints.msix.get v
  if w = 0 then { s with host.ints.msix := s.host.ints.msix.set v { e with addr := e.addr / 2 ^ 32 * 2 ^ 32 + val / 4 * 4 } }
  else if w = 1 then { s with host.ints.msix := s.host.ints.msix.set v { e with addr := e.addr % 2 ^ 32 + val * 2 ^ 32 } }
  else if w = 2 then { s with host.ints.msix := s.host.ints.msix.set v { e with data := BitVec.ofNat 32 val } }
  else if bit val 0 then { s with host.ints.msix := s.host.ints.msix.set v { e with masked := true } }
  else msixUnmask s v

/-- The MSI-X table and pending bits as registers at their BAR0 offsets (R280). -/
def msixRegs (s : State) : List Reg :=
  regsFor 64 (fun v =>
    let e := s.host.ints.msix.get v
    [r4 (0x8000 + 16 * v) e.addr, r4 (0x8004 + 16 * v) (e.addr / 2 ^ 32), r4 (0x8008 + 16 * v) e.data.toNat, r4 (0x800C + 16 * v) (b2n e.masked)]) ++
  [r8 0x8400 s.host.ints.pba.toNat]

/-! ### Clamp and arbitration block (R296, R298) -/

/-- HUB_HCB_CTRL.cnt_clr. -/
def hcbCntClr (s : State) : State :=
  { s with
    host.mbx := s.host.mbx.map (fun m => { m with clampCnt := 0, sendLost := 0 }), host.arb.cnt := 0, host.arb.ordOvr := 0 }

/-- HUB_ARB_STAT. -/
def arbStat (a : Arb) : Nat := pack [(4, a.lost.toNat), (27, 0), (1, b2n a.valid)]

/-- A W1C write of HUB_ARB_STAT. -/
def arbClear (s : State) (m : Word) : State :=
  let a := s.host.arb
  { s with host.arb := { a with lost := a.lost &&& ~~~(m.setWidth 4), valid := a.valid && !bit m.toNat 31 } }

/-- A write lost to a lower-numbered port (R298). -/
def arbLoss (s : State) (port addr : Nat) : State :=
  let a := s.host.arb
  let a := { a with lost := a.lost ||| BitVec.ofNat 4 (2 ^ port), cnt := cnt a.cnt 1 }
  let a := if a.valid then a else { a with valid := true, addr := addr }
  setInt { s with host.arb := a } 6

/-! ### Page 0x01 of unit 0x00 -/

/-- The words of a 256-byte buffer as registers. -/
def bufRegs (off : Nat) (b : List Byte) : List Reg := regsFor 64 (fun i => [r4 (off + 4 * i) (fld b (4 * i) 4)])

/-- Page 0x01 of unit 0x00 (R284): the control block and HUB_TRC_WPTR (R306). -/
def pageHub (s : State) : List Reg :=
  let h := s.host
  [r4 0x0000 hubIdent, r4 0x0004 (b2n h.opMode), r4 0x0008 s.bu.service, r4 0x000C (hubFwver s), r8 0x0010 Config.uid.toNat,
   r4 0x0018 s.so.dlf.devnum, r4 0x0040 capHead] ++
  regsFor 4 (fun n =>
    let m := h.mbx.get n
    let b := 0x0100 + 0x400 * n
    bufRegs b m.req ++ bufRegs (b + 0x100) m.rsp ++
    [r4 (b + 0x200) 0, r4 (b + 0x204) (mbxStat m), r4 (b + 0x208) m.sendLost, r4 (b + 0x20C) m.cmdCnt]) ++
  [r8 0x1200 h.evt.base, r4 0x1208 (evtCtrlReg h.evt), r4 0x120C (evtStatReg h.evt), r4 0x1210 h.evt.tail, r4 0x1214 h.evt.head,
   r4 0x1218 h.evt.dropCnt, r4 0x121C h.evt.mod, r4 0x1300 h.ints.stat.toNat, r4 0x1304 h.ints.mask.toNat, r8 0x1400 h.pci.winBase,
   r4 0x1408 (pciLink s)] ++
  regsFor 4 (fun n => [r4 (0x2000 + 4 * n) (h.mbx.get n).clampCnt]) ++
  [r4 0x2010 (arbStat h.arb), r4 0x2014 h.arb.cnt, r4 0x2018 h.arb.ordOvr, r4 0x201C 0, r8 0x2020 h.arb.addr] ++
  capRegs capHead (capabilities s) ++ [r8 0x5000 h.trc.wptr]

/-! ### PCIe (R280–R286) -/

/-- The answer to a device request that waits for host memory (R282). -/
def hostAnswer (s : State) (r : NetReq) (st : Half) (data : List Byte) (poison : Bool) : State :=
  let s := { s with host.reads := eraseFirst (fun x => x.src == r.src && x.tag == r.tag) s.host.reads }
  netAnswer s r st data poison

/-- The outstanding host read of a master's tag. -/
def hostRead (s : State) (src : BitVec 8) (tag : BitVec 9) : Option NetReq := s.host.reads.find? (fun r => r.src == src && r.tag == tag)

/-- A completion of a device request (R282). -/
def pcieCompletion (s : State) (src : BitVec 8) (tag : BitVec 9) (o : PcieOutcome) (data : List Byte) : State :=
  match hostRead s src tag with
  | none => s
  | some r =>
    let zeros := List.replicate r.len (0 : Byte)
    match o with
    | .success => hostAnswer s r stOk (slice data 0 r.len) false
    | .unsupported => hostAnswer (aer s 1) r stDecodeError zeros true
    | .completerAbort => hostAnswer (aer s 2) r stDecodeError zeros true
    | .poisoned => hostAnswer (aer s 3) r stUncorrectable (slice data 0 r.len) true

/-- A completion time-out (R282). -/
def pcieTimeout (s : State) (src : BitVec 8) (tag : BitVec 9) : State :=
  match hostRead s src tag with
  | none => s
  | some r => hostAnswer (aer s 0) r stNoRoute (List.replicate r.len 0) true

/-- The link trains, retrains or goes down (R280, R282): with it down, outstanding host reads complete with NO_ROUTE. -/
def pcieLink (s : State) (rate width : BitVec 4) (flit up : Bool) : State :=
  let s := { s with host.pci := { s.host.pci with
    rate := if up then rate else 0, width := if up then width else 0, flit := up && flit, up := up } }
  let s := if up then s else s.host.reads.foldl (fun s r => hostAnswer s r stNoRoute (List.replicate r.len 0) true) s
  qosRecompute s

/-- A write of PCI_WIN_BASE (R285). -/
def winBase (s : State) (v : Quad) : State := { s with host.pci.winBase := field v.toNat 47 28 * 2 ^ 28 }

/-! ### Trace (R306) -/

/-- A trace record of a descriptor on a masked tile (R306). -/
def traceRecord (s : State) (p : Nat) (seq : Word) (d : Desc) (stream : Nat) (complete : Bool) (err : Nat) : State :=
  let w := (d.words.headD 0).toNat
  let t := s.host.trc
  let masked : Bool := match (s.tiles.get p).logical with
    | some l => bit t.mask.toNat l
    | none => false
  if t.enable && bit w 50 && masked then
    let rec_ := leBytes 8 s.dt ++ leBytes 8 d.addr ++ leBytes 4 seq.toNat ++ leBytes 1 p ++
      leBytes 1 (stream + 4 * b2n complete + 8 * b2n (err != 0)) ++ leBytes 1 (field w 7 0) ++ leBytes 1 (field w 63 56) ++ leBytes 1 err ++
      List.replicate 7 0
    let s := (writeAt s p (field w 13 10) (t.base + t.wptr * 32 % 2 ^ t.log2) rec_ false).1
    { s with host.trc.wptr := t.wptr + 1 }
  else s

/-- The trace configuration in the layout of TRACE_CONFIG. -/
def traceBytes (t : Trace) : List Byte :=
  leBytes 4 t.mask.toNat ++ leBytes 1 (b2n t.enable) ++ leBytes 3 0 ++ leBytes 8 t.base ++ leBytes 1 t.log2

/-- A trace ring that reaches the host range or a reserved one (R305). -/
def traceBad (base size : Nat) : Bool :=
  match target base, target (base + size - 1) with
  | .host _, _ => true
  | .reserved, _ => true
  | _, .host _ => true
  | _, .reserved => true
  | _, _ => false

/-- TRACE_CONFIG (R305, R306): it starts HUB_TRC_WPTR again. -/
def cmdTraceConfig (s : State) (c : Cmd) : State × Reply :=
  let f := clampFields c.pay 17 [fa 0 4, fr 4 1 0 1, fz 5 3, fm 8 8 0 (2 ^ 64 - 1) 4096, fr 16 1 12 28]
  if traceBad (fld f.1 8 8) (2 ^ fld f.1 16 1) then (s, reply stDecodeError f.2 [])
  else
    ({ s with host.trc := { mask := BitVec.ofNat 32 (fld f.1 0 4), enable := fld f.1 4 1 == 1, base := fld f.1 8 8, log2 := fld f.1 16 1, wptr := 0 } },
     reply stOk f.2 f.1)

/-- TRACE_QUERY. -/
def cmdTraceQuery (s : State) (_ : Cmd) : State × Reply := (s, reply stOk 0 (traceBytes s.host.trc ++ leBytes 8 s.host.trc.wptr))

/-! ### Debug sessions (R7, R305, R349) -/

/-- A debug session ends: a tile's halt is cleared, an island is told. -/
def detach (s : State) (id : Nat) : State :=
  let s := { s with host.sessions := s.host.sessions.filter (· != id) }
  if id < 36 then s.modTile id (fun t => { t with dbgHalt := false })
  else atIsland s (id - 0x40) (fun up a => islandDebug up false a)

/-- An island that a debugger may attach to (R349). -/
def debugPermit (a : Island) : Bool :=
  match a.cfg with
  | some c => fld c 7 1 == 1
  | none => false

/-- DEBUG_ATTACH (R6, R305, R349). -/
def cmdDebugAttach (s : State) (c : Cmd) : State × Reply :=
  let f := clampFields c.pay 2 [fr 0 1 0 2, fr 1 1 0 31]
  let cls := fld f.1 0 1
  let tgt : Option Nat := if cls = 0 then physOf s (fld f.1 1 1) else if debugPermit (s.isle (cls - 1)) then some (0x3F + cls) else none
  if s.host.opMode then (s, reply stDeniedMode f.2 [])
  else
    match tgt with
    | none => (s, reply stNotDefined f.2 [])
    | some id =>
      if s.host.sessions.contains id then (s, reply stBusy f.2 [])
      else
        let s := { s with host.sessions := s.host.sessions ++ [id] }
        (if cls = 0 then s else atIsland s (cls - 1) (fun up a => islandDebug up true a), reply stOk f.2 (leBytes 1 id))

/-- DEBUG_DETACH. -/
def cmdDebugDetach (s : State) (c : Cmd) : State × Reply :=
  let id := fld (slice c.pay 0 1) 0 1
  if s.host.sessions.contains id then (detach s id, reply stOk 0 []) else (s, reply stNotDefined 0 [])

/-- The operating mode changes (R5–R8, R272); a mode command for the mode in force changes nothing. -/
def setMode (s : State) (op : Bool) (master : Nat) : State :=
  if s.host.opMode = op then s
  else
    let s := if op then
        let s := s.host.sessions.foldl detach (disarmAll s)
        { s with fab.ldl := s.fab.ldl.map (fun l => { l with force := false }) }
      else s
    let s := { s with host.opMode := op, toIslands := s.toIslands ++ [(0, .modeEvent op), (1, .modeEvent op)] }
    raiseEvent s 0x0001 master [b2n op]

/-! ### System commands (R302) -/

/-- SYS_ECHO. -/
def cmdEcho (s : State) (c : Cmd) : State × Reply := (s, reply stOk 0 c.pay)

/-- SYS_IDENTIFY (R302). -/
def cmdIdentify (s : State) (_ : Cmd) : State × Reply :=
  (s, reply stOk 0 (leBytes 4 hubIdent ++ leBytes 4 (b2n s.host.opMode) ++ leBytes 4 s.bu.service ++ leBytes 4 (hubFwver s) ++
    leBytes 8 Config.uid.toNat ++ leBytes 4 s.so.dlf.devnum ++ leBytes 4 (pciLink s)))

/-- SYS_SET_MODE: the applied and the previous mode, 4 bytes each (R302, R466). -/
def cmdSetMode (s : State) (c : Cmd) : State × Reply :=
  let f := clampFields c.pay 1 [fr 0 1 0 1]
  let m := fld f.1 0 1
  (setMode s (m == 1) (masterOfMbx c.ch), reply stOk f.2 (leBytes 4 m ++ leBytes 4 (b2n s.host.opMode)))

/-! ### One meaning per command -/

/-- MBX_SEND (R290): a BAR0 write, so nothing in D3hot (R282); a wake event (R402). -/
def execMbxSend (ch : Fin 4) (ws : List (Nat × List Byte)) (bufOk : Bool) (s : State) : Out :=
  .next (if s.host.pci.d3hot then s else wakeMailbox (mbxSend s ch ws bufOk))
/-- UNKNOWN_OPCODE (R301): an opcode that some chapter defines is no such command. -/
def execUnknownOpcode (ch : Fin 4) (op : Half) (r : Request) (s : State) : Out :=
  .next (if definedOpcodes.contains op.toNat then s else runCmd s ch op.toNat r 0 cmdEcho)
def execSysEcho (ch : Fin 4) (r : Request) (s : State) : Out := cerfosil s ch 0x0000 r cmdEcho
def execSysIdentify (ch : Fin 4) (r : Request) (s : State) : Out := cerfosil s ch 0x0001 r cmdIdentify
def execSysSetMode (ch : Fin 4) (r : Request) (s : State) : Out := cerfosil s ch 0x0002 r cmdSetMode
def execPcieCompletion (src : BitVec 8) (tag : BitVec 9) (o : PcieOutcome) (data : List Byte) (s : State) : Out :=
  .next (pcieCompletion s src tag o data)
def execPcieCompletionTimeout (src : BitVec 8) (tag : BitVec 9) (s : State) : Out := .next (pcieTimeout s src tag)
def execPciWinBaseWrite (v : Quad) (s : State) : Out := .next (winBase s v)
def execTraceConfig (ch : Fin 4) (r : Request) (s : State) : Out := cerfosil s ch 0x0800 r cmdTraceConfig
def execTraceQuery (ch : Fin 4) (r : Request) (s : State) : Out := cerfosil s ch 0x0801 r cmdTraceQuery
def execDebugAttach (ch : Fin 4) (r : Request) (s : State) : Out := cerfosil s ch 0x0802 r cmdDebugAttach
def execDebugDetach (ch : Fin 4) (r : Request) (s : State) : Out := cerfosil s ch 0x0803 r cmdDebugDetach
def execEventRingWrite (s : State) : Out := .next (eventRingWrite s)
def execEvtCtrlEnable (v : Word) (s : State) : Out := .next (evtCtrl s v.toNat)
def execEvtCtrlCntClr (s : State) : Out := .next { s with host.evt.dropCnt := 0 }
def execEvtHeadWrite (v : Word) (s : State) : Out := .next (evtHead s v.toNat)
def execEvtStatClear (s : State) : Out := .next { s with host.evt.badHead := false }
def execEventModeration (now : Nat) (s : State) : Out := .next (moderate (s.advance now))
def execHubIntStatClear (m : Word) (s : State) : Out := .next (intClear s m)
def execHubIntMaskWrite (m : Word) (s : State) : Out := .next (intMask s m)
def execHubHcbCtrlCntClr (s : State) : Out := .next (hcbCntClr s)
def execHubArbStatClear (m : Word) (s : State) : Out := .next (arbClear s m)
def execPcieLinkChange (rate width : BitVec 4) (flit up : Bool) (s : State) : Out := .next (pcieLink s rate width flit up)
def execPcieDStateChange (d3hot : Bool) (s : State) : Out := .next { s with host.pci.d3hot := d3hot }

end Sys2Proof.Machine
end

