-- ==== Sys2Proof/Machine/Bringup.lean ====
section
/-! DEFINITION. Bring-up, the defect list, reset scopes, tile failure and substitution, and the control pins (chapters 16 and 17,
R43, R49, R65). -/

namespace Sys2Proof.Machine

/-! ### Registers of page 0x04 (R448) and TIL_ID (R65) -/

/-- TIL_ID. -/
def tilId (s : State) (p : Nat) : Nat :=
  let t := s.tiles.get p
  pack [(6, p), (2, 0), (6, logicalField t.logical), (2, 0), (3, t.role)]

/-- Entries of the defect list by origin. -/
def originCount (s : State) (f : Nat → Bool) : Nat := (s.bu.defects.filter (fun e => f (field e.toNat 59 58))).length

/-- HUB_RST_STAT. -/
def rstStat (s : State) : Nat :=
  let busy : Bool := match s.bu.rst with
    | some r => decide (r.scope < 4)
    | none => false
  pack [(6, s.bu.rstIndex), (22, 0), (3, s.bu.rstScope), (1, b2n busy)]

/-- Page 0x04 of unit 0x00. -/
def pageBu (s : State) : List Reg :=
  let b := s.bu
  [r4 0x000 (pack [(8, inService s), (8, spareDies s), (4, b.step), (8, 0), (1, b2n b.full), (1, b2n b.fast), (2, b.phase)]), r4 0x004 b.dur,
   r4 0x008 (pack [(10, b.defects.length), (10, originCount s (fun o => o == 1 || o == 2)), (10, originCount s (· == 0)), (1, b2n b.retained),
                   (1, b2n b.overflow)]),
   r4 0x00C (rstStat s), r4 0x010 b.failCnt, r4 0x014 b.substCnt, r4 0x018 b.rstCnt, r4 0x01C 0]

/-- HUB_BU_CTRL.cnt_clr. -/
def buCntClr (s : State) : State := { s with bu.failCnt := 0, bu.substCnt := 0, bu.rstCnt := 0 }

/-! ### Defect list (R432, R433) -/

/-- An entry's key: kind and location; a TILE's location is its slot, whatever the cause (log entry 24). -/
def defectKey (e : Nat) : Nat := field e 63 60 * 2 ^ 32 + (if field e 63 60 = 1 then field e 5 0 else field e 31 0)

/-- The order of the list: bits [63:60], then [31:0]. -/
def defectOrder (e : Nat) : Nat := field e 63 60 * 2 ^ 32 + field e 31 0

/-- An entry put in its place in an ordered list. -/
def insertDefect (e : Quad) : List Quad → List Quad
  | [] => [e]
  | x :: r => if defectOrder e.toNat < defectOrder x.toNat then e :: x :: r else x :: insertDefect e r

/-- An entry added to the list: a location already there keeps its entry; beyond 512 it is not stored and overflow is set (R432). -/
def addDefect (s : State) (e : Quad) : State :=
  if s.bu.defects.any (fun x => defectKey x.toNat == defectKey e.toNat) then s
  else if 512 ≤ s.bu.defects.length then { s with bu.overflow := true }
  else { s with bu.defects := insertDefect e s.bu.defects }

/-- An entry added with its DEFECT_ADDED event (R447). -/
def defectAdded (s : State) (e : Quad) : State :=
  raiseEvent (addDefect s e) 0x0016 (field e.toNat 63 60) [e.toNat]

/-- A TILE entry. -/
def tileDefect (origin cause p : Nat) : Quad := BitVec.ofNat 64 (2 ^ 60 + origin * 2 ^ 58 + cause * 256 + p)

/-- An EDGE_LANE entry of the start-up test. -/
def laneDefect (l : LaneRef) : Quad :=
  BitVec.ofNat 64 (2 * 2 ^ 60 + 2 ^ 58 + l.lane.val * 256 + l.group.val * 16 + l.dir.val * 8 + l.edge.val)

/-- A preloaded entry as applied, and its clamps; none where it is discarded (R433, R295). -/
def preloadEntry (v : Nat) : Option Quad × Nat :=
  let k := field v 63 60
  let loc := field v 31 0
  let mask := if k = 1 then 0xFF3F else if k = 2 then 0x7F7F else 0x37
  let kept := loc &&& mask
  let ok := if k = 1 then decide (kept % 64 < 36 ∧ 1 ≤ kept / 256 ∧ kept / 256 ≤ 6) else if k = 2 then decide (kept / 256 < 68) else k == 3
  if ok then
    (some (BitVec.ofNat 64 (k * 2 ^ 60 + kept)), (if field v 59 58 = 3 then 1 else 0) + (if field v 57 32 = 0 then 0 else 1) + (if loc = kept then 0 else 1))
  else (none, 1)

/-- SYS_DEFECT_LOAD (R433, R446). -/
def cmdDefectLoad (s : State) (c : Cmd) : State × Reply :=
  let f := clampFields c.pay 8 [fr 0 2 0 (if c.inPtr then 512 else 29), fz 2 6]
  if s.bu.ran ∨ (s.bu.warm ∧ s.bu.retained) then (s, reply stBusy f.2 [])
  else
    let es := (List.range (fld f.1 0 2)).map (fun i => preloadEntry (fld c.pay (8 + 8 * i) 8))
    let clamps := f.2 + (es.map (·.2)).sum
    let s := { s with bu.defects := s.bu.defects.filter (fun e => field e.toNat 59 58 != 0) }
    let s := (es.filterMap (·.1)).foldl addDefect s
    (s, reply stOk clamps (leBytes 4 (originCount s (· == 0)) ++ leBytes 4 (c.clamps + clamps)))

/-- The summary of SYS_START_UP and SYS_DEFECT_QUERY (R446). -/
def startSummary (s : State) : List Byte :=
  leBytes 2 s.bu.defects.length ++ leBytes 2 (originCount s (fun o => o == 1 || o == 2)) ++ leBytes 1 (inService s) ++ leBytes 1 (spareDies s) ++
  leBytes 2 0 ++ leBytes 4 s.bu.dur ++ leBytes 4 s.bu.failUnit

/-- The list as bulk data. -/
def defectBulk (s : State) : List Byte := (s.bu.defects.map (fun e => leBytes 8 e.toNat)).flatten

/-- SYS_DEFECT_QUERY. -/
def cmdDefectQuery (s : State) (_ : Cmd) : State × Reply := (s, { status := stOk, clamps := 0, data := startSummary s, bulk := defectBulk s })

/-! ### One tile in and out of reset (R43, R49, R65, R438, R443) -/

/-- The firmware's map in TIL_LMAP of a tile (R65). -/
def mapTile (map : List (Option Nat)) (t : Tile) : Tile :=
  { t with lmap := (List.range 32).foldl (fun m l => m.set l (lmapByte (map.getD l none))) (Tab.const 0xFF) }

/-- TIL_LMAP written in every tile (R65, R441). -/
def writeMaps (s : State) : State := (List.range 36).foldl (fun s p => s.modTile p (mapTile s.bu.map)) s

/-- A tile's SRAM written to zero (R49). -/
def clearSram (s : State) (p : Nat) : State :=
  let lo := tileWindow p / 8
  { s with fab.mem := s.fab.mem.clear (tileWindow p) 0x1000000, fab.poison := s.fab.poison.unmark lo 0x200000 }

/-- The registers, queue and units of a tile at their reset values; identity, straps and inputs stay (R65). -/
def resetTile (t : Tile) : Tile :=
  { tileFresh with
    role := t.role, logical := t.logical, isoEn := t.isoEn, inReset := t.inReset, arithGate := t.arithGate, initBusy := t.initBusy,
    defective := t.defective, failed := t.failed, heldOff := t.heldOff, age := t.age, therm := t.therm }

/-- Steps 1 and 2 of R438: isolation; the launches running, queued or held complete with TARGET_RESET, and the pin is released. -/
def tileStop (s : State) (p : Nat) : State :=
  let t := s.tiles.get p
  let ls := (match t.run with
    | some r => [r.launch]
    | none => []) ++ t.queue
  let s := s.modTile p (fun t => { t with isoEn := true, run := none, queue := [], issued := [], walk := none })
  let s := ls.foldl (fun s l => launchEnds s l p stTargetReset) s
  releasePin (dropHeld s p) p

/-- TRST_N asserted: the tile's registers, queue, semaphores and counters take their reset values (R65, R438 step 5). -/
def tileReset (s : State) (p : Nat) : State :=
  (tileStop s p).modTile p (fun t => { resetTile t with inReset := true, initBusy := true })

/-- SRAM initialisation after a reset completes (R49); the tile that has not failed enters quarantine (R443). -/
def sramInitDone (s : State) (p : Nat) : State :=
  let t := s.tiles.get p
  if t.inReset ∧ t.initBusy ∧ !t.failed ∧ !t.defective then
    (clearSram s p).modTile p (fun t => { t with inReset := false, initBusy := false, role := if t.role < 2 then 3 else t.role, symErr := Tab.const 0 })
  else s

/-- ISO_EN released: only once TRST_N is released and SRAM initialised (R43). -/
def isoRelease (s : State) (p : Nat) : State :=
  let t := s.tiles.get p
  if t.inReset ∨ t.initBusy then s else s.modTile p (fun t => { t with isoEn := false })

/-- The chains that are not IDLE. -/
def liveChains (s : State) : List Nat := (List.range 8).filter (fun c => (s.cal.chains.get c).state != .idle)

/-- A tile returned to service (R443 steps 3 to 5): QoS entries recomputed, isolation released, its role and map restored; every running
chain launches on it from its next period. -/
def tileReturn (s : State) (p : Nat) : State :=
  let live := liveChains s
  let spare := (s.tiles.get p).logical.isNone
  let s := (clearSram s p).modTile p (fun t => mapTile s.bu.map { t with
    isoEn := false, inReset := false, initBusy := false, role := if spare then 1 else 0, heldOff := live, symErr := Tab.const 0 })
  raiseEvent (qosRecompute s) 0x0015 p [b2n spare]

/-! ### A tile fails in service (R440–R442) -/

/-- The logical number that the map gives a physical tile. -/
def logicalOf (s : State) (p : Nat) : Option Nat := (List.range 32).find? (fun l => physOf s l == some p)

/-- QOS_G_n entries that name a master name another (R441 step 3). -/
def renameMaster (from_ to_ : Nat) (e : Quad) : Quad :=
  if qgMaster e.toNat = from_ then BitVec.ofNat 64 (e.toNat - from_ * 2 ^ 40 + to_ * 2 ^ 40) else e

/-- The firmware substitutes the die's spare for logical tile `l` lost on `p`, or the number becomes VACANT (R441, R442). `old`: the failed
tile as it was. -/
def substitute (s : State) (l p : Nat) (old : Tile) : State :=
  let d := dieOf p
  match s.bu.spares.getD d none with
  | some q =>
    let s := (clearSram (tileReset s q) q).modTile q (fun t => { t with
      inReset := false, initBusy := false, isoEn := false, role := 0, logical := some l, pdirBase := old.pdirBase, pdirCnt := old.pdirCnt,
      launchEn := old.launchEn, symErr := Tab.const 0 })
    let qs := s.fab.qos
    let s := qosRecompute { s with fab.qos := { qs with
      entries := qs.entries.map (fun e => if qgValid e.toNat then renameMaster p q e else e),
      newTab := qs.newTab.map (fun x => (x.1, x.2.map (fun y => (y.1, if qgValid y.2.toNat then renameMaster p q y.2 else y.2)))) } }
    let s := writeMaps { s with bu.map := s.bu.map.set l (some q), bu.spares := s.bu.spares.set d none, bu.substCnt := cnt s.bu.substCnt 1 }
    raiseEvent s 0x0012 l [p + q * 256]
  | none => raiseEvent (writeMaps { s with bu.map := s.bu.map.set l none }) 0x0013 l [p]

/-- A tile fails in service (R440, R445): reset and kept in reset, marked, listed, counted, reported; then its substitution, which waits
for the die's return while the die partition is in reset. -/
def failTile (s : State) (p cause : Nat) : State :=
  let old := s.tiles.get p
  if old.role = 2 then s
  else
    let l := logicalOf s p
    let s := clearSram (tileReset s p) p
    let s := s.modTile p (fun t => { t with initBusy := false, failed := true, role := 2, logical := none })
    let s := { s with bu.failCnt := cnt s.bu.failCnt 1 }
    let s := raiseEvent (defectAdded s (tileDefect 2 cause p)) 0x0011 p [logicalField l + cause * 256]
    let d := dieOf p
    let s := if s.bu.spares.getD d none = some p then { s with bu.spares := s.bu.spares.set d none } else s
    match l with
    | none => s
    | some l => if s.fab.dieReset.get d then { s with bu.deferred := s.bu.deferred ++ [p] } else substitute s l p old

/-- Failures found since the last scan, with those of the ECC condition (R440), in the order of R445: lower logical numbers first, spares
last. -/
def scanFailures (s : State) : State :=
  let ecc := (List.range 36).filterMap (fun p =>
    let t := s.tiles.get p
    if t.role ≠ 2 ∧ 4 ≤ (t.ueTimes.filter (fun x => s.dt < x + 1000000000)).length then some (p, 5) else none)
  let fs := s.bu.fails ++ ecc
  let order := (List.range 32).filterMap (fun l => fs.find? (fun f => physOf s l == some f.1)) ++
    fs.filter (fun f => (logicalOf s f.1).isNone)
  order.foldl (fun s f => failTile s f.1 f.2) { s with bu.fails := [] }

/-- TILE_FAIL (R440, R446): TIL_ID of the tile and of the spare that substituted, or 0. -/
def cmdTileFail (s : State) (c : Cmd) : State × Reply :=
  let f := clampFields c.pay 1 [fr 0 1 0 35]
  let p := fld f.1 0 1
  if (s.tiles.get p).role = 2 then (s, reply stNotDefined f.2 [])
  else
    let l := logicalOf s p
    let s := failTile s p 6
    let sub : Nat := match l.bind (physOf s) with
      | some q => if q = p then 0 else tilId s q
      | none => 0
    (s, reply stOk f.2 (leBytes 4 (tilId s p) ++ leBytes 4 sub))

/-- The quarantine self-test ends (R443): the tile returns, or fails with cause SELFTEST at the next scan (R440). -/
def quarantineDone (s : State) (p : Nat) (pass : Bool) : State :=
  if (s.tiles.get p).role ≠ 3 then s
  else if pass then tileReturn s p
  else { s with bu.fails := s.bu.fails ++ [(p, 1)] }

/-! ### Wider resets (R435–R439) -/

/-- The stored parts of a reset that AON keeps or loses, over a fresh device: DRAM `dram`, the host's own memory, the islands, the wake
record, and the model's queue. A change of mode to MAINTENANCE is reported to the islands (R8); frames in flight are lost with the links. -/
def freshDevice (s : State) (dram : Bool) : State :=
  let inDram := fun (a : Nat) => dram && decide (a < 4 * dieSpan)
  let f := s.fab
  { State.reset with
    pins := s.pins, host := { hostFresh with mem := s.host.mem, poison := s.host.poison },
    fab := { fabFresh with
      mem := f.mem.filter (fun c => inDram c.1), lost := if dram then f.lost else [], poison := f.poison.filter (fun w => inDram (w * 8)),
      symErr := { f.symErr with cells := f.symErr.cells.filter (fun c => inDram (c.1 * 32)) },
      drm := if dram then Tab.const { dramFresh with selfref := true } else Tab.const dramFresh },
    pwr := { pwrFresh with trip := s.pwr.trip, spot := s.pwr.spot, boot := s.pwr.boot }, so := { soFresh with dlf := { dlfFresh with sent := s.so.dlf.sent } },
    anv := { anvFresh with isl := s.anv.isl }, pln := { plnFresh with e2eSeq := s.pln.e2eSeq },
    toIslands := if s.host.opMode then [(0, .modeEvent false), (1, .modeEvent false)] else [], free := s.free, pending := s.pending }

/-- PARTNER_FAILING before a package, warm or device reset of a PRIMARY (R388). -/
def warnPartner (s : State) : State := if s.so.pair.role = 1 then sendPartnerFailing s else s

/-- A device reset (R436 scope 5): everything except the islands. -/
def deviceReset (s : State) : State := freshDevice s false

/-- A warm reset (R435): DRAM survives in self-refresh; AON keeps the list, map, spares and guard bands once a start-up has completed, unless
it abandons a start-up (R445). -/
def warmReset (s : State) : State :=
  let b := s.bu
  let keep := b.retained && b.phase != 1
  let n := freshDevice s true
  if keep then
    { n with
      bu := { buFresh with ran := b.ran, warm := true, defects := b.defects, overflow := b.overflow, retained := true, map := b.map, spares := b.spares },
      tiles := { dflt := tileFresh, cells := (List.range 36).map (fun p =>
        let t := s.tiles.get p
        (p, { tileFresh with logical := t.logical, defective := t.defective, failed := t.failed,
                             role := if t.role = 3 then (if t.logical.isSome then 0 else 1) else t.role })) },
      pwr := { n.pwr with tiles := { dflt := dvfsFresh, cells := (List.range 36).map (fun p => (p, { dvfsFresh with guard := (s.pwr.tiles.get p).guard })) } } }
  else { n with bu := { buFresh with ran := b.ran, warm := true } }

/-- The device in Off (R400, R404, R419): only the wake logic and PWR_WAKE_CAUSE stay. -/
def powerOff (s : State) (trip : Bool) (spot : Nat) : State :=
  let n := deviceReset s
  { n with pwr.state := .off, pwr.trip := trip, pwr.spot := if trip then spot else n.pwr.spot }

/-- Mailbox commands taken up and not completed when a package reset begins complete with TARGET_RESET (R446). -/
def abortMailboxes (s : State) (except_ : Nat) (st : Half) : State :=
  ((List.range 4).filter (fun n => n != except_ && (s.host.mbx.get n).busy)).foldl (fun s n =>
    let m := s.host.mbx.get n
    let r := bufferedRequest m
    completeCmd (s.modMbx n (fun m => { m with sent := false })) (decodeCmd s n r.1 r.2.1 m.bufOk r.2.2).1 m.bufOk (reply st 0 [])) s

/-- A package reset begins (R436, R437): chains, tables and configurations are cleared; DT, mode, event ring, mailboxes, map and list stay. -/
def packageBegin (s : State) (ch : Nat) : State :=
  let s := abortMailboxes (warnPartner s) ch stTargetReset
  let n := freshDevice s true
  { n with
    host := { s.host with trc := hostFresh.trc, reads := [], memWaits := [], sessions := s.host.sessions.filter (36 ≤ ·) }, time := s.time,
    bu := { s.bu with startReq := none, fails := [], deferred := [] }, toIslands := [],
    fab := { n.fab with clk := s.fab.clk, transitDown := Tab.const true },
    tiles := { dflt := tileFresh, cells := (List.range 36).map (fun p =>
      let t := s.tiles.get p
      (p, { resetTile t with isoEn := true, inReset := true, arithGate := false, heldOff := [], role := if t.role = 3 then (if t.logical.isSome then 0 else 1) else t.role })) },
    pwr := { n.pwr with tiles := { dflt := dvfsFresh, cells := (List.range 36).map (fun p => (p, { dvfsFresh with guard := (s.pwr.tiles.get p).guard })) } } }

/-- The tiles of a die that have not failed. -/
def liveTiles (s : State) (d : Nat) : List Nat := ((List.range 9).map (9 * d + ·)).filter (fun p => (s.tiles.get p).role != 2)

/-- A die partition enters reset (R438): its tiles stop and reset, its stack enters self-refresh. -/
def partitionBegin (s : State) (d : Nat) : State :=
  let s := (liveTiles s d).foldl tileReset { s with fab.dieReset := s.fab.dieReset.set d true }
  s.modDrm d (fun x => { x with selfref := true })

/-- The three edges of a die: its hub edge and its two ring edges. -/
def dieEdges (d : Nat) : List Nat := [d, 4 + d, 4 + (d + 3) % 4]

/-- The first route code of a flow that avoids a die and uses edges that are UP (R439). -/
def codeAround (s : State) (d i : Nat) : Option Nat :=
  let p := pairOf i
  if p.1 = d ∨ p.2 = d then some (flowCode s.fab.routes.rt i)
  else (List.range 3).find? (fun c =>
    match routeNodes p.1 p.2 c with
    | some ns => !ns.contains d && (hopsOf ns).all (fun h => edgeUp s h.1)
    | none => false)

/-- A route table that avoids a die, keeping the codes that already do; none where a flow has no such route (R439). -/
def tableAround (s : State) (d : Nat) : Option Nat :=
  (List.range 20).foldl (fun (a : Option Nat) i =>
    match a with
    | none => none
    | some t =>
      let p := pairOf i
      let cur := flowCode s.fab.routes.rt i
      let fine : Bool := match routeNodes p.1 p.2 cur with
        | some ns => p.1 == d || p.2 == d || !ns.contains d
        | none => true
      if fine then some (t + cur * 4 ^ i) else (codeAround s d i).map (fun c => t + c * 4 ^ i)) (some 0)

/-- The transit domain of a die goes down once the old paths have drained (R35, R439): edges disabled, partition and transit in reset. -/
def transitBegin (s : State) (d : Nat) : State :=
  let s := (dieEdges d).foldl (fun s k => s.modEdge k (fun e => { e with state := 3 })) s
  qosRecompute (partitionBegin { s with fab.transitDown := s.fab.transitDown.set d true } d)

/-- A die-with-transit reset goes on when its reroute has completed (R439). -/
def transitProceed (s : State) : State :=
  match s.bu.rst with
  | some r => if r.scope = 2 ∧ s.fab.routes.newRt = none ∧ !s.fab.transitDown.get r.index then transitBegin s r.index else s
  | none => s

/-- SYS_RESET (R436, R439, R445, R446). Scopes 0 to 3 answer when the reset ends; scopes 4 and 5 at once, and begin at the next scan. -/
def cmdReset (r : Request) (s : State) (c : Cmd) : State × Option Reply :=
  let a := clampFields c.pay 2 [fr 0 1 0 5]
  let scope := fld a.1 0 1
  let f := clampFields a.1 2 [fr 1 1 0 (if scope = 0 then 35 else if scope < 3 then 3 else 0)]
  let i := fld f.1 1 1
  let clamps := a.2 + f.2
  let running := { s with bu.rst := some { scope := scope, index := i, from_ := s.dt, chan := some (c.ch, r) }, bu.rstScope := scope, bu.rstIndex := i }
  if 4 ≤ scope then
    ({ s with bu.rstQueued := some (scope, i) }, some (reply stOk clamps (leBytes 4 (rstStat s) ++ leBytes 4 0)))
  else if s.bu.rst.isSome ∨ s.bu.phase ≠ 2 then (s, some (reply stBusy clamps []))
  else if scope = 0 then
    if (s.tiles.get i).role = 2 then (s, some (reply stNotDefined clamps [])) else (tileReset running i, none)
  else if scope = 1 then (partitionBegin running i, none)
  else if scope = 2 then
    match tableAround s i with
    | none => (s, some (reply stBusy clamps []))
    | some t => (transitProceed (if t = s.fab.routes.rt then running else startReroute running t), none)
  else
    let n := packageBegin s c.ch
    ({ n with
       bu.rst := some { scope := 3, index := 0, from_ := s.dt, chan := some (c.ch, r) }, bu.rstScope := 3, bu.rstIndex := 0 }, none)

/-- Whether the units of a reset of scope 0 to 3 have returned or failed (R436). -/
def resetEnded (s : State) (r : ResetRun) : Bool :=
  let back := fun (p : Nat) => let t := s.tiles.get p; t.role == 2 || (!t.inReset && !t.initBusy && !t.isoEn && t.role != 3)
  let trained := fun (k : Nat) => (s.fab.edges.get k).state == 2 || (s.fab.edges.get k).state == 3
  match r.scope with
  | 0 => back r.index
  | 1 => (List.range 9).all (fun i => back (9 * r.index + i))
  | 2 => s.fab.transitDown.get r.index && (dieEdges r.index).all trained && (List.range 9).all (fun i => back (9 * r.index + i))
  | _ => (List.range 8).all trained

/-- A die partition back in service: its stack leaves self-refresh, and the substitutions that waited for it are made (R438, R445). -/
def partitionEnd (s : State) (d : Nat) : State :=
  let s := ({ s with fab.dieReset := s.fab.dieReset.set d false }).modDrm d (fun x => { x with selfref := false })
  let mine := s.bu.deferred.filter (fun p => dieOf p == d)
  let s := { s with bu.deferred := s.bu.deferred.filter (fun p => dieOf p != d) }
  mine.foldl (fun s p =>
    match logicalOf s p with
    | some l => substitute s l p (s.tiles.get p)
    | none => s) s

/-- The end of a package reset (R436, R437): stacks and tiles back, with the logical map. -/
def packageEnd (s : State) : State :=
  let s := (List.range 4).foldl (fun s d => s.modDrm d (fun x => { x with selfref := false, ready := true }))
    { s with fab.dieReset := Tab.const false, fab.transitDown := Tab.const false }
  writeMaps ((List.range 36).foldl (fun s p => s.modTile p (fun t =>
    if t.defective || t.failed then t else { t with isoEn := false, inReset := false, initBusy := false })) s)

/-- The end of a reset of scope 0 to 3 (R436, R446, R447): counted, reported and answered. -/
def resetDone (s : State) : State :=
  match s.bu.rst with
  | none => s
  | some r =>
    if !resetEnded s r then s
    else
      let s := { s with bu.rst := none, bu.rstCnt := cnt s.bu.rstCnt 1 }
      let s := match r.scope with
        | 0 => s
        | 1 => partitionEnd s r.index
        | 2 =>
          let s := partitionEnd { s with fab.transitDown := s.fab.transitDown.set r.index false } r.index
          if s.fab.routes.rt ≠ 0 ∧ s.fab.routes.newRt = none ∧ routesUsable s 0 then startReroute s 0 else qosRecompute s
        | _ => packageEnd s
      let s := raiseEvent s 0x0014 r.scope [r.index, (s.dt - r.from_) / 1000]
      match r.chan with
      | some (ch, q) => finishCmd s ch 0x0013 q (reply stOk 0 (leBytes 4 (rstStat s) ++ leBytes 4 (if r.scope = 0 then tilId s r.index else 0)))
      | none => s

/-! ### Firmware load (R429, R430) -/

/-- Check 1 of R430. -/
def fwHeaderOk (c : Cmd) : Bool :=
  let h := c.pay
  let n := fld h 8 4
  fld h 0 4 == 0x4B344D46 && fld h 4 1 == 1 && fld h 5 1 == 0xA0 && fld h 6 2 == 0 && decide (4096 ≤ n ∧ n ≤ 4194304) && n % 64 == 0 &&
  decide (fld h 12 4 < n) && fld h 20 44 == 0 && c.inLen == 64 + n + 192

/-- SYS_FW_LOAD (R294, R302, R430). -/
def cmdFwLoad (s : State) (c : Cmd) : State × Reply :=
  if s.bu.service = 2 ∧ s.host.opMode then (s, reply stDeniedMode 0 [])
  else if !c.inPtr ∨ !fwHeaderOk c then (s, reply stBadField 0 [])
  else if sigKeyHash c.pay ≠ Config.vendorKeyHash ∨ !sigOk c.pay then (s, reply stBadSignature 0 [])
  else
    let s := { s with bu.service := 2, bu.fwver := BitVec.ofNat 32 (fld c.pay 16 4) }
    let others := (List.range 4).filter (fun n => n != c.ch && (s.host.mbx.get n).sent)
    let s := others.foldl (fun s n =>
      let m := s.host.mbx.get n
      let r := bufferedRequest m
      completeCmd (s.modMbx n (fun m => { m with sent := false })) (decodeCmd s n r.1 r.2.1 m.bufOk r.2.2).1 m.bufOk (reply stRetry 0 [])) s
    (s, reply stOk 0 (leBytes 4 s.bu.fwver.toNat))

/-! ### Start-up (R431–R435) -/

/-- SYS_START_UP (R431, R446): the tests begin; the reply comes when they end. -/
def cmdStartUp (r : Request) (s : State) (c : Cmd) : State × Option Reply :=
  let f := clampFields c.pay 1 [fr 0 1 0 1]
  if s.bu.phase ≠ 0 then (s, some (reply stBusy f.2 []))
  else
    let full := s.bu.ran && bit (fld (slice c.pay 0 1) 0 1) 0
    ({ s with bu.phase := 1, bu.fast := s.bu.warm && s.bu.retained, bu.full := full, bu.step := 1, bu.ran := true, bu.failUnit := 0,
              bu.startReq := some (c.ch, r) }, none)

/-- Defective physical tiles of the list. -/
def listedTile (s : State) (p : Nat) : Bool := s.bu.defects.any (fun e => field e.toNat 63 60 == 1 && field e.toNat 5 0 == p)

/-- The logical numbering of R17: by die, the eight lowest good slots, and the ninth as the spare. -/
def numbering (good : Nat → Bool) : List (Option Nat) × List (Option Nat) :=
  let die := fun (d : Nat) => ((List.range 9).map (9 * d + ·)).filter good
  (((List.range 4).map (fun d => (List.range 8).map (fun i => (die d)[i]?))).flatten, (List.range 4).map (fun d => (die d)[8]?))

/-- The eight edges as their training left them (R247, R248): those named are UP at the width their good lanes allow, the others are
down and reported. -/
def trainEdges (s : State) (ups : List (Fin 8)) : State :=
  (List.range 8).foldl (fun s k =>
    let s := (List.range 16).foldl (fun s i =>
      s.modGroup (groupNo k (i / 8) (i % 8)) (fun q => trainGroup { q with bad := (q.bad ++ defectLanes s k (i / 8) (i % 8)).eraseDups })) s
    if ups.any (fun u => u.val == k) ∧ 4 ≤ liveGroups s k then
      s.modEdge k (fun e => { e with state := 2, attempts := 0, holding := false, eseq := Tab.const 0, early := Tab.const [] })
    else edgeDown (s.modEdge k (fun e => { e with attempts := 3 })) k) s

/-- A compute die that no UP edge reaches, as its register unit (R29, R434). -/
def strandedDie (s : State) : Nat :=
  match (List.range 4).find? (fun d => !(dieEdges d).any (fun k => edgeUp s k)) with
  | some d => 0x10 + d
  | none => 0

/-- The end of start-up: DT zero, the service phase and the answer (R431 step 9, R434, R446, R447). -/
def startUpAnswer (s : State) (us : Nat) : State :=
  let bad := s.bu.failUnit ≠ 0
  let s := { s with bu.phase := if bad then 3 else 2, bu.step := 9, bu.dur := us % 2 ^ 32, bu.retained := s.bu.retained || !bad }
  let s := if bad then s else
    let s := { s with time.dt := 0, time.frac := 0 }
    raiseEvent s 0x0010 (b2n s.bu.fast)
      [s.bu.defects.length + originCount s (fun o => o == 1 || o == 2) * 2 ^ 16 + inService s * 2 ^ 32, us]
  match s.bu.startReq with
  | some (ch, r) =>
    let s := { s with bu.startReq := none }
    let asked := fld (slice (decodeCmd s ch 0x0011 r true 0).1.pay 0 1) 0 1
    finishCmd s ch 0x0011 r { status := if bad then stNoResource else stOk, clamps := b2n (!s.bu.full && bit asked 0) + b2n (2 ≤ asked),
                              data := startSummary s, bulk := defectBulk s }
  | none => s

/-- START_UP_DONE (R431, R433–R435): what the tests and the training found. -/
def startUpDone (s : State) (r : StartUpResult) : State :=
  if s.bu.phase ≠ 1 then s
  else
    let fast := s.bu.fast
    let tested := !fast || s.bu.full
    let guardOf := fun (p : Nat) => (assocGet 0 (r.guards.map (fun g => (g.1.val, g.2))) p)
    let faults := if tested then
        (r.tileFaults.map (fun x => (x.1.val, if x.2 = 2 then 2 else 1))) ++ ((List.range 36).filter (fun p => 50 < guardOf p)).map (fun p => (p, 2))
      else []
    let s := r.lanes.foldl (fun s l => addDefect s (laneDefect l)) s
    let s := if fast then s else faults.foldl (fun s x => addDefect s (tileDefect 1 x.2 x.1)) s
    let s := trainEdges s r.edgesUp
    let unit_ := if r.failUnit.toNat ≠ 0 then r.failUnit.toNat else strandedDie s
    if unit_ ≠ 0 then startUpAnswer { s with bu.failUnit := unit_ } r.us
    else
      let inDram := fun (a : Nat) => fast && decide (a < 4 * dieSpan)
      let s := { s with
        fab.mem := s.fab.mem.filter (fun c => inDram c.1), fab.lost := if fast then s.fab.lost else [], fab.poison := s.fab.poison.filter (fun w => inDram (w * 8)),
        fab.symErr := { s.fab.symErr with cells := s.fab.symErr.cells.filter (fun c => inDram (c.1 * 32)) },
        fab.dieReset := Tab.const false, fab.transitDown := Tab.const false }
      let s := (List.range 4).foldl (fun s d => s.modDrm d (fun x => { x with ready := true, selfref := false })) s
      let s := if tested then (List.range 36).foldl (fun s p => s.modDvfs p (fun d => { d with guard := guardOf p })) s else s
      let s := if fast then s else
        let m := numbering (fun p => !listedTile s p)
        let s := { s with bu.map := m.1, bu.spares := m.2 }
        (List.range 36).foldl (fun s p =>
          let bad := listedTile s p
          let l := logicalOf s p
          s.modTile p (fun t => { t with defective := bad, failed := false, logical := l, role := if bad then 2 else if l.isSome then 0 else 1 })) s
      let s := (List.range 36).foldl (fun s p => s.modTile p (fun t =>
        if t.defective || t.failed then t else { t with isoEn := false, inReset := false, initBusy := false })) s
      let s := setClocks (qosRecompute (writeMaps s)) .run
      let s := if fast then { s with bu.fails := s.bu.fails ++ faults } else s
      startUpAnswer s r.us

/-! ### Pins and phases (R400, R402, R404, R419, R426, R435, R436, R452) -/

/-- POR_N released: the supplies are good (R452); the boot phase follows once PERST_N is released too. -/
def porRelease (s : State) : State := { s with pins := { s.pins with porN := true, aonGood := true }, pwr.boot := 0 }

/-- POR_N asserted: everything but the islands is reset (R436). -/
def porAssert (s : State) : State :=
  let s := deviceReset s
  { s with pins := { s.pins with porN := false } }

/-- VDD_AON below 0.70 V: the AON domain is in reset and holds nothing, and the device with it (R452; log entry 25). -/
def aonLow (s : State) : State :=
  let s := deviceReset s
  { s with pins := { s.pins with aonGood := false }, pwr.trip := false, pwr.spot := 0, pwr.boot := 0 }

/-- PERST_N asserted: a warm reset while POR_N is high (R435); ignored while it is low (R452) and, with the device in Off, without effect. -/
def perstAssert (s : State) : State :=
  let s' := { s with pins := { s.pins with perstN := false } }
  if !s.pins.porN ∨ !s.pins.aonGood ∨ s.pwr.state = .off then s' else warmReset (warnPartner s')

/-- PERST_N released. -/
def perstRelease (s : State) : State := { s with pins := { s.pins with perstN := true } }

/-- The boot phase ends (R426): AON logic, hub PLLs and the PCIe link are up, and the boot service takes commands. -/
def bootReady (s : State) : State :=
  if s.pins.porN ∧ s.pins.perstN ∧ s.pins.aonGood ∧ s.bu.service = 0 ∧ s.pwr.state = .run then
    let p := s.host.pci
    let s := { s with
      bu.service := 1, host.mbx := s.host.mbx.map (fun m => { m with ready := true }),
      host.pci := if p.up then p else { p with up := true, rate := 6, width := 8, flit := true } }
    qosRecompute { s with fab.clk := (List.range 98).foldl (fun t k =>
      t.modify k (fun c => if 64 ≤ k ∧ c.state = 0 then { c with state := 2, changed := true } else c)) s.fab.clk }
  else s

/-- WAKE_N low (R400, R402): a level wake event; from Off, a cold boot. Ignored while POR_N is low (R452). -/
def wakeAssert (s : State) : State :=
  let s' := { s with pins := { s.pins with wakeN := false } }
  if !s.pins.porN ∨ !s.pins.aonGood then s'
  else if s.pwr.state = .off then
    let n := deviceReset s'
    { n with pwr.boot := 1, pwr.wake := 1 }
  else wakeEvent s' true 1 (fun st => st != .run)

/-- The end of the entry window (R402–R404). -/
def entryWindowEnd (s : State) : State :=
  match s.pwr.entering with
  | some st =>
    if s.dt < s.pwr.entryDt + entryWindow then s
    else if st = .off ∧ s.pwr.levelWake = none then powerOff (warnPartner s) false 0
    else entryEnd s st
  | none => s

/-- A thermal trip in any powered state (R404, R419). -/
def thermalTrip (s : State) (spot : Nat) : State :=
  if !s.pins.porN ∨ !s.pins.aonGood ∨ s.pwr.state = .off then s else powerOff s true spot

/-! ### One meaning per command -/

def execPorNRelease (now : Nat) (s : State) : Out := .next (porRelease (s.advance now))
def execPerstNRelease (now : Nat) (s : State) : Out := .next (perstRelease (s.advance now))
def execPerstNAssert (now : Nat) (s : State) : Out := .next (perstAssert (s.advance now))
def execAonSupplyLow (s : State) : Out := .next (aonLow s)
def execBootReady (now : Nat) (s : State) : Out := .next (bootReady (s.advance now))
def execWakeNAssert (now : Nat) (s : State) : Out := .next (wakeAssert (s.advance now))
def execPorNAssert (s : State) : Out := .next (porAssert s)
def execSysFwLoad (ch : Fin 4) (r : Request) (s : State) : Out := cerfosil s ch 0x0003 r cmdFwLoad
def execSysDefectLoad (ch : Fin 4) (r : Request) (s : State) : Out := cerfosil s ch 0x0010 r cmdDefectLoad
def execSysStartUp (ch : Fin 4) (r : Request) (s : State) : Out := .next (runCmdLater s ch 0x0011 r 0 (cmdStartUp r))
def execStartUpDone (r : StartUpResult) (s : State) : Out := .next (startUpDone s r)
def execSysDefectQuery (ch : Fin 4) (r : Request) (s : State) : Out := cerfosil s ch 0x0012 r cmdDefectQuery
def execSysReset (ch : Fin 4) (r : Request) (s : State) : Out := .next (runCmdLater s ch 0x0013 r 0 (cmdReset r))
def execResetDone (now : Nat) (s : State) : Out := .next (resetDone (s.advance now))
def execTileFail (ch : Fin 4) (r : Request) (s : State) : Out := cerfosil s ch 0x0014 r cmdTileFail
def execQuarantineSelftestDone (p : Fin 36) (pass : Bool) (now : Nat) (s : State) : Out := .next (quarantineDone (s.advance now) p pass)
def execHubBuCtrlCntClr (s : State) : Out := .next (buCntClr s)
def execTileReset (p : Fin 36) (s : State) : Out := .next (tileReset s p)
def execSramInitDone (p : Fin 36) (s : State) : Out := .next (sramInitDone s p)
def execIsoEnAssert (p : Fin 36) (s : State) : Out := .next (tileStop s p)
def execIsoEnRelease (p : Fin 36) (s : State) : Out := .next (isoRelease s p)
def execFlowSwitch (i : Fin 20) (s : State) : Out := .next (transitProceed (flowSwitch s i))
def execFlowDrainTimeout (i : Fin 20) (s : State) : Out := .next (transitProceed (flowDrainTimeout s i))
def execEntryWindowEnd (now : Nat) (s : State) : Out := .next (entryWindowEnd (s.advance now))
def execThermalTrip (spot : Fin 48) (s : State) : Out := .next (thermalTrip s spot)

end Sys2Proof.Machine
end

