-- ==== Sys2Proof/Machine/Tile.lean ====
section
/-! DEFINITION. The tile's sequencer: launches, issue, completion, semaphores, errors (chapter 02, R50–R66). -/

namespace Sys2Proof.Machine

/-! ### Descriptor header (R54) -/

/-- Word `i` of a descriptor. -/
def Desc.w (d : Desc) (i : Nat) : Nat := (d.words.getD i 0).toNat
/-- Opcode. -/
def Desc.op (d : Desc) : Nat := d.w 0 % 256
def Desc.tag (d : Desc) : Nat := field (d.w 0) 63 56
def Desc.chan (d : Desc) : Nat := field (d.w 0) 53 52
def Desc.label (d : Desc) : Nat := field (d.w 0) 13 10
def Desc.errCont (d : Desc) : Bool := bit (d.w 0) 49
def Desc.barrier (d : Desc) : Bool := bit (d.w 0) 48

/-- The semaphore of a slot, if the slot is enabled. -/
def slotSem (b : Nat) : Option Nat := if bit b 7 then some (b % 64) else none

/-- Semaphores of the enabled wait slots. -/
def Desc.waits (d : Desc) : List Nat := [field (d.w 0) 23 16, field (d.w 0) 31 24].filterMap slotSem
/-- Semaphores of the enabled signal slots. -/
def Desc.sigs (d : Desc) : List Nat := [field (d.w 0) 39 32, field (d.w 0) 47 40].filterMap slotSem

/-- The streams that allow an opcode (R58): none for a reserved opcode, `some none` for any stream. -/
def opStream (op : Nat) : Option (Option Nat) :=
  if op ≤ 0x08 then some none
  else if 0x10 ≤ op ∧ op ≤ 0x12 then some (some 0)
  else if 0x20 ≤ op ∧ op ≤ 0x26 then some (some 1)
  else if 0x30 ≤ op ∧ op ≤ 0x33 then some (some 2)
  else if op = 0x40 ∨ op = 0x41 then some (some 3)
  else none

/-- BAD_OPCODE or BAD_STREAM of a descriptor in stream `st` (R57, R58). -/
def opError (st : Nat) (d : Desc) : Option Nat :=
  match opStream d.op with
  | none => some 0x01
  | some any => if field (d.w 0) 9 8 ≠ st ∨ (any.isSome ∧ any ≠ some st) then some 0x02 else none

/-- A nonzero reserved field of the header, or a channel outside the DMA stream (R54). -/
def headerBad (st : Nat) (d : Desc) : Bool :=
  let w := d.w 0
  field w 55 54 != 0 || bit w 51 || bit w 46 || bit w 38 || bit w 30 || bit w 22 || field w 15 14 != 0 || (st != 2 && field w 53 52 != 0)

/-- Whether words `n` to 7 are 0. -/
def Desc.zeroFrom (d : Desc) (n : Nat) : Bool := (List.range 8).all (fun i => decide (i < n) || d.w i == 0)

/-! ### Errors (R57) -/

/-- Error codes (R57). -/
def teBadField : Nat := 0x03
def teFetch : Nat := 0x04
def teRsp : Nat := 0x05
def teEcc : Nat := 0x06
def tePoison : Nat := 0x07
def teVacant : Nat := 0x08
def teOverflow : Nat := 0x09
def teTimeout : Nat := 0x0A
def teBadProgram : Nat := 0x0B

/-- TIL_ERR_FIRST as captured (R65). -/
def errFirst (code stream tag : Nat) : Nat := pack [(8, code), (2, stream), (6, 0), (8, tag), (7, 0), (1, 1)]

/-- An error recorded: its status bit, the count, the first capture, and the TILE_ERROR event (R57, R312). -/
def recordError (s : State) (p code stream tag daddr : Nat) : State :=
  let s := s.modTile p (fun t =>
    let t := { t with errStat := t.errStat ||| BitVec.ofNat 32 (2 ^ code), errCnt := cnt t.errCnt 1 }
    if bit t.errFirst.toNat 31 then t else { t with errFirst := BitVec.ofNat 32 (errFirst code stream tag), errDaddr := daddr })
  raiseEvent s 0x0300 p [logicalField (s.tiles.get p).logical + code * 256 + stream * 65536 + tag * 16777216, daddr]

/-! ### The end of a launch (R53) -/

/-- A DMA descriptor that makes no further request. -/
def Issued.stopped (x : Issued) : Issued :=
  { x with work := x.work.map (fun w => { w with todo := [], phase := 2, gate := none }) }

/-- A walker's write of HUB_KVT_UNPIN (R165, R166); one that cannot reach the hub completes with an error and releases nothing. -/
def walkUnpin (s : State) (p : Nat) : State := if pathUsable s p 4 then (kvtUnpin s p).1 else s

/-- DONE is driven once a launch has ended and every issued descriptor has completed; a walk's pin is released before it (R53, R166). -/
def settleRun (s : State) (p : Nat) : State :=
  let t := s.tiles.get p
  match t.run with
  | some r =>
    match r.ended with
    | some st =>
      if t.issued = [] then
        let s := if t.walk.isSome then walkUnpin s p else s
        reportDone (s.modTile p (fun t => { t with run := none, walk := none })) p r.launch st
      else s
    | none => s
  | none => s

/-- The ending event of the running launch: nothing issues after it, waits are given up, DMA descriptors make no further request (R53). -/
def endRun (s : State) (p : Nat) (st : Half) : State :=
  match (s.tiles.get p).run with
  | none => s
  | some r =>
    if r.ended.isSome then s
    else
      settleRun (s.modTile p (fun t => { t with
        run := some { r with ended := some st, streams := r.streams.map (fun x => { x with waiting := none }) },
        issued := t.issued.map Issued.stopped })) p

/-- An error that halts the launch. -/
def failDesc (s : State) (p st : Nat) (d : Desc) (code : Nat) : State := endRun (recordError s p code st d.tag d.addr) p stTileError

/-- A continuable error: it halts the launch unless the descriptor has err_cont (R57). -/
def softError (s : State) (p st : Nat) (d : Desc) (code : Nat) : State :=
  let s := recordError s p code st d.tag d.addr
  if d.errCont then s else endRun s p stTileError

/-- Whether the tile's launch is running and has not ended. -/
def liveRun (s : State) (p : Nat) : Bool :=
  match (s.tiles.get p).run with
  | some r => r.ended.isNone
  | none => false

/-- The running launch's record changed. -/
def modRun (s : State) (p : Nat) (f : Running → Running) : State := s.modTile p (fun t => { t with run := t.run.map f })

/-- A stream's record changed. -/
def tileStream (s : State) (p st : Nat) (f : StreamSt → StreamSt) : State := modRun s p (fun r => { r with streams := r.streams.modify st f })

/-- LCH_SEQ of the running launch. -/
def runSeq (s : State) (p : Nat) : Word := (s.tiles.get p).curSeq

/-! ### Semaphores (R56, R61) -/

/-- Additions of one completion: semaphore and count. -/
def semAdds (d : Desc) (signals : Bool) : List (Nat × Nat) :=
  (if signals then d.sigs.map (fun i => (i, 1)) else []) ++ (if d.op = 0x05 then (bitsOf (d.w 1) 64).map (fun i => (i, d.w 2 % 256)) else [])

/-- Additions applied together: a semaphore that would pass 255 stays at 255 and SEM_OVERFLOW is recorded (R56). -/
def applySignals (s : State) (p st : Nat) (d : Desc) (adds : List (Nat × Nat)) : State :=
  (bitsOf (maskOf 64 (fun i => adds.any (·.1 == i))) 64).foldl (fun s i =>
    let n := (s.tiles.get p).sem.get i + ((adds.filter (·.1 == i)).map (·.2)).sum
    let s := s.modTile p (fun t => { t with sem := t.sem.set i (min n 255) })
    if 255 < n then softError s p st d teOverflow else s) s

/-- Every wait slot is satisfied: a semaphore named twice must be at least 2 (R56). -/
def slotsOk (t : Tile) (need : List Nat) : Bool := need.all (fun i => decide (need.count i ≤ t.sem.get i))

/-- The head of a stream that may issue: the launch runs, nothing holds the stream (R55, R65). -/
def headOf (t : Tile) (st : Nat) : Option Desc :=
  match t.run with
  | none => none
  | some r =>
    let x := r.streams.get st
    if r.ended.isSome || t.dbgHalt || !x.valid || x.closed || x.waiting.isSome then none else x.pre.head?

/-- A lower-numbered stream whose head waits on a semaphore that cannot satisfy both (R56). -/
def contended (t : Tile) (st : Nat) (need : List Nat) : Bool :=
  (List.range st).any (fun l =>
    match headOf t l with
    | some d => slotsOk t d.waits && d.waits.any (fun i => need.contains i && decide (t.sem.get i < d.waits.count i + need.count i))
    | none => false)

/-- The issue conditions of every descriptor (R55): barrier, control-stream order, wait slots. -/
def mayIssue (t : Tile) (st : Nat) (d : Desc) : Bool :=
  let busy := t.issued.any (fun x => x.stream == st)
  !(busy && (d.barrier || st == 3)) && slotsOk t d.waits && !contended t st d.waits

/-- The head leaves its stream: its wait slots consume, and its issue is traced (R56, R306). -/
def popHead (s : State) (p st : Nat) (d : Desc) : State :=
  let s := s.modTile p (fun t => { t with sem := d.waits.foldl (fun m i => m.modify i (· - 1)) t.sem })
  let s := tileStream s p st (fun x => { x with pre := x.pre.drop 1 })
  traceRecord s p (runSeq s p) d st false 0

/-! ### Posts and line-buffer releases (R64, R136) -/

/-- A TIL_EVT_ADD write of tile `p` to a logical tile, through its own map: none, or the error it records (R64). -/
def tilePost (s : State) (p ltile ctr inc : Nat) : State × Option Nat :=
  match lmapPhys ((s.tiles.get p).lmap.get ltile) with
  | none => (s, some teVacant)
  | some q =>
    if 36 ≤ q then (decodeErrorEvent s p (regAddr (0x40 + q) 2 0x60) 1, some teRsp)
    else if tileAbsorbed s q || (s.tiles.get q).defective || s.fab.transitDown.get (dieOf q) then (countAbsorb s (regAddr (0x40 + q) 0 0), some teRsp)
    else if !pathUsable s p (dieOf q) then (s, some teRsp)
    else (evtAdd s q ctr inc, none)

/-- Rows of a line buffer released (R136): RP advances, rows stored ahead become current, and the credit target is told. -/
def lbRelease (s : State) (p b n : Nat) : State × Option Nat :=
  let x := (s.tiles.get p).lbs.get b
  if !x.defined || n = 0 then (s, none)
  else
    let s := s.modTile p (fun t => { t with lbs := t.lbs.modify b (fun y => lbAdvance (y.h + y.k) { y with rp := y.rp + n }) })
    if !x.cen then (s, none)
    else if x.self then (evtAdd s p x.ctr n, none)
    else tilePost s p x.ltile x.ctr n

/-- The line buffers that a CONV_STRIPE or POOL releases at completion: (buffer, rows). -/
def releasesOf (d : Desc) : List (Nat × Nat) :=
  let w := if d.op = 0x11 then d.w 6 else if d.op = 0x23 then d.w 5 else 0
  [(field w 35 32, field w 26 22), (field w 21 18, field w 12 8)].filter (fun x => decide (0 < x.2))

/-- Releases of a completing descriptor; a failed credit post is recorded against it (R136). -/
def releaseAll (s : State) (p st : Nat) (d : Desc) (rs : List (Nat × Nat)) : State :=
  rs.foldl (fun s x =>
    let r := lbRelease s p x.1 x.2
    match r.2 with
    | some e => softError r.1 p st d e
    | none => r.1) s

/-! ### Completion (R53, R55, R56) -/

/-- Every valid stream has completed its COMPLETE. -/
def allDone (r : Running) : Bool := (List.range 4).all (fun n => !(r.streams.get n).valid || (r.streams.get n).done)

/-- A descriptor completes: releases, trace, signals; COMPLETE ends its stream, and the last one the launch. After the ending event neither
releases nor signals are applied (R53). -/
def completeDesc (s : State) (p : Nat) (x : Issued) : State :=
  let d := x.desc
  let s := if liveRun s p then releaseAll s p x.stream d (releasesOf d) else s
  let s := traceRecord s p (runSeq s p) d x.stream true (x.err.getD 0)
  let s := if liveRun s p then applySignals s p x.stream d (semAdds d x.signals) else s
  let s := if d.op = 0x01 ∧ liveRun s p then
      let s := tileStream s p x.stream (fun y => { y with done := true })
      match (s.tiles.get p).run with
      | some r => if allDone r then endRun s p stOk else s
      | none => s
    else s
  settleRun s p

/-- Whether a descriptor that takes no time must wait for earlier ones: SIGNAL_SEM and COMPLETE for every earlier one of the stream, the
others for earlier ones of a matrix or vector stream, or of their channel (R55). -/
def ordered (t : Tile) (st : Nat) (d : Desc) : Bool :=
  t.issued.any (fun x => x.stream == st && (d.op == 0x01 || d.op == 0x05 || st != 2 || x.desc.chan == d.chan))

/-- An issued descriptor with nothing left to do: it completes at once, or takes its place behind earlier ones. -/
def finishIssue (s : State) (p st : Nat) (d : Desc) (err : Option Nat) (acc : Nat) : State :=
  let x : Issued := { desc := d, stream := st, err := err, work := none, acc := acc, signals := true }
  if ordered (s.tiles.get p) st d then s.modTile p (fun t => { t with issued := t.issued ++ [x] }) else completeDesc s p x

/-- An issued descriptor that takes time: it completes in DESCRIPTOR_COMPLETE. -/
def holdIssue (s : State) (p st : Nat) (d : Desc) (err : Option Nat) (acc : Nat) : State :=
  let x : Issued := { desc := d, stream := st, err := err, work := none, acc := acc, signals := true }
  s.modTile p (fun t => { t with issued := t.issued ++ [x] })

/-- DMA work that is done: every planned request has been made and answered. -/
def DmaWork.finished (w : DmaWork) : Bool := w.phase == 2 && w.todo.isEmpty && w.out.isEmpty

/-- Whether an issued descriptor may complete now, given the earlier ones of its stream. -/
def completable (x : Issued) (earlier : List Issued) : Bool :=
  (match x.work with
    | some w => w.finished
    | none => true) &&
  earlier.all (fun y => !(y.stream == x.stream && (x.desc.op == 0x01 || x.desc.op == 0x05 || x.stream != 2 || y.desc.chan == x.desc.chan)))

/-- The position of the oldest descriptor of a stream (and, in the DMA stream, of a channel) that has not completed. -/
def oldestIssued (t : Tile) (st chan : Nat) : Option Nat := indexOf? (fun x => x.stream == st && (st != 2 || x.desc.chan == chan)) t.issued

/-- Whether an arithmetic unit that ARITH_GATE stops works on a descriptor (R47). -/
def gated (t : Tile) (d : Desc) : Bool := t.arithGate && decide (0x10 ≤ d.op ∧ d.op ≤ 0x26)

/-! ### Issue -/

/-- The tile's clock runs (R400): what it does waits while a power state stops it. -/
def tileClocked (s : State) (p : Nat) : Bool := !stoppedDomain s.pwr.state p

/-- The head of a stream issues if its opcode is one of the row's, the conditions of R55 hold and its unit can take it; a header with a
reserved field raises BAD_FIELD. -/
def issueOp (s : State) (p st : Nat) (ops : Nat → Bool) (ready : State → Desc → Bool) (body : State → Desc → State) : State :=
  let t := s.tiles.get p
  match headOf t st with
  | none => s
  | some d =>
    if !tileClocked s p || !ops d.op || (opError st d).isSome || !mayIssue t st d || gated t d || !ready s d then s
    else
      let s := popHead s p st d
      if headerBad st d then failDesc s p st d teBadField else body s d

/-- No unit of its own. -/
def anyTime (_ : State) (_ : Desc) : Bool := true

/-- A taken branch: prefetched descriptors are dropped and fetching restarts at the target (R52). -/
def branchTo (s : State) (p st : Nat) (d : Desc) (offset : Nat) : State :=
  tileStream s p st (fun x => { x with pre := [], fetch := uint 48 ((d.addr : Int) + sint 32 offset * 64) })

/-! ### Launches (R51, R52) -/

/-- A tile accepts a strobe (R52): it is clocked and out of isolation, launch_en is 1 and the queue has room. -/
def tileReady (s : State) (p : Nat) : Bool :=
  let t := s.tiles.get p
  t.launchEn && decide (t.queue.length < 8) && !tileAbsorbed s p && tileClocked s p

/-- A launch enters a tile's queue. -/
def tileAccept (s : State) (p : Nat) (l : Launch) : State := s.modTile p (fun t => { t with queue := t.queue ++ [l] })

/-- A strobe at a tile. -/
def launchStrobe (s : State) (p : Nat) (b : Strobe) : State :=
  if tileReady s p then let x := takeHeld s p b; tileAccept x.1 p x.2 else s

/-- A stream before its directory word has been read. -/
def idleStream : StreamSt :=
  { valid := false, fetch := 0, pre := [], closed := false, done := false, waiting := none, loops := Tab.const (false, 0) }

/-- The generators as a launch seeds them (R87). -/
def seededRng (seq : Word) (p : Nat) : Tab Word := { dflt := 0, cells := (List.range 1024).map (fun l => (l, laneSeed seq p l)) }

/-- The next queued launch starts (R52, R53): S0–S47 and the loop counters cleared, the generators seeded; a program outside the directory is
BAD_PROGRAM. -/
def launchStart (s : State) (p : Nat) : State :=
  let t := s.tiles.get p
  match t.run, (if tileClocked s p then t.queue else []) with
  | none, l :: rest =>
    let prog := l.strobe.prog.toNat
    let r : Running := { launch := l, streams := Tab.const idleStream, dirRead := false, ended := none }
    let s := s.modTile p (fun t => { t with
      queue := rest, run := some r, curSeq := l.strobe.seq, lastProg := prog, rng := seededRng l.strobe.seq p,
      sem := (List.range 48).foldl (fun m i => m.set i 0) t.sem })
    if t.pdirCnt ≤ prog then
      let f := s.freeVal.toNat
      endRun (recordError s.took p teBadProgram (f % 4) (f / 4 % 256) (f / 1024 % 2 ^ 48)) p stBadProgram
    else s
  | _, _ => s

/-- A fetch targets tile SRAM, hub SRAM or DRAM (R51, R57). -/
def fetchable (a : Nat) : Bool :=
  match target a with
  | .dram _ _ => true
  | .tileSram _ _ => true
  | .hubSram _ => true
  | _ => false

/-- A read of the fetch unit: none where it returned an error or poison, or may not be made. -/
def fetchRead (s : State) (src addr len : Nat) : State × Option (List Byte) :=
  if !fetchable addr || !fetchable (addr + len - 1) then (s, none)
  else
    let r := readRange s src addr len
    (r.1, if r.2.1 = stOk ∧ !r.2.2.2 then some r.2.2.1 else none)

/-- Streams of a directory entry, or the number of the first word that breaks R51. -/
def dirStreams (ws : List Nat) : Option Nat :=
  indexOf? (fun w => bit w 0 && (field w 63 48 != 0 || field w 5 1 != 0)) ws

/-- The directory word of each stream arrives (R51, R53). -/
def directoryRead (s : State) (p : Nat) (r : Running) : State :=
  let a := (s.tiles.get p).pdirBase + 32 * r.launch.strobe.prog.toNat
  let x := fetchRead s p a 32
  let s := modRun x.1 p (fun r => { r with dirRead := true })
  match x.2 with
  | none =>
    let f := s.freeVal.toNat
    endRun (recordError s.took p teFetch (f % 4) (f / 4 % 256) a) p stTileError
  | some bs =>
    let ws := (List.range 4).map (fun i => fld bs (8 * i) 8)
    match dirStreams ws with
    | some n => endRun (recordError s p teBadField n 0 (a + 8 * n)) p stTileError
    | none =>
      if ws.all (fun w => !bit w 0) then
        let f := s.freeVal.toNat
        endRun (recordError s.took p teBadProgram (f % 4) (f / 4 % 256) a) p stBadProgram
      else
        modRun s p (fun r => { r with
          streams := (List.range 4).foldl (fun m i =>
            m.set i { idleStream with valid := bit (ws.getD i 0) 0, fetch := field (ws.getD i 0) 47 6 * 64 }) r.streams })

/-- The next descriptor of a stream arrives, up to 8 ahead; none is fetched beyond a COMPLETE (R52, R57). -/
def descriptorRead (s : State) (p st : Nat) (r : Running) : State :=
  let x := r.streams.get st
  let closing : Bool := match x.pre.getLast? with
    | some d => d.op == 0x01
    | none => false
  if !r.dirRead || !x.valid || x.closed || closing || decide (8 ≤ x.pre.length) then s
  else
    let y := fetchRead s p x.fetch 64
    match y.2 with
    | none =>
      let f := y.1.freeVal.toNat
      endRun (recordError y.1.took p teFetch st (f % 256) x.fetch) p stTileError
    | some bs =>
      let d : Desc := { addr := x.fetch, words := (List.range 8).map (fun i => BitVec.ofNat 64 (fld bs (8 * i) 8)) }
      tileStream y.1 p st (fun z => { z with pre := z.pre ++ [d], fetch := (z.fetch + 64) % 2 ^ 48 })

/-- A fetch response of a tile arrives. -/
def tileFetch (s : State) (p : Nat) (f : FetchOf) : State :=
  match (s.tiles.get p).run with
  | none => s
  | some r =>
    if r.ended.isSome || !tileClocked s p then s
    else match f with
      | .directory => if r.dirRead then s else directoryRead s p r
      | .stream st => descriptorRead s p st r

/-! ### Control flow (R58–R64) -/

/-- A reserved opcode or a wrong stream (R58). -/
def reservedOp (s : State) (p st : Nat) : State :=
  let t := s.tiles.get p
  match headOf t st with
  | none => s
  | some d =>
    match opError st d with
    | none => s
    | some e => if mayIssue t st d && tileClocked s p then failDesc (popHead s p st d) p st d e else s

/-- NOP. -/
def nopOp (s : State) (p st : Nat) : State :=
  issueOp s p st (· == 0x00) anyTime (fun s d => if d.zeroFrom 1 then finishIssue s p st d none 0 else failDesc s p st d teBadField)

/-- COMPLETE ends its stream: nothing of it issues after. -/
def completeOp (s : State) (p st : Nat) : State :=
  issueOp s p st (· == 0x01) anyTime (fun s d =>
    if d.zeroFrom 1 then finishIssue (tileStream s p st (fun x => { x with closed := true, pre := [] })) p st d none 0
    else failDesc s p st d teBadField)

/-- The loop counter of a stream. -/
def loopOf (t : Tile) (st c : Nat) : Bool × Nat :=
  match t.run with
  | some r => (r.streams.get st).loops.get c
  | none => (false, 0)

/-- LOOP (R59). -/
def loopOp (s : State) (p st : Nat) : State :=
  issueOp s p st (· == 0x02) anyTime (fun s d =>
    if field (d.w 1) 63 34 ≠ 0 ∨ field (d.w 2) 63 32 ≠ 0 ∨ !d.zeroFrom 3 then failDesc s p st d teBadField
    else
      let c := field (d.w 1) 33 32
      let n := max 1 (field (d.w 1) 31 0)
      let lc := loopOf (s.tiles.get p) st c
      let passes := (if lc.1 then lc.2 else 0) + 1
      let s := if passes < n then branchTo (tileStream s p st (fun x => { x with loops := x.loops.set c (true, passes) })) p st d (field (d.w 2) 31 0)
        else tileStream s p st (fun x => { x with loops := x.loops.set c (false, 0) })
      finishIssue s p st d none 0)

/-- A line buffer's row counter RC (R132). -/
def rowCounter (b : LineBuf) : Nat := if b.defined then (b.y0 + b.rc) % 65536 else 0

/-- Counter 0–31 of WAIT_EVENT and BRANCH_CNT (R63, R132). -/
def eventValue (t : Tile) (c : Nat) : Nat := if c < 16 then t.ev.get c else rowCounter (t.lbs.get (c - 16))

/-- The value that BRANCH_CNT reads (R60). -/
def branchValue (t : Tile) (st cls i : Nat) : Nat :=
  match cls with
  | 0 => t.sem.get i
  | 1 => eventValue t i
  | 2 => (loopOf t st i).2
  | _ => t.curSeq.toNat

/-- BRANCH_CNT (R60). -/
def branchOp (s : State) (p st : Nat) : State :=
  issueOp s p st (· == 0x03) anyTime (fun s d =>
    let w := d.w 1
    let cls := field w 9 8
    let cond := field w 14 12
    let i := field w 5 0
    let imm := field w 63 32
    let bad := field w 31 15 ≠ 0 ∨ field w 11 10 ≠ 0 ∨ field w 7 6 ≠ 0 ∨ field (d.w 2) 63 32 ≠ 0 ∨ !d.zeroFrom 3 ∨ 3 < cond ∨
      (cls = 1 ∧ 31 < i) ∨ (cls = 2 ∧ 3 < i) ∨ (cls = 3 ∧ i ≠ 0)
    if bad then failDesc s p st d teBadField
    else
      let v := branchValue (s.tiles.get p) st cls i
      let take := if cond = 0 then v == imm else if cond = 1 then v != imm else if cond = 2 then decide (imm ≤ v) else decide (v < imm)
      finishIssue (if take then branchTo s p st d (field (d.w 2) 31 0) else s) p st d none 0)

/-- The stream waits from now on. -/
def startWait (s : State) (p st : Nat) (d : Desc) : State := tileStream s p st (fun x => { x with waiting := some (s.dt, d) })

/-- The descriptor a stream waits in, with the DT of its issue. -/
def waitingIn (t : Tile) (st : Nat) : Option (Nat × Desc) :=
  match t.run with
  | some r => if r.ended.isSome then none else (r.streams.get st).waiting
  | none => none

/-- A wait is over: it completes, whatever is before it (R55). -/
def endWait (s : State) (p st : Nat) (d : Desc) (err : Option Nat) : State :=
  completeDesc (tileStream s p st (fun x => { x with waiting := none })) p { desc := d, stream := st, err := err, work := none, acc := 0, signals := true }

/-- Semaphores of a WAIT_SEM have reached its count, and lower streams leave it enough (R56, R61). -/
def semReached (t : Tile) (st : Nat) (d : Desc) : Bool :=
  (bitsOf (d.w 1) 64).all (fun i => decide (d.w 2 % 256 ≤ t.sem.get i)) &&
  !(bit (d.w 2) 8 && (List.range st).any (fun l =>
    match headOf t l with
    | some e => slotsOk t e.waits && e.waits.any (fun i => bit (d.w 1) i && decide (t.sem.get i < e.waits.count i + d.w 2 % 256))
    | none => false))

/-- A WAIT_SEM releases if it can (R61). -/
def releaseSem (s : State) (p st : Nat) (d : Desc) : State :=
  if semReached (s.tiles.get p) st d then
    let s := if bit (d.w 2) 8 then
        s.modTile p (fun t => { t with sem := (bitsOf (d.w 1) 64).foldl (fun m i => m.modify i (· - d.w 2 % 256)) t.sem })
      else s
    endWait s p st d none
  else s

/-- WAIT_SEM (R61). -/
def waitSemOp (s : State) (p st : Nat) : State :=
  issueOp s p st (· == 0x04) anyTime (fun s d =>
    if field (d.w 2) 63 9 ≠ 0 ∨ !d.zeroFrom 3 ∨ d.w 1 = 0 ∨ d.w 2 % 256 = 0 then failDesc s p st d teBadField
    else releaseSem (startWait s p st d) p st d)

/-- A waiting descriptor of an opcode is looked at again. -/
def retryWait (s : State) (p st op : Nat) (f : State → Nat → Desc → State) : State :=
  match waitingIn (s.tiles.get p) st with
  | some (since, d) => if d.op = op ∧ tileClocked s p then f s since d else s
  | none => s

/-- SIGNAL_SEM (R61): its additions are made when it completes. -/
def signalSemOp (s : State) (p st : Nat) : State :=
  issueOp s p st (· == 0x05) anyTime (fun s d =>
    if field (d.w 2) 63 8 ≠ 0 ∨ !d.zeroFrom 3 ∨ d.w 1 = 0 ∨ d.w 2 % 256 = 0 then failDesc s p st d teBadField
    else finishIssue s p st d none 0)

/-- Target DT of a WAIT_TIME (R62). -/
def waitTarget (t : Tile) (d : Desc) : Nat :=
  match t.run with
  | some r => if bit (d.w 2) 0 then (d.w 1 + r.launch.strobe.dt) % 2 ^ 64 else d.w 1
  | none => d.w 1

/-- A WAIT_TIME releases once its target is reached (R62). -/
def releaseTime (s : State) (p st : Nat) (d : Desc) : State := if waitTarget (s.tiles.get p) d ≤ s.dt then endWait s p st d none else s

/-- WAIT_TIME (R62): one that is late already is counted. -/
def waitTimeOp (s : State) (p st : Nat) : State :=
  issueOp s p st (· == 0x06) anyTime (fun s d =>
    if field (d.w 2) 63 1 ≠ 0 ∨ !d.zeroFrom 3 then failDesc s p st d teBadField
    else
      let s := if waitTarget (s.tiles.get p) d < s.dt then s.modTile p (fun t => { t with wtLate := cnt t.wtLate 1 }) else s
      releaseTime (startWait s p st d) p st d)

/-- Threshold comparison modulo 2¹⁶ (R63). -/
def reached (value thr : Nat) : Bool := decide ((value + 65536 - thr) % 65536 < 32768)

/-- The counter and threshold of a WAIT_EVENT. -/
def eventReached (t : Tile) (d : Desc) : Bool := reached (eventValue t (field (d.w 1) 4 0)) (field (d.w 1) 31 16)

/-- A WAIT_EVENT releases once its counter has reached the threshold (R63). -/
def releaseEvent (s : State) (p st : Nat) (d : Desc) : State :=
  if eventReached (s.tiles.get p) d then
    let s := if bit (d.w 1) 32 then
        s.modTile p (fun t => { t with ev := t.ev.modify (field (d.w 1) 4 0) (fun n => (n + 65536 - field (d.w 1) 31 16) % 65536) })
      else s
    endWait s p st d none
  else s

/-- WAIT_EVENT (R63). -/
def waitEventOp (s : State) (p st : Nat) : State :=
  issueOp s p st (· == 0x07) anyTime (fun s d =>
    let w := d.w 1
    if field w 63 33 ≠ 0 ∨ field w 15 5 ≠ 0 ∨ field (d.w 2) 63 32 ≠ 0 ∨ !d.zeroFrom 3 ∨ (bit w 32 ∧ 16 ≤ field w 4 0) then
      failDesc s p st d teBadField
    else releaseEvent (startWait s p st d) p st d)

/-- The timeout of a WAIT_EVENT expires first (R63). -/
def eventTimeout (s : State) (p st : Nat) : State :=
  retryWait s p st 0x07 (fun s since d =>
    let t := field (d.w 2) 31 0
    if t = 0 ∨ s.dt < since + t ∨ eventReached (s.tiles.get p) d then s
    else
      let s := softError s p st d teTimeout
      if d.errCont then endWait s p st d (some teTimeout) else s)

/-- POST_EVENT (R64). -/
def postEventOp (s : State) (p st : Nat) : State :=
  issueOp s p st (· == 0x08) anyTime (fun s d =>
    let w := d.w 1
    if field w 63 32 ≠ 0 ∨ field w 15 12 ≠ 0 ∨ field w 7 6 ≠ 0 ∨ !d.zeroFrom 2 ∨ field w 31 16 = 0 then failDesc s p st d teBadField
    else if bit w 5 then finishIssue (evtAdd s p (field w 11 8) (field w 31 16)) p st d none 0
    else
      let x := tilePost s p (field w 4 0) (field w 11 8) (field w 31 16)
      match x.2 with
      | none => finishIssue x.1 p st d none 0
      | some e =>
        let s := softError x.1 p st d e
        if d.errCont then finishIssue s p st d (some e) 0 else s)

/-! ### DESCRIPTOR_COMPLETE -/

/-- The oldest descriptor of a stream, or of a DMA channel, completes (R55, R56); a held arithmetic unit completes nothing (R47). A SCATTER or GATHER
stopped by an index records it now (R122). -/
def descriptorComplete (s : State) (p st chan : Nat) : State :=
  let t := s.tiles.get p
  match oldestIssued t st chan with
  | none => s
  | some i =>
    match t.issued[i]? with
    | none => s
    | some x =>
      if !completable x (t.issued.take i) || gated t x.desc || !tileClocked s p then s
      else
        let s := s.modTile p (fun t => { t with issued := t.issued.eraseIdx i })
        match x.work.bind (·.late) with
        | some e => if liveRun s p then failDesc s p st x.desc e else completeDesc s p x
        | none => completeDesc s p x

/-! ### Control registers (R52, R65, R66) -/

/-- TIL_CTRL.cnt_clr. -/
def tileCntClr (s : State) (p : Nat) : State :=
  s.modTile p (fun t => { t with errCnt := 0, ceCnt := 0, ueCnt := 0, wtLate := 0, busyMat := 0, busyVec := 0, busySfu := 0, busyDma := 0 })

/-- TIL_CTRL.sem_clr. -/
def tileSemClr (s : State) (p : Nat) : State :=
  s.modTile p (fun t => if t.run.isSome then t else { t with sem := Tab.const 0, ev := Tab.const 0 })

/-- TIL_CTRL.abort. -/
def tileAbort (s : State) (p : Nat) : State := endRun s p stAborted

/-- TIL_CTRL.launch_en. -/
def tileLaunchEn (s : State) (p : Nat) (on : Bool) : State := s.modTile p (fun t => { t with launchEn := on })

/-- TIL_CTRL.dbg_halt: an attached tile takes it (R305), and none does in OPERATIONAL (R6). -/
def tileDbgHalt (s : State) (p : Nat) (on : Bool) : State :=
  if s.host.opMode || !s.host.sessions.contains p then s else s.modTile p (fun t => { t with dbgHalt := on })

/-- A write of TIL_CTRL as a whole. -/
def tileCtrlWrite (s : State) (p v : Nat) : State :=
  let s := tileDbgHalt (tileLaunchEn s p (bit v 1)) p (bit v 0)
  let s := if bit v 3 then tileSemClr s p else s
  let s := if bit v 4 then tileCntClr s p else s
  if bit v 2 then tileAbort s p else s

/-- A write of TIL_EVT_ADD (R63). -/
def tileEvtAdd (s : State) (p v : Nat) : State := evtAdd s p (v % 16) (v / 65536 % 65536)

/-- TIL_ERR_FIRST.valid written 1. -/
def tileErrRearm (s : State) (p : Nat) : State := s.modTile p (fun t => { t with errFirst := t.errFirst &&& 0x7FFFFFFF#32 })

/-- TIL_ERR_STAT written (R15). -/
def tileErrClear (s : State) (p : Nat) (m : Word) : State := s.modTile p (fun t => { t with errStat := t.errStat &&& ~~~m })

/-- A write that reaches a tile's registers; one to a tile that absorbs requests has no effect but its count (R33). -/
def atTile (s : State) (p : Nat) (f : State → State) : State := if tileAbsorbed s p then countAbsorb s (regAddr (0x40 + p) 0 0) else f s

/-- A corrected SRAM word is written back on the bank's next idle cycle (R49). -/
def sramWriteback (s : State) (p word : Nat) : State :=
  s.modTile p (fun t => if t.symErr.get word = 1 then { t with symErr := t.symErr.set word 0 } else t)

/-! ### Register pages 0x00–0x03 (R65) -/

/-- TIL_CTRL as read: abort until DONE is sent. -/
def tilCtrl (t : Tile) : Nat :=
  let aborting : Bool := match t.run with
    | some r => r.ended == some stAborted
    | none => false
  pack [(1, b2n t.dbgHalt), (1, b2n t.launchEn), (1, b2n aborting)]

/-- TIL_STAT. -/
def tilStat (t : Tile) : Nat :=
  let streams : Nat := match t.run with
    | some r => maskOf 4 (fun n => (r.streams.get n).valid && !(r.streams.get n).done)
    | none => 0
  pack [(16, t.lastProg), (4, streams), (1, b2n t.run.isSome), (3, 0), (4, t.queue.length)]

/-- A tile's page, by number. -/
def pageTile (s : State) (p page : Nat) : List Reg :=
  let t := s.tiles.get p
  match page with
  | 0 =>
    [r4 0x000 (tilId s p), r4 0x004 (tilCtrl t), r4 0x008 (tilStat t), r8 0x010 t.pdirBase, r4 0x018 t.pdirCnt] ++
    regsFor 8 (fun k => [r4 (0x020 + 4 * k) (pack ((List.range 4).map (fun i => (8, t.lmap.get (4 * k + i)))))]) ++
    [r4 0x040 t.curSeq.toNat, r4 0x044 t.wtLate]
  | 1 =>
    [r4 0x000 t.errStat.toNat, r4 0x004 t.errFirst.toNat, r8 0x008 t.errDaddr, r4 0x010 t.errCnt, r4 0x014 t.ceCnt, r4 0x018 t.ueCnt]
  | 2 =>
    regsFor 16 (fun k => [r4 (4 * k) (pack ((List.range 4).map (fun i => (8, t.sem.get (4 * k + i)))))]) ++
    regsFor 8 (fun k => [r4 (0x040 + 4 * k) (pack [(16, t.ev.get (2 * k)), (16, t.ev.get (2 * k + 1))])]) ++ [r4 0x060 0]
  | 3 =>
    [r4 0x000 (t.therm.1.toNat + 65536 * t.therm.2.toNat), r4 0x004 t.age, r8 0x010 t.busyMat, r8 0x018 t.busyVec, r8 0x020 t.busySfu,
     r8 0x028 t.busyDma]
  | _ => []

/-! ### One meaning per command -/

def execLaunchStrobe (p : Fin 36) (b : Strobe) (s : State) : Out := .next (launchStrobe s p b)
def execLaunchStart (p : Fin 36) (s : State) : Out := .next (launchStart s p)
def execLoop (p : Fin 36) (st : Fin 4) (s : State) : Out := .next (loopOp s p st)
def execBranchCnt (p : Fin 36) (st : Fin 4) (s : State) : Out := .next (branchOp s p st)
def execWaitSem (p : Fin 36) (st : Fin 4) (s : State) : Out := .next (waitSemOp s p st)
def execWaitSemRelease (p : Fin 36) (st : Fin 4) (s : State) : Out := .next (retryWait s p st 0x04 (fun s _ d => releaseSem s p st d))
def execSignalSem (p : Fin 36) (st : Fin 4) (s : State) : Out := .next (signalSemOp s p st)
def execWaitTime (p : Fin 36) (st : Fin 4) (now : Nat) (s : State) : Out := .next (waitTimeOp (s.advance now) p st)
def execWaitTimeRelease (p : Fin 36) (st : Fin 4) (now : Nat) (s : State) : Out :=
  .next (retryWait (s.advance now) p st 0x06 (fun s _ d => releaseTime s p st d))
def execWaitEvent (p : Fin 36) (st : Fin 4) (now : Nat) (s : State) : Out := .next (waitEventOp (s.advance now) p st)
def execWaitEventRelease (p : Fin 36) (st : Fin 4) (s : State) : Out := .next (retryWait s p st 0x07 (fun s _ d => releaseEvent s p st d))
def execEventTimeout (p : Fin 36) (st : Fin 4) (now : Nat) (s : State) : Out := .next (eventTimeout (s.advance now) p st)
def execPostEvent (p : Fin 36) (st : Fin 4) (s : State) : Out := .next (postEventOp s p st)
def execSramCorrectedWriteback (p : Fin 36) (word : Fin 2097152) (s : State) : Out := .next (sramWriteback s p word)
def execArithGateRise (p : Fin 36) (s : State) : Out := .next (s.modTile p (fun t => { t with arithGate := true }))
def execArithGateFall (p : Fin 36) (s : State) : Out := .next (s.modTile p (fun t => { t with arithGate := false }))
def execTilCtrlCntClr (p : Fin 36) (s : State) : Out := .next (atTile s p (tileCntClr · p))
def execTilCtrlSemClr (p : Fin 36) (s : State) : Out := .next (atTile s p (tileSemClr · p))
def execTilCtrlAbort (p : Fin 36) (s : State) : Out := .next (atTile s p (tileAbort · p))
def execTilCtrlLaunchEn (p : Fin 36) (on : Bool) (s : State) : Out := .next (atTile s p (tileLaunchEn · p on))
def execTilCtrlDbgHalt (p : Fin 36) (on : Bool) (s : State) : Out := .next (atTile s p (tileDbgHalt · p on))
def execTilEvtAdd (p : Fin 36) (v : Word) (s : State) : Out := .next (atTile s p (tileEvtAdd · p v.toNat))
def execTilErrFirstRearm (p : Fin 36) (s : State) : Out := .next (atTile s p (tileErrRearm · p))
def execTilErrStatClear (p : Fin 36) (m : Word) (s : State) : Out := .next (atTile s p (tileErrClear · p m))

end Sys2Proof.Machine
end

