-- ==== Sys2Proof/Machine/Dma.lean ====
section
/-! DEFINITION. The tile DMA: tensor addresses, MOVE, FILL, GATHER, SCATTER, the zero-compression codec and the export gate (R50, R119–R123,
R137–R142). -/

namespace Sys2Proof.Machine

/-! ### Tensor addresses (R50, R101) -/

/-- A tensor address word with a reserved form or bit (R50). -/
def tensorBad (a : Nat) : Bool :=
  let f := field a 63 62
  f == 3 || field a 61 53 != 0 || (f != 2 && field a 52 48 != 0) || (f != 0 && field a 47 24 != 0)

/-- A tensor address with an amount added to its addr field. -/
def tensorAdd (a : Nat) (d : Int) : Nat := a / 2 ^ 48 * 2 ^ 48 + uint 48 ((a % 2 ^ 48 : Nat) + d)

/-- The device address a tensor address names for tile `p` now; none for a VACANT logical tile (R50). -/
def resolve (t : Tile) (p a : Nat) : Option Nat :=
  match field a 63 62 with
  | 1 => some (tileWindow p + a % 2 ^ 24)
  | 2 => (lmapPhys (t.lmap.get (field a 52 48))).map (fun q => tileWindow q + a % 2 ^ 24)
  | _ => some (a % 2 ^ 48)

/-- Whether `len` bytes at a tensor address stay inside the window that an offset form names. -/
def tensorFits (a len : Nat) : Bool := field a 63 62 == 0 || decide (a % 2 ^ 48 + len ≤ 2 ^ 24)

/-- A loop-indexed address (R101). -/
def loopAdd (t : Tile) (st : Nat) (lix : Bool) (lctr : Nat) (step : Int) (a : Nat) : Nat :=
  if lix then tensorAdd a ((loopOf t st lctr).2 * step) else a

/-- The pieces of at most 256 bytes of a range at a tensor address (R37). -/
def tensorPieces (write : Bool) (a len off : Nat) : List Piece :=
  (pieces (a % 2 ^ 48) len).map (fun x => { write := write, addr := a / 2 ^ 48 * 2 ^ 48 + x.1, len := x.2.2, off := off + x.2.1 })

/-! ### The zero-compression codec (R140–R142) -/

/-- Expansion of a 64-byte unit from its mask and packed bytes. -/
def zcExpand : Nat → List Byte → List Byte → List Byte
  | _, _, [] => []
  | m, bs, _ :: r => if bit m 0 then bs.headD 0 :: zcExpand (m / 2) bs.tail r else 0 :: zcExpand (m / 2) bs r

/-- Bits set in a 64-bit mask. -/
def ones64 (m : Nat) : Nat := (bitsOf m 64).length

/-- Up to `n` units decoded from the bytes at hand, and whether that is all of them. -/
def zcDecode : Nat → List Byte → List Byte × Bool
  | 0, _ => ([], true)
  | n + 1, raw =>
    let m := fld raw 0 8
    let k := ones64 m
    if raw.length < 8 + k then ([], false)
    else
      let r := zcDecode n (raw.drop (8 + k))
      (zcExpand m (raw.drop 8) (List.replicate 64 0) ++ r.1, r.2)

/-- A 64-byte unit encoded. -/
def zcUnit (u : List Byte) : List Byte :=
  leBytes 8 (maskOf 64 (fun i => u.getD i 0 != 0)) ++ u.filter (· != 0)

/-- `n` units encoded from position `i` on: the bytes, the poisoned ranges of the stream, and whether poison has been met; from the first
poisoned unit on each is 72 bytes of poison (R142). -/
def zcUnits : Nat → List Byte → (Nat → Bool) → Nat → Bool → Nat → List Byte × List (Nat × Nat) × Bool
  | 0, _, _, _, p, _ => ([], [], p)
  | n + 1, bs, bad, i, p, at_ =>
    let p := p || bad i
    let u := if p then List.replicate 72 0 else zcUnit (bs.take 64)
    let r := zcUnits n (bs.drop 64) bad (i + 1) p (at_ + u.length)
    (u ++ r.1, (if p then [(at_, at_ + 72)] else []) ++ r.2.1, r.2.2)

/-- A stream of whole units encoded and padded to a multiple of 64 bytes (R140). -/
def zcEncode (bs : List Byte) (bad : Nat → Bool) (p : Bool) (at_ : Nat) : List Byte × List (Nat × Nat) × Bool :=
  let r := zcUnits (bs.length / 64) bs bad 0 p at_
  (slice r.1 0 (roundUp r.1.length 64), r.2.1, r.2.2)

/-- The worst-case encoded length of `n` bytes (R141). -/
def zcWorst (n : Nat) : Nat := 64 * ((9 * n + 511) / 512)

/-! ### The transfers that a descriptor names -/

/-- An index that reads as poison: no row can be found by it. -/
def unread : Nat := 2 ^ 33

/-- A run of bytes: source and destination tensor addresses, length. `src` none: zeros. -/
structure Run where
  src : Option Nat
  dst : Nat
  len : Nat
  deriving DecidableEq, Repr

/-- The sentinel of a GATHER or SCATTER (R122). -/
def sentinel (d : Desc) : Nat := if bit (d.w 5) 33 then 0xFFFFFFFF else 0xFFFF

/-- Signed byte strides of MOVE and FILL: z and y. -/
def strides (w : Nat) : Int × Int := (sint 32 (field w 63 32), sint 32 (field w 31 0))

/-- The runs of MOVE or FILL, z outermost (R120). -/
def moveRuns (d : Desc) (src : Option Nat) (dst : Nat) (ss ds : Int × Int) : List Run :=
  let w := d.w 3
  ((List.range (field w 56 41)).map (fun z => (List.range (field w 40 25)).map (fun y =>
    { src := src.map (fun a => tensorAdd a (z * ss.1 + y * ss.2)), dst := tensorAdd dst (z * ds.1 + y * ds.2), len := field w 24 0 }))).flatten

/-- The rows of GATHER and SCATTER once the index list is known (R122). -/
def indexedRuns (d : Desc) (src dst : Nat) (idx : List Nat) : List Run :=
  let rl := field (d.w 5) 16 0
  let far := sint 32 (field (d.w 4) 31 0)
  let near := sint 32 (field (d.w 6) 31 0)
  idx.zipIdx.filterMap (fun x =>
    if d.op = 0x32 then
      if x.1 = sentinel d then (if bit (d.w 5) 34 then none else some { src := none, dst := tensorAdd dst (x.2 * near), len := rl })
      else some { src := some (if x.1 = unread then unread * 2 ^ 40 else tensorAdd src (x.1 * far)), dst := tensorAdd dst (x.2 * near), len := rl }
    else if x.1 = sentinel d ∨ x.1 = unread then none
    else some { src := some (tensorAdd src (x.2 * near)), dst := tensorAdd dst (x.1 * far), len := rl })

/-- The runs of a DMA descriptor's work. -/
def runsOf (d : Desc) (w : DmaWork) : List Run :=
  let a := w.addrs
  if d.op = 0x30 then moveRuns d (some (a.getD 0 0)) (a.getD 1 0) (strides (d.w 4)) (strides (d.w 5))
  else if d.op = 0x31 then moveRuns d none (a.getD 1 0) (0, 0) (strides (d.w 4))
  else indexedRuns d (a.getD 0 0) (a.getD 1 0) w.idx

/-- Whether a descriptor encodes on store, or decodes on load. -/
def zcEncodes (d : Desc) : Bool := (d.op == 0x30 && field (d.w 6) 1 0 == 1) || (d.op == 0x33 && bit (d.w 5) 35)
def zcDecodes (d : Desc) : Bool := (d.op == 0x30 && field (d.w 6) 1 0 == 2) || (d.op == 0x32 && bit (d.w 5) 35)

/-- The offset of each run in the staging buffer. -/
def runOffsets (rs : List Run) : List (Run × Nat) :=
  (rs.foldl (fun (a : List (Run × Nat) × Nat) r => ((r, a.2) :: a.1, a.2 + r.len)) ([], 0)).1.reverse

/-- The source reads of a transfer without the codec; an unreadable index has none. -/
def readPlan (rs : List Run) : List Piece :=
  ((runOffsets rs).map (fun x => match x.1.src with
    | some a => if a = unread * 2 ^ 40 then [] else tensorPieces false a x.1.len x.2
    | none => [])).flatten

/-- Poisoned ranges of the rows whose index is unreadable. -/
def unreadRanges (rs : List Run) : List (Nat × Nat) :=
  (runOffsets rs).filterMap (fun x => if x.1.src = some (unread * 2 ^ 40) then some (x.2, x.2 + x.1.len) else none)

/-- Whether byte `i` of the buffer lies in a poisoned range. -/
def inBad (bad : List (Nat × Nat)) (lo n : Nat) : Bool := bad.any (fun x => decide (x.1 < lo + n ∧ lo < x.2))

/-- A write piece cut where its bytes change between poisoned and clean. -/
def cutBad (bad : List (Nat × Nat)) (k : Piece) : List Piece :=
  let cuts := (List.range k.len).filter (fun j => decide (0 < j) && bad.any (fun x => x.1 == k.off + j || x.2 == k.off + j))
  let marks := k.off :: (cuts.map (k.off + ·) ++ [k.off + k.len])
  (marks.zip marks.tail).map (fun x => { k with addr := k.addr + (x.1 - k.off), off := x.1, len := x.2 - x.1 })

/-- The writes of a transfer without an encoder, in list order. -/
def writePlan (rs : List Run) (bad : List (Nat × Nat)) : List Piece :=
  ((runOffsets rs).map (fun x => (tensorPieces true x.1.dst x.1.len x.2).map (cutBad bad))).flatten.flatten

/-- Rows encoded one after another into a new buffer: bytes, poisoned ranges, (destination, offset, length) of each stream. -/
def encodeRuns (rs : List Run) (buf : List Byte) (bad : List (Nat × Nat)) : List Byte × List (Nat × Nat) × List (Nat × Nat × Nat) :=
  let r := (runOffsets rs).foldl (fun (a : List Byte × List (Nat × Nat) × List (Nat × Nat × Nat) × Bool) x =>
    let e := zcEncode (slice buf x.2 x.1.len) (fun i => inBad bad (x.2 + 64 * i) 64) a.2.2.2 a.1.length
    (a.1 ++ e.1, a.2.1 ++ e.2.1, a.2.2.1 ++ [(x.1.dst, a.1.length, e.1.length)], e.2.2)) ([], [], [], false)
  (r.1, r.2.1, r.2.2.1)

/-! ### Making requests (R50, R52, R123, R137) -/

/-- The work of issued descriptor `i` changed. -/
def modWork (s : State) (p i : Nat) (f : DmaWork → DmaWork) : State :=
  s.modTile p (fun t => { t with issued := t.issued.modify i (fun x => { x with work := x.work.map f }) })

/-- An error of issued descriptor `i`. -/
def workError (s : State) (p i : Nat) (d : Desc) (code : Nat) : State :=
  softError (s.modTile p (fun t => { t with issued := t.issued.modify i (fun x => { x with err := some code }) })) p 2 d code

/-- Ranges of the 64-bit words of own SRAM that read as poison, in the buffer's offsets. -/
def sramBad (s : State) (p off len at_ : Nat) : List (Nat × Nat) :=
  ((wordsOf off len).filter (fun w => s.fab.poison.hit (tileWindow p + w * 8) 8 || decide (2 ≤ (s.tiles.get p).symErr.get w))).map (fun w =>
    (at_ + (max off (w * 8) - off), at_ + (min (off + len) (w * 8 + 8) - off)))

/-- Bytes that a read delivers into the staging buffer, or into the encoded row in progress. -/
def deliver (d : Desc) (w : DmaWork) (k : Piece) (bs : List Byte) (bad : List (Nat × Nat)) : DmaWork :=
  if w.phase = 1 ∧ zcDecodes d then
    { w with raw := w.raw ++ bs, rawBad := if bad = [] then w.rawBad else some (w.rawBad.getD k.off) }
  else { w with buf := putBytes w.buf k.off bs, bad := w.bad ++ bad }

/-- The export entry that a write of tile `p` to a device address belongs to (R137). -/
def exportOf (t : Tile) (a : Nat) : Option Nat :=
  (List.range 4).find? (fun e =>
    let x := t.exports.get e
    match lmapPhys (t.lmap.get x.ltile) with
    | some q => x.armed && decide (tileWindow q + x.base ≤ a ∧ a < tileWindow q + x.base + x.n * x.pitch)
    | none => false)

/-- What the export gate says of a write (R137). -/
inductive Gate where
  | free | closed (e : Nat) | outside | pass (e room : Nat)
  deriving DecidableEq, Repr

/-- The gate at a device address: the entry must be writing that slot, and have credit; `room`: bytes to the slot's end. -/
def gateAt (t : Tile) (a : Nat) : Gate :=
  match exportOf t a with
  | none => .free
  | some e =>
    let x := t.exports.get e
    match lmapPhys (t.lmap.get x.ltile) with
    | none => .free
    | some q =>
      let lo := tileWindow q + x.base + x.wrow % x.n * x.pitch
      if a < lo ∨ lo + x.pitch ≤ a then .outside
      else if reached (x.wrow % 65536) ((x.n + t.ev.get x.ctr) % 65536) then .closed e
      else .pass e (lo + x.pitch - a)

/-- Bytes issued through an export entry: the row advances when it has had P of them (R137). -/
def exportIssue (t : Tile) (e n : Nat) : Tile :=
  { t with exports := t.exports.modify e (fun x =>
      if x.pitch ≤ x.issued + n then { x with wrow := x.wrow + 1, issued := 0 } else { x with issued := x.issued + n }) }

/-- A transaction tag that no outstanding request uses. -/
def freeTag (t : Tile) : Option Nat :=
  let used := (t.issued.map (fun x => match x.work with
    | some w => w.out.map (·.1)
    | none => [])).flatten
  (List.range 512).find? (fun i => !used.contains ((t.nextTag + i) % 512)) |>.map (fun i => (t.nextTag + i) % 512)

/-- Reads that a descriptor has outstanding; a channel may have 128. -/
def readsOut (w : DmaWork) : Nat := (w.out.filter (fun x => !x.2.write)).length

/-- One request of a descriptor: served locally in its own SRAM, sent into the network, or kept waiting (none). -/
def sendPiece (s : State) (p i : Nat) (d : Desc) (w : DmaWork) (k : Piece) (rest : List Piece) : State × Bool :=
  let t := s.tiles.get p
  let drop := fun (s : State) => modWork s p i (fun w => { w with todo := rest, gate := none })
  match resolve t p k.addr with
  | none =>
    let s := drop s
    let s := if k.write then s else modWork s p i (fun w => deliver d w k (List.replicate k.len 0) [(k.off, k.off + k.len)])
    (workError s p i d teVacant, true)
  | some a =>
    let g := if k.write then gateAt t a else .free
    match g with
    | .outside => (failDesc (drop s) p 2 d teBadField, true)
    | .closed e => (modWork s p i (fun w => { w with gate := some e }), false)
    | _ =>
      let n : Nat := match g with
        | .pass _ room => min k.len room
        | _ => k.len
      let pass := fun (s : State) => match g with
        | .pass e _ => s.modTile p (fun t => exportIssue t e n)
        | _ => s
      let rest := if n < k.len then { k with addr := tensorAdd k.addr n, off := k.off + n, len := k.len - n } :: rest else rest
      let drop := fun (s : State) => modWork s p i (fun w => { w with todo := rest, gate := none })
      let own := tileWindow p
      if own ≤ a ∧ a + n ≤ own + 0x1000000 then
        if k.write then (sramWrite (drop (pass s)) p (a - own) (slice w.buf k.off n) (inBad w.bad k.off n), true)
        else
          let bad := sramBad s p (a - own) n k.off
          let r := sramRead s p (a - own) n
          let s := modWork (drop r.1) p i (fun w => deliver d w k r.2.1 bad)
          (if r.2.2.2 then workError s p i d teEcc else s, true)
      else if !k.write ∧ 128 ≤ readsOut w then (s, false)
      else match freeTag t with
        | none => (s, false)
        | some tag =>
          let q : NetReq := { src := BitVec.ofNat 8 p, label := BitVec.ofNat 4 d.label, tag := BitVec.ofNat 9 tag, op := if k.write then 1 else 0,
                              addr := BitVec.ofNat 48 a, len := n, data := if k.write then slice w.buf k.off n else [],
                              poison := k.write && inBad w.bad k.off n }
          let s := modWork (drop (pass s)) p i (fun w => { w with out := w.out ++ [(tag, { k with len := n })] })
          ({ s.modTile p (fun t => { t with nextTag := (tag + 1) % 512 }) with fab.net.inflight := s.fab.net.inflight ++ [q] }, true)

/-- The work of issued descriptor `i`, while its launch has not ended. -/
def workOf (s : State) (p i : Nat) : Option (Desc × DmaWork) :=
  match (s.tiles.get p).issued[i]? with
  | some x => x.work.map (fun w => (x.desc, w))
  | none => none

/-- Requests made one after another while they can be. -/
def sendAll : Nat → State → Nat → Nat → State
  | 0, s, _, _ => s
  | n + 1, s, p, i =>
    match workOf s p i with
    | some (d, w) =>
      match w.todo with
      | k :: rest => let r := sendPiece s p i d w k rest; if r.2 then sendAll n r.1 p i else r.1
      | [] => s
    | none => s

/-- Overlapping destination bytes of a MOVE hold their old value or some source byte: which, is a free value (R120). -/
def overlapBytes (s : State) (p : Nat) (rs : List Run) (buf : List Byte) : State × List Byte :=
  let t := s.tiles.get p
  let srcs := rs.filterMap (fun r => (r.src.bind (resolve t p)).map (fun a => (a, a + r.len)))
  let offs := runOffsets rs
  let hits := fun (a n : Nat) => srcs.any (fun x => decide (x.1 < a + n ∧ a < x.2))
  if offs.any (fun x => match resolve t p x.1.dst with
      | some a => hits a x.1.len
      | none => false) then
    let b := (offs.map (fun x => match resolve t p x.1.dst with
      | some a => (List.range x.1.len).map (fun j =>
          if hits (a + j) 1 then
            let k := Config.overlapPick s.free (x.2 + j) % (buf.length + 1)
            if k = 0 then Memory.read s.fab.mem (a + j) else buf.getD (k - 1) 0
          else buf.getD (x.2 + j) 0)
      | none => slice buf x.2 x.1.len)).flatten
    (s.took, b)
  else (s, buf)

/-- Indices of the list, those that read as poison marked. -/
def indexList (d : Desc) (w : DmaWork) : List Nat :=
  let b := if bit (d.w 5) 33 then 4 else 2
  (List.range (field (d.w 5) 32 17)).map (fun r => if inBad w.bad (b * r) b then unread else fld w.buf (b * r) b)

/-- Whether an indexed row may not be moved: index at or beyond limit, or a row outside its window (R50, R122). -/
def indexBad (d : Desc) (w : DmaWork) (x : Nat) : Bool :=
  let far := w.addrs.getD (if d.op = 0x32 then 0 else 1) 0
  x != sentinel d && x != unread && (decide (field (d.w 4) 63 32 ≤ x) ||
    !tensorFits (tensorAdd far (x * sint 32 (field (d.w 4) 31 0))) (if zcEncodes d || zcDecodes d then zcWorst (field (d.w 5) 16 0) else field (d.w 5) 16 0))

/-- The index list is in: rows from the first bad index on are not moved (R122). -/
def indexPhase (d : Desc) (w : DmaWork) : DmaWork :=
  let l := indexList d w
  let n := (indexOf? (indexBad d w) l).getD l.length
  let w := { w with phase := 1, idx := l.take n, late := if n < l.length then some teBadField else none, bad := [], raw := [], rawBad := none, row := 0 }
  let rs := runsOf d w
  if zcDecodes d then { w with buf := [] }
  else { w with buf := List.replicate ((rs.map (·.len)).sum) 0, bad := unreadRanges rs, todo := readPlan rs }

/-- The row in progress of a decoding transfer: decoded as far as its bytes go, it ends or asks for the next 64-byte block (R140, R142). -/
def decodeStep (w : DmaWork) (r : Run) : DmaWork :=
  let units := r.len / 64
  match r.src with
  | none => { w with buf := w.buf ++ List.replicate r.len 0, row := w.row + 1 }
  | some a =>
    if a = unread * 2 ^ 40 then
      { w with buf := w.buf ++ List.replicate r.len 0, bad := w.bad ++ [(w.buf.length, w.buf.length + r.len)], row := w.row + 1 }
    else
      let x := zcDecode units (w.raw.take (w.rawBad.getD w.raw.length))
      if x.2 then { w with buf := w.buf ++ x.1, raw := [], rawBad := none, row := w.row + 1 }
      else if w.rawBad.isSome then
        { w with buf := w.buf ++ slice x.1 0 r.len, bad := w.bad ++ [(w.buf.length + x.1.length, w.buf.length + r.len)],
                 raw := [], rawBad := none, row := w.row + 1 }
      else { w with todo := [{ write := false, addr := tensorAdd a w.raw.length, len := 64, off := w.raw.length }] }

/-- All source bytes are in: the writes are planned (R120, R141). -/
def writePhase (s : State) (p i : Nat) (d : Desc) (w : DmaWork) : State :=
  let rs := runsOf d w
  if zcEncodes d then
    let e := encodeRuns rs w.buf w.bad
    modWork s p i (fun w => { w with
      phase := 2, buf := e.1, bad := e.2.1,
      todo := (e.2.2.map (fun x => (tensorPieces true x.1 x.2.2 x.2.1).map (cutBad e.2.1))).flatten.flatten })
  else
    let b := if d.op = 0x30 ∧ !zcDecodes d then overlapBytes s p rs w.buf else (s, w.buf)
    modWork b.1 p i (fun w => { w with phase := 2, buf := b.2, todo := writePlan rs w.bad })

/-- The next phase once every request of this one is answered. -/
def nextPhase (s : State) (p i : Nat) (d : Desc) (w : DmaWork) : State :=
  if w.phase = 0 then modWork s p i (indexPhase d)
  else if zcDecodes d then
    match (runsOf d w)[w.row]? with
    | some r => modWork s p i (fun w => decodeStep w r)
    | none => writePhase s p i d w
  else writePhase s p i d w

/-- Requests and phases carried on as far as they go. -/
def dmaRun : Nat → State → Nat → Nat → State
  | 0, s, _, _ => s
  | n + 1, s, p, i =>
    let k : Nat := match workOf s p i with
      | some (_, w) => 2 * w.todo.length + 1
      | none => 0
    let s := sendAll k s p i
    match workOf s p i with
    | some (d, w) => if liveRun s p && w.todo.isEmpty && w.out.isEmpty && decide (w.phase < 2) then dmaRun n (nextPhase s p i d w) p i else s
    | none => s

/-- The oldest descriptor of a channel carries on (R55). -/
def dmaKick (s : State) (p chan : Nat) : State :=
  if !liveRun s p then s
  else match oldestIssued (s.tiles.get p) 2 chan with
    | none => s
    | some i =>
      match workOf s p i with
      | some (d, _) =>
        let fuel := 8 + (field (d.w 3) 24 0 + field (d.w 5) 16 0 * (field (d.w 5) 32 17 + 1)) / 16 + field (d.w 5) 32 17
        dmaRun fuel s p i
      | none => s

/-! ### Issue -/

/-- Fresh work in a phase. -/
def newWork (addrs : List Nat) (phase : Nat) (todo : List Piece) (buf : List Byte) : DmaWork :=
  { addrs := addrs, phase := phase, todo := todo, out := [], buf := buf, bad := [], idx := [], late := none, gate := none, raw := [], rawBad := none,
    row := 0 }

/-- A DMA descriptor is issued on its channel; cycles of work that uses the mesh are not stated by number (R65). -/
def dmaIssue (s : State) (p : Nat) (d : Desc) (w : DmaWork) (cycles : Option Nat) : State :=
  let x : Issued := { desc := d, stream := 2, err := none, work := some w, acc := 0, signals := true }
  let c := cycles.getD (s.freeVal.toNat % 2 ^ 32)
  let s := if cycles.isSome then s else s.took
  dmaKick (s.modTile p (fun t => { t with issued := t.issued ++ [x], busyDma := (t.busyDma + c) % 2 ^ 64 })) p d.chan

/-- Whether a tensor address lies in the tile's own SRAM. -/
def ownSram (t : Tile) (p a : Nat) : Bool :=
  match resolve t p a with
  | some x => decide (tileWindow p ≤ x ∧ x < tileWindow p + 0x1000000)
  | none => false

/-- Every run's addresses stay in the windows their forms name. -/
def runsFit (rs : List Run) : Bool :=
  rs.all (fun r => tensorFits r.dst r.len && (match r.src with
    | some a => tensorFits a r.len
    | none => true))

/-- Counts and length of MOVE and FILL in range (R119). -/
def moveCountsOk (w : Nat) : Bool := field w 63 57 == 0 && decide (1 ≤ field w 56 41 ∧ 1 ≤ field w 40 25 ∧ 1 ≤ field w 24 0 ∧ field w 24 0 ≤ 16777216)

/-- MOVE (R119, R120, R140). -/
def moveBody (s : State) (p : Nat) (d : Desc) : State :=
  let t := s.tiles.get p
  let w6 := d.w 6
  let zc := field w6 1 0
  let lc := field w6 3 2
  let src := loopAdd t 2 (bit w6 4) lc (sint 32 (field (d.w 7) 31 0)) (d.w 1)
  let dst := loopAdd t 2 (bit w6 5) lc (sint 32 (field (d.w 7) 63 32)) (d.w 2)
  let w := newWork [src, dst] 1 [] []
  let rs := runsOf d w
  let n := (rs.map (·.len)).sum
  let bad := !moveCountsOk (d.w 3) || field w6 63 6 != 0 || zc == 3 || tensorBad src || tensorBad dst ||
    (zc != 0 && (field (d.w 3) 56 41 != 1 || field (d.w 3) 40 25 != 1 || field (d.w 3) 24 0 % 64 != 0)) ||
    (zc == 1 && dst % 64 != 0) || (zc == 2 && src % 64 != 0) || (zc == 0 && !runsFit rs)
  if bad then failDesc s p 2 d teBadField
  else
    let cyc := if zc = 0 ∧ ownSram t p src ∧ ownSram t p dst then some ((n + 1023) / 1024) else none
    dmaIssue s p d (if zcDecodes d then w else { w with buf := List.replicate n 0, todo := readPlan rs }) cyc

/-- FILL (R119, R120): the pattern is the whole source. -/
def fillBody (s : State) (p : Nat) (d : Desc) : State :=
  let t := s.tiles.get p
  let w6 := d.w 6
  let dst := loopAdd t 2 (bit w6 5) (field w6 3 2) (sint 32 (field (d.w 5) 31 0)) (d.w 1)
  let pw := 2 ^ field w6 1 0
  let w := newWork [0, dst] 2 [] []
  let rs := runsOf d w
  let bad := !moveCountsOk (d.w 3) || field w6 63 6 != 0 || bit w6 4 || field (d.w 5) 63 32 != 0 || d.w 7 != 0 || tensorBad dst || !runsFit rs
  if bad then failDesc s p 2 d teBadField
  else
    let buf := (rs.map (fun r => (List.range r.len).map (fun x => BitVec.ofNat 8 (d.w 2 / 256 ^ (x % pw))))).flatten
    dmaIssue s p d { w with buf := buf, todo := writePlan rs [] } (if ownSram t p dst then some ((buf.length + 1023) / 1024) else none)

/-- GATHER and SCATTER (R121, R122): the index list is read first. -/
def indexedBody (s : State) (p : Nat) (d : Desc) : State :=
  let t := s.tiles.get p
  let w5 := d.w 5
  let lc := field w5 37 36
  let g := d.op = 0x32
  let plain := sint 32 (field (d.w 7) 31 0)
  let src := if g then d.w 1 else loopAdd t 2 (bit w5 38) lc plain (d.w 1)
  let dst := if g then loopAdd t 2 (bit w5 38) lc plain (d.w 2) else d.w 2
  let idx := loopAdd t 2 (bit w5 39) lc (sint 32 (field (d.w 7) 63 32)) (d.w 3)
  let cnt := field w5 32 17
  let rl := field w5 16 0
  let zc := bit w5 35
  let far := field (d.w 4) 31 0
  let near := if g then dst else src
  let bytes := cnt * (if bit w5 33 then 4 else 2)
  let bad := field w5 63 40 != 0 || (!g && bit w5 34) || cnt == 0 || rl == 0 || decide (65536 < rl) || field (d.w 6) 63 32 != 0 ||
    tensorBad src || tensorBad dst || tensorBad idx || !tensorFits idx bytes ||
    (zc && (rl % 64 != 0 || far % 64 != 0 || decide ((sint 32 far).natAbs < zcWorst rl) || (if g then src else dst) % 64 != 0)) ||
    !((List.range cnt).all (fun r => tensorFits (tensorAdd near (r * sint 32 (field (d.w 6) 31 0))) rl))
  if bad then failDesc s p 2 d teBadField
  else dmaIssue s p d { newWork [src, dst, idx] 0 (tensorPieces false idx bytes 0) (List.replicate bytes 0) with phase := 0 } none

/-! ### Responses and gates (R123, R137) -/

/-- The destination bytes in own SRAM of a failed read of a halting descriptor are written as poison (R123). -/
def poisonDest (s : State) (p : Nat) (d : Desc) (w : DmaWork) (k : Piece) : State :=
  if w.phase ≠ 1 ∨ zcEncodes d ∨ zcDecodes d then s
  else
    let t := s.tiles.get p
    (runOffsets (runsOf d w)).foldl (fun s x =>
      let lo := max k.off x.2
      let hi := min (k.off + k.len) (x.2 + x.1.len)
      if lo < hi ∧ ownSram t p x.1.dst then sramWrite s p ((tensorAdd x.1.dst (lo - x.2 : Nat)) % 2 ^ 24) (List.replicate (hi - lo) 0) true else s) s

/-- A response arrives at a tile: read bytes are kept for the destination, an error is recorded (R123); one without an outstanding request
is dropped. -/
def dmaResponse (s : State) (p : Nat) (tag : Nat) : State :=
  match s.fab.net.rsps.find? (fun r => r.src.toNat == p && r.tag.toNat == tag) with
  | none => s
  | some r =>
    let s := { s with fab.net.rsps := eraseFirst (fun r => r.src.toNat == p && r.tag.toNat == tag) s.fab.net.rsps }
    let t := s.tiles.get p
    match indexOf? (fun x => match x.work with
        | some w => w.out.any (·.1 == tag)
        | none => false) t.issued with
    | none => s
    | some i =>
      match workOf s p i with
      | none => s
      | some (d, w) =>
        match w.out.find? (·.1 == tag) with
        | none => s
        | some (_, k) =>
          let s := modWork s p i (fun w => { w with out := w.out.filter (·.1 != tag) })
          let live := liveRun s p
          let s := if k.write ∨ !live then s
            else if r.status = stOk then modWork s p i (fun w => deliver d w k r.data [])
            else modWork s p i (fun w => deliver d w k (List.replicate k.len 0) [(k.off, k.off + k.len)])
          let s := if r.status = stOk then s
            else
              let s := if k.write ∨ d.errCont ∨ !live then s else poisonDest s p d w k
              workError s p i d teRsp
          dmaKick s p d.chan

/-- A channel held at an export gate tries again (R137). -/
def exportGateRelease (s : State) (p chan : Nat) : State := dmaKick s p chan

/-- DESCRIPTOR_COMPLETE, after which the channel's next descriptor may make requests. -/
def completeNext (s : State) (p st chan : Nat) : State :=
  let s := descriptorComplete s p st chan
  if st = 2 then dmaKick s p chan else s

/-- MOVE, FILL, GATHER or SCATTER issues. -/
def dmaOp (s : State) (p op : Nat) (body : State → Nat → Desc → State) : State := issueOp s p 2 (· == op) anyTime (fun s d => body s p d)

def execGather (p : Fin 36) (s : State) : Out := .next (dmaOp s p 0x32 indexedBody)
def execScatter (p : Fin 36) (s : State) : Out := .next (dmaOp s p 0x33 indexedBody)
def execDescriptorComplete (p : Fin 36) (st chan : Fin 4) (now : Nat) (s : State) : Out := .next (completeNext (s.advance now) p st chan)
def execExportGateRelease (p : Fin 36) (chan : Fin 4) (s : State) : Out := .next (exportGateRelease s p chan)

end Sys2Proof.Machine
end

