-- ==== Sys2Proof/Machine/Tensor.lean ====
section
/-! DEFINITION. Arithmetic descriptors on tensors: operand reads, MATMUL, ELEM, REDUCE, SFU (chapter 03 and R100–R118). -/

namespace Sys2Proof.Machine

/-! ### Operands in own SRAM (R49, R100) -/

/-- The own-SRAM offset of a region; none where R100 raises BAD_FIELD. -/
def ownOff (t : Tile) (p a len : Nat) : Option Nat :=
  if tensorBad a then none
  else
    let off : Option Nat := match field a 63 62 with
      | 1 => some (a % 2 ^ 24)
      | 2 => if t.logical = some (field a 52 48) then some (a % 2 ^ 24) else none
      | _ => if tileWindow p ≤ a ∧ a < tileWindow p + 0x1000000 then some (a - tileWindow p) else none
    match off with
    | some o => if o + len ≤ 0x1000000 then some o else none
    | none => none

/-- What an arithmetic unit has read so far: the state, whether an operand was poison, whether a word was uncorrectable. -/
structure Unit' where
  st    : State
  bad   : Bool
  ecc   : Bool
  deriving DecidableEq, Repr

/-- Bytes of own SRAM with the poisoned ranges among them. -/
def readOwn (u : Unit') (p off len : Nat) : Unit' × List Byte × List (Nat × Nat) :=
  let bad := sramBad u.st p off len 0
  let r := sramRead u.st p off len
  ({ st := r.1, bad := u.bad, ecc := u.ecc || r.2.2.2 }, r.2.1, bad)

/-- The bytes of element `i` of a row: first, and one past the last. -/
def elemSpan (f i n : Nat) : Nat × Nat :=
  if fmtCode f = 0xA then (i / 5, (i + n + 4) / 5) else let w := fmtBits (fmtCode f); (i * w / 8, ((i + n) * w + 7) / 8)

/-- Element values of a row without their scales; none for poison, or for a TQ5 byte that encodes no weights (R80). -/
def rowVals (f : Nat) (row : List Byte) (bad : List (Nat × Nat)) (n : Nat) : List (Option Val) :=
  (List.range n).map (fun i =>
    let sp := elemSpan f i 1
    let raw := rowElem f row i
    if inBad bad sp.1 (sp.2 - sp.1) || (fmtCode f == 0xA && raw == 3) then none else some (rawVal f raw))

/-- Scale values of a row (R74). -/
def scaleVals (f : Nat) (row : List Byte) (bad : List (Nat × Nat)) (n : Nat) : List (Option Val) :=
  (List.range n).map (fun b =>
    let w := scaleBytes f
    if inBad bad (b * w) w then none else some (scaleVal f (fld row (b * w) w)))

/-- Scale entries of a row of `n` elements. -/
def scaleCount (f n : Nat) : Nat := match fmtBlock f with
  | some b => rowElems f n / b
  | none => 0

/-- Scale bytes of a row of `n` elements. -/
def scaleRow (f n : Nat) : Nat := scaleCount f n * scaleBytes f

/-- Rows of a tensor read from own SRAM: element values without scales, and scales, by row. -/
def readRows (u : Unit') (p f off pitch soff rows cols : Nat) : Unit' × List (List (Option Val) × List (Option Val)) :=
  let r := (List.range rows).foldl (fun (a : Unit' × List (List (Option Val) × List (Option Val))) r =>
    let x := readOwn a.1 p (off + r * pitch) (rowBytes f cols)
    let y := readOwn x.1 p (soff + r * scaleRow f cols) (scaleRow f cols)
    let vs := rowVals f x.2.1 x.2.2 cols
    let ss := scaleVals f y.2.1 y.2.2 (scaleCount f cols)
    ({ y.1 with bad := y.1.bad || vs.any (·.isNone) || ss.any (·.isNone) }, (vs, ss) :: a.2)) (u, [])
  (r.1, r.2.reverse)

/-- A row's values with their scales (R72–R79); none where the element or its scale is poison. -/
def scaledRow (f : Nat) (x : List (Option Val) × List (Option Val)) : List (Option Val) :=
  match fmtBlock f with
  | none => x.1
  | some b => x.1.zipIdx.map (fun v => match v.1, x.2.getD (v.2 / b) none with
      | some a, some s => some (s.mul a)
      | _, _ => none)

/-- Rows of a tensor with scales applied. -/
def readTensor (u : Unit') (p f off pitch soff rows cols : Nat) : Unit' × List (List (Option Val)) :=
  let r := readRows u p f off pitch soff rows cols
  (r.1, r.2.map (scaledRow f))

/-- Free bytes: what a result is that the manual leaves undefined (R57, log entry 3). -/
def freeBytes (s : State) (n : Nat) : State × List Byte :=
  ({ s with free := s.free + (n + 7) / 8 }, catMap ((n + 7) / 8) (fun i => leBytes 8 (Config.freeQuad (s.free + i)).toNat) |>.take n)

/-- Bytes that a unit writes into own SRAM, with the ranges among them that are poison. -/
structure SramPut where
  off   : Nat
  bytes : List Byte
  bad   : List (Nat × Nat)
  deriving DecidableEq, Repr

/-- A result written: every 64-bit word that holds a poisoned byte is poison (R49, R114); undefined results are free values. -/
def putOwn (s : State) (p : Nat) (undef : Bool) (w : SramPut) : State :=
  let r := if undef then freeBytes s w.bytes.length else (s, w.bytes)
  let s := sramWrite r.1 p w.off r.2 false
  w.bad.foldl (fun s b => markPoison s (tileWindow p + w.off + b.1) (b.2 - b.1) 8) s

/-- Errors of an arithmetic unit that has read its operands (R49, R57). -/
def unitErrors (u : Unit') : List Nat := (if u.ecc then [teEcc] else []) ++ (if u.bad then [tePoison] else [])

/-- An arithmetic descriptor has issued and done its work: it completes in DESCRIPTOR_COMPLETE; its errors are recorded (R57). -/
def unitDone (s : State) (p st : Nat) (d : Desc) (errs : List Nat) (acc : Nat) : State :=
  let s := holdIssue s p st d errs.getLast? acc
  errs.foldl (fun s e => softError s p st d e) s

/-- Results of a vector descriptor written and its issue finished. -/
def vectorDone (u : Unit') (p : Nat) (d : Desc) (puts : List SramPut) (g : Rng) (cycles : Nat) : State :=
  let errs := unitErrors u
  let s := { u.st with free := g.free }
  let s := s.modTile p (fun t => { t with rng := g.tab, busyVec := (t.busyVec + cycles) % 2 ^ 64 })
  let s := puts.foldl (fun s w => putOwn s p (errs != [] && d.errCont) w) s
  unitDone s p 1 d errs 0

/-- The generators of a tile as the numeric functions take them. -/
def tileRng (s : State) (p : Nat) : Rng := { tab := (s.tiles.get p).rng, free := s.free }

/-! ### The matrix unit (R44, R81–R84, R103–R108) -/

/-- A format pair of the matrix unit (R81): four times the steps per cycle, whether the accumulator is INT32, and the chunk C. -/
structure Pair81 where
  rate4 : Nat
  int   : Bool
  chunk : Nat
  deriving DecidableEq, Repr

/-- FP8, with or without MX scales. -/
def isFp8 (f : Nat) : Bool := fmtCode f == 3 || fmtCode f == 4
/-- MXFP6 or MXFP4. -/
def isMxw (f : Nat) : Bool := fmtCode f == 5 || fmtCode f == 6
/-- BF16 or FP16. -/
def isHalf (f : Nat) : Bool := fmtCode f == 1 || fmtCode f == 2

/-- The pairs of R81. -/
def pair81 (a b : Nat) : Option Pair81 :=
  let ca := fmtCode a
  let cb := fmtCode b
  let grp := fun f => 32 * 2 ^ fmtGsz f
  if ca = 8 ∧ cb = 8 then some ⟨4, true, 1⟩
  else if isFp8 a ∧ isFp8 b then some ⟨4, false, 32⟩
  else if ca = 8 ∧ cb = 9 then some ⟨8, false, grp b⟩
  else if ca = 9 ∧ cb = 9 then some ⟨8, false, min (grp a) (grp b)⟩
  else if (isFp8 a ∨ isMxw a) ∧ isMxw b then some ⟨8, false, 32⟩
  else if ca = 8 ∧ cb = 0xA then some ⟨16, false, 64⟩
  else if isFp8 a ∧ cb = 0xA then some ⟨16, false, if fmtMx a then 32 else 64⟩
  else if isHalf a ∧ isHalf b then some ⟨2, false, 32⟩
  else if isHalf a ∧ (isFp8 b ∨ isMxw b) then some ⟨2, false, 32⟩
  else if isHalf a ∧ cb = 9 then some ⟨2, false, grp b⟩
  else if ca = 7 ∧ (cb = 7 ∨ cb = 8) then some ⟨1, true, 1⟩
  else none

/-- One product of a chunk; a TQ5 weight 0 forms none, but a NaN element still gives NaN (R84). -/
def product (tq5 : Bool) (a b : Val) : Val := if tq5 && b.toRat == 0 then (if a.isNan then .nan else vzero) else a.mul b

/-- Bits more than 30 places below exponent `e` dropped towards zero (R82). -/
def dropBelow (e : Int) : Val → Val
  | .fin n q => let u := pow2 (e - 30); .fin n ((q / u).floor * u)
  | v => v

/-- The sum S of a chunk's products (R82 steps 1 and 2). -/
def chunkSum (tq5 trunc : Bool) (as bs : List Val) : Val :=
  let ps := (as.zip bs).map (fun x => product tq5 x.1 x.2)
  let top := ps.foldl (fun m v => max m v.abs.toRat) 0
  let ps := if trunc ∧ 0 < top then ps.map (dropBelow (floorLog2 top)) else ps
  match ps with
  | [] => vzero
  | v :: r => r.foldl Val.add v

/-- One chunk added to an accumulator element (R82 steps 3 and 4, R83). -/
def addChunk (acc s sa sb : Val) : Val := flush32 (rne32 (acc.add (flush32 (rne32 ((s.mul sa).mul sb)))))

/-- The scale at reduction index `x`; 1 for an unscaled operand. -/
def scaleAt (f : Nat) (ss : List Val) (x : Nat) : Val := match fmtBlock f with
  | some b => ss.getD (x / b) (Val.ofInt 1)
  | none => Val.ofInt 1

/-- An operand row as the array takes it: values and scales. -/
structure ARow where
  vals   : List Val
  scales : List Val
  bad    : Bool
  deriving DecidableEq, Repr

/-- An operand row from what was read; poison is kept as a mark. -/
def aRow (x : List (Option Val) × List (Option Val)) (used : Nat) : ARow :=
  { vals := x.1.map (·.getD vzero), scales := x.2.map (·.getD vzero), bad := x.1.any (·.isNone) || (x.2.take used).any (·.isNone) }

/-- Chunks of the reduction range [x0, x0 + n·C) added to `acc` in ascending order. -/
def addChunks (fa fb C : Nat) (tq5 trunc : Bool) (a b : ARow) (x0 n : Nat) (acc : Val) : Val :=
  (List.range n).foldl (fun acc i =>
    let x := x0 + i * C
    addChunk acc (chunkSum tq5 trunc ((a.vals.drop x).take C) ((b.vals.drop x).take C)) (scaleAt fa a.scales x) (scaleAt fb b.scales x)) acc

/-- An element of a pair with an FP32 accumulator: f parts, added in ascending order (R82, R106). -/
def dotFp (fa fb C f k : Nat) (init : Val) (a b : ARow) : Val :=
  let tq5 := fmtCode fb == 0xA
  let trunc := isHalf fa
  let part := k / f
  (List.range f).foldl (fun acc i =>
    if i = 0 then addChunks fa fb C tq5 trunc a b 0 (part / C) acc
    else flush32 (rne32 (acc.add (addChunks fa fb C tq5 trunc a b (i * part) (part / C) vzero)))) init

/-- The exact sum of integer products. -/
def dotInt (a b : ARow) : Int := ((a.vals.zip b.vals).map (fun x => x.1.toRat.num * x.2.toRat.num)).sum

/-- An accumulator cell's value. -/
def cellVal (ty : AccType) (w : Word) : Val := match ty with
  | .fp32 => ofFp32 w.toNat
  | .int32 => Val.ofInt w.toInt

/-- Cells (i, j), i < m, j < n, of a buffer replaced; the others keep their bit patterns (R105). -/
def putCells (x : Acc) (ty : AccType) (m n : Nat) (cells : List (Nat × (Word × Bool))) : Acc :=
  { type := ty, cells := { x.cells with cells := cells ++ x.cells.cells.filter (fun c => decide (m ≤ c.1 / 128 ∨ n ≤ c.1 % 128)) } }

/-- The block's cells from a function of the position. -/
def blockCells (m n : Nat) (f : Nat → Nat → Word × Bool) : List (Nat × (Word × Bool)) :=
  ((List.range m).map (fun i => (List.range n).map (fun j => (128 * i + j, f i j)))).flatten

/-- Accumulated results of a block: initial values, operand rows (R105, R129). -/
def blockResult (u : Unit') (p : Nat) (d : Desc) (fa fb : Nat) (pr : Pair81) (f k accNo init m n : Nat) (ra rb : List ARow)
    (cin : List (List (Option Nat))) : State :=
  let x := (u.st.tiles.get p).acc.get accNo
  let ty := if pr.int then AccType.int32 else AccType.fp32
  let undef := unitErrors u != [] && d.errCont
  let dflt : ARow := { vals := [], scales := [], bad := false }
  let cells := blockCells m n (fun i j =>
    let a := ra.getD i dflt
    let b := rb.getD j dflt
    let c0 : Word × Bool := if init = 1 then x.cells.get (128 * i + j)
      else if init = 2 then (match (cin.getD i []).getD j none with
        | some w => (BitVec.ofNat 32 w, false)
        | none => (0, true))
      else (0, false)
    let v : Word := if pr.int then c0.1 + BitVec.ofInt 32 (dotInt a b)
      else
        let v0 := if init = 2 then flush32 (cellVal .fp32 c0.1) else cellVal .fp32 c0.1
        BitVec.ofNat 32 (toFp32 (dotFp fa fb pr.chunk f k v0 a b))
    (if undef then (Config.freeQuad (u.st.free + 128 * i + j)).setWidth 32 else v, c0.2 || a.bad || b.bad))
  let s := if undef then { u.st with free := u.st.free + 16384 } else u.st
  s.modTile p (fun t => { t with acc := t.acc.set accNo (putCells x ty m n cells) })

/-- A ZERO or LOAD into a buffer that an earlier matrix descriptor still targets waits for it (R45). -/
def accFree (t : Tile) (mask : Nat) : Bool := t.issued.all (fun x => x.stream != 0 || x.acc &&& mask == 0)

/-- MATMUL may issue. -/
def matmulReady (p : Nat) (s : State) (d : Desc) : Bool :=
  field (d.w 7) 50 49 == 1 || accFree (s.tiles.get p) (2 ^ field (d.w 7) 51 51)

/-- The own-SRAM offset of a scale tensor of `len` bytes; an unscaled operand has none. -/
def scaleOff (t : Tile) (p f a len : Nat) : Option Nat := if (fmtBlock f).isNone then some 0 else ownOff t p a len

/-- MATMUL (R103–R107). -/
def matmulBody (s : State) (p : Nat) (d : Desc) : State :=
  let t := s.tiles.get p
  let w6 := d.w 6
  let w7 := d.w 7
  let fa := field w6 15 0
  let fb := field w6 31 16
  let ap := field w6 49 32 * 64
  let bp := field w7 17 0 * 64
  let k := field w7 34 18
  let m := field w7 41 35 + 1
  let n := field w7 48 42 + 1
  let init := field w7 50 49
  let accNo := field w7 51 51
  let f := 2 ^ field w7 53 52
  let lc := field w7 55 54
  match pair81 fa fb with
  | none => failDesc s p 0 d teBadField
  | some pr =>
    let a := loopAdd t 0 (bit w7 56) lc (m * ap) (d.w 1)
    let b := loopAdd t 0 (bit w7 57) lc (n * bp) (d.w 2)
    let sa := loopAdd t 0 (bit w7 56) lc (m * scaleRow fa k) (d.w 3)
    let sb := loopAdd t 0 (bit w7 57) lc (n * scaleRow fb k) (d.w 4)
    let ty := if pr.int then AccType.int32 else AccType.fp32
    let bad := field w6 63 50 != 0 || field w7 63 58 != 0 || !fmtOk false fa || !fmtOk false fb || ap == 0 || bp == 0 || k == 0 || decide (65536 < k) ||
      field w7 53 52 == 3 || init == 3 || ((fmtBlock fa).isSome != (d.w 3 != 0)) || ((fmtBlock fb).isSome != (d.w 4 != 0)) ||
      (init != 2 && d.w 5 != 0) || a % 64 != 0 || b % 64 != 0 || decide (ap < rowBytes fa k) || decide (bp < rowBytes fb k) ||
      k % (f * pr.chunk) != 0 || (f == 2 && decide (64 < m)) || (f == 4 && decide (32 < m)) || (init == 1 && (t.acc.get accNo).type != ty)
    match ownOff t p a ((m - 1) * ap + rowBytes fa k), ownOff t p b ((n - 1) * bp + rowBytes fb k), scaleOff t p fa sa (m * scaleRow fa k),
        scaleOff t p fb sb (n * scaleRow fb k), (if init = 2 then ownOff t p (d.w 5) (512 * m) else some 0) with
    | some ao, some bo, some sao, some sbo, some co =>
      if bad then failDesc s p 0 d teBadField
      else
        let u : Unit' := { st := s, bad := false, ecc := false }
        let ra := readRows u p fa ao ap sao m k
        let rb := readRows ra.1 p fb bo bp sbo n k
        let rc := if init = 2 then readRows rb.1 p 0 co 512 0 m n else (rb.1, [])
        let raw := (List.range m).map (fun i => (List.range n).map (fun j =>
          if ((rc.2.getD i ([], [])).1.getD j none).isNone then none else some (fld (s.fab.mem.readN (tileWindow p + co + 512 * i + 4 * j) 4) 0 4)))
        let used := fun f => match fmtBlock f with
          | some g => (k + g - 1) / g
          | none => 0
        let cyc := (4 * k + f * pr.rate4 - 1) / (f * pr.rate4) + (if init = 2 then 64 else 0)
        let s := blockResult rc.1 p d fa fb pr f k accNo init m n (ra.2.map (aRow · (used fa))) (rb.2.map (aRow · (used fb))) raw
        let s := s.modTile p (fun t => { t with busyMat := (t.busyMat + cyc) % 2 ^ 64 })
        unitDone s p 0 d (unitErrors rc.1) (2 ^ accNo)
    | _, _, _, _, _ => failDesc s p 0 d teBadField

/-! ### Vector-stream operands (R92, R109, R110) -/

/-- Elements per cycle from the widest width in bits (R92). -/
def vecRate (w : Nat) : Nat := if 16 < w then 256 else if 8 < w then 512 else 1024

/-- Width that counts for R92: scaled formats count as 8-bit. -/
def vecWidth (f : Nat) : Nat := if (fmtBlock f).isSome then 8 else fmtBits (fmtCode f)

/-- A pitch that R109 allows. -/
def pitchOk (f pitch : Nat) : Bool :=
  match fmtBlock f with
  | some _ => pitch % fmtUnit f == 0
  | none => pitch * fmtBits (fmtCode f) % 8 == 0

/-- Bytes of a tensor of rows at a pitch. -/
def extent (f rows pitch cols : Nat) : Nat := (rows - 1) * rowBytes f pitch + rowBytes f cols

/-- asel and what it demands (R109). -/
def aselBad (asel a fa rows cols : Nat) (lix : Bool) : Bool :=
  asel == 3 || (asel != 0 && (a != 0 || fa != 0 || lix || decide (128 < rows) || decide (128 < cols)))

/-- Rows of an accumulator buffer as FP32. While a matrix descriptor that targets the buffer has not completed, what is read is a free
value (R108). -/
def readAcc (u : Unit') (p no rows cols : Nat) : Unit' × List (List (Option Val)) :=
  let t := u.st.tiles.get p
  let x := t.acc.get no
  let open_ := !accFree t (2 ^ no)
  let rs := (List.range rows).map (fun i => (List.range cols).map (fun j =>
    let c := x.cells.get (128 * i + j)
    let w : Word := if open_ then (Config.freeQuad (u.st.free + 128 * i + j)).setWidth 32 else c.1
    if c.2 then none else some (if x.type = .int32 then rne32 (cellVal .int32 w) else cellVal .fp32 w)))
  ({ u with st := if open_ then { u.st with free := u.st.free + 16384 } else u.st, bad := u.bad || rs.any (·.any (·.isNone)) }, rs)

/-- Operand A of a vector descriptor: an accumulator buffer, or a tensor at its offsets. -/
def readA (u : Unit') (p asel f off soff rows pitch cols : Nat) : Unit' × List (List (Option Val)) :=
  if asel = 0 then readTensor u p f off (rowBytes f pitch) soff rows cols else readAcc u p (asel - 1) rows cols

/-- A row converted into an unscaled destination: bytes and the ranges of poisoned elements. -/
def plainRow (f : Nat) (g : Rng) (vs : List (Option Val)) : Rng × List Byte × List (Nat × Nat) :=
  let r := mapRng (fun g v => match v with
    | some x => convert f g x
    | none => (g, 0)) g vs
  (r.1, packRow f r.2, vs.zipIdx.filterMap (fun v => if v.1.isNone then some (elemSpan f v.2 1) else none))

/-- A row converted into a scaled destination: bytes, poisoned ranges, scale bytes, poisoned scale ranges (R89, R90, R114). -/
def groupedRow (f B : Nat) (g : Rng) (vs : List (Option Val)) : Rng × (List Byte × List (Nat × Nat)) × (List Byte × List (Nat × Nat)) :=
  let n := vs.length
  let full := vs ++ List.replicate (rowElems f n - n) (some vzero)
  let sb := scaleBytes f
  let r := (List.range (rowElems f n / B)).foldl (fun (a : Rng × List Nat × List (Nat × Nat) × List Byte × List (Nat × Nat)) b =>
    let x := (full.drop (b * B)).take B
    let c := convertGroup f a.1 (x.map (·.getD vzero)) (min B (n - b * B))
    let bad := x.any (·.isNone)
    (c.1, a.2.1 ++ c.2.2, a.2.2.1 ++ (if bad then [elemSpan f (b * B) B] else []), a.2.2.2.1 ++ leBytes sb c.2.1,
     a.2.2.2.2 ++ (if bad then [(b * sb, b * sb + sb)] else []))) (g, [], [], [], [])
  (r.1, (packRow f r.2.1, r.2.2.1), (r.2.2.2.1, r.2.2.2.2))

/-- Rows converted and placed (R91, R114). -/
def putRows (f off pitch soff : Nat) (g : Rng) (rows : List (List (Option Val))) : Rng × List SramPut :=
  let r := rows.zipIdx.foldl (fun (a : Rng × List SramPut) x =>
    match fmtBlock f with
    | none =>
      let y := plainRow f a.1 x.1
      (y.1, a.2 ++ [{ off := off + x.2 * pitch, bytes := y.2.1, bad := y.2.2 }])
    | some B =>
      let y := groupedRow f B a.1 x.1
      (y.1, a.2 ++ [{ off := off + x.2 * pitch, bytes := y.2.1.1, bad := y.2.1.2 },
                    { off := soff + x.2 * scaleRow f x.1.length, bytes := y.2.2.1, bad := y.2.2.2 }])) (g, [])
  r

/-! ### ELEM (R111–R114) -/

/-- Operands that an operation uses; none for a reserved one. -/
def elemArity (op : Nat) : Option Nat :=
  if op = 0 ∨ op = 7 ∨ op = 9 ∨ op = 0xA then some 1
  else if op = 4 ∨ op = 8 ∨ op = 0xD then some 3
  else if op ≤ 0xC then some 2
  else none

/-- The exact result of an operation (R91, R113). -/
def elemOp (op : Nat) (a b c : Val) : Val :=
  match op with
  | 0x00 => a
  | 0x01 => a.add b
  | 0x02 => a.sub b
  | 0x03 => a.mul b
  | 0x04 => (a.mul b).add c
  | 0x05 => a.min b
  | 0x06 => a.max b
  | 0x07 => if a.isNan then .nan else if vzero.lt a then a else vzero
  | 0x08 => (a.max b).min c
  | 0x09 => a.abs
  | 0x0A => a.opp
  | 0x0B => if b.lt a then Val.ofInt 1 else vzero
  | 0x0C => if a.eq b then Val.ofInt 1 else vzero
  | _ => if a.eq vzero then c else b

/-- A second or third operand (R112): offset and shape checks; none raises BAD_FIELD. Rows × columns it is read as, and its offset. -/
def modeShape (t : Tile) (p mode f word rows cols pitch : Nat) : Option (Nat × Nat × Nat) :=
  match mode with
  | 0 => some (0, 0, 0)
  | 1 => some (0, 0, 0)
  | 2 => (ownOff t p word (rowBytes f cols)).map (fun o => (o, 1, cols))
  | 3 => (ownOff t p word (rowBytes f rows)).map (fun o => (o, 1, rows))
  | 4 => (ownOff t p word (extent f rows pitch cols)).map (fun o => (o, rows, cols))
  | _ => none

/-- The operand's values as read. -/
def readMode (u : Unit') (p f : Nat) (sh : Nat × Nat × Nat) (pitch : Nat) : Unit' × List (List (Option Val)) :=
  if sh.2.1 = 0 then (u, []) else readTensor u p f sh.1 (rowBytes f pitch) 0 sh.2.1 sh.2.2

/-- The operand at a position (R112). -/
def modeAt (mode word : Nat) (v : List (List (Option Val))) (i j : Nat) : Option Val :=
  match mode with
  | 0 => some vzero
  | 1 => some (ofFp32 word)
  | 2 => (v.getD 0 []).getD j none
  | 3 => (v.getD 0 []).getD i none
  | _ => (v.getD i []).getD j none

/-- Whether an operand field breaks R111, R112 or R114. -/
def modeBad (mode word f pitch : Nat) (role : Bool) : Bool :=
  decide (4 < mode) || (mode == 0 && word != 0 && !role) || (decide (mode ≤ 1) && f != 0) || (mode == 1 && word / 2 ^ 32 != 0) ||
  !fmtOk false f || (fmtBlock f).isSome || (mode == 4 && !pitchOk f pitch)

/-- ELEM. -/
def elemBody (s : State) (p : Nat) (d : Desc) : State :=
  let t := s.tiles.get p
  let w5 := d.w 5
  let w6 := d.w 6
  let w7 := d.w 7
  let fa := field w5 15 0
  let fb := field w5 31 16
  let fc := field w5 47 32
  let fd := field w5 63 48
  let rows := field w6 63 48
  let dp := field w6 47 24
  let sp := field w6 23 0
  let cols := field w7 15 0
  let op := field w7 21 16
  let bm := field w7 26 24
  let cm := field w7 29 27
  let asel := field w7 31 30
  let lc := field w7 33 32
  let al := bit w7 34
  let dl := bit w7 35
  let ar := (elemArity op).getD 0
  let sca := (fmtBlock fa).isSome
  let scd := (fmtBlock fd).isSome
  let bad := field w7 63 36 != 0 || field w7 23 22 != 0 || rows == 0 || cols == 0 || ar == 0 || aselBad asel (d.w 1) fa rows cols al ||
    !fmtOk false fa || !fmtOk true fd || ((bm != 0) != decide (2 ≤ ar)) || ((cm != 0) != (ar == 3)) || (ar != 1 && (sca || scd)) ||
    modeBad bm (d.w 2) fb sp (ar == 1 && scd) || modeBad cm (d.w 3) fc sp (ar == 1 && sca) || !pitchOk fd dp || (asel == 0 && !pitchOk fa sp)
  if bad then failDesc s p 1 d teBadField
  else
    let a := loopAdd t 1 al lc (rowBytes fa (rows * sp)) (d.w 1)
    let dst := loopAdd t 1 dl lc (rowBytes fd (rows * dp)) (d.w 4)
    let sa := loopAdd t 1 al lc (rows * scaleRow fa cols) (d.w 3)
    let sd := loopAdd t 1 dl lc (rows * scaleRow fd cols) (d.w 2)
    match (if asel = 0 then ownOff t p a (extent fa rows sp cols) else some 0), ownOff t p dst (extent fd rows dp cols),
        scaleOff t p fa sa (rows * scaleRow fa cols), scaleOff t p fd sd (rows * scaleRow fd cols),
        modeShape t p bm fb (d.w 2) rows cols sp, modeShape t p cm fc (d.w 3) rows cols sp with
    | some ao, some dof, some so, some sdo, some bs, some cs =>
      let u : Unit' := { st := s, bad := false, ecc := false }
      let ra := readA u p asel fa ao so rows sp cols
      let rb := readMode ra.1 p fb bs sp
      let rc := readMode rb.1 p fc cs sp
      let res := ra.2.zipIdx.map (fun r => r.1.zipIdx.map (fun v =>
        match v.1, modeAt bm (d.w 2) rb.2 r.2 v.2, modeAt cm (d.w 3) rc.2 r.2 v.2 with
        | some x, some y, some z => some (elemOp op x y z)
        | _, _, _ => none))
      let q := putRows fd dof (rowBytes fd dp) sdo { (tileRng s p) with free := rc.1.st.free } res
      let width := max (max (vecWidth fd) (if asel = 0 then vecWidth fa else 32)) (max (if 2 ≤ bm then vecWidth fb else 0) (if 2 ≤ cm then vecWidth fc else 0))
      vectorDone rc.1 p d q.2 q.1 ((rows * cols + vecRate width - 1) / vecRate width)
    | _, _, _, _, _, _ => failDesc s p 1 d teBadField

/-! ### REDUCE (R115, R116, R98) -/

/-- The largest power of two that divides every value of a list, as an exponent, if all are finite and not all zero. -/
def commonUlp (vs : List Val) : Int :=
  vs.foldl (fun e v => if v.toRat = 0 then e else min e (let q := v.abs.toRat; floorLog2 q - 23)) 200

/-- A sum in FP32 in an order the manual does not state (R98): exact where no order can round; otherwise a free value within the bound. A
NaN or an infinity is what any order gives. -/
def freeSum (g : Rng) (vs : List Val) : Rng × Val :=
  if vs.any (fun v => v.isNan || v.isInf) then (g, vs.tail.foldl (fun a v => rne32 (a.add v)) (vs.headD vzero))
  else
    let exact := (vs.map Val.toRat).sum
    let mag := (vs.map (fun v => v.abs.toRat)).sum
    let n := vs.length
    let k : Rat := ((n - 1 : Nat) : Rat) * pow2 (-24)
    if n ≤ 1 then (g, vs.headD vzero)
    else if mag < pow2 (commonUlp vs + 24) then (g, vs.tail.foldl (fun a v => rne32 (a.add v)) (vs.headD vzero))
    else if fp32.largest < mag ∨ 1 ≤ k then (g, vs.tail.foldl (fun a v => rne32 (a.add v)) (vs.headD vzero))
    else
      let tol := k / (1 - k) * mag
      let x := Config.roundedSum g.free exact
      let y := if x < exact - tol then exact - tol else if exact + tol < x then exact + tol else x
      let r := rne32 (Val.ofRat y)
      ({ g with free := g.free + 1 }, if exact - tol ≤ r.toRat ∧ r.toRat ≤ exact + tol then r else rne32 (Val.ofRat exact))

/-- Largest or smallest of a list, NaN ignored (R116, R144). -/
def extreme (pick : Val → Val → Val) (vs : List Val) : Val :=
  match vs.filter (fun v => !v.isNan) with
  | [] => .nan
  | v :: r => r.foldl pick v

/-- A reduction of FP32 values (R116). -/
def reduceOp (op : Nat) (g : Rng) (vs : List Val) : Rng × Val :=
  match op with
  | 0 => freeSum g vs
  | 1 => freeSum g (vs.map (fun v => rne32 (v.mul v)))
  | 2 => (g, extreme Val.max vs)
  | 3 => (g, extreme Val.min vs)
  | _ => freeSum g (vs.map (fun v => rne32 v.abs))

/-- A list of lists turned by its diagonal, `n` columns. -/
def columnsOf (n : Nat) (rs : List (List (Option Val))) : List (List (Option Val)) := (List.range n).map (fun j => rs.map (fun r => r.getD j none))

/-- REDUCE. -/
def reduceBody (s : State) (p : Nat) (d : Desc) : State :=
  let t := s.tiles.get p
  let w4 := d.w 4
  let w5 := d.w 5
  let w6 := d.w 6
  let fa := field w4 15 0
  let fd := field w4 31 16
  let rows := field w5 63 48
  let sp := field w5 23 0
  let cols := field w6 15 0
  let op := field w6 19 16
  let axis := field w6 20 20
  let asel := field w6 22 21
  let lc := field w6 24 23
  let al := bit w6 25
  let sca := (fmtBlock fa).isSome
  let nres := if axis = 0 then rows else cols
  let bad := field w5 47 24 != 0 || field w6 63 27 != 0 || d.w 7 != 0 || rows == 0 || cols == 0 || decide (4 < op) ||
    aselBad asel (d.w 1) fa rows cols al || !fmtOk false fa || !fmtOk true fd || (fmtBlock fd).isSome || (!sca && d.w 3 != 0) ||
    (asel == 0 && !pitchOk fa sp)
  if bad then failDesc s p 1 d teBadField
  else
    let a := loopAdd t 1 al lc (rowBytes fa (rows * sp)) (d.w 1)
    let sa := loopAdd t 1 al lc (rows * scaleRow fa cols) (d.w 3)
    let dst := loopAdd t 1 (bit w6 26) lc (rowBytes fd nres) (d.w 2)
    match (if asel = 0 then ownOff t p a (extent fa rows sp cols) else some 0), ownOff t p dst (rowBytes fd nres),
        scaleOff t p fa sa (rows * scaleRow fa cols) with
    | some ao, some dof, some so =>
      let ra := readA { st := s, bad := false, ecc := false } p asel fa ao so rows sp cols
      let lists := if axis = 0 then ra.2 else columnsOf cols ra.2
      let r := mapRng (fun g l =>
        if l.any (·.isNone) then (g, (none : Option Val))
        else
          let x := reduceOp op g ((l.map (·.getD vzero)).map rne32)
          (x.1, some (rne32 (x.2.mul (ofFp32 (field w4 63 32)))))) { (tileRng s p) with free := ra.1.st.free } lists
      let q := plainRow fd r.1 r.2
      let width := max (vecWidth fd) (if asel = 0 then vecWidth fa else 32)
      vectorDone ra.1 p d [{ off := dof, bytes := q.2.1, bad := q.2.2 }] q.1 ((rows * cols + vecRate width - 1) / vecRate width)
    | _, _, _ => failDesc s p 1 d teBadField

/-! ### SFU (R93, R117, R118) -/

/-- The functions of R93. -/
def sfuFn (n : Nat) (v : Val) : Val :=
  match n with
  | 0 => sfuExp2 v | 1 => sfuLog2 v | 2 => sfuRecip v | 3 => sfuRsqrt v | 4 => sfuSigmoid v | 5 => sfuTanh v | _ => sfuGelu v

/-- SFU. -/
def sfuBody (s : State) (p : Nat) (d : Desc) : State :=
  let t := s.tiles.get p
  let w3 := d.w 3
  let w4 := d.w 4
  let w5 := d.w 5
  let w6 := d.w 6
  let fa := field w4 15 0
  let fd := field w4 31 16
  let fn := field w4 35 32
  let dp := field w5 47 24
  let sp := field w5 23 0
  let rows := field w6 15 0
  let cols := field w6 31 16
  let asel := field w6 33 32
  let lc := field w6 35 34
  let al := bit w6 36
  let bad := field w4 63 36 != 0 || field w5 63 48 != 0 || field w6 63 38 != 0 || d.w 7 != 0 || rows == 0 || cols == 0 || decide (6 < fn) ||
    aselBad asel (d.w 1) fa rows cols al || !fmtOk false fa || !fmtOk true fd || (fmtBlock fa).isSome || (fmtBlock fd).isSome ||
    !pitchOk fd dp || (asel == 0 && !pitchOk fa sp)
  if bad then failDesc s p 1 d teBadField
  else
    let a := loopAdd t 1 al lc (rowBytes fa (rows * sp)) (d.w 1)
    let dst := loopAdd t 1 (bit w6 37) lc (rowBytes fd (rows * dp)) (d.w 2)
    match (if asel = 0 then ownOff t p a (extent fa rows sp cols) else some 0), ownOff t p dst (extent fd rows dp cols) with
    | some ao, some dof =>
      let ra := readA { st := s, bad := false, ecc := false } p asel fa ao 0 rows sp cols
      let pre := ofFp32 (field w3 31 0)
      let post := ofFp32 (field w3 63 32)
      let res := ra.2.map (fun r => r.map (fun v => v.map (fun x => rne32 (post.mul (sfuFn fn (rne32 (x.mul pre)))))))
      let q := putRows fd dof (rowBytes fd dp) 0 { (tileRng s p) with free := ra.1.st.free } res
      let cyc := (rows * cols + 63) / 64
      vectorDone { ra.1 with st := ra.1.st.modTile p (fun t => { t with busySfu := (t.busySfu + cyc) % 2 ^ 64 }) } p d q.2 q.1 cyc
    | _, _ => failDesc s p 1 d teBadField

/-! ### One meaning per command -/

def execMatmul (p : Fin 36) (s : State) : Out := .next (issueOp s p 0 (· == 0x10) (matmulReady p) (fun s d => matmulBody s p d))
def execElem (p : Fin 36) (s : State) : Out := .next (issueOp s p 1 (· == 0x20) anyTime (fun s d => elemBody s p d))
def execReduce (p : Fin 36) (s : State) : Out := .next (issueOp s p 1 (· == 0x21) anyTime (fun s d => reduceBody s p d))
def execSfu (p : Fin 36) (s : State) : Out := .next (issueOp s p 1 (· == 0x22) anyTime (fun s d => sfuBody s p d))

end Sys2Proof.Machine
end

