-- ==== Sys2Proof/Machine/Image.lean ====
section
/-! DEFINITION. Image operators: CONV_STRIPE, POOL, CROP_RESIZE, ARGMAX_C (chapter 05). -/

namespace Sys2Proof.Machine

/-! ### The assembled stripe (R126, R128, R136) -/

/-- The geometry that CONV_STRIPE words 5 and 6, or POOL words 4 and 5, describe. -/
structure Stripe where
  inW    : Nat
  inRows : Nat
  aPitch : Nat
  cin    : Nat
  kh     : Nat
  kw     : Nat
  sy     : Nat
  sx     : Nat
  dy     : Nat
  dx     : Nat
  pt     : Nat
  pb     : Nat
  pl     : Nat
  pr     : Nat
  tlb    : Nat
  ht     : Nat
  trel   : Nat
  blb    : Nat
  hb     : Nat
  brel   : Nat
  deriving DecidableEq, Repr

/-- The geometry of two words (R126). -/
def stripeOf (w5 w6 : Nat) : Stripe :=
  { inW := field w5 63 52 + 1, inRows := field w5 51 40 + 1, aPitch := field w5 39 24 * 64, cin := field w5 23 12 + 1,
    kh := field w5 11 8 + 1, kw := field w5 7 4 + 1, sy := field w6 63 61 + 1, sx := field w6 60 58 + 1, dy := field w6 57 55 + 1,
    dx := field w6 54 52 + 1, pt := field w6 51 48, pb := field w6 47 44, pl := field w6 43 40, pr := field w6 39 36,
    tlb := field w6 35 32, ht := field w6 31 27, trel := field w6 26 22, blb := field w6 21 18, hb := field w6 17 13,
    brel := field w6 12 8 }

/-- Assembled rows H_a. -/
def Stripe.rows (g : Stripe) : Nat := g.ht + g.inRows + g.hb

/-- Output height and width (R128). -/
def Stripe.outH (g : Stripe) : Int := ((g.rows + g.pt + g.pb : Nat) - (g.dy * (g.kh - 1) : Nat) - 1 : Int) / g.sy + 1
def Stripe.outW (g : Stripe) : Int := ((g.inW + g.pl + g.pr : Nat) - (g.dx * (g.kw - 1) : Nat) - 1 : Int) / g.sx + 1

/-- The taps in reduction order. -/
def Stripe.taps (g : Stripe) : List (Nat × Nat) := ((List.range g.kh).map (fun y => (List.range g.kw).map (fun x => (y, x)))).flatten

/-- The assembled pixel that a tap of an output pixel reads: none outside the region, clamped to it where `clamp` is set (R128, R129). -/
def Stripe.pixel (g : Stripe) (clamp : Bool) (oy ox : Nat) (k : Nat × Nat) : Option (Nat × Nat) :=
  let y : Int := (oy * g.sy + k.1 * g.dy : Nat) - (g.pt : Int)
  let x : Int := (ox * g.sx + k.2 * g.dx : Nat) - (g.pl : Int)
  if 0 ≤ y ∧ y < g.rows ∧ 0 ≤ x ∧ x < g.inW then some (y.toNat, x.toNat)
  else if clamp then some ((clampI 0 ((g.rows : Int) - 1) y).toNat, (clampI 0 ((g.inW : Int) - 1) x).toNat)
  else none

/-- The pixels that a list of output pixels reads, each once. -/
def Stripe.reads (g : Stripe) (clamp : Bool) (outs : List (Nat × Nat)) : List (Nat × Nat) :=
  ((outs.map (fun o => g.taps.filterMap (g.pixel clamp o.1 o.2))).flatten).eraseDups

/-- Bytes of a stored row of an unscaled map. -/
def mapRow (f w c : Nat) : Nat := w * c * (fmtBits (fmtCode f) / 8)

/-- Whether a halo field pair breaks R130: rows from a line buffer that is not defined, too short a halo or too short a slot. -/
def haloBad (t : Tile) (b h rel row : Nat) : Bool :=
  let x := t.lbs.get b
  (h != 0 || rel != 0) && (!x.defined || decide (x.h < h) || decide (x.pitch < row))

/-- The geometric conditions of R130 that CONV_STRIPE and POOL share. -/
def stripeBad (t : Tile) (g : Stripe) (f oy0 orows ox0 ocols : Nat) : Bool :=
  let row := mapRow f g.inW g.cin
  g.kh == 16 || g.kw == 16 || decide (16 < g.ht) || decide (16 < g.hb) || decide (16 < g.trel) || decide (16 < g.brel) ||
  decide (g.outH < 1) || decide (g.outW < 1) || decide (g.outH < (oy0 + orows : Nat)) || decide (g.outW < (ox0 + ocols : Nat)) ||
  decide (g.aPitch < row) || haloBad t g.tlb g.ht g.trel row || haloBad t g.blb g.hb g.brel row

/-- Enough rows have arrived on one side (R136): `need` is one more than the highest halo row read. -/
def haloHas (t : Tile) (b h rel need : Nat) : Bool :=
  let x := t.lbs.get b
  (h == 0 && rel == 0) || decide (max need rel ≤ x.rc - x.rp)

/-- The waits of R136 on both line buffers. -/
def haloReady (t : Tile) (g : Stripe) (pix : List (Nat × Nat)) : Bool :=
  let top := pix.foldl (fun m q => if q.1 < g.ht then max m (q.1 + 1) else m) 0
  let bot := pix.foldl (fun m q => if g.ht + g.inRows ≤ q.1 then max m (q.1 + 1 - g.ht - g.inRows) else m) 0
  haloHas t g.tlb g.ht g.trel top && haloHas t g.blb g.hb g.brel bot

/-- Own-SRAM offset of a line-buffer row counted from the release pointer (R132, R136). -/
def lbRowOff (x : LineBuf) (j : Nat) : Nat := x.base + (x.rp + j) % (x.h + x.k) * x.pitch

/-- Own-SRAM offset of an assembled row; `a` is that of the main rows. -/
def Stripe.rowOff (g : Stripe) (t : Tile) (a y : Nat) : Nat :=
  if y < g.ht then lbRowOff (t.lbs.get g.tlb) y
  else if y < g.ht + g.inRows then a + (y - g.ht) * g.aPitch
  else lbRowOff (t.lbs.get g.blb) (y - g.ht - g.inRows)

/-- Values of the pixels listed, by position: none for a poisoned element. -/
def readPixels (u : Unit') (p f c : Nat) (off : Nat → Nat → Nat) (pix : List (Nat × Nat)) : Unit' × List ((Nat × Nat) × List (Option Val)) :=
  let r := pix.foldl (fun (a : Unit' × List ((Nat × Nat) × List (Option Val))) q =>
    let x := readOwn a.1 p (off q.1 q.2) (mapRow f 1 c)
    let vs := rowVals f x.2.1 x.2.2 c
    ({ x.1 with bad := x.1.bad || vs.any (·.isNone) }, (q, vs) :: a.2)) (u, [])
  (r.1, r.2.reverse)

/-- The channels of a pixel. -/
def pixelOf (l : List ((Nat × Nat) × List (Option Val))) (q : Nat × Nat) : List (Option Val) :=
  match l.find? (fun x => x.1 == q) with
  | some x => x.2
  | none => []

/-! ### CONV_STRIPE (R126–R131) -/

/-- What a legal CONV_STRIPE works on. -/
structure ConvPlan where
  g     : Stripe
  pr    : Pair81
  fa    : Nat
  fb    : Nat
  a     : Nat
  b     : Nat
  sb    : Nat
  bp    : Nat
  k     : Nat
  n     : Nat
  outs  : List (Nat × Nat)
  fill  : Nat
  fillV : Val
  pix   : List (Nat × Nat)
  deriving DecidableEq, Repr

/-- Formats that A of CONV_STRIPE may have (R127). -/
def convFormat (f : Nat) : Bool := (fmtBlock f).isNone && [1, 2, 3, 4, 7, 8].contains (fmtCode f)

/-- The plan of a CONV_STRIPE; none where it raises BAD_FIELD. -/
def convPlan (t : Tile) (p : Nat) (d : Desc) : Option ConvPlan :=
  let w4 := d.w 4
  let w5 := d.w 5
  let w6 := d.w 6
  let w7 := d.w 7
  let g := stripeOf w5 w6
  let fb := field w4 63 48
  let fa := field w4 47 32
  let fill := field w4 15 14
  let lc := field w6 4 3
  let orows := field w7 39 33 + 1
  let ocols := field w7 32 26 + 1
  let n := field w7 25 19 + 1
  let idx := (loopOf t 0 lc).2
  let oy0 := field w7 63 52 + (if bit w6 1 then idx * orows else 0)
  let ox0 := field w7 51 40
  let k := g.kh * g.kw * g.cin
  let bp := roundUp (rowBytes fb k) 64
  let b := loopAdd t 0 (bit w6 0) lc (n * bp) (d.w 2)
  let sb := loopAdd t 0 (bit w6 0) lc (n * scaleRow fb k) (d.w 3)
  match pair81 fa fb with
  | none => none
  | some pr =>
    let ty := if pr.int then AccType.int32 else AccType.fp32
    let bad := field w4 13 0 != 0 || field w5 3 0 != 0 || field w6 7 5 != 0 || bit w6 2 || field w7 15 0 != 0 || !fmtOk false fa || !fmtOk false fb ||
      !convFormat fa || fill == 3 || decide (1 < field w7 17 16) || (fmtBits (fmtCode fa) == 8 && field w4 31 24 != 0) ||
      ((fmtBlock fb).isSome != (d.w 3 != 0)) || d.w 1 % 64 != 0 || b % 64 != 0 || decide (128 < orows * ocols) || k % pr.chunk != 0 ||
      stripeBad t g fa oy0 orows ox0 ocols || (field w7 17 16 == 1 && (t.acc.get (field w7 18 18)).type != ty)
    match ownOff t p (d.w 1) ((g.inRows - 1) * g.aPitch + mapRow fa g.inW g.cin), ownOff t p b ((n - 1) * bp + rowBytes fb k),
        scaleOff t p fb sb (n * scaleRow fb k) with
    | some ao, some bo, some so =>
      if bad then none
      else
        let outs := (List.range (orows * ocols)).map (fun i => (oy0 + i / ocols, ox0 + i % ocols))
        some { g := g, pr := pr, fa := fa, fb := fb, a := ao, b := bo, sb := so, bp := bp, k := k, n := n, outs := outs, fill := fill,
               fillV := rawVal fa (field w4 31 16), pix := g.reads (fill == 2) outs }
    | _, _, _ => none

/-- CONV_STRIPE may issue: the accumulator of a ZERO is free (R45) and its halo rows have arrived (R136). -/
def convReady (p : Nat) (s : State) (d : Desc) : Bool :=
  let t := s.tiles.get p
  match convPlan t p d with
  | none => true
  | some c => haloReady t c.g c.pix && (field (d.w 7) 17 16 == 1 || accFree t (2 ^ field (d.w 7) 18 18))

/-- An A row: the taps' channels in order, with the fill outside the region (R129). -/
def convRow (c : ConvPlan) (vals : List ((Nat × Nat) × List (Option Val))) (o : Nat × Nat) : ARow :=
  aRow ((c.g.taps.map (fun k =>
    match c.g.pixel (c.fill == 2) o.1 o.2 k with
    | some q => pixelOf vals q
    | none => List.replicate c.g.cin (some (if c.fill = 1 then c.fillV else vzero)))).flatten, []) 0

/-- Cycles that the array input is occupied (R131). -/
def convCycles (c : ConvPlan) : Nat :=
  let seg := (mapRow c.fa 1 c.g.cin + 127) / 128
  max ((4 * c.k + c.pr.rate4 - 1) / c.pr.rate4) ((c.outs.length * c.g.kh * c.g.kw * seg + 3) / 4)

/-- CONV_STRIPE. -/
def convBody (s : State) (p : Nat) (d : Desc) : State :=
  let t := s.tiles.get p
  match convPlan t p d with
  | none => failDesc s p 0 d teBadField
  | some c =>
    let acc := field (d.w 7) 18 18
    let es := mapRow c.fa 1 c.g.cin
    let ra := readPixels { st := s, bad := false, ecc := false } p c.fa c.g.cin (fun y x => c.g.rowOff t c.a y + x * es) c.pix
    let rb := readRows ra.1 p c.fb c.b c.bp c.sb c.n c.k
    let used := match fmtBlock c.fb with
      | some b => (c.k + b - 1) / b
      | none => 0
    let s := blockResult rb.1 p d c.fa c.fb c.pr 1 c.k acc (field (d.w 7) 17 16) c.outs.length c.n (c.outs.map (convRow c ra.2))
      (rb.2.map (aRow · used)) []
    let s := s.modTile p (fun t => { t with busyMat := (t.busyMat + convCycles c) % 2 ^ 64 })
    unitDone s p 0 d (unitErrors rb.1) (2 ^ acc)

/-! ### POOL (R143, R144) -/

/-- What a legal POOL works on. -/
structure PoolPlan where
  g     : Stripe
  fa    : Nat
  fd    : Nat
  a     : Nat
  d     : Nat
  dp    : Nat
  oy0   : Nat
  orows : Nat
  outW  : Nat
  pix   : List (Nat × Nat)
  deriving DecidableEq, Repr

/-- The plan of a POOL; none where it raises BAD_FIELD. -/
def poolPlan (t : Tile) (p : Nat) (d : Desc) : Option PoolPlan :=
  let w3 := d.w 3
  let w5 := d.w 5
  let w6 := d.w 6
  let g := stripeOf (d.w 4) w5
  let fd := field w3 63 48
  let fa := field w3 47 32
  let dp := field w3 31 16 * 64
  let lc := field w5 4 3
  let orows := field w6 51 40 + 1
  let oy0 := field w6 63 52 + (if bit w5 1 then (loopOf t 1 lc).2 * orows else 0)
  let dst := loopAdd t 1 (bit w5 1) lc (orows * dp) (d.w 2)
  let ow := g.outW.toNat
  let drow := mapRow fd ow g.cin
  let bad := field w3 15 0 != 0 || field (d.w 4) 3 0 != 0 || field w5 57 52 != 0 || field w5 7 5 != 0 || bit w5 2 || bit w5 0 || field w6 37 0 != 0 ||
    field w6 39 38 == 3 || d.w 7 != 0 || !fmtOk false fa || !fmtOk true fd || (fmtBlock fa).isSome || (fmtBlock fd).isSome ||
    stripeBad t g fa oy0 orows 0 1 || decide (dp < drow)
  match ownOff t p (d.w 1) ((g.inRows - 1) * g.aPitch + mapRow fa g.inW g.cin), ownOff t p dst ((orows - 1) * dp + drow) with
  | some ao, some dof =>
    if bad then none
    else
      let outs := ((List.range orows).map (fun i => (List.range ow).map (fun x => (oy0 + i, x)))).flatten
      some { g := g, fa := fa, fd := fd, a := ao, d := dof, dp := dp, oy0 := oy0, orows := orows, outW := ow, pix := g.reads false outs }
  | _, _ => none

/-- POOL may issue once its halo rows have arrived (R136). -/
def poolReady (p : Nat) (s : State) (d : Desc) : Bool :=
  match poolPlan (s.tiles.get p) p d with
  | none => true
  | some c => haloReady (s.tiles.get p) c.g c.pix

/-- The least value of a format: −∞, or an integer format's minimum (R144). -/
def formatMin (f : Nat) : Val := if isIntCode (fmtCode f) then Val.ofInt (-(2 ^ (fmtBits (fmtCode f) - 1) : Nat)) else .inf true

/-- The result of one channel of a window from its in-region elements in tap order (R144). -/
def poolWindow (mode f taps : Nat) (vs : List Val) : Val :=
  if mode = 0 then (if vs.isEmpty then formatMin f else extreme Val.max vs)
  else
    let n := if mode = 1 then taps else vs.length
    match vs.map rne32 with
    | [] => vzero
    | v :: r => rne32 ((r.foldl (fun a x => rne32 (a.add x)) v).div (Val.ofInt n))

/-- POOL. -/
def poolBody (s : State) (p : Nat) (d : Desc) : State :=
  let t := s.tiles.get p
  match poolPlan t p d with
  | none => failDesc s p 1 d teBadField
  | some c =>
    let es := mapRow c.fa 1 c.g.cin
    let ra := readPixels { st := s, bad := false, ecc := false } p c.fa c.g.cin (fun y x => c.g.rowOff t c.a y + x * es) c.pix
    let mode := field (d.w 6) 39 38
    let rows := (List.range c.orows).map (fun i => ((List.range c.outW).map (fun x =>
      let win := c.g.taps.filterMap (fun k => (c.g.pixel false (c.oy0 + i) x k).map (pixelOf ra.2))
      (List.range c.g.cin).map (fun ch =>
        let vs := win.map (fun q => q.getD ch none)
        if vs.any (·.isNone) then none else some (poolWindow mode c.fa (c.g.kh * c.g.kw) (vs.map (·.getD vzero)))))).flatten)
    let q := putRows c.fd c.d c.dp 0 { (tileRng s p) with free := ra.1.st.free } rows
    let rate := vecRate (max (vecWidth c.fa) (vecWidth c.fd))
    vectorDone ra.1 p d q.2 q.1 ((c.orows * c.outW * c.g.cin * c.g.kh * c.g.kw + rate - 1) / rate)

/-! ### CROP_RESIZE (R145, R146) -/

/-- FP32 operations, each rounded to nearest. -/
def fadd (a b : Val) : Val := rne32 (a.add b)
def fsub (a b : Val) : Val := rne32 (a.sub b)
def fmul (a b : Val) : Val := rne32 (a.mul b)
def fdiv (a b : Val) : Val := rne32 (a.div b)

/-- A sample coordinate (R146 step 1). -/
def cropCoord (corner : Bool) (c1 c2 : Val) (n i : Nat) : Val :=
  if !corner then fadd c1 (fmul (fadd (Val.ofInt i) (Val.ofRat (1 / 2))) (fdiv (fsub c2 c1) (Val.ofInt n)))
  else if n = 1 then fmul (fadd c1 c2) (Val.ofRat (1 / 2))
  else fadd c1 (fmul (Val.ofInt i) (fdiv (fsub c2 c1) (fsub (Val.ofInt n) (Val.ofInt 1))))

/-- Whether a coordinate lies outside the map (R146 step 2). -/
def cropOutside (v : Val) (n : Nat) : Bool := v.lt (Val.ofInt (-1)) || (Val.ofInt n).lt v

/-- The two neighbours of a coordinate and the weight of the second (R146 step 3). -/
def cropTaps (v : Val) (n : Nat) : Nat × Nat × Val :=
  let c := (v.max vzero).min (Val.ofInt ((n : Int) - 1))
  let a := c.toRat.floor.toNat
  (a, min (a + 1) (n - 1), fsub c (Val.ofInt a))

/-- Bilinear interpolation (R146 step 4). -/
def bilinear (wy wx aa ab ba bb : Val) : Val :=
  let one := Val.ofInt 1
  let row := fun x y => fadd (fmul (fsub one wx) x) (fmul wx y)
  fadd (fmul (fsub one wy) (row aa ab)) (fmul wy (row ba bb))

/-- CROP_RESIZE. -/
def cropBody (s : State) (p : Nat) (d : Desc) : State :=
  let t := s.tiles.get p
  let w4 := d.w 4
  let w5 := d.w 5
  let w6 := d.w 6
  let fd := field w4 31 16
  let fa := field w4 15 0
  let h := field w5 63 52 + 1
  let w := field w5 51 40 + 1
  let c := field w5 39 28 + 1
  let ap := field w5 27 12 * 64
  let oh := field w6 63 58 + 1
  let ow := field w6 57 52 + 1
  let cnt := field w6 51 42 + 1
  let corner := bit w6 41
  let bs := field w6 40 21 * 64
  let out := oh * mapRow fd ow c
  let bad := field w5 11 0 != 0 || field w6 20 0 != 0 || d.w 7 != 0 || d.w 2 % 16 != 0 || !fmtOk false fa || !fmtOk true fd || (fmtBlock fa).isSome ||
    (fmtBlock fd).isSome || decide (bs < out)
  match ownOff t p (d.w 1) ((h - 1) * ap + mapRow fa w c), ownOff t p (d.w 2) (16 * cnt), ownOff t p (d.w 3) ((cnt - 1) * bs + out) with
  | some ao, some bo, some dof =>
    if bad then failDesc s p 1 d teBadField
    else
      let rb := readRows { st := s, bad := false, ecc := false } p 0 bo 16 0 cnt 4
      let boxes := rb.2.map (·.1)
      let coords := boxes.map (fun b => if b.any (·.isNone) then none else
        let v := b.map (·.getD vzero)
        let g := fun i => v.getD i vzero
        let finite := v.all (fun x => !x.isNan && !x.isInf)
        some ((List.range (oh * ow)).map (fun i =>
          let y := cropCoord corner (g 0) (g 2) oh (i / ow)
          let x := cropCoord corner (g 1) (g 3) ow (i % ow)
          if !finite || cropOutside y h || cropOutside x w then none else some (cropTaps y h, cropTaps x w))))
      let pix := ((coords.filterMap id).flatten.filterMap id).foldr (fun q l =>
        (q.1.1, q.2.1) :: (q.1.1, q.2.2.1) :: (q.1.2.1, q.2.1) :: (q.1.2.1, q.2.2.1) :: l) ([] : List (Nat × Nat))
      let ra := readPixels rb.1 p fa c (fun y x => ao + y * ap + x * mapRow fa 1 c) pix.eraseDups
      let ext := ofFp32 (field w4 63 32)
      let rows := coords.map (fun b => match b with
        | none => List.replicate (oh * ow * c) none
        | some l => (l.map (fun q => match q with
          | none => List.replicate c (some ext)
          | some q =>
            let at' := fun y x => pixelOf ra.2 (y, x)
            (List.range c).map (fun ch =>
              match (at' q.1.1 q.2.1).getD ch none, (at' q.1.1 q.2.2.1).getD ch none, (at' q.1.2.1 q.2.1).getD ch none,
                  (at' q.1.2.1 q.2.2.1).getD ch none with
              | some aa, some ab, some ba, some bb => some (bilinear q.1.2.2 q.2.2.2 (rne32 aa) (rne32 ab) (rne32 ba) (rne32 bb))
              | _, _, _, _ => none))).flatten)
      let q := putRows fd dof bs 0 { (tileRng s p) with free := ra.1.st.free } rows
      let rate := vecRate (max (vecWidth fa) (vecWidth fd))
      vectorDone ra.1 p d q.2 q.1 ((cnt * oh * ow * c * 4 + rate - 1) / rate)
  | _, _, _ => failDesc s p 1 d teBadField

/-! ### ARGMAX_C (R147) -/

/-- The index and value of the largest channel: the lowest index of equals, NaN ignored. -/
def argmax (vs : List Val) : Nat × Val :=
  (vs.zipIdx.foldl (fun (a : Option (Nat × Val)) v =>
    if v.1.isNan then a
    else match a with
      | none => some (v.2, v.1)
      | some b => if b.2.below v.1 then some (v.2, v.1) else a) none).getD (0xFFFF, .nan)

/-- ARGMAX_C. -/
def argmaxBody (s : State) (p : Nat) (d : Desc) : State :=
  let t := s.tiles.get p
  let w4 := d.w 4
  let w5 := d.w 5
  let w6 := d.w 6
  let fv := field w4 47 32
  let fa := field w4 31 16
  let c := field w4 15 0
  let rows := field w5 63 48
  let cols := field w5 47 32
  let ap := field w5 31 16 * 64
  let dip := field w6 63 40 * 2
  let ev := fmtBits (fmtCode fv) / 8
  let dvp := field w6 39 16 * ev
  let lc := field w6 4 3
  let dv0 := d.w 3 != 0
  let bad := field w4 63 48 != 0 || field w5 15 0 != 0 || field w6 15 5 != 0 || bit w6 0 || d.w 7 != 0 || c == 0 || rows == 0 || cols == 0 ||
    !fmtOk false fa || (fmtBlock fa).isSome || !fmtOk true fv || (fmtBlock fv).isSome || (!dv0 && fv != 0)
  let a := loopAdd t 1 (bit w6 2) lc (rows * ap) (d.w 1)
  let di := loopAdd t 1 (bit w6 1) lc (rows * dip) (d.w 2)
  let dv := loopAdd t 1 (bit w6 1) lc (rows * dvp) (d.w 3)
  match ownOff t p a ((rows - 1) * ap + mapRow fa cols c), ownOff t p di ((rows - 1) * dip + 2 * cols),
      (if dv0 then ownOff t p dv ((rows - 1) * dvp + cols * ev) else some 0) with
  | some ao, some dio, some dvo =>
    if bad then failDesc s p 1 d teBadField
    else
      let pix := ((List.range rows).map (fun y => (List.range cols).map (fun x => (y, x)))).flatten
      let ra := readPixels { st := s, bad := false, ecc := false } p fa c (fun y x => ao + y * ap + x * mapRow fa 1 c) pix
      let best := fun y x =>
        let vs := pixelOf ra.2 (y, x)
        if vs.any (·.isNone) then none else some (argmax (vs.map (·.getD vzero)))
      let res := (List.range rows).map (fun y => (List.range cols).map (best y))
      let iput := res.zipIdx.map (fun r =>
        let w : SramPut := {
          off := dio + r.2 * dip
          bytes := (r.1.map (fun v => leBytes 2 (v.getD (0, vzero)).1)).flatten
          bad := r.1.zipIdx.filterMap (fun v => if v.1.isNone then some (2 * v.2, 2 * v.2 + 2) else none) }
        w)
      let q := if dv0 then putRows fv dvo dvp 0 { (tileRng s p) with free := ra.1.st.free } (res.map (fun r => r.map (fun v => v.map (·.2))))
        else ({ (tileRng s p) with free := ra.1.st.free }, [])
      let rate := vecRate (max (vecWidth fa) (max 16 (if dv0 then vecWidth fv else 0)))
      vectorDone ra.1 p d (iput ++ q.2) q.1 ((rows * cols * c + rate - 1) / rate)
  | _, _, _ => failDesc s p 1 d teBadField

/-! ### One meaning per command -/

def execConvStripe (p : Fin 36) (s : State) : Out := .next (issueOp s p 0 (· == 0x11) (convReady p) (fun s d => convBody s p d))
def execPool (p : Fin 36) (s : State) : Out := .next (issueOp s p 1 (· == 0x23) (poolReady p) (fun s d => poolBody s p d))
def execArgmaxC (p : Fin 36) (s : State) : Out := .next (issueOp s p 1 (· == 0x24) anyTime (fun s d => argmaxBody s p d))
def execCropResize (p : Fin 36) (s : State) : Out := .next (issueOp s p 1 (· == 0x25) anyTime (fun s d => cropBody s p d))

end Sys2Proof.Machine
end

