-- ==== Sys2Proof/Machine/Linebuf.lean ====
section
/-! DEFINITION. LB_CONFIG: line buffers and export entries (R132–R137). -/

namespace Sys2Proof.Machine

/-- The op field of LB_CONFIG (R134). -/
def lbOp (d : Desc) : Nat := field (d.w 2) 63 60

/-- A head with op `k`; one with a reserved op is taken by every LB_CONFIG row, and raises BAD_FIELD. -/
def lbIs (k : Nat) (_ : State) (d : Desc) : Bool := lbOp d == k || decide (4 < lbOp d)

/-- Fields of LB_CONFIG words 2 and 3. -/
def lbNum (d : Desc) : Nat := field (d.w 2) 59 56
def lbExp (d : Desc) : Nat := field (d.w 2) 55 54
def lbY0 (d : Desc) : Nat := field (d.w 2) 47 32
def lbHalo (d : Desc) : Nat := field (d.w 2) 30 26
def lbSkew (d : Desc) : Nat := field (d.w 2) 25 21
def lbRel (d : Desc) : Nat := field (d.w 2) 20 16
def lbPitch (d : Desc) : Nat := field (d.w 2) 13 0

/-- A nonzero reserved or unused field; `shape`: the op uses y0, h, k and pitch, which must then be in range (R134). -/
def lbFieldsBad (d : Desc) (addr lb exp shape rel cred ctr : Bool) : Bool :=
  let w3 := d.w 3
  !d.zeroFrom 4 || decide (4 < lbOp d) || field (d.w 2) 53 48 != 0 || bit (d.w 2) 31 || field (d.w 2) 15 14 != 0 || w3 / 65536 != 0 ||
  field w3 14 13 != 0 || field w3 7 6 != 0 || bit w3 4 ||
  (!addr && d.w 1 != 0) || (!lb && lbNum d != 0) || (!exp && lbExp d != 0) ||
  (if shape then !(decide (1 ≤ lbHalo d ∧ lbHalo d ≤ 16 ∧ 2 ≤ lbSkew d ∧ lbSkew d ≤ 16 ∧ 1 ≤ lbPitch d))
   else lbY0 d != 0 || lbHalo d != 0 || lbSkew d != 0 || lbPitch d != 0) ||
  (if rel then !(decide (1 ≤ lbRel d ∧ lbRel d ≤ 16)) else lbRel d != 0) ||
  (!cred && (bit w3 15 || field w3 12 8 != 0 || bit w3 5)) || (!ctr && field w3 3 0 != 0)

/-- Bytes of the ring that DEFINE or EXPORT describes. -/
def lbRing (d : Desc) : Nat := (lbHalo d + lbSkew d) * (lbPitch d * 64)

/-- Whether a ring meets another defined line buffer. -/
def lbOverlaps (t : Tile) (b off len : Nat) : Bool :=
  (List.range 16).any (fun i =>
    let x := t.lbs.get i
    i != b && x.defined && decide (x.base < off + len ∧ off < x.base + (x.h + x.k) * x.pitch))

/-- DEFINE (R135). -/
def lbDefineBody (s : State) (p : Nat) (d : Desc) : State :=
  let t := s.tiles.get p
  let w3 := d.w 3
  match ownOff t p (d.w 1) (lbRing d) with
  | none => failDesc s p 3 d teBadField
  | some o =>
    if lbFieldsBad d true true false true false true true || o % 128 != 0 || lbOverlaps t (lbNum d) o (lbRing d) then failDesc s p 3 d teBadField
    else
      let x : LineBuf := {
        defined := true, base := o, h := lbHalo d, k := lbSkew d, pitch := lbPitch d * 64, y0 := lbY0 d, rc := 0, rp := 0, fill := Tab.const 0,
        cen := bit w3 15, ltile := field w3 12 8, self := bit w3 5, ctr := field w3 3 0 }
      holdIssue (s.modTile p (fun t => { t with lbs := t.lbs.set (lbNum d) x })) p 3 d none 0

/-- The logical tile and window offset of EXPORT's address; none where it names no logical tile's window. -/
def exportBase (t : Tile) (a : Nat) : Option (Nat × Nat) :=
  if tensorBad a then none
  else match field a 63 62 with
    | 2 => some (field a 52 48, a % 2 ^ 24)
    | 0 =>
      match target (a % 2 ^ 48) with
      | .tileSram q off => ((List.range 32).find? (fun l => lmapPhys (t.lmap.get l) == some q)).map (fun l => (l, off))
      | _ => none
    | _ => none

/-- EXPORT (R135); a form 0b10 address of a VACANT logical tile is TILE_VACANT, and the entry is not armed. -/
def lbExportBody (s : State) (p : Nat) (d : Desc) : State :=
  let t := s.tiles.get p
  match exportBase t (d.w 1) with
  | none => failDesc s p 3 d teBadField
  | some (l, off) =>
    let ctr := field (d.w 3) 3 0
    if lbFieldsBad d true false true true false false true || decide (2 ^ 24 < off + lbRing d) then failDesc s p 3 d teBadField
    else if (lmapPhys (t.lmap.get l)).isNone then
      let s := softError s p 3 d teVacant
      if d.errCont then holdIssue s p 3 d (some teVacant) 0 else s
    else
      let x : Export := {
        armed := true, base := off, ltile := l, n := lbHalo d + lbSkew d, pitch := lbPitch d * 64, y0 := lbY0 d, wrow := 0, issued := 0, ctr := ctr }
      holdIssue (s.modTile p (fun t => { t with exports := t.exports.set (lbExp d) x, ev := t.ev.set ctr 0 })) p 3 d none 0

/-- A waiting RELEASE releases its rows once enough have arrived, and completes (R135, R136). -/
def lbReleaseTry (s : State) (p : Nat) (d : Desc) : State :=
  let x := (s.tiles.get p).lbs.get (lbNum d)
  if !x.defined || decide (x.rc - x.rp < lbRel d) then s
  else
    let r := lbRelease s p (lbNum d) (lbRel d)
    match r.2 with
    | none => endWait r.1 p 3 d none
    | some e =>
      let s := softError r.1 p 3 d e
      if d.errCont then endWait s p 3 d (some e) else s

/-- RELEASE (R135). -/
def lbReleaseBody (s : State) (p : Nat) (d : Desc) : State :=
  if lbFieldsBad d false true false false true false false then failDesc s p 3 d teBadField else lbReleaseTry (startWait s p 3 d) p d

/-- UNDEFINE (R135). -/
def lbUndefineBody (s : State) (p : Nat) (d : Desc) : State :=
  if lbFieldsBad d false true false false false false false then failDesc s p 3 d teBadField
  else holdIssue (s.modTile p (fun t => { t with lbs := t.lbs.modify (lbNum d) (fun x => { x with defined := false }) })) p 3 d none 0

/-- UNEXPORT (R135). -/
def lbUnexportBody (s : State) (p : Nat) (d : Desc) : State :=
  if lbFieldsBad d false false true false false false false then failDesc s p 3 d teBadField
  else holdIssue (s.modTile p (fun t => { t with exports := t.exports.modify (lbExp d) (fun x => { x with armed := false }) })) p 3 d none 0

/-- An LB_CONFIG of op `k` issues. -/
def lbIssue (s : State) (p k : Nat) (body : State → Nat → Desc → State) : State := issueOp s p 3 (· == 0x40) (lbIs k) (fun s d => body s p d)

/-! ### One meaning per command -/

def execLbConfigDefine (p : Fin 36) (s : State) : Out := .next (lbIssue s p 0 lbDefineBody)
def execLbConfigExport (p : Fin 36) (s : State) : Out := .next (lbIssue s p 1 lbExportBody)
def execLbConfigRelease (p : Fin 36) (s : State) : Out := .next (lbIssue s p 2 lbReleaseBody)
def execLbReleaseApply (p : Fin 36) (s : State) : Out := .next (retryWait s p 3 0x40 (fun s _ d => lbReleaseTry s p d))
def execLbConfigUndefine (p : Fin 36) (s : State) : Out := .next (lbIssue s p 3 lbUndefineBody)
def execLbConfigUnexport (p : Fin 36) (s : State) : Out := .next (lbIssue s p 4 lbUnexportBody)

end Sys2Proof.Machine
end

