-- ==== Sys2Proof/Machine/Attn.lean ====
section
/-! DEFINITION. Attention: ATTN_PAGE, the page walker and ATTN_COMBINE (chapter 06). -/

namespace Sys2Proof.Machine

/-! ### ATTN_PAGE fields (R157, R158) -/

def attnQpos0 (d : Desc) : Nat := field (d.w 5) 63 32
def attnG (d : Desc) : Nat := field (d.w 5) 31 25 + 1
def attnMask (d : Desc) : Nat := field (d.w 5) 24 23
def attnWin (d : Desc) : Nat := field (d.w 5) 20 0 + 1
def attnFmtQ (d : Desc) : Nat := field (d.w 4) 31 16
def attnPitch (d : Desc) : Nat := field (d.w 6) 63 48 * 64
def attnM (d : Desc) : Nat := field (d.w 6) 47 41 + 1
def attnD (d : Desc) : Nat := 32 * (field (d.w 6) 40 38 + 1)
def attnF (d : Desc) : Nat := 2 ^ field (d.w 6) 37 36
def attnAcc (d : Desc) : Nat := field (d.w 6) 35 35
def attnInit (d : Desc) : Bool := bit (d.w 6) 34
def attnIsWalk (d : Desc) : Bool := bit (d.w 6) 33
def attnP (d : Desc) : Nat := if bit (d.w 6) 32 then 1 else 3

/-- Accumulator buffers that hold O, by mask. -/
def attnAccMask (d : Desc) : Nat := if 128 < attnD d then 3 else 2 ^ attnAcc d

/-- A K and V format that R151 allows. -/
def kvFmtOk (f : Nat) : Bool := decide (1 ≤ f ∧ f ≤ 4)

/-- Bytes of a page (R150). -/
def pageBytes (d f : Nat) : Nat := 128 * d * (fmtBits f / 8)

/-- A page that R150 allows: 4 KiB aligned, wholly inside one die's DRAM. -/
def pageOk (a d f : Nat) : Bool :=
  a % 4096 == 0 && decide (a + pageBytes d f ≤ 4 * dieSpan) && a / dieSpan == (a + pageBytes d f - 1) / dieSpan

/-- The score and weight pairs of R158. -/
def attnPairOk (d : Desc) (f : Nat) : Bool :=
  let q := attnFmtQ d
  ((isFp8 q && isFp8 f) || (isHalf q && (isHalf f || isFp8 f))) && (!isHalf f || attnP d == 1)

/-- Q address and state address after the loop increments. -/
def attnQ (t : Tile) (d : Desc) : Nat := loopAdd t 0 (bit (d.w 6) 4) (field (d.w 6) 1 0) (attnM d * attnPitch d) (d.w 1)
def attnSt (t : Tile) (d : Desc) : Nat := loopAdd t 0 (bit (d.w 6) 3) (field (d.w 6) 1 0) (attnM d * 16) (d.w 2)

/-- BAD_FIELD of R157 and R158 but for the page. -/
def attnBad (d : Desc) : Bool :=
  let q := attnFmtQ d
  let dd := attnD d
  field (d.w 4) 15 0 != 0 || field (d.w 5) 22 21 != 0 || field (d.w 6) 20 5 != 0 || bit (d.w 6) 2 || field (d.w 7) 31 0 != 0 || !fmtOk false q ||
  fmtMx q || !(isFp8 q || isHalf q) || field (d.w 6) 37 36 == 3 || attnMask d == 3 || decide (128 < attnM d * attnF d) ||
  (decide (128 < dd) && attnAcc d == 1) || dd % (attnF d * 32) != 0 || attnPitch d == 0 || decide (attnPitch d < dd * (fmtBits (fmtCode q) / 8)) ||
  (attnIsWalk d && (d.w 3 != 0 || field (d.w 6) 31 25 != 0 || field (d.w 6) 24 21 != 0 || field (d.w 7) 63 32 != 0))

/-- Offsets of Q and of the row state in own SRAM; none where R100 or an alignment raises BAD_FIELD. -/
def attnOffs (t : Tile) (p : Nat) (d : Desc) : Option (Nat × Nat) :=
  let q := attnQ t d
  let st := attnSt t d
  if q % 64 ≠ 0 ∨ st % 16 ≠ 0 then none
  else match ownOff t p q ((attnM d - 1) * attnPitch d + attnD d * (fmtBits (fmtCode (attnFmtQ d)) / 8)), ownOff t p st (16 * attnM d) with
    | some a, some b => some (a, b)
    | _, _ => none

/-! ### Row state (R159–R162) -/

/-- The state of a query row: m, l, flags, the O row by cell; `set`: it is to be written. -/
structure RowState where
  m     : Val
  l     : Val
  flags : Nat
  o     : List (Word × Bool)
  set   : Bool
  deriving DecidableEq, Repr

/-- The state that init leaves. -/
def rowInit (d : Nat) : RowState := { m := .inf true, l := vzero, flags := 0, o := List.replicate d (0, false), set := true }

/-- exp of the softmax path: exp(0) is exactly 1 (R160, R170). -/
def attnExp (v : Val) : Val := if v.eq vzero then Val.ofInt 1 else expNat v

/-- Whether slot `j` is masked for a row (R161). -/
def slotMasked (d : Desc) (count kpos0 i j : Nat) : Bool :=
  let q := (attnQpos0 d + i / attnG d) % 2 ^ 32
  let k := (kpos0 + j) % 2 ^ 32
  decide (count ≤ j) || (attnMask d != 0 && decide (q < k)) || (attnMask d == 2 && decide (attnWin d ≤ q - k))

/-- A row whose page or query is poisoned (R162): O is poison, POISON is set; what m and l become is not stated. -/
def rowPoison (r : RowState) (free : Quad) : RowState :=
  { m := ofFp32 free.toNat, l := ofFp32 (free.toNat / 2 ^ 32), flags := r.flags ||| 2, o := r.o.map (fun c => (c.1, true)), set := true }

/-- A row with a score that is not finite (R162). -/
def rowNonfin (r : RowState) : RowState :=
  { m := .nan, l := .nan, flags := r.flags ||| 1, o := r.o.map (fun c => (BitVec.ofNat 32 fp32.nan, c.2)), set := true }

/-- One page folded into a row: scores `s` by slot, `seen` the unmasked slots, V rows (R160). -/
def rowFold (d : Desc) (fkv : Nat) (r : RowState) (s : List Val) (seen : List Bool) (v : List (List Val)) : RowState :=
  let live := (s.zip seen).filterMap (fun x => if x.2 then some x.1 else none)
  let mnew := live.foldl Val.max r.m
  let alpha := if r.m = .inf true then vzero else if mnew.eq r.m then Val.ofInt 1 else attnExp (rne32 (r.m.sub mnew))
  let pf := (floatOf (attnP d)).getD e4m3
  let ps := (s.zip seen).map (fun x => if x.2 then pf.decode (pf.rneCode (attnExp (rne32 (x.1.sub mnew)))) else vzero)
  let scale := fun x => if alpha.eq vzero then vzero else rne32 (alpha.mul x)
  let l := flush32 ((scale r.l).add (rne32 (ps.foldl Val.add vzero)))
  let row : ARow := { vals := ps, scales := [], bad := false }
  let o := r.o.zipIdx.map (fun c =>
    let col : ARow := { vals := (v.zip seen).map (fun x => if x.2 then x.1.getD c.2 vzero else vzero), scales := [], bad := false }
    (BitVec.ofNat 32 (toFp32 (flush32 (dotFp (attnP d) fkv 32 (min (attnF d) 2) 64 (flush32 (scale (ofFp32 c.1.1.toNat))) row col))), c.1.2))
  { m := flush32 mnew, l := l, flags := r.flags, o := o, set := true }

/-- One page folded into a row (R160–R162). `kv`: the page's K and V rows, none if it is poisoned. -/
def rowStep (d : Desc) (fkv count kpos0 : Nat) (kv : Option (List ARow × List (List Val))) (free : Nat → Quad) (i : Nat) (q : ARow) (r : RowState) :
    RowState × Bool :=
  let seen := (List.range 64).map (fun j => !slotMasked d count kpos0 i j)
  if bit r.flags 0 then (r, false)
  else if q.bad then (rowPoison r (free i), true)
  else if !seen.any id then (r, false)
  else match kv with
    | none => (rowPoison r (free i), true)
    | some (ks, vs) =>
      let s := ks.map (fun k => rne32 ((ofFp32 (field (d.w 4) 63 32)).mul (dotFp (attnFmtQ d) fkv 32 (attnF d) (attnD d) vzero q k)))
      if (s.zip seen).any (fun x => x.2 && (x.1.isNan || x.1.isInf)) then (rowNonfin r, false) else (rowFold d fkv r s seen vs, false)

/-- The bytes of a state entry. -/
def rowEntry (r : RowState) : List Byte := leBytes 4 (toFp32 r.m) ++ leBytes 4 (toFp32 r.l) ++ leBytes 4 r.flags ++ leBytes 4 0

/-- The accumulator cell of column `c` of a row of O (R159): buffer and cell. -/
def oCell (d : Desc) (i c : Nat) : Nat × Nat := if c < 128 then (if 128 < attnD d then 0 else attnAcc d, 128 * i + c) else (1, 128 * i + c - 128)

/-- The state of each row, as read or as initialised, with whether it was poison. -/
def readState (u : Unit') (p : Nat) (d : Desc) (so : Nat) (init : Bool) : Unit' × List (RowState × Bool) :=
  if init then (u, List.replicate (attnM d) (rowInit (attnD d), false))
  else
    let t := u.st.tiles.get p
    let r := readRows u p 0 so 16 0 (attnM d) 4
    (r.1, r.2.zipIdx.map (fun x =>
      let w := fun k => fld (u.st.fab.mem.readN (tileWindow p + so + 16 * x.2) 16) (4 * k) 4
      ({ m := ofFp32 (w 0), l := ofFp32 (w 1), flags := w 2 % 8, set := false,
         o := (List.range (attnD d)).map (fun c => let k := oCell d x.2 c; (t.acc.get k.1).cells.get k.2) }, x.1.1.any (·.isNone))))

/-- The rows written back: state entries of the rows changed, O into the buffers, which become FP32 (R159). -/
def writeState (s : State) (p : Nat) (d : Desc) (so : Nat) (rows : List RowState) : State :=
  let s := rows.zipIdx.foldl (fun s r => if r.1.set then sramWrite s p (so + 16 * r.2) (rowEntry r.1) false else s) s
  let m := attnM d
  let put := fun (lo n : Nat) (x : Acc) =>
    putCells x .fp32 m n (blockCells m n (fun i j => ((rows.getD i (rowInit 0)).o).getD (lo + j) (x.cells.get (128 * i + j))))
  let place := fun (a : Tab Acc) =>
    if 128 < attnD d then (a.modify 0 (put 0 128)).modify 1 (put 128 (attnD d - 128)) else a.modify (attnAcc d) (put 0 (attnD d))
  s.modTile p (fun t => { t with acc := place t.acc })

/-- Rows of K or V in a page: `lo` is 0 for K, 64 for V. -/
def kvRows (d f lo : Nat) (bs : List Byte) : List ARow :=
  let w := d * (fmtBits f / 8)
  (List.range 64).map (fun j => aRow (rowVals f (slice bs ((lo + j) * w) w) [] d, []) 0)

/-- Cycles of a page (R163). -/
def pageCycles (d : Desc) (f : Nat) : Nat :=
  let r := fun x => ((pair81 x f).map (·.rate4)).getD 4
  let qk := attnF d * r (attnFmtQ d)
  let pv := min (attnF d) 2 * r (attnP d)
  max ((4 * attnD d + qk - 1) / qk + (attnD d + 127) / 128 * ((4 * 64 + pv - 1) / pv)) ((65 * attnM d + 63) / 64)

/-- A page folded into every row: the state and the errors to record (R160–R163). -/
def pageFold (s : State) (p : Nat) (d : Desc) (offs : Nat × Nat) (addr count f kpos0 : Nat) (init : Bool) : State × List Nat :=
  let rp := readRange s p addr (pageBytes (attnD d) f)
  let bs := rp.2.2.1
  let failed := rp.2.1 ≠ stOk
  let rq := readRows { st := rp.1, bad := false, ecc := false } p (attnFmtQ d) offs.1 (attnPitch d) 0 (attnM d) (attnD d)
  let rs := readState { rq.1 with bad := false } p d offs.2 init
  let kv := if failed ∨ rp.2.2.2 then none
    else some (kvRows (attnD d) f 0 bs, (kvRows (attnD d) f 64 bs).map (·.vals))
  let base := rs.1.st.free
  let out := rs.2.zipIdx.map (fun r =>
    let q := aRow (rq.2.getD r.2 ([], [])) 0
    rowStep d f count kpos0 kv (fun i => Config.freeQuad (base + i)) r.2 { q with bad := q.bad || r.1.2 } r.1.1)
  let poison := out.any (·.2)
  let s := { rs.1.st with free := base + attnM d }
  let s := writeState s p d offs.2 (out.map (·.1))
  let s := s.modTile p (fun t => { t with
    busyMat := (t.busyMat + pageCycles d f) % 2 ^ 64, busySfu := (t.busySfu + (65 * attnM d + 63) / 64) % 2 ^ 64 })
  (s, (if failed then [teRsp] else []) ++ (if rs.1.ecc then [teEcc] else []) ++ (if poison then [tePoison] else []))

/-- An emitted page, or a single one, has issued; its signal slots apply if it is the last (R165). -/
def pageDone (s : State) (p : Nat) (d : Desc) (errs : List Nat) (last : Bool) : State :=
  let x : Issued := { desc := d, stream := 0, err := errs.getLast?, work := none, acc := attnAccMask d, signals := last }
  let s := s.modTile p (fun t => { t with issued := t.issued ++ [x] })
  errs.foldl (fun s e => softError s p 0 d e) s

/-- ATTN_PAGE with walk = 0: the page that the descriptor names. -/
def attnPageBody (s : State) (p : Nat) (d : Desc) : State :=
  let f := field (d.w 6) 24 21
  let count := field (d.w 6) 31 25
  match attnOffs (s.tiles.get p) p d with
  | none => failDesc s p 0 d teBadField
  | some o =>
    if attnBad d || !kvFmtOk f || !attnPairOk d f || decide (64 < count) || decide (2 ^ 48 ≤ d.w 3) || !pageOk (d.w 3) (attnD d) f then
      failDesc s p 0 d teBadField
    else
      let r := pageFold s p d o (d.w 3) count f (field (d.w 7) 63 32) (attnInit d)
      pageDone r.1 p d r.2 true

/-! ### The page walker (R164, R165) -/

/-- The walk of a tile changed. -/
def modWalk (s : State) (p : Nat) (f : Walk → Walk) : State := s.modTile p (fun t => { t with walk := t.walk.map f })

/-- ATTN_WALK issues: the pin is written (R164, R165). -/
def attnWalkBody (s : State) (p : Nat) (d : Desc) : State :=
  let w1 := d.w 1
  let pcnt := field w1 38 24
  if field w1 63 53 ≠ 0 ∨ field w1 23 22 ≠ 0 ∨ d.w 2 / 8 ≠ 0 ∨ !d.zeroFrom 3 ∨ pcnt = 0 ∨ 16384 < pcnt then failDesc s p 3 d teBadField
  else
    let head := field w1 15 12 + (if bit (d.w 2) 2 then (loopOf (s.tiles.get p) 3 (field (d.w 2) 1 0)).2 else 0)
    let r := if pathUsable s p 4 then kvtPin s p (field w1 11 0) else (s, stNoRoute)
    let w : Walk := {
      desc := d, head := head, status := r.2, ready := false, pinA := 0, pinB := 0, nextPg := field w1 52 39, stop := 0, ptes := [], queue := [],
      ended := false, taken := false, first := false }
    (startWait r.1 p 3 d).modTile p (fun t => { t with walk := some w })

/-- A walk is over: its ATTN_WALK completes with the unpin, or its error halts the launch after it. -/
def walkOver (s : State) (p : Nat) (d : Desc) (err : Option Nat) : State :=
  let s := (walkUnpin s p).modTile p (fun t => { t with walk := none })
  match err with
  | none => endWait s p 3 d none
  | some e => failDesc s p 3 d e

/-- The pin write completes and the walker reads the pin results (R165). -/
def walkPinDone (s : State) (p : Nat) : State :=
  match (s.tiles.get p).walk with
  | none => s
  | some w =>
    if w.ready || !liveRun s p || !tileClocked s p then s
    else if w.status ≠ stOk then failDesc (s.modTile p (fun t => { t with walk := none })) p 3 w.desc teFetch
    else
      let r := pinRes s p
      let mode := field r.2 54 53
      let part := field (w.desc.w 1) 21 16
      if field r.2 15 12 < w.head ∨ (mode ≠ 1 ∧ part ≠ 0) then walkOver s p w.desc (some teBadField)
      else modWalk s p (fun w => { w with
        ready := true, pinA := r.1, pinB := r.2, stop := min (w.nextPg + field (w.desc.w 1) 38 24) (field r.2 30 16) })

/-- Whether a walk of part q visits page index `i` (R153). -/
def walkVisits (w : Walk) (i : Nat) : Bool := field w.pinB 54 53 != 1 || i % (field w.pinB 52 47 + 1) == field (w.desc.w 1) 21 16

/-- Head dimension of the pinned table. -/
def walkD (w : Walk) : Nat := 32 * (field w.pinB 57 55 + 1)

/-- A page-table entry that the walker raises FETCH_ERROR for (R156). -/
def pteBad (w : Walk) (e : Nat) : Bool :=
  let f := field e 63 60
  bit e 59 || bit e 55 || field e 11 0 != 0 || !kvFmtOk f || decide (64 < field e 54 48) || field e 58 56 != field w.pinA 59 57 ||
  !pageOk (field e 47 12 * 4096) (walkD w) f

/-- The key position of slot 0 of page `i` (R153). -/
def pageKpos (w : Walk) (i : Nat) : Nat :=
  (if field w.pinB 54 53 = 2 then (i * (field w.pinB 52 47 + 1) + field w.pinB 63 58) * 64 else i * 64) % 2 ^ 32

/-- The next 64-byte block of entries returns: its entries are checked, those with a count are kept for the queue (R156, R165). -/
def walkPteRead (s : State) (p : Nat) : State :=
  match (s.tiles.get p).walk with
  | none => s
  | some w =>
    let todo := ((List.range (w.stop - w.nextPg)).map (w.nextPg + ·)).filter (walkVisits w)
    if !w.ready || !w.ptes.isEmpty || !liveRun s p || w.ended || !tileClocked s p then s
    else match todo with
      | [] => s
      | first :: _ =>
        let at_ := fun i => field w.pinA 47 6 * 64 + (w.head * field w.pinB 46 32 + i) * 8
        let block := at_ first / 64
        let here := todo.filter (fun i => at_ i / 64 == block)
        let r := readRange s p (block * 64) 64
        let entry := fun i => fld r.2.2.1 (at_ i - block * 64) 8
        if r.2.1 ≠ stOk ∨ r.2.2.2 ∨ here.any (fun i => pteBad w (entry i)) then failDesc r.1 p 3 w.desc teFetch
        else modWalk r.1 p (fun w => { w with
          nextPg := here.getLast? |>.map (· + 1) |>.getD w.stop
          ptes := here.filterMap (fun i =>
            let e := entry i
            if field e 54 48 = 0 then none
            else some { addr := field e 47 12 * 4096, count := field e 54 48, fmt := field e 63 60, kpos0 := pageKpos w i }) })

/-- A page or the end marker is pushed into the walk queue of 8 entries (R165). -/
def walkQueuePush (s : State) (p : Nat) : State :=
  match (s.tiles.get p).walk with
  | none => s
  | some w =>
    if !w.ready || w.ended || decide (8 ≤ w.queue.length) || !liveRun s p || !tileClocked s p then s
    else match w.ptes with
      | x :: r => modWalk s p (fun w => { w with ptes := r, queue := w.queue ++ [some x] })
      | [] =>
        if ((List.range (w.stop - w.nextPg)).map (w.nextPg + ·)).any (walkVisits w) then s
        else modWalk s p (fun w => { w with queue := w.queue ++ [none], ended := true })

/-- The wait slots of a template consume, and its issue is traced, with its head kept in the stream. -/
def emitTrace (s : State) (p : Nat) (d : Desc) (first : Bool) : State :=
  let s := if first then s.modTile p (fun t => { t with sem := d.waits.foldl (fun m i => m.modify i (· - 1)) t.sem }) else s
  traceRecord s p (runSeq s p) d 0 false 0

/-- The template leaves its stream. -/
def dropHead (s : State) (p : Nat) : State := tileStream s p 0 (fun x => { x with pre := x.pre.drop 1 })

/-- The walk-mode template at the head expands into a page for the next queue entry (R159, R165); the last page takes the end marker with it. -/
def attnPageEmit (s : State) (p : Nat) : State :=
  let t := s.tiles.get p
  match headOf t 0, t.walk with
  | some d, some w =>
    if d.op ≠ 0x12 ∨ !attnIsWalk d ∨ (opError 0 d).isSome ∨ gated t d ∨ !tileClocked s p ∨ (!w.first && !mayIssue t 0 d) then s
    else
      let bad := fun (f : Nat) => headerBad 0 d || attnBad d || attnD d != walkD w || (decide (0 < f) && !attnPairOk d f)
      match w.queue with
      | none :: _ =>
        let s := dropHead (modWalk (emitTrace s p d true) p (fun w => { w with queue := [], taken := true })) p
        match attnOffs t p d with
        | none => failDesc s p 0 d teBadField
        | some o =>
          if bad 0 then failDesc s p 0 d teBadField
          else pageDone (if attnInit d then writeState s p d o.2 (List.replicate (attnM d) (rowInit (attnD d))) else s) p d [] true
      | some g :: e :: r =>
        let last := e.isNone
        let s := modWalk (emitTrace s p d (!w.first)) p (fun w => { w with queue := if last then r else e :: r, taken := last, first := true })
        let s := if last then dropHead s p else s
        match attnOffs t p d with
        | none => failDesc s p 0 d teBadField
        | some o =>
          if bad g.fmt then failDesc s p 0 d teBadField
          else
            let x := pageFold s p d o g.addr g.count g.fmt g.kpos0 (attnInit d && !w.first)
            pageDone x.1 p d x.2 last
      | _ => s
  | _, _ => s

/-- After the end marker and every emitted page, the walk's pin is released and ATTN_WALK completes (R165). -/
def attnWalkUnpin (s : State) (p : Nat) : State :=
  let t := s.tiles.get p
  match t.walk with
  | none => s
  | some w => if w.taken && liveRun s p && tileClocked s p && !t.issued.any (fun x => x.desc.op == 0x12 && attnIsWalk x.desc) then walkOver s p w.desc none else s

/-! ### ATTN_COMBINE (R169–R171) -/

/-- A partial of one row: m, l, flags, its O row. -/
structure Partial where
  m     : Val
  l     : Val
  flags : Nat
  o     : List (Option Val)
  deriving DecidableEq, Repr

/-- A combined row: M, L, flags, the O row; none is poison. -/
structure Combined where
  m     : Val
  l     : Val
  flags : Nat
  o     : List (Option Val)
  deriving DecidableEq, Repr

/-- One row combined (R170). After POISON, what M and L are is not stated. -/
def combineRow (final : Bool) (d : Nat) (free : Quad) (ps : List Partial) : Combined :=
  let nonfin := ps.any (fun x => bit x.flags 0)
  let poison := ps.any (fun x => bit x.flags 1)
  if nonfin || poison then
    { m := if nonfin then .nan else ofFp32 free.toNat, l := if nonfin then .nan else ofFp32 (free.toNat / 2 ^ 32),
      flags := b2n nonfin + 2 * b2n poison, o := List.replicate d (if poison then none else some .nan) }
  else
    let act := ps.filter (fun x => x.m != .inf true)
    let zero : List (Option Val) := List.replicate d (some vzero)
    match act with
    | [] => { m := .inf true, l := vzero, flags := if final then 4 else 0, o := zero }
    | x :: r =>
      let big := r.foldl (fun a y => a.max y.m) x.m
      let beta := fun (y : Partial) => if y.m.eq big then Val.ofInt 1 else attnExp (rne32 (y.m.sub big))
      let l := act.foldl (fun a y => fadd a (fmul (beta y) y.l)) vzero
      let o := (List.range d).map (fun c => act.foldl (fun a y =>
        match a, y.o.getD c none with
        | some a, some v => some (fadd a (fmul (beta y) v))
        | _, _ => none) (some vzero))
      let poison := o.any (·.isNone)
      if final && l.eq vzero then { m := big, l := l, flags := 4, o := zero }
      else { m := big, l := l, flags := if poison then 2 else 0, o := if final then o.map (fun v => v.map (fun x => rne32 (x.div l))) else o }

/-- ATTN_COMBINE. -/
def combineBody (s : State) (p : Nat) (dsc : Desc) : State :=
  let t := s.tiles.get p
  let w4 := dsc.w 4
  let w5 := dsc.w 5
  let fd := field w4 63 48
  let op := field w4 47 24
  let dp := field w4 23 0
  let m := field w5 63 57 + 1
  let d := field w5 56 49 + 1
  let n := field w5 48 46 + 1
  let final := !bit w5 45
  let asel := field w5 44 43
  let bad := field w5 42 0 != 0 || !dsc.zeroFrom 6 || (if final then !fmtOk true fd || (fmtBlock fd).isSome else fd != 0 || dsc.w 3 == 0) ||
    (decide (asel = 1 ∨ asel = 2) && decide (128 < d)) || (asel == 3 && decide (d ≤ 128))
  match ownOff t p (dsc.w 1) (16 * n), ownOff t p (dsc.w 2) (extent fd m dp d), (if dsc.w 3 = 0 then some 0 else ownOff t p (dsc.w 3) (16 * m)) with
  | some lo, some oo, some so =>
    let rl := readOwn { st := s, bad := false, ecc := false } p lo (16 * n)
    let addr := fun i k => fld rl.2.1 (16 * i + 8 * k) 8
    let lost := rl.2.2 != []
    let sts := (List.range n).map (fun i => ownOff t p (addr i 0) (16 * m))
    let os := (List.range n).map (fun i => if i = 0 ∧ asel ≠ 0 then (if addr 0 1 = 0 then some 0 else none) else ownOff t p (addr i 1) (extent 0 m op d))
    if bad || (!lost && (sts.any (·.isNone) || os.any (·.isNone))) then failDesc s p 1 dsc teBadField
    else
      let r := (List.range n).foldl (fun (a : Unit' × List (List Partial)) i =>
        if lost then ({ a.1 with bad := true }, a.2)
        else
          let e := readRows a.1 p 0 ((sts.getD i none).getD 0) 16 0 m 4
          let raw := fun j k => fld (a.1.st.fab.mem.readN (tileWindow p + (sts.getD i none).getD 0 + 16 * j) 16) (4 * k) 4
          let fl := (List.range m).map (fun j => if ((e.2.getD j ([], [])).1).any (·.isNone) then 2 else raw j 2)
          let o := if i = 0 ∧ asel ≠ 0 then
              (if asel = 3 then
                let x := readAcc e.1 p 0 m 128
                let y := readAcc x.1 p 1 m (d - 128)
                (y.1, (x.2.zip y.2).map (fun z => z.1 ++ z.2))
              else readAcc e.1 p (asel - 1) m d)
            else readTensor e.1 p 0 ((os.getD i none).getD 0) (rowBytes 0 op) 0 m d
          let flagged := fl.all (fun f => bit f 1 || bit f 0)
          ({ o.1 with bad := if flagged then e.1.bad else o.1.bad },
           a.2 ++ [(List.range m).map (fun j => { m := ofFp32 (raw j 0), l := ofFp32 (raw j 1), flags := fl.getD j 0, o := o.2.getD j [] })]))
        (rl.1, [])
      let base := r.1.st.free
      let rows := (List.range m).map (fun j =>
        if lost then ({ m := .nan, l := .nan, flags := 2, o := List.replicate d none } : Combined)
        else combineRow final d (Config.freeQuad (base + j)) (r.2.map (fun q => q.getD j { m := .nan, l := .nan, flags := 0, o := [] })))
      let st := { r.1.st with free := base + m }
      let q := putRows fd oo (rowBytes fd dp) 0 { (tileRng st p) with free := base + m } (rows.map (·.o))
      let ents : List SramPut := if dsc.w 3 = 0 then [] else [{
        off := so, bad := []
        bytes := (rows.map (fun x => leBytes 4 (toFp32 x.m) ++ leBytes 4 (toFp32 x.l) ++ leBytes 4 x.flags ++ leBytes 4 0)).flatten }]
      let sfu := (n * m + 63) / 64
      vectorDone { r.1 with st := st.modTile p (fun t => { t with busySfu := (t.busySfu + sfu) % 2 ^ 64 }) } p dsc (ents ++ q.2) q.1
        ((n * m * d + 255) / 256 + sfu)
  | _, _, _ => failDesc s p 1 dsc teBadField

/-! ### One meaning per command -/

/-- A page that the descriptor names, not a template. -/
def singlePage (_ : State) (d : Desc) : Bool := !attnIsWalk d

def execAttnPage (p : Fin 36) (s : State) : Out := .next (issueOp s p 0 (· == 0x12) singlePage (fun s d => attnPageBody s p d))
def execAttnCombine (p : Fin 36) (s : State) : Out := .next (issueOp s p 1 (· == 0x26) anyTime (fun s d => combineBody s p d))
def execAttnWalk (p : Fin 36) (s : State) : Out := .next (issueOp s p 3 (· == 0x41) anyTime (fun s d => attnWalkBody s p d))
def execAttnWalkPinDone (p : Fin 36) (s : State) : Out := .next (walkPinDone s p)
def execWalkPteRead (p : Fin 36) (s : State) : Out := .next (walkPteRead s p)
def execWalkQueuePush (p : Fin 36) (s : State) : Out := .next (walkQueuePush s p)
def execAttnPageEmit (p : Fin 36) (s : State) : Out := .next (attnPageEmit s p)
def execAttnWalkUnpin (p : Fin 36) (s : State) : Out := .next (attnWalkUnpin s p)

end Sys2Proof.Machine
end

