-- ==== Sys2Proof/Machine/HubDma.lean ====
section
/-! DEFINITION. The hub DMA engine (R257), and the descriptor rows that a tile and the hub DMA engine share. -/

namespace Sys2Proof.Machine

/-- The engine's source identifier (R37). -/
def hubDmaSrc : Nat := 0x34

/-- The fetched descriptor of the running list, while the launch has not ended. -/
def hubHead (s : State) : Option Desc := if s.fab.hdma.run.isNone || s.fab.hdma.ended.isSome then none else s.fab.hdma.head

/-- A launch that has ended completes once no request of it is outstanding (R53, R257). -/
def hubDmaSettle (s : State) : State :=
  match s.fab.hdma.run, s.fab.hdma.ended with
  | some l, some st =>
    if s.fab.hdma.work.all (fun x => x.2.out.isEmpty) then
      reportDone { s with fab.hdma := { s.fab.hdma with busy := false, run := none, ptr := none, head := none, work := [], ended := none } } 37 l st
    else s
  | _, _ => s

/-- The launch ends with a status: it makes no further request. -/
def hubDmaEnd (s : State) (st : Half) : State :=
  let h := s.fab.hdma
  if h.run.isNone || h.ended.isSome then s
  else hubDmaSettle { s with fab.hdma := { h with ended := some st, head := none, work := h.work.map (fun x => (x.1, { x.2 with todo := [] })) } }

/-- An error captured in HUB_DMA_ERR, as TIL_ERR_FIRST captures (R65, R257). -/
def hubDmaCapture (s : State) (code tag : Nat) : State :=
  if bit s.fab.hdma.err.toNat 31 then s else { s with fab.hdma.err := BitVec.ofNat 32 (errFirst code 2 tag) }

/-- A halting error. -/
def hubDmaFail (s : State) (d : Desc) (code : Nat) : State := hubDmaEnd (hubDmaCapture s code d.tag) stEngineError

/-- A launch of the engine starts; a program outside the directory is BAD_PROGRAM. -/
def hubDmaStart (s : State) (l : Launch) : State :=
  let prog := l.strobe.prog.toNat
  let s := { s with fab.hdma := { s.fab.hdma with busy := true, prog := prog, run := some l, ptr := none, head := none, work := [], ended := none } }
  if s.fab.hdma.pdirCnt ≤ prog then hubDmaEnd s stBadProgram else s

/-- A strobe at the engine: one launch at a time. -/
def hubDmaLaunch (s : State) (b : Strobe) : State :=
  if s.fab.hdma.run.isSome then s else let x := takeHeld s 37 b; hubDmaStart x.1 x.2

/-- A fetch response of the engine arrives: its directory entry, or the next descriptor of its list. -/
def hubDmaFetch (s : State) (f : FetchOf) : State :=
  match s.fab.hdma.run with
  | none => s
  | some l =>
    let tag := s.freeVal.toNat % 256
    if s.fab.hdma.ended.isSome then s
    else match f with
    | .directory =>
      if s.fab.hdma.ptr.isSome then s
      else
        let r := fetchRead s hubDmaSrc (s.fab.hdma.pdirBase + 8 * l.strobe.prog.toNat) 8
        match r.2 with
        | none => hubDmaEnd (hubDmaCapture r.1.took teFetch tag) stEngineError
        | some bs =>
          let e := fld bs 0 8
          if bit e 0 then { r.1 with fab.hdma.ptr := some (field e 47 6 * 64) } else hubDmaEnd r.1 stBadProgram
    | .stream st =>
      if st.val ≠ 2 ∨ s.fab.hdma.head.isSome then s
      else match s.fab.hdma.ptr with
        | none => s
        | some a =>
          let r := fetchRead s hubDmaSrc a 64
          match r.2 with
          | none => hubDmaEnd (hubDmaCapture r.1.took teFetch tag) stEngineError
          | some bs =>
            let d : Desc := { addr := a, words := (List.range 8).map (fun i => BitVec.ofNat 64 (fld bs (8 * i) 8)) }
            { r.1 with fab.hdma := { r.1.fab.hdma with ptr := some ((a + 64) % 2 ^ 48), head := some d } }

/-- BAD_OPCODE or BAD_STREAM of a descriptor of the engine. -/
def hubDmaOpError (d : Desc) : Option Nat :=
  if d.op = 0x00 ∨ d.op = 0x01 ∨ d.op = 0x30 ∨ d.op = 0x31 then (if field (d.w 0) 9 8 = 2 then none else some 0x02) else some 0x01

/-- BAD_FIELD of the header (R54, R257). -/
def hubDmaHeaderBad (d : Desc) : Bool := headerBad 2 d || !d.waits.isEmpty || !d.sigs.isEmpty || d.label != 0

/-- A reserved opcode or a wrong stream. -/
def hubDmaReserved (s : State) : State :=
  match hubHead s with
  | none => s
  | some d => match hubDmaOpError d with
    | some e => hubDmaFail s d e
    | none => s

/-- Whether the head may issue, given the descriptors before it: its channel is free, and for COMPLETE or a barrier every channel (R55, R257). -/
def hubDmaFree (s : State) (d : Desc) : Bool :=
  s.fab.hdma.work.all (fun x => !(d.op == 0x01 || d.barrier || x.1.chan == d.chan))

/-- The head of the list issues if its opcode is the row's. -/
def hubDmaOp (s : State) (op : Nat) (body : State → Desc → State) : State :=
  match hubHead s with
  | none => s
  | some d =>
    if d.op ≠ op ∨ (hubDmaOpError d).isSome ∨ !hubDmaFree s d then s
    else if hubDmaHeaderBad d then hubDmaFail s d teBadField
    else body { s with fab.hdma.head := none } d

/-- The launch label, which every request carries. -/
def hubDmaLabel (s : State) : BitVec 4 := match s.fab.hdma.run with
  | some l => l.strobe.label
  | none => 0

/-- A tag that no outstanding request of the engine uses. -/
def hubDmaTag (h : HubDma) : Option Nat :=
  let used := (h.work.map (fun x => x.2.out.map (·.1))).flatten
  (List.range 512).find? (fun i => !used.contains ((h.nextTag + i) % 512)) |>.map (fun i => (h.nextTag + i) % 512)

/-- The work of descriptor `i` changed. -/
def modHubWork (s : State) (i : Nat) (f : DmaWork → DmaWork) : State :=
  { s with fab.hdma.work := s.fab.hdma.work.modify i (fun x => (x.1, f x.2)) }

/-- Requests of descriptor `i` sent into the network, as far as there are tags. -/
def hubDmaSend : Nat → State → Nat → State
  | 0, s, _ => s
  | n + 1, s, i =>
    match s.fab.hdma.work[i]?, hubDmaTag s.fab.hdma with
    | some (_, w), some tag =>
      match w.todo with
      | [] => s
      | k :: rest =>
        let q : NetReq := { src := BitVec.ofNat 8 hubDmaSrc, label := hubDmaLabel s, tag := BitVec.ofNat 9 tag, op := if k.write then 1 else 0,
                            addr := BitVec.ofNat 48 k.addr, len := k.len, data := if k.write then slice w.buf k.off k.len else [],
                            poison := k.write && inBad w.bad k.off k.len }
        let s := modHubWork s i (fun w => { w with todo := rest, out := w.out ++ [(tag, k)] })
        hubDmaSend n { s with fab.hdma.nextTag := (tag + 1) % 512, fab.net.inflight := s.fab.net.inflight ++ [q] } i
    | _, _ => s

/-- Descriptor `i` carries on: its requests, then its writes once every source byte is in, then its end. -/
def hubDmaKick (s : State) (i : Nat) : State :=
  match s.fab.hdma.work[i]? with
  | none => s
  | some (d, w) =>
    if s.fab.hdma.ended.isSome then s
    else if !w.todo.isEmpty then hubDmaSend w.todo.length s i
    else if !w.out.isEmpty then s
    else if w.phase = 1 then
      let rs := runsOf d w
      let b := overlapBytes s 0 rs w.buf
      let plan := writePlan rs w.bad
      hubDmaSend plan.length (modHubWork b.1 i (fun w => { w with phase := 2, buf := b.2, todo := plan })) i
    else { s with fab.hdma.work := s.fab.hdma.work.eraseIdx i }

/-- Every descriptor carries on, the youngest first. -/
def hubDmaPump (s : State) : State := (List.range s.fab.hdma.work.length).reverse.foldl hubDmaKick s

/-- A response arrives at the engine (R123, R257): under err_cont an error is captured and the rest goes on, else it halts the launch. -/
def hubDmaResponse (s : State) (tag : Nat) : State :=
  match s.fab.net.rsps.find? (fun r => r.src.toNat == hubDmaSrc && r.tag.toNat == tag) with
  | none => s
  | some r =>
    let s := { s with fab.net.rsps := eraseFirst (fun r => r.src.toNat == hubDmaSrc && r.tag.toNat == tag) s.fab.net.rsps }
    match indexOf? (fun (x : Desc × DmaWork) => x.2.out.any (·.1 == tag)) s.fab.hdma.work with
    | none => s
    | some i =>
      match s.fab.hdma.work[i]? with
      | none => s
      | some (d, w) =>
        match w.out.find? (·.1 == tag) with
        | none => s
        | some (_, k) =>
          let ok := r.status == stOk
          let s := modHubWork s i (fun w =>
            let w := { w with out := w.out.filter (·.1 != tag) }
            if k.write then w
            else if ok then deliver d w k r.data []
            else deliver d w k (List.replicate k.len 0) [(k.off, k.off + k.len)])
          let s := if k.write && ok then { s with fab.hdma.bytes := (s.fab.hdma.bytes + k.len) % 2 ^ 64 } else s
          let s := if ok then s else if d.errCont then hubDmaCapture s teRsp d.tag else hubDmaFail s d teRsp
          if s.fab.hdma.ended.isSome then hubDmaSettle s else hubDmaPump s

/-- A transfer of the engine issues on its channel. -/
def hubDmaIssue (s : State) (d : Desc) (w : DmaWork) : State :=
  hubDmaKick { s with fab.hdma.work := s.fab.hdma.work ++ [(d, w)] } s.fab.hdma.work.length

/-- The fields of MOVE and FILL that the engine restricts: zc and the lix bits 0, addresses of form 0b00. -/
def hubDmaFieldsBad (d : Desc) (addrs : List Nat) : Bool :=
  !moveCountsOk (d.w 3) || field (d.w 6) 63 4 != 0 || addrs.any (fun a => decide (2 ^ 48 ≤ a))

/-- MOVE of the engine (R120). -/
def hubDmaMove (s : State) (d : Desc) : State :=
  if hubDmaFieldsBad d [d.w 1, d.w 2] || field (d.w 6) 1 0 != 0 then hubDmaFail s d teBadField
  else
    let rs := moveRuns d (some (d.w 1)) (d.w 2) (strides (d.w 4)) (strides (d.w 5))
    hubDmaIssue s d (newWork [d.w 1, d.w 2] 1 (readPlan rs) (List.replicate ((rs.map (·.len)).sum) 0))

/-- FILL of the engine (R120). -/
def hubDmaFill (s : State) (d : Desc) : State :=
  if hubDmaFieldsBad d [d.w 1] || field (d.w 5) 63 32 != 0 || d.w 7 != 0 then hubDmaFail s d teBadField
  else
    let rs := moveRuns d none (d.w 1) (0, 0) (strides (d.w 4))
    let pw := 2 ^ field (d.w 6) 1 0
    let buf := (rs.map (fun r => (List.range r.len).map (fun x => BitVec.ofNat 8 (d.w 2 / 256 ^ (x % pw))))).flatten
    hubDmaIssue s d (newWork [0, d.w 1] 2 (writePlan rs []) buf)

/-- NOP and COMPLETE of the engine. -/
def hubDmaNop (s : State) (d : Desc) : State := if d.zeroFrom 1 then s else hubDmaFail s d teBadField
def hubDmaComplete (s : State) (d : Desc) : State := if d.zeroFrom 1 then hubDmaEnd s stOk else hubDmaFail s d teBadField

/-- HUB_DMA_CTRL.abort. -/
def hubDmaAbort (s : State) : State := hubDmaEnd s stAborted

/-- HUB_DMA_CTRL.cnt_clr. -/
def hubDmaCntClr (s : State) : State := { s with fab.hdma.bytes := 0 }

/-- HUB_DMA_ERR written: its valid bit is cleared where the write has it 1. -/
def hubDmaRearm (s : State) (v : Nat) : State := if bit v 31 then { s with fab.hdma.err := s.fab.hdma.err &&& 0x7FFFFFFF#32 } else s

/-- Page 0x43 of unit 0x00 (R260). -/
def pageHubDma (s : State) : List Reg :=
  let h := s.fab.hdma
  [r8 0x000 h.pdirBase, r4 0x008 h.pdirCnt, r4 0x00C (pack [(16, h.prog), (15, 0), (1, b2n h.busy)]), r4 0x010 h.err.toNat, r8 0x018 h.bytes,
   r4 0x020 0]

/-! ### Rows of both engines -/

/-- DESCRIPTOR_FETCH. -/
def engineFetch (s : State) (e : Engine) (f : FetchOf) : State := match e with
  | .tile p => tileFetch s p f
  | .hub => hubDmaFetch s f

/-- RESERVED_OPCODE. -/
def engineReserved (s : State) (e : Engine) (st : Nat) : State := match e with
  | .tile p => reservedOp s p st
  | .hub => hubDmaReserved s

/-- NOP. -/
def engineNop (s : State) (e : Engine) (st : Nat) : State := match e with
  | .tile p => nopOp s p st
  | .hub => hubDmaOp s 0x00 hubDmaNop

/-- COMPLETE. -/
def engineComplete (s : State) (e : Engine) (st : Nat) : State := match e with
  | .tile p => completeOp s p st
  | .hub => hubDmaOp s 0x01 hubDmaComplete

/-- MOVE. -/
def engineMove (s : State) (e : Engine) : State := match e with
  | .tile p => dmaOp s p 0x30 moveBody
  | .hub => hubDmaOp s 0x30 hubDmaMove

/-- FILL. -/
def engineFill (s : State) (e : Engine) : State := match e with
  | .tile p => dmaOp s p 0x31 fillBody
  | .hub => hubDmaOp s 0x31 hubDmaFill

/-- DMA_RESPONSE. -/
def engineResponse (s : State) (e : Engine) (tag : Nat) : State := match e with
  | .tile p => dmaResponse s p tag
  | .hub => hubDmaResponse s tag

/-! ### One meaning per command -/

def execDescriptorFetch (e : Engine) (f : FetchOf) (s : State) : Out := .next (engineFetch s e f)
def execReservedOpcode (e : Engine) (st : Fin 4) (s : State) : Out := .next (engineReserved s e st)
def execNop (e : Engine) (st : Fin 4) (s : State) : Out := .next (engineNop s e st)
def execComplete (e : Engine) (st : Fin 4) (s : State) : Out := .next (engineComplete s e st)
def execMove (e : Engine) (s : State) : Out := .next (engineMove s e)
def execFill (e : Engine) (s : State) : Out := .next (engineFill s e)
def execDmaResponse (e : Engine) (tag : BitVec 9) (s : State) : Out := .next (engineResponse s e tag.toNat)
def execHubDmaLaunch (b : Strobe) (s : State) : Out := .next (hubDmaLaunch s b)
def execHubDmaCtrlAbort (s : State) : Out := .next (hubDmaAbort s)
def execHubDmaCtrlCntClr (s : State) : Out := .next (hubDmaCntClr s)
def execHubDmaErrRearm (s : State) : Out := .next (hubDmaRearm s (2 ^ 31))

end Sys2Proof.Machine
end

