-- ==== Sys2Proof/Machine/Regs.lean ====
section
/-! DEFINITION. Register space: which page holds which registers, and what a read or a write of one does (R11–R15, R28, R29, R33, R284,
R298). -/

namespace Sys2Proof.Machine

/-! ### Pages (R29) -/

/-- The Ladle blocks of a page. -/
def pageLadle (s : State) (u pg : Nat) : List Reg :=
  (((List.range 40).filterMap (ladleAt u pg)).map (ldlRegs s)).flatten

/-- Whether a unit and page are assigned: the other values are reserved. -/
def pageAssigned (u pg : Nat) : Bool := u == 0 || (decide (0x10 ≤ u ∧ u < 0x14) && decide (pg < 0x80)) || decide (0x40 ≤ u ∧ u < 0x64)

/-- The registers of a hub page. -/
def pageOfHub (s : State) (pg : Nat) : List Reg :=
  match pg with
  | 0x01 => pageHub s
  | 0x04 => pageBu s
  | 0x10 => pageTime s
  | 0x11 => pageCal s
  | 0x20 => pagePln s
  | 0x21 => pageSie s
  | 0x30 => pageKvt s
  | 0x40 => pageQos s
  | 0x41 => pageMir s
  | 0x42 => pageRoutes s
  | 0x43 => pageHubDma s
  | 0x44 => pageHubEdges s
  | 0x52 => pageClk s
  | 0x60 => pageCsi s
  | 0x61 => pageSkm s
  | 0x62 => pageEth s
  | 0x63 => pageTray s
  | 0x70 => pageAnv s
  | 0x80 => pageDlf s
  | 0x81 => pageDlfPorts s
  | 0x82 => pagePair s
  | 0x83 => pageBar s
  | 0x90 => pagePwr s
  | 0x91 => pageQch s
  | _ => pageLadle s 0 pg

/-- The registers of a page. -/
def pageRegs (s : State) (u pg : Nat) : List Reg :=
  if u = 0 then pageOfHub s pg
  else if u < 0x40 then (if pg = 0 then pageTransit s (u - 0x10) else if pg = 0x40 then pageDrm s (u - 0x10) else pageLadle s u pg)
  else if pg < 4 then pageTile s (u - 0x40) pg else pageLadle s u pg

/-- The status that refuses a register access before it reaches the page: reserved or not naturally aligned (R28), or the unit is in reset
(R32, R33). -/
def regRefusal (s : State) (u pg off size : Nat) : Option Half :=
  if !pageAssigned u pg || !(size == 4 || size == 8) || off % size != 0 then some stDecodeError
  else if u = 0 then none
  else if u < 0x40 then
    if s.fab.transitDown.get (u - 0x10) || (decide (0x40 ≤ pg) && s.fab.dieReset.get (u - 0x10)) then some stTargetReset else none
  else if tileAbsorbed s (u - 0x40) || (s.tiles.get (u - 0x40)).defective || s.fab.transitDown.get (dieOf (u - 0x40)) then some stTargetReset
  else none

/-- A read of register space by a master: status and bytes. -/
def regRead (s : State) (src addr size : Nat) : State × Half × List Byte :=
  let a := addr - regBase
  let u := a / 0x1000000
  let pg := a / 0x10000 % 256
  let off := a % 0x10000
  match regRefusal s u pg off size with
  | some st => (refused s src addr 0 st, st, List.replicate size 0)
  | none => (s, stOk, leBytes size (pageRead (pageRegs s u pg) off size))

/-! ### Writes of one 32-bit register -/

/-- Half of a 64-bit register replaced: `hi` names the upper half. -/
def mergeHalf (old v : Nat) (hi : Bool) : Nat := if hi then old % 2 ^ 32 + v * 2 ^ 32 else old / 2 ^ 32 * 2 ^ 32 + v

/-- TIL_PDIR_BASE and TIL_PDIR_CNT (R65). -/
def tilePdirBase (s : State) (p v : Nat) : State := s.modTile p (fun t => { t with pdirBase := field v 47 5 * 32 })
def tilePdirCnt (s : State) (p v : Nat) : State := s.modTile p (fun t => { t with pdirCnt := min 4096 (field v 12 0) })

/-- TIL_LMAP_k (R65): bit 6 of a byte is reserved. -/
def tileLmap (s : State) (p k v : Nat) : State :=
  s.modTile p (fun t => { t with lmap := (List.range 4).foldl (fun m i =>
    let b := field v (8 * i + 7) (8 * i)
    m.set (4 * k + i) (b / 128 * 128 + b % 64)) t.lmap })

/-- A write of a tile's page 0x00, 0x01 or 0x02 (R65). -/
def tilePut (s : State) (p pg off v : Nat) : State :=
  match pg with
  | 0 =>
    if off = 0x004 then tileCtrlWrite s p v
    else if off = 0x010 ∨ off = 0x014 then tilePdirBase s p (mergeHalf (s.tiles.get p).pdirBase v (off = 0x014))
    else if off = 0x018 then tilePdirCnt s p v
    else if 0x020 ≤ off ∧ off < 0x040 then tileLmap s p ((off - 0x020) / 4) v
    else s
  | 1 => if off = 0x000 then tileErrClear s p (BitVec.ofNat 32 v) else if off = 0x004 ∧ bit v 31 then tileErrRearm s p else s
  | 2 => if off = 0x060 then tileEvtAdd s p v else s
  | _ => s

/-- A write of an instance's block (R278). -/
def ldlPut (s : State) (u pg off v : Nat) : State :=
  match ladleAt u pg (off / 0x20) with
  | none => s
  | some q =>
    match off % 0x20 with
    | 0x04 => ldlStatClear s q (BitVec.ofNat 32 v)
    | 0x08 =>
      let s := ldlForce s q (bit v 1)
      let s := if bit v 2 then ldlQreset s q else s
      if bit v 0 then ldlCntClr s q else s
    | 0x0C => ldlThrWrite s q (BitVec.ofNat 32 v)
    | _ => s

/-- A write of a mailbox channel: MBX_n_REQ and MBX_n_SEND (R287, R290). -/
def mbxPut (s : State) (n off v : Nat) : State :=
  if off < 0x100 then s.modMbx n (fun m => { m with req := putBytes m.req off (leBytes 4 v) })
  else if off = 0x200 ∧ bit v 0 then wakeMailbox (mbxSend s n [] true)
  else s

/-- A write of page 0x01 of unit 0x00 (R284, R285, R296, R309, R313). -/
def hubPut (s : State) (off v : Nat) : State :=
  if 0x0100 ≤ off ∧ off < 0x1100 then (if (off - 0x0100) % 0x400 < 0x210 then mbxPut s ((off - 0x0100) / 0x400) ((off - 0x0100) % 0x400) v else s)
  else match off with
    | 0x1200 => evtBase s (mergeHalf s.host.evt.base v false)
    | 0x1204 => evtBase s (mergeHalf s.host.evt.base v true)
    | 0x1208 => evtCtrl s v
    | 0x120C => if bit v 2 then { s with host.evt.badHead := false } else s
    | 0x1214 => evtHead s v
    | 0x121C => evtMod s v
    | 0x1300 => intClear s (BitVec.ofNat 32 v)
    | 0x1304 => intMask s (BitVec.ofNat 32 v)
    | 0x1400 => winBase s (BitVec.ofNat 64 (mergeHalf s.host.pci.winBase v false))
    | 0x1404 => winBase s (BitVec.ofNat 64 (mergeHalf s.host.pci.winBase v true))
    | 0x2010 => arbClear s (BitVec.ofNat 32 v)
    | 0x201C => if bit v 0 then hcbCntClr s else s
    | _ => s

/-- An action of a self-clearing bit. -/
def whenBit (v k : Nat) (f : State → State) (s : State) : State := if bit v k then f s else s

/-- A write of another hub page: state and status. -/
def hubBlockPut (s : State) (src pg off v : Nat) : State × Half :=
  match pg, off with
  | 0x04, 0x01C => (whenBit v 0 buCntClr s, stOk)
  | 0x11, 0x200 => (whenBit v 0 calCntClr s, stOk)
  | 0x20, 0x000 => (whenBit v 1 plnCntClr { s with pln.launchEn := bit v 0 }, stOk)
  | 0x21, 0x018 => siePublish s src v
  | 0x30, 0x018 => ({ s with kvt.tsel := v % 4096 }, stOk)
  | 0x40, 0x000 => (whenBit v 0 qosCntClr s, stOk)
  | 0x42, 0x010 => (whenBit v 0 fiCntClr s, stOk)
  | 0x43, 0x010 => (hubDmaRearm s v, stOk)
  | 0x43, 0x020 => (whenBit v 1 hubDmaAbort (whenBit v 0 hubDmaCntClr s), stOk)
  | 0x44, o => (if o % 0x400 = 4 ∧ o < 0x1000 then whenBit v 0 (stationClr · 4 (o / 0x400)) s else s, stOk)
  | 0x52, 0x000 => (whenBit v 0 (fun s => { s with fab.clkFaults := 0 }) s, stOk)
  | 0x60, 0x300 => (whenBit v 0 csiCntClr s, stOk)
  | 0x62, 0x400 => (whenBit v 0 ethCntClr s, stOk)
  | 0x62, o =>
    let q := (o % 0x100 - 0x20) / 8
    (if o < 0x400 ∧ 0x20 ≤ o % 0x100 ∧ q < 4 ∧ o % 8 = 0 then ethHead s (o / 0x100) q v else s, stOk)
  | 0x63, 0x038 => (whenBit v 0 (fun s => { s with sen.tray.faultCnt := 0 }) s, stOk)
  | 0x80, 0x004 => (whenBit v 0 dlfCntClr s, stOk)
  | 0x83, 0x000 => (localArrive s (v % 16), stOk)
  | 0x90, 0x004 => (whenBit v 0 pwrCntClr s, stOk)
  | _, _ => (ldlPut s 0 pg off v, stOk)

/-- A write of a compute die's pages (R260). -/
def diePut (s : State) (d pg off v : Nat) : State :=
  if pg = 0 then
    if off % 0x400 = 4 ∧ off < 0xC00 then whenBit v 0 (stationClr · d (off / 0x400)) s
    else if off = 0xC08 then whenBit v 0 (transitClr · d) s
    else s
  else if pg = 0x40 then
    if off = 0x004 then whenBit v 0 (drmCntClr · d) s
    else if off = 0x020 then whenBit v 31 (fun s => s.modDrm d (fun c => { c with errValid := false })) s
    else s
  else ldlPut s (0x10 + d) pg off v

/-- A 32-bit write of a register. -/
def putWord (s : State) (src u pg off v : Nat) : State × Half :=
  if u = 0 then (if pg = 1 then (hubPut s off v, stOk) else hubBlockPut s src pg off v)
  else if u < 0x40 then (diePut s (u - 0x10) pg off v, stOk)
  else (if pg < 4 then tilePut s (u - 0x40) pg off v else ldlPut s u pg off v, stOk)

/-- A naturally aligned write of a register: the sequence-table unit's actions take 64-bit writes; other 64-bit writes are two words, the
lower first (R11, R178). -/
def putReg (s : State) (src u pg off size v : Nat) : State × Half :=
  if u = 0 ∧ pg = 0x30 ∧ off < 0x018 then
    if size ≠ 8 then (s, stOk)
    else if off = 0x000 then kvtPin s src v
    else if off = 0x008 then kvtUnpin s src
    else kvtAppend s src v
  else if size = 8 then
    let r := putWord s src u pg off (v % 2 ^ 32)
    let q := putWord r.1 src u pg (off + 4) (v / 2 ^ 32)
    (q.1, firstErr r.2 q.2)
  else putWord s src u pg off v

/-- A write of register space by a master: status. Page 0x01 of unit 0x00 takes writes of the management complex only (R284). -/
def regWrite (s : State) (src addr size v : Nat) : State × Half :=
  let a := addr - regBase
  let u := a / 0x1000000
  let pg := a / 0x10000 % 256
  let off := a % 0x10000
  match regRefusal s u pg off size with
  | some st => (refused s src addr 1 st, st)
  | none =>
    if u = 0 ∧ pg = 1 ∧ src ≠ 0x30 then (decodeErrorEvent s src addr 1, stDecodeError)
    else putReg s src u pg off size v

/-! ### BAR0 (R284) -/

/-- A BAR0 write of the host: one that is not a naturally aligned 32-bit or 64-bit access is discarded. -/
def bar0Write (s : State) (off size v : Nat) : State :=
  if s.host.pci.d3hot || !(size == 4 || size == 8) || off % size != 0 then s
  else if off < 0x5000 then (putReg s 0x33 0 1 off size v).1
  else if 0x8000 ≤ off ∧ off < 0x8400 then
    let w := fun (s : State) (o x : Nat) => msixWrite s ((o - 0x8000) / 16) ((o - 0x8000) / 4 % 4) x
    if size = 8 then w (w s off (v % 2 ^ 32)) (off + 4) (v / 2 ^ 32) else w s off v
  else s

/-! ### Writes of one cycle (R298) -/

/-- The device address of the register that a port's write names. -/
def portAddr (w : PortWrite) : Nat := if w.bar0 then regAddr 0 1 w.addr else w.addr

/-- Whether a port's write is a register write at all: a decodable access that meets a register. -/
def portMeets (s : State) (w : PortWrite) : Bool :=
  let a := portAddr w - regBase
  let u := a / 0x1000000
  let pg := a / 0x10000 % 256
  let off := a % 0x10000
  decide (regBase ≤ portAddr w ∧ portAddr w < regBase + 0x100000000) && (regRefusal s u pg off w.size).isNone &&
    ((pageRegs s u pg).any (fun r => decide (r.off < off + w.size ∧ off < r.off + r.size)) ||
     (w.bar0 && decide (0x8000 ≤ w.addr ∧ w.addr < 0x8408)))

/-- One port's write performed, with the bytes of its access size. -/
def portWrite (s : State) (w : PortWrite) : State :=
  let v := w.value.toNat % 256 ^ w.size
  if w.bar0 then bar0Write s w.addr w.size v else (regWrite s w.src.toNat w.addr w.size v).1

/-- The register writes of one cycle (R298): of those to one register the lowest port's takes effect, and each other is lost and counted. -/
def registerWrite (s : State) (ws : List PortWrite) : State :=
  (List.range 4).foldl (fun s p =>
    (ws.filter (fun w => w.port.val == p)).foldl (fun s w =>
      let lost := portMeets s w && ws.any (fun x => decide (x.port.val < p) && portMeets s x &&
        decide (portAddr x < portAddr w + w.size ∧ portAddr w < portAddr x + x.size))
      if lost then arbLoss s p (portAddr w) else portWrite s w) s) s

def execRegisterWrite (ws : List PortWrite) (s : State) : Out := .next (registerWrite s ws)

end Sys2Proof.Machine
end

