-- ==== Sys2Proof/Machine/Net.lean ====
section
/-! DEFINITION. Requests on the network as their targets take them, and BAR2 accesses (R28–R40, R42, R251, R255, R282, R286, R379,
R402). -/

namespace Sys2Proof.Machine

/-! ### Conditions on a request -/

/-- Why no network carries a request (R37): its length, its range or its payload. -/
def malformedReq (r : NetReq) : Option String :=
  if r.len = 0 ∨ 256 < r.len then some "length"
  else if 256 < r.addr.toNat % 256 + r.len then some "256-byte boundary"
  else if r.op = 1 ∧ r.data.length ≠ r.len then some "payload"
  else none

/-- What a request addresses (R31). -/
def reqTarget (s : State) (r : NetReq) : Target := target (localAddr s r.addr.toNat)

/-- The clock domain of a target (R263): a tile, a die's fabric or DRAM controller, the hub fabric. -/
def targetDomain : Target → Nat
  | .tileSram p _ => p
  | .dram d _ => 40 + d
  | .reg u pg _ =>
    if 0x40 ≤ u ∧ u < 0x64 then u - 0x40 else if 0x10 ≤ u ∧ u < 0x14 then (if pg < 0x40 then 36 else 40) + (u - 0x10) else 64
  | _ => 64

/-- The target's clock is stopped by the power state (R400). -/
def targetStopped (s : State) (t : Target) : Bool := stoppedDomain s.pwr.state (targetDomain t)

/-- Two requests of one source that touch one 64-byte block (R40). -/
def sameBlock (a b : NetReq) : Bool :=
  a.src == b.src && decide (a.addr.toNat / 64 ≤ (b.addr.toNat + b.len - 1) / 64 ∧ b.addr.toNat / 64 ≤ (a.addr.toNat + a.len - 1) / 64)

/-- An earlier request of the same source to the same block has not been performed (R40). -/
def blockBusy (s : State) (r : NetReq) : Bool := (s.fab.net.inflight.takeWhile (· != r)).any (sameBlock r)

/-- A request of a flow that a reroute holds; those that drain on the old path pass (R251). -/
def flowHeld (s : State) (r : NetReq) : Bool :=
  match flowOf r with
  | some i => s.fab.routes.held.contains i && !s.fab.routes.heldReqs.any (fun x => x.2 == r)
  | none => false

/-- The edges of a request's path. -/
def reqPath (s : State) (r : NetReq) : List Nat :=
  let a := nodeOfSrc r.src.toNat
  let b := nodeOf (reqTarget s r)
  if a = b then [] else match pathEdges s.fab.routes.rt a b with
    | some l => l.map (·.1)
    | none => []

/-- The path crosses a lost edge that holds its requests for a reroute (R246). -/
def edgeHeld (s : State) (r : NetReq) : Bool := (reqPath s r).any (fun k => !edgeUp s k && (s.fab.edges.get k).holding)

/-- What keeps a request waiting on its way: a held flow or edge, a draining destination (R382), a chunk of a join (R391). -/
def netBlocked (s : State) (r : NetReq) : Bool :=
  flowHeld s r || edgeHeld s r ||
  (match reqTarget s r with
   | .remote n _ => destHeld s n && !unreachable s n
   | .dram _ _ => r.op == 1 && chunkHeld s (localAddr s r.addr.toNat)
   | _ => false)

/-! ### A request performed -/

/-- A request performed at its target: status, bytes and poison; none where the answer comes later: a read of host memory (R282), a request
to another device (R379), a mirrored write (R240). -/
def netDo (s : State) (r : NetReq) : State × Option (Half × List Byte × Bool) :=
  let src := r.src.toNat
  let a := localAddr s r.addr.toNat
  let t := reqTarget s r
  let rd := r.op == 0
  let fail := fun (s : State) (st : Half) => (s, some (st, if rd then List.replicate r.len (0 : Byte) else [], rd))
  if 2 ≤ r.op.toNat then fail (decodeErrorEvent s src a r.op.toNat) stDecodeError
  else if !pathUsable s src (nodeOf t) then fail s stNoRoute
  else match t with
    | .reg _ _ _ =>
      if rd then
        let x := regRead s src a r.len
        if x.2.1 = stOk then (x.1, some (stOk, x.2.2, false)) else fail x.1 x.2.1
      else
        let x := regWrite s src a r.len (fld r.data 0 r.len)
        (x.1, some (x.2, [], false))
    | .host bus =>
      if src = 0x33 then fail (decodeErrorEvent s src a r.op.toNat) stDecodeError
      else if !hostReach s bus r.len then fail s stNoRoute
      else if rd then ({ s with host.reads := s.host.reads ++ [r] }, none)
      else (hostPut s bus r.data r.poison, some (stOk, [], false))
    | .remote n off =>
      if 4 * dieSpan ≤ off then fail (decodeErrorEvent s src a r.op.toNat) stDecodeError
      else if unreachable s n then fail s stNoRoute
      else (remoteSend s r n off, none)
    | _ =>
      if rd then
        let x := readAt s src a r.len
        (x.1, some (x.2.1, x.2.2.1, x.2.2.2))
      else
        let x := writeFor .network r.tag s src r.label.toNat a r.data r.poison
        if x.1.fab.mir.pend.length = s.fab.mir.pend.length then (x.1, some (x.2, [], false)) else (x.1, none)

/-- A request taken out of those under way. -/
def netTake (s : State) (r : NetReq) : State :=
  { s with fab.net.inflight := eraseFirst (· == r) s.fab.net.inflight,
           fab.routes.heldReqs := eraseFirst (fun x => x.2 == r) s.fab.routes.heldReqs }

/-- A request that waits is one under way. -/
def netHold (s : State) (r : NetReq) : State :=
  if s.fab.net.inflight.contains r then s else { s with fab.net.inflight := s.fab.net.inflight ++ [r] }

/-- A request reaches its target: it wakes a target that Idle has stopped (R402), waits where the orders, the routes or Bellows make it
wait (R40, R246, R251, R255), and is else performed and answered. -/
def netServe (s : State) (r : NetReq) : State :=
  let s := if targetStopped s (reqTarget s r) then wakeInbound s else s
  if targetStopped s (reqTarget s r) || blockBusy s r || netBlocked s r || !qosEligible s r then netHold s r
  else
    let x := netDo (qosCharge (netTake s r) r) r
    match x.2 with
    | some (st, bs, poison) => netAnswer x.1 r st bs poison
    | none => x.1

/-- NETWORK_REQUEST. -/
def networkRequest (s : State) (r : NetReq) : Out :=
  match malformedReq r with
  | some e => .fault (.malformed e)
  | none => .next (netServe s r)

/-- Whether a request addresses tile `p`'s window or register pages. -/
def atTileOf (p : Nat) : Target → Bool
  | .tileSram q _ => q == p
  | .reg u _ _ => u == 0x40 + p
  | _ => false

/-- IQ_REQUEST: a request to the tile's window or pages, through the same shared meaning; another request does not reach the tile. -/
def iqRequest (s : State) (p : Nat) (r : NetReq) : Out :=
  match malformedReq r with
  | some e => .fault (.malformed e)
  | none => .next (if atTileOf p (reqTarget s r) then netServe s r else s)

/-! ### The end of a partition's drain (R34) -/

/-- Whether a request addresses a partition: a die's, or one tile of it. -/
def atPartition (s : State) (d : Nat) (tile : Option Nat) (r : NetReq) : Bool :=
  match tile with
  | some p => atTileOf p (reqTarget s r)
  | none =>
    match reqTarget s r with
    | .dram x _ => x == d
    | .tileSram p _ => dieOf p == d
    | .reg u pg _ => (u == 0x10 + d && decide (0x40 ≤ pg)) || (decide (0x40 ≤ u ∧ u < 0x64) && dieOf (u - 0x40) == d)
    | _ => false

/-- Whether the partition is in reset. -/
def partitionDown (s : State) (d : Nat) (tile : Option Nat) : Bool :=
  match tile with
  | some p => tileAbsorbed s p
  | none => s.fab.dieReset.get d

/-- A write cut off may or may not have reached DRAM: which, is a free value (R34). -/
def cutWrite (s : State) (r : NetReq) : State :=
  if r.op ≠ 1 then s
  else
    let landed := bit s.freeVal.toNat 0
    match landed, reqTarget s r with
    | true, .dram _ _ => (dramWrite s.took r.src.toNat (localAddr s r.addr.toNat) r.data r.poison).1
    | _, _ => s.took

/-- PARTITION_DRAIN_TIMEOUT. -/
def partitionTimeout (s : State) (d : Nat) (tile : Option Nat) : State :=
  if partitionDown s d tile then
    (s.fab.net.inflight.filter (atPartition s d tile)).foldl (fun s r =>
      let s := netTake (cutWrite s r) r
      netAnswer s r stTargetReset (if r.op = 0 then List.replicate r.len 0 else []) (r.op == 0)) s
  else s

/-! ### BAR2 (R286) -/

/-- An address that no BAR2 access may have: in the host range or a reserved one (R28, R30). -/
def bar2Illegal (a : Nat) : Bool :=
  match target a with
  | .host _ => true
  | .reserved => true
  | _ => false

/-- One request of a BAR2 access, of source 0x33 and label 0: a decode error, or one that Sleep or Deep sleep does not let reach its
target (R402), is answered at once; else it goes into the network. -/
def bar2Piece (s : State) (r : NetReq) : State :=
  let zeros : List Byte := if r.op = 0 then List.replicate r.len 0 else []
  if bar2Illegal r.addr.toNat then netAnswer (decodeErrorEvent s 0x33 r.addr.toNat r.op.toNat) r stDecodeError zeros (r.op == 0)
  else if s.pwr.state ≠ .idle ∧ targetStopped s (target r.addr.toNat) then netAnswer s r stNoRoute zeros (r.op == 0)
  else { s with fab.net.inflight := s.fab.net.inflight ++ [r] }

/-- A BAR2 access: requests of at most 256 bytes, in ascending order; a wake event (R402). -/
def bar2Access (s : State) (write : Bool) (off len : Nat) (data : List Byte) : State :=
  if s.host.pci.d3hot || !s.host.pci.up || len = 0 || decide (2 ^ 28 < off + len) then s
  else
    ((pieces (s.host.pci.winBase + off) len).zipIdx).foldl (fun s x =>
      bar2Piece s { src := 0x33, label := 0, tag := BitVec.ofNat 9 x.2, op := if write then 1 else 0, addr := BitVec.ofNat 48 x.1.1, len := x.1.2.2,
                    data := if write then slice data x.1.2.1 x.1.2.2 else [], poison := false }) (wakeBar2 s)

def execNetworkRequest (r : NetReq) (s : State) : Out := networkRequest s r
def execIqRequest (p : Fin 36) (r : NetReq) (s : State) : Out := iqRequest s p r
def execPartitionDrainTimeout (d : Fin 4) (t : Option (Fin 9)) (s : State) : Out :=
  .next (partitionTimeout s d (t.map (fun x => 9 * d.val + x.val)))
def execBar2Access (write : Bool) (off len : Nat) (data : List Byte) (s : State) : Out := .next (bar2Access s write off len data)

end Sys2Proof.Machine
end

