-- ==== Sys2Proof/Machine/Memcmd.lean ====
section
/-! DEFINITION. The memory and program commands (R303, R304). -/

namespace Sys2Proof.Machine

/-! ### MEM_READ, MEM_WRITE, MEM_FILL (R303) -/

/-- The fields of a memory command with their clamps: address, length, pattern, pattern width. -/
def memFields (c : Cmd) : List Byte × Nat :=
  if c.op = 0x0102 then
    let f := clampFields c.pay 25 [fa 0 8, fr 8 8 1 (2 ^ 40), fa 16 8]
    let w := fld f.1 24 1
    let v := if w < 2 then 1 else if w < 4 then 2 else if w < 8 then 4 else 8
    (putBytes f.1 24 [BitVec.ofNat 8 v], f.2 + (if v = w then 0 else 1))
  else clampFields c.pay 16 [fa 0 8, fr 8 4 1 (if (if c.op = 0x0100 then c.outPtr else c.inPtr) then 67108864 else 224)]

def memAddr (f : List Byte) : Nat := fld f 0 8
def memLen (c : Cmd) (f : List Byte) : Nat := fld f 8 (if c.op = 0x0102 then 8 else 4)

/-- Bytes `k` to `k + n` of what a command writes. -/
def memSource (c : Cmd) (f : List Byte) (k n : Nat) : List Byte :=
  if c.op = 0x0102 then
    let pw := fld f 24 1
    let pat := fld f 16 8
    (List.range n).map (fun i => BitVec.ofNat 8 (pat / 256 ^ ((k + i) % pw)))
  else slice c.pay (16 + k) n

/-- A byte that a read found uncorrectable (R49, R236, R465). -/
def badByte (s : State) (a : Nat) : Bool :=
  match target a with
  | .dram _ _ => s.fab.poison.hit (a / 32 * 32) 32 || decide (2 ≤ s.fab.symErr.get (a / 32))
  | .hubSram _ => s.fab.poison.hit (a / 32 * 32) 32
  | .tileSram p off => s.fab.poison.hit (a / 8 * 8) 8 || decide (2 ≤ (s.tiles.get p).symErr.get (off / 8))
  | _ => true

/-- A piece that has ended: which of its bytes failed. -/
def memPart (s : State) (r : NetReq) (off : Nat) (st : Half) (bs : List Byte) : MemPart :=
  if st = stOk then { off := off, status := st, data := bs, fail := none }
  else if r.op = 0 then
    let bad := fun (i : Nat) => st != stUncorrectable || badByte s (localAddr s r.addr.toNat + i)
    { off := off, status := st, data := (List.range r.len).map (fun i => if bad i then 0 else bs.getD i 0),
      fail := some (off + ((List.range r.len).find? bad).getD 0) }
  else { off := off, status := st, data := [], fail := some off }

/-- A piece tried: what has ended, or what waits. -/
def memPiece (a : State × List MemPart × List (Nat × NetReq × Bool)) (off : Nat) (r : NetReq) : State × List MemPart × List (Nat × NetReq × Bool) :=
  if netBlocked a.1 r then (a.1, a.2.1, a.2.2 ++ [(off, r, false)])
  else
    let x := netDo (qosCharge a.1 r) r
    match x.2 with
    | some (st, bs, _) => (x.1, a.2.1 ++ [memPart x.1 r off st bs], a.2.2)
    | none => (x.1, a.2.1, a.2.2 ++ [(off, r, true)])

/-- The requests of a command: source 0x30, label 0 (R301). -/
def memRequests (c : Cmd) (f : List Byte) : List (Nat × NetReq) :=
  ((pieces (memAddr f) (memLen c f)).zipIdx).map (fun x =>
    (x.1.2.1, { src := 0x30, label := 0, tag := BitVec.ofNat 9 x.2, op := if c.op = 0x0100 then 0 else 1, addr := BitVec.ofNat 48 x.1.1,
                len := x.1.2.2, data := if c.op = 0x0100 then [] else memSource c f x.1.2.1 x.1.2.2, poison := false }))

/-- The reply: the status of the first failure by place, fail_off or the bytes before it, and what was read. -/
def memReply (c : Cmd) (parts : List MemPart) : Reply :=
  let f := memFields c
  let n := memLen c f.1
  let first := parts.foldl (fun (a : Option (Nat × Half)) p =>
    match p.fail, a with
    | some x, some y => if x < y.1 then some (x, p.status) else a
    | some x, none => some (x, p.status)
    | none, _ => a) none
  let st := match first with
    | some x => x.2
    | none => stOk
  if c.op = 0x0100 then
    let data := parts.foldl (fun (d : List Byte) p => putBytes d p.off p.data) (List.replicate n 0)
    let head := leBytes 4 (match first with
      | some x => x.1
      | none => 0xFFFFFFFF) ++ List.replicate 12 0
    { status := st, clamps := f.2, data := if c.outPtr then head else head ++ data, bulk := if c.outPtr then data else [] }
  else
    reply st f.2 (leBytes 4 (min (match first with
      | some x => x.1
      | none => n) 0xFFFFFFFF))

/-- A range that crosses into the host range, or lies there (R303). -/
def memCrosses (addr n : Nat) : Bool := decide (hostBase < addr + n)

/-- A memory command: it completes at once, or when its last piece ends. -/
def cmdMem (r : Request) (s : State) (c : Cmd) : State × Option Reply :=
  let f := memFields c
  if memCrosses (memAddr f.1) (memLen c f.1) then
    (s, some (reply stDecodeError f.2 (List.replicate (if c.op = 0x0100 then 16 else 4) 0)))
  else
    let x := (memRequests c f.1).foldl (fun a q => memPiece a q.1 q.2) (s, [], [])
    if x.2.2 = [] then (x.1, some (memReply c x.2.1))
    else ({ x.1 with host.memWaits := x.1.host.memWaits ++ [{ ch := c.ch, op := c.op, req := r, done := x.2.1, wait := x.2.2 }] }, none)

/-- The response of a piece. -/
def isRspOf (s : State) (r : NetReq) (x : NetRsp) : Bool :=
  x.src == r.src && x.tag == r.tag && x.op == r.op && (x.addr == r.addr || x.addr.toNat == localAddr s r.addr.toNat)

/-- Whether a piece that has been sent may still be answered. -/
def stillOut (s : State) (r : NetReq) : Bool :=
  s.so.dlf.remotes.any (fun x => x.req == r) || s.fab.mir.pend.any (fun x => x.req.src == r.src && x.req.tag == r.tag)

/-- One piece looked at again: one that can no longer be answered ends with NO_ROUTE. -/
def memPoll (a : State × List MemPart × List (Nat × NetReq × Bool)) (q : Nat × NetReq × Bool) : State × List MemPart × List (Nat × NetReq × Bool) :=
  if !q.2.2 then memPiece a q.1 q.2.1
  else match a.1.fab.net.rsps.find? (isRspOf a.1 q.2.1) with
    | some x =>
      let s := { a.1 with fab.net.rsps := eraseFirst (isRspOf a.1 q.2.1) a.1.fab.net.rsps }
      (s, a.2.1 ++ [memPart s q.2.1 q.1 x.status x.data], a.2.2)
    | none =>
      if stillOut a.1 q.2.1 then (a.1, a.2.1, a.2.2 ++ [q]) else (a.1, a.2.1 ++ [memPart a.1 q.2.1 q.1 stNoRoute []], a.2.2)

/-- The waiting memory commands carried on; those whose last piece has ended complete. -/
def memResume (s : State) : State :=
  s.host.memWaits.foldl (fun s w =>
    let x := w.wait.foldl memPoll (s, w.done, [])
    if x.2.2 = [] then finishCmd x.1 w.ch w.op w.req (memReply (runningCmd x.1 w.ch w.op w.req) x.2.1)
    else { x.1 with host.memWaits := x.1.host.memWaits ++ [{ w with done := x.2.1, wait := x.2.2 }] }) { s with host.memWaits := [] }

/-! ### Program commands (R304) -/

/-- The physical tiles of a logical-tile mask that are not VACANT, with their logical numbers. -/
def maskTiles (s : State) (m : Nat) : List (Nat × Nat) := (bitsOf m 32).filterMap (fun l => (physOf s l).map (fun p => (l, p)))

/-- Those of them whose registers take a write (R33). -/
def tilesReached (s : State) (m : Nat) : List (Nat × Nat) :=
  (maskTiles s m).filter (fun x => !tileAbsorbed s x.2 && !s.fab.transitDown.get (dieOf x.2))

/-- PROG_DIR_SET: nothing is written while a masked tile runs or has a launch queued. -/
def cmdProgDirSet (s : State) (c : Cmd) : State × Reply :=
  let f := clampFields c.pay 18 [fa 0 4, fz 4 4, fm 8 8 0 (2 ^ 48 - 32) 32, fr 16 2 0 4096]
  if (maskTiles s (fld f.1 0 4)).any (fun x => (s.tiles.get x.2).run.isSome || !(s.tiles.get x.2).queue.isEmpty) then (s, reply stBusy f.2 [])
  else
    let ts := tilesReached s (fld f.1 0 4)
    (ts.foldl (fun s x => tilePdirCnt (tilePdirBase s x.2 (fld f.1 8 8)) x.2 (fld f.1 16 2)) s,
     reply stOk f.2 (leBytes 4 (maskOf 32 (fun l => ts.any (·.1 == l)))))

/-- One action of TILE_CONTROL. -/
def tileAction (s : State) (p act : Nat) : State :=
  match act with
  | 0 => tileLaunchEn s p false
  | 1 => tileLaunchEn s p true
  | 2 => tileAbort s p
  | 3 => tileSemClr s p
  | _ => tileCntClr s p

/-- TILE_CONTROL (R65, R66). -/
def cmdTileControl (s : State) (c : Cmd) : State × Reply :=
  let f := clampFields c.pay 5 [fa 0 4, fr 4 1 0 4]
  let ts := tilesReached s (fld f.1 0 4)
  (ts.foldl (fun s x => tileAction s x.2 (fld f.1 4 1)) s, reply stOk f.2 (leBytes 4 (maskOf 32 (fun l => ts.any (·.1 == l)))))

/-- TILE_QUERY: the registers in the order listed, at their widths (R466). -/
def cmdTileQuery (s : State) (c : Cmd) : State × Reply :=
  let f := clampFields c.pay 1 [fr 0 1 0 31]
  match physOf s (fld f.1 0 1) with
  | none => (s, reply stNotDefined f.2 [])
  | some p =>
    let a := pageTile s p 0
    let b := pageTile s p 1
    (s, reply stOk f.2 (leBytes 4 (pageRead a 0x000 4) ++ leBytes 4 (pageRead a 0x008 4) ++ leBytes 4 (pageRead b 0x004 4) ++
      leBytes 8 (pageRead b 0x008 8) ++ leBytes 4 (pageRead b 0x010 4) ++ leBytes 4 (pageRead b 0x014 4) ++ leBytes 4 (pageRead b 0x018 4) ++
      leBytes 4 (pageRead a 0x044 4)))

/-- TILE_MAP_QUERY: the map, the spares and the defective slots (R466). -/
def cmdTileMapQuery (s : State) (_ : Cmd) : State × Reply :=
  (s, reply stOk 0 (catMap 32 (fun l => leBytes 1 (lmapByte (physOf s l))) ++
    catMap 4 (fun d => leBytes 1 (match s.bu.spares.getD d none with
      | some p => p
      | none => 0xFF)) ++
    leBytes 8 (maskOf 36 (fun p => (s.tiles.get p).defective || (s.tiles.get p).role == 2))))

def execMemRead (ch : Fin 4) (r : Request) (s : State) : Out := .next (runCmdLater s ch 0x0100 r 0 (cmdMem r))
def execMemWrite (ch : Fin 4) (r : Request) (s : State) : Out := .next (runCmdLater s ch 0x0101 r 0 (cmdMem r))
def execMemFill (ch : Fin 4) (r : Request) (s : State) : Out := .next (runCmdLater s ch 0x0102 r 0 (cmdMem r))
def execProgDirSet (ch : Fin 4) (r : Request) (s : State) : Out := cerfosil s ch 0x0300 r cmdProgDirSet
def execTileControl (ch : Fin 4) (r : Request) (s : State) : Out := cerfosil s ch 0x0301 r cmdTileControl
def execTileQuery (ch : Fin 4) (r : Request) (s : State) : Out := cerfosil s ch 0x0302 r cmdTileQuery
def execTileMapQuery (ch : Fin 4) (r : Request) (s : State) : Out := cerfosil s ch 0x0303 r cmdTileMapQuery

end Sys2Proof.Machine
end

