-- ==== Sys2Proof/Machine/Launch.lean ====
section
/-! DEFINITION. A launch that the calendar has held is accepted at its target (R41, R195, R221, R257, R317). -/

namespace Sys2Proof.Machine

/-- The head of a target's hold leaves it. -/
def popHeld (s : State) (t : Nat) : State := { s with cal.held := s.cal.held.set t ((s.cal.held.get t).drop 1) }

/-- HELD_LAUNCH_ACCEPT: the oldest launch held for a target that can take it now. -/
def heldAccept (s : State) (t : Nat) : State :=
  match (s.cal.held.get t).head? with
  | none => s
  | some h =>
    if t < 36 then (if tileReady s t then tileAccept (popHeld s t) t h.launch else s)
    else if t = 36 then
      if plannerReady s then
        if s.pln.cycle.isNone then cycleStart (popHeld s 36) h.launch else { popHeld s 36 with pln.waiting := some h.launch }
      else s
    else if t = 37 then (if s.fab.hdma.run.isNone then hubDmaStart (popHeld s 37) h.launch else s)
    else (if frontEndReady s then frontEndAccept (popHeld s 38) h.launch else s)

def execHeldLaunchAccept (t : Fin 39) (s : State) : Out := .next (heldAccept s t)

end Sys2Proof.Machine
end

