-- ==== Sys2Proof/Machine/Firmware.lean ====
section
/-! DEFINITION. The management firmware's scan of the mailboxes with its contradictory orders (R290–R298), the function level reset (R283)
and debugger transactions (R305, R349). -/

namespace Sys2Proof.Machine

/-! ### Every command by its opcode -/

/-- A command that completes at once. -/
def atOnce (f : State → Cmd → State × Reply) (s : State) (c : Cmd) : State × Option Reply := let x := f s c; (x.1, some x.2)

/-- The commands of groups 0x00 to 0x02. -/
def lowCmd (op : Nat) (r : Request) : State → Cmd → State × Option Reply :=
  match op with
  | 0x0000 => atOnce cmdEcho | 0x0001 => atOnce cmdIdentify | 0x0002 => atOnce cmdSetMode | 0x0003 => atOnce cmdFwLoad
  | 0x0010 => atOnce cmdDefectLoad | 0x0011 => cmdStartUp r | 0x0012 => atOnce cmdDefectQuery | 0x0013 => cmdReset r | 0x0014 => atOnce cmdTileFail
  | 0x0100 => cmdMem r | 0x0101 => cmdMem r | 0x0102 => cmdMem r
  | 0x0120 => atOnce cmdScrubConfig | 0x0121 => atOnce cmdMirrorConfig | 0x0122 => atOnce cmdFabricRoute | 0x0123 => atOnce cmdFabricQuery
  | 0x0124 => atOnce cmdEdgeControl | 0x0125 => atOnce cmdHubdmaConfig
  | 0x0200 => atOnce cmdCsiConfig | 0x0201 => atOnce cmdCsiQuery | 0x0202 => atOnce cmdProfileSet | 0x0203 => atOnce cmdProfileQuery
  | 0x0208 => atOnce cmdEthConfig | 0x0209 => atOnce cmdEthQueue | 0x020A => atOnce cmdEthQuery
  | 0x0210 => atOnce cmdTrayConfig | 0x0211 => atOnce cmdTrayDemand | 0x0212 => atOnce cmdTrayQuery
  | 0x0220 => atOnce cmdQosConfig | 0x0221 => atOnce cmdQosQuery
  | 0x0230 => atOnce cmdAnvLoad | 0x0231 => atOnce cmdAnvQuery | 0x0232 => atOnce cmdAnvKeyProgram | 0x0233 => atOnce cmdAnvKeyRevoke
  | _ => atOnce cmdAnvSafeRequest

/-- The commands of groups 0x03 to 0x06. -/
def midCmd (op : Nat) : State → Cmd → State × Option Reply :=
  match op with
  | 0x0300 => atOnce cmdProgDirSet | 0x0301 => atOnce cmdTileControl | 0x0302 => atOnce cmdTileQuery | 0x0303 => atOnce cmdTileMapQuery
  | 0x0400 => atOnce cmdTimeConfig | 0x0401 => atOnce cmdTimeSet | 0x0402 => atOnce cmdTimeQuery
  | 0x0410 => atOnce cmdCalWrite | 0x0411 => atOnce cmdCalRead | 0x0412 => atOnce cmdChainConfig | 0x0413 => atOnce cmdChainStart
  | 0x0414 => atOnce cmdChainStop | 0x0415 => atOnce cmdChainSwap | 0x0416 => atOnce cmdChainQuery
  | 0x0500 => atOnce cmdPlnConfig | 0x0501 => atOnce cmdPlnSetLoad | 0x0502 => atOnce cmdPlnSetUnload | 0x0503 => atOnce cmdPlnQuery
  | 0x0600 => atOnce cmdKvCreate | 0x0601 => atOnce cmdKvDestroy | 0x0602 => atOnce cmdPageCommit | _ => atOnce cmdKvQuery

/-- The commands of groups 0x07 to 0x09. -/
def highCmd (op : Nat) (r : Request) : State → Cmd → State × Option Reply :=
  match op with
  | 0x0700 => atOnce cmdTopology | 0x0701 => atOnce cmdPortControl | 0x0702 => atOnce cmdDlfRoute | 0x0703 => atOnce cmdDlfQuery
  | 0x0710 => atOnce cmdAccum | 0x0720 => atOnce cmdBarrierConfig | 0x0721 => atOnce cmdBarrierQuery | 0x0722 => atOnce cmdSuspectClear
  | 0x0730 => atOnce cmdPairConfig | 0x0731 => atOnce cmdPairJoin | 0x0732 => cmdSwitchover r | 0x0733 => atOnce cmdPairQuery
  | 0x0800 => atOnce cmdTraceConfig | 0x0801 => atOnce cmdTraceQuery | 0x0802 => atOnce cmdDebugAttach | 0x0803 => atOnce cmdDebugDetach
  | 0x0810 => atOnce cmdFaultInject | 0x0811 => atOnce cmdFaultDisarm | 0x0812 => atOnce cmdFaultQuery
  | 0x0900 => atOnce cmdPwrStateSet | 0x0901 => atOnce cmdDvfsSet | 0x0902 => atOnce cmdPowerLimit | 0x0903 => atOnce cmdThermalConfig
  | _ => atOnce cmdThermalQuery

/-- What a defined opcode does (R301). -/
def firmwareCmd (op : Nat) (r : Request) : State → Cmd → State × Option Reply :=
  if op < 0x0300 then lowCmd op r else if op < 0x0700 then midCmd op else highCmd op r

/-! ### The objects of an order (R297) -/

/-- An object: its kind, as the lowest opcode whose orders address it, and its number. -/
abbrev Obj := Nat × Nat

/-- The objects of a mask of `n` instances. -/
def maskObjs (kind m n : Nat) : List Obj := (bitsOf m n).map (fun i => (kind, i))

/-- The objects that an order of groups 0x00 to 0x03 addresses. Attaches to one target are never contradictory (R305); a safe-state request can
only be asserted. Bytes of memory are compared apart. -/
def lowObjs (op : Nat) (p : List Byte) : List Obj :=
  let n1 := fld p 0 1
  match op with
  | 0x0002 => [(0x0002, 0)] | 0x0003 => [(0x0003, 0)] | 0x0010 => [(0x0010, 0)] | 0x0011 => [(0x0011, 0)]
  | 0x0013 => [(0x0013, if n1 < 3 then n1 * 64 + fld p 1 1 else 192)]
  | 0x0014 => [(0x0014, min 35 n1)]
  | 0x0120 => maskObjs 0x0120 n1 4
  | 0x0121 => [(0x0121, min 7 n1)] | 0x0122 => [(0x0122, 0)] | 0x0124 => [(0x0124, min 7 n1)] | 0x0125 => [(0x0125, 0)]
  | 0x0200 => [(0x0200, min 11 n1)] | 0x0202 => [(0x0202, min 63 n1)] | 0x0208 => [(0x0208, min 3 n1)] | 0x0209 => [(0x0208, min 3 n1)]
  | 0x0210 => [(0x0210, min 7 n1)] | 0x0211 => [(0x0211, 0)] | 0x0220 => [(0x0220, 0)]
  | 0x0230 => maskObjs 0x0230 (clampN 1 3 n1) 2 | 0x0232 => maskObjs 0x0230 (clampN 1 3 n1) 2 | 0x0233 => maskObjs 0x0230 (clampN 1 3 n1) 2
  | 0x0300 => maskObjs 0x0300 (fld p 0 4) 32 | 0x0301 => maskObjs 0x0300 (fld p 0 4) 32
  | _ => []

/-- The objects that an order of groups 0x04 to 0x09 addresses. -/
def highObjs (op : Nat) (p : List Byte) : List Obj :=
  let n1 := fld p 0 1
  match op with
  | 0x0400 => [(0x0400, 0)] | 0x0401 => [(0x0400, 0)]
  | 0x0410 => let f := min 4095 (fld p 0 2); (List.range (min (fld p 2 2) (4096 - f))).map (fun i => (0x0410, f + i))
  | 0x0412 => [(0x0412, min 7 n1)] | 0x0413 => maskObjs 0x0412 n1 8 | 0x0414 => maskObjs 0x0412 n1 8 | 0x0415 => [(0x0412, min 7 n1)]
  | 0x0500 => [(0x0500, 0)] | 0x0501 => [(0x0501, min 7 n1)] | 0x0502 => [(0x0501, min 7 n1)]
  | 0x0600 => [(0x0600, min 4095 (fld p 0 2))] | 0x0601 => [(0x0600, min 4095 (fld p 0 2))] | 0x0602 => [(0x0600, min 4095 (fld p 0 2))]
  | 0x0700 => [(0x0700, 0)] | 0x0701 => [(0x0701, min 7 n1)] | 0x0702 => [(0x0700, 0)] | 0x0710 => [(0x0710, min 7 n1)]
  | 0x0720 => [(0x0720, min 15 n1)] | 0x0722 => [(0x0722, min 47 n1)]
  | 0x0730 => [(0x0730, 0)] | 0x0731 => [(0x0730, 0)] | 0x0732 => [(0x0730, 0)]
  | 0x0800 => [(0x0800, 0)] | 0x0803 => [(0x0803, n1)]
  | 0x0810 => [(0x0810, min 7 n1)] | 0x0811 => maskObjs 0x0810 n1 8
  | 0x0900 => [(0x0900, 0)] | 0x0901 => maskObjs 0x0901 (fld p 0 4) 32 | 0x0902 => [(0x0902, 0)] | 0x0903 => [(0x0903, 0)]
  | _ => []

/-- The objects that a command addresses. -/
def objectsOf (c : Cmd) : List Obj := if c.op < 0x0400 then lowObjs c.op c.pay else highObjs c.op c.pay

/-- A tile's state by its logical number. -/
def ltileOf (s : State) (l : Nat) : Option Tile := (physOf s l).map s.tiles.get

/-- Whether two states agree on an object. -/
def sameObj (a b : State) (k : Obj) : Bool :=
  let i := k.2
  match k.1 with
  | 0x0002 => a.host.opMode == b.host.opMode
  | 0x0003 => a.bu.service == b.bu.service && a.bu.fwver == b.bu.fwver
  | 0x0010 => a.bu.defects == b.bu.defects
  | 0x0011 => a.bu.phase == b.bu.phase && a.bu.full == b.bu.full
  | 0x0013 => a.bu.rstQueued == b.bu.rstQueued && a.bu.rst.isSome == b.bu.rst.isSome && a.bu.rstScope == b.bu.rstScope && a.bu.rstIndex == b.bu.rstIndex
  | 0x0014 => a.tiles.get i == b.tiles.get i
  | 0x0120 => (a.fab.drm.get i).scrubEn == (b.fab.drm.get i).scrubEn && (a.fab.drm.get i).scrubHrs == (b.fab.drm.get i).scrubHrs
  | 0x0121 => a.fab.mir.regions.get i == b.fab.mir.regions.get i
  | 0x0122 => a.fab.routes.rt == b.fab.routes.rt && a.fab.routes.newRt == b.fab.routes.newRt
  | 0x0124 => a.fab.edges.get i == b.fab.edges.get i
  | 0x0125 => a.fab.hdma.pdirBase == b.fab.hdma.pdirBase && a.fab.hdma.pdirCnt == b.fab.hdma.pdirCnt
  | 0x0200 => a.sen.csi.get i == b.sen.csi.get i
  | 0x0202 => a.sen.profiles.get i == b.sen.profiles.get i
  | 0x0208 => a.sen.eth.get i == b.sen.eth.get i
  | 0x0210 => a.sen.tray.slots.get i == b.sen.tray.slots.get i && (i != 0 || a.sen.tray.k == b.sen.tray.k)
  | 0x0211 => a.sen.tray.floor == b.sen.tray.floor
  | 0x0220 => a.fab.qos.newTab == b.fab.qos.newTab
  | 0x0230 => a.isle i == b.isle i
  | 0x0300 => ltileOf a i == ltileOf b i
  | 0x0400 => a.time == b.time
  | 0x0410 => a.cal.entries.get i == b.cal.entries.get i
  | 0x0412 => a.cal.chains.get i == b.cal.chains.get i
  | 0x0500 => a.pln.reqBase == b.pln.reqBase && a.pln.reserve == b.pln.reserve && a.sie == b.sie
  | 0x0501 => a.pln.sets.get i == b.pln.sets.get i
  | 0x0600 => a.kvt.tables.get i == b.kvt.tables.get i
  | 0x0700 => a.so.dlf == b.so.dlf
  | 0x0701 => a.so.ports.get i == b.so.ports.get i
  | 0x0710 => a.so.acc.get i == b.so.acc.get i
  | 0x0720 => a.so.bars.get i == b.so.bars.get i
  | 0x0722 => bit a.so.dlf.suspect.toNat i == bit b.so.dlf.suspect.toNat i
  | 0x0730 => a.so.pair == b.so.pair
  | 0x0800 => a.host.trc == b.host.trc
  | 0x0803 => a.host.sessions.contains i == b.host.sessions.contains i
  | 0x0810 => a.fab.inj.get i == b.fab.inj.get i
  | 0x0900 => a.pwr.pendingReq == b.pwr.pendingReq
  | 0x0901 => (physOf a i).map (fun p => (a.pwr.tiles.get p).host) == (physOf b i).map (fun p => (b.pwr.tiles.get p).host)
  | 0x0902 => a.pwr.hostLimit == b.pwr.hostLimit
  | 0x0903 => (a.qch.c, a.qch.tOutMax, a.qch.stopRate, a.qch.conf, a.qch.restoreMs) == (b.qch.c, b.qch.tOutMax, b.qch.stopRate, b.qch.conf, b.qch.restoreMs)
  | _ => true

/-! ### Contradictory orders (R297) -/

/-- A command as a scan has taken it. -/
structure Taken where
  req   : Request
  extra : Nat
  cmd   : Cmd
  ok    : Bool
  deriving DecidableEq, Repr

/-- The command that waits in a channel. -/
def takenOf (s : State) (ch : Nat) : Option Taken :=
  let m := s.host.mbx.get ch
  if m.sent then
    let b := bufferedRequest m
    let d := decodeCmd s ch b.1 b.2.1 m.bufOk b.2.2
    some { req := b.2.1, extra := b.2.2, cmd := d.1, ok := accepts s b.1 && definedOpcodes.contains b.1 && d.2 }
  else none

/-- The state after an order. -/
def effectOf (s : State) (t : Taken) : State := (firmwareCmd t.cmd.op t.req s t.cmd).1

/-- The bytes that a MEM_WRITE or MEM_FILL writes: where, how many, which. -/
def writtenBytes (c : Cmd) : Option (Nat × Nat × List Byte) :=
  if c.op = 0x0101 ∨ c.op = 0x0102 then let f := (memFields c).1; some (memAddr f, memLen c f, f) else none

/-- The first byte that two writes would leave different in the two orders. -/
def memClash (a b : Cmd) (ab ba : State) : Option Nat :=
  match writtenBytes a, writtenBytes b with
  | some (p, n, f), some (q, m, g) =>
    let lo := max p q
    ((List.range (min (p + n) (q + m) - lo)).map (lo + ·)).find? (fun x =>
      memSource a f (x - p) 1 != memSource b g (x - q) 1 && (match target x with
        | .dram _ _ | .tileSram _ _ | .hubSram _ => ab.fab.mem.read x != ba.fab.mem.read x
        | _ => true))
  | _, _ => none

/-- The first object that two orders would leave in different states, applied in the two possible orders. -/
def clashOf (s : State) (a b : Taken) : Option Nat :=
  if !a.ok || !b.ok then none
  else
    let oa := objectsOf a.cmd
    let common := (objectsOf b.cmd).filter oa.contains
    let mem := (writtenBytes a.cmd).isSome && (writtenBytes b.cmd).isSome
    if common.isEmpty && !mem then none
    else
      let ab := effectOf (effectOf s a) b
      let ba := effectOf (effectOf s b) a
      match common.find? (fun k => !sameObj ab ba k) with
      | some k => some k.2
      | none => memClash a.cmd b.cmd ab ba

/-- How restrictive a power order is: a lower limit, a lower point, a lower-power state, a higher demand (R297). Other orders rank alike. -/
def restrictiveness (c : Cmd) : Nat :=
  match c.op with
  | 0x0211 => min 1024 (fld c.pay 0 2)
  | 0x0900 => clampN 1 4 (fld c.pay 0 1)
  | 0x0901 => 6 - min 6 (fld c.pay 4 1)
  | 0x0902 => 480 - clampN 150 480 (fld c.pay 0 2)
  | _ => 0

/-- Commands with the more restrictive power orders first, each kind else in precedence order. -/
def byWeight : List Taken → List Taken
  | [] => []
  | t :: r =>
    let l := byWeight r
    l.takeWhile (fun x => decide (restrictiveness t.cmd < restrictiveness x.cmd)) ++ t :: l.dropWhile (fun x => decide (restrictiveness t.cmd < restrictiveness x.cmd))

/-- The losing orders of a scan: channel, the winner's channel, the object. -/
def losers (s : State) (ts : List Taken) : List (Nat × Nat × Nat) :=
  ((byWeight ts).foldl (fun (a : List Taken × List (Nat × Nat × Nat)) t =>
    match a.1.findSome? (fun w => (clashOf s w t).map (fun k => (w.cmd.ch, k))) with
    | some x => (a.1, a.2 ++ [(t.cmd.ch, x.1, x.2)])
    | none => (a.1 ++ [t], a.2)) ([], [])).2

/-! ### The response of a losing order (R298) -/

/-- The state in force in the layouts of groups 0x00 to 0x03. Counts of the command's own work are 0. -/
def lowForce (s : State) (c : Cmd) : List Byte :=
  let p := c.pay
  let n1 := fld (slice p 0 2) 0 1
  match c.op with
  | 0x0002 => leBytes 4 (b2n s.host.opMode) ++ leBytes 4 (b2n s.host.opMode)
  | 0x0003 => leBytes 4 (hubFwver s)
  | 0x0010 => leBytes 4 0 ++ leBytes 4 0
  | 0x0011 => startSummary s
  | 0x0013 => leBytes 4 (rstStat s) ++ leBytes 4 (if n1 = 0 then tilId s (min 35 (fld p 1 1)) else 0)
  | 0x0014 => leBytes 4 (tilId s (min 35 n1)) ++ leBytes 4 0
  | 0x0101 => leBytes 4 0
  | 0x0102 => leBytes 4 0
  | 0x0120 =>
    let m := n1 % 16
    let x := s.fab.drm.get ((bitsOf m 4).headD 0)
    leBytes 1 m ++ leBytes 1 (b2n x.scrubEn) ++ leBytes 1 x.scrubHrs
  | 0x0121 =>
    let r := s.fab.mir.regions.get (min 7 n1)
    leBytes 1 (min 7 n1) ++ leBytes 1 r.type ++ leBytes 2 r.size ++ leBytes 4 0 ++ leBytes 8 r.base ++ leBytes 4 (mirrorTotal s 1 8) ++ leBytes 4 (mirrorTotal s 2 8)
  | 0x0122 => leBytes 4 0 ++ leBytes 4 0
  | 0x0124 => leBytes 4 (s.fab.edges.get (min 7 n1)).state
  | 0x0125 => leBytes 8 s.fab.hdma.pdirBase ++ leBytes 2 s.fab.hdma.pdirCnt
  | 0x0200 => csiConfBytes (min 11 n1) (s.sen.csi.get (min 11 n1))
  | 0x0202 => match s.sen.profiles.get (min 63 n1) with
    | some x => slice x 0 16
    | none => slice [BitVec.ofNat 8 (min 63 n1)] 0 16
  | 0x0208 =>
    let e := s.sen.eth.get (min 3 n1)
    leBytes 1 (min 3 n1) ++ leBytes 1 (b2n e.enable) ++ leBytes 1 e.fec ++ leBytes 1 0 ++ leBytes 2 e.mtu ++ leBytes 2 0 ++ slice e.addr 0 6 ++ leBytes 2 e.pollUs
  | 0x0209 =>
    let e := s.sen.eth.get (min 3 n1)
    let dir := min 1 (fld p 1 1)
    let q := min 3 (fld p 2 1)
    let head := fun (label : Nat) => leBytes 1 (min 3 n1) ++ leBytes 1 dir ++ leBytes 1 q ++ leBytes 1 label ++ leBytes 4 0
    if dir = 0 then
      let x := e.rxq.get q
      head x.label ++ leBytes 8 x.base ++ leBytes 4 x.nslots ++ leBytes 2 x.slot ++ leBytes 1 x.kind ++ leBytes 1 0 ++ leBytes 2 x.value ++
        leBytes 1 x.ltile ++ leBytes 1 x.ctr ++ leBytes 2 x.k
    else let x := e.txq.get q; head x.label ++ leBytes 8 x.base ++ leBytes 4 x.nslots ++ leBytes 10 0
  | 0x0210 => slice (s.sen.tray.slots.get (min 7 n1)).conf 0 16 ++ leBytes 4 s.sen.tray.k.toNat
  | 0x0211 => leBytes 4 (coolDuty s)
  | 0x0220 =>
    let t := s.fab.qos.newTab.getD (s.fab.qos.classes, [])
    let first := min 63 (fld p 4 1)
    let count := min (min 27 (fld p 5 1)) (64 - first)
    let tbl := t.2.foldl (fun t e => t.set e.1 e.2) s.fab.qos.entries
    leBytes 4 t.1.toNat ++ leBytes 1 first ++ leBytes 1 count ++ leBytes 2 0 ++ catMap count (fun i => leBytes 8 (tbl.get (first + i)).toNat) ++
      leBytes 8 (roundUp (s.dt + 1) 1000) ++ leBytes 4 s.fab.qos.breach
  | 0x0300 => leBytes 4 0
  | 0x0301 => leBytes 4 0
  | _ => (islandReply s 0 ((islandsOf (clampN 1 3 n1)).map (fun i => (i, stOverridden, 0)))).data

/-- The planner's configuration in the layout of PLN_CONFIG. -/
def plnConfigBytes (s : State) : List Byte :=
  let b := fun (i : Nat) => leBytes 8 (s.sie.bufs.get i).1 ++ leBytes 4 (s.sie.bufs.get i).2 ++ leBytes 4 0
  leBytes 2 s.sie.voxel ++ leBytes 1 s.sie.depth ++ leBytes 1 0 ++ leBytes 4 s.pln.reserve ++ b 0 ++ b 1 ++ leBytes 8 s.pln.reqBase

/-- The state in force in the layouts of groups 0x04 to 0x06. -/
def midForce (s : State) (c : Cmd) : List Byte :=
  let p := c.pay
  let n1 := fld (slice p 0 2) 0 1
  let n2 := fld (slice p 0 2) 0 2
  let ch := s.cal.chains.get (min 7 n1)
  let tb := s.kvt.tables.get (min 4095 n2)
  match c.op with
  | 0x0400 =>
    let t := s.time
    leBytes 1 t.src ++ leBytes 1 t.ethPort ++ leBytes 1 t.delufMaster ++ leBytes 1 (uint 8 t.syncLog) ++ leBytes 4 t.stepThr ++ leBytes 8 0
  | 0x0401 => leBytes 8 s.dt
  | 0x0410 => leBytes 8 0
  | 0x0412 => chainConfigBytes (min 7 n1) ch
  | 0x0413 => catMap 8 (fun n =>
      let x := s.cal.chains.get n
      if bit n1 n then leBytes 8 x.start ++ leBytes 4 (effOffsets s.cal.entries x.first x.count x.min).2 ++ leBytes 4 0 else leBytes 16 0)
  | 0x0414 => catMap 8 (fun n => leBytes 8 (if bit n1 n then (s.cal.chains.get n).n.getD (2 ^ 64 - 1) else 0))
  | 0x0415 => match ch.swap with
    | some (k, f, n) => leBytes 8 k ++ leBytes 4 (effOffsets s.cal.entries f n ch.min).2
    | none => leBytes 12 0
  | 0x0500 => plnConfigBytes s
  | 0x0501 => match s.pln.sets.get (min 7 n1) with
    | some x => leBytes 1 x.kind ++ leBytes 4 x.nprim ++ leBytes 4 x.nentries
    | none => leBytes 9 0
  | 0x0600 =>
    let x := tb.slots.get (currentSlot tb)
    leBytes 2 (min 4095 n2) ++ leBytes 1 tb.heads ++ leBytes 2 tb.d ++ leBytes 1 tb.mode ++ leBytes 1 tb.parts ++ leBytes 1 tb.shard ++ leBytes 8 x.root ++
      leBytes 4 x.npages ++ leBytes 4 x.hstride ++ leBytes 8 0 ++ leBytes 4 tb.commit ++ leBytes 4 (currentSlot tb)
  | 0x0601 => leBytes 4 ((tb.slots.list 8).filter (fun x => x.state != 0)).length
  | 0x0602 =>
    let x := tb.slots.get (currentSlot tb)
    leBytes 4 tb.commit ++ leBytes 4 (currentSlot tb) ++ leBytes 4 x.npages ++ leBytes 4 x.hstride
  | _ => []

/-- The state in force in the layouts of groups 0x07 to 0x09. -/
def highForce (s : State) (c : Cmd) : List Byte :=
  let p := c.pay
  let n1 := fld (slice p 0 2) 0 1
  let d := s.so.dlf
  match c.op with
  | 0x0700 =>
    leBytes 1 d.devnum ++ leBytes 1 (d.xM1 + 1) ++ leBytes 1 (d.yM1 + 1) ++ leBytes 1 d.partner ++ leBytes 1 d.barRoot ++ leBytes 1 d.dl6.1 ++
      leBytes 1 d.dl6.2 ++ leBytes 1 d.dl7.1 ++ leBytes 1 d.dl7.2
  | 0x0701 => leBytes 4 (dlfStat (s.so.ports.get (min 7 n1)))
  | 0x0702 => leBytes 4 0
  | 0x0710 =>
    let a := s.so.acc.get (min 7 n1)
    leBytes 1 (min 7 n1) ++ leBytes 1 a.fmt ++ leBytes 2 a.size ++ leBytes 4 0 ++ leBytes 8 a.base
  | 0x0720 =>
    let b := s.so.bars.get (min 15 n1)
    leBytes 1 (min 15 n1) ++ leBytes 1 b.local_ ++ leBytes 1 b.ctr ++ leBytes 1 0 ++ leBytes 4 b.tmask ++ leBytes 8 b.members ++ leBytes 4 b.margin ++ leBytes 4 b.epoch
  | 0x0722 => leBytes 8 d.suspect.toNat
  | 0x0730 => leBytes 1 s.so.pair.role ++ leBytes 3 0 ++ leBytes 4 s.so.pair.hbTimeout
  | 0x0731 => leBytes 8 0
  | 0x0732 => leBytes 8 s.so.pair.switchDt
  | 0x0800 => traceBytes s.host.trc
  | 0x0810 =>
    let j := s.fab.inj.get (min 7 n1)
    leBytes 1 (min 7 n1) ++ leBytes 7 0 ++ leBytes 8 j.cfg.toNat ++ leBytes 8 j.t ++ leBytes 4 j.count
  | 0x0811 => catMap 8 (fun i => leBytes 4 (if bit n1 i then (s.fab.inj.get i).fired else 0))
  | 0x0900 => leBytes 1 (match s.pwr.pendingReq with
    | some st => st.num
    | none => s.pwr.state.num)
  | 0x0901 =>
    leBytes 4 0 ++ catMap 32 (fun l => leBytes 4 (match physOf s l with
      | some q => if bit (fld p 0 4) l then (s.pwr.tiles.get q).clkOp else 0
      | none => 0))
  | 0x0902 => leBytes 4 s.pwr.hostLimit ++ leBytes 4 s.pwr.budget
  | 0x0903 => leBytes 2 s.qch.c ++ leBytes 2 s.qch.tOutMax ++ leBytes 1 s.qch.stopRate ++ leBytes 1 s.qch.conf ++ leBytes 2 s.qch.restoreMs
  | _ => []

/-- The response of a losing order. -/
def inForce (s : State) (c : Cmd) : List Byte := if c.op < 0x0400 then lowForce s c else if c.op < 0x0700 then midForce s c else highForce s c

/-! ### FIRMWARE_SCAN -/

/-- A channel's command leaves its internal buffer. -/
def unsend (s : State) (ch : Nat) : State := s.modMbx ch (fun m => { m with sent := false })

/-- A losing order completes with OVERRIDDEN; its clamps are counted (R298). -/
def override (s : State) (t : Taken) (winner obj : Nat) : State :=
  let c := t.cmd
  let clamps : Nat := match (firmwareCmd c.op t.req s c).2 with
    | some y => y.clamps
    | none => 0
  let s := orderOverridden (unsend s c.ch) (masterOfMbx winner) c.op (masterOfMbx c.ch) obj
  completeCmd s c (s.host.mbx.get c.ch).bufOk (reply stOverridden clamps (inForce s c))

/-- A command executed. -/
def runTaken (s : State) (t : Taken) : State :=
  let s := unsend s t.cmd.ch
  if definedOpcodes.contains t.cmd.op then runCmdLater s t.cmd.ch t.cmd.op t.req t.extra (firmwareCmd t.cmd.op t.req)
  else runCmd s t.cmd.ch t.cmd.op t.req t.extra cmdEcho

/-- The commands of a scan one after another: a losing order completes at its turn, or after its winner if that comes later; a command that
another one has completed meanwhile is passed over. -/
def scanCommands (s : State) (ts : List Taken) : State :=
  let lost := losers s ts
  let waits := fun (s : State) (t : Taken) => (s.host.mbx.get t.cmd.ch).sent
  ts.foldl (fun s t =>
    if !waits s t then s
    else match lost.find? (fun x => x.1 == t.cmd.ch) with
      | some (_, w, k) => if w < t.cmd.ch then override s t w k else s
      | none =>
        let s := runTaken s t
        (ts.filter (fun x => decide (x.cmd.ch < t.cmd.ch))).foldl (fun s x =>
          match lost.find? (fun y => y.1 == x.cmd.ch && y.2.1 == t.cmd.ch) with
          | some (_, w, k) => if waits s x then override s x w k else s
          | none => s) s) s

/-- FIRMWARE_SCAN (R294, R436, R440): a wider reset that has been asked for begins; else the commands sent since the last scan are executed and
the failures found since then handled. -/
def firmwareScan (s : State) : State :=
  if s.bu.service = 0 ∨ s.dt % 10000 ≠ 0 then s
  else match s.bu.rstQueued with
    | some (4, _) => warmReset (warnPartner s)
    | some _ => deviceReset (warnPartner s)
    | none =>
      let s := memResume s
      let s := if s.host.memWaits.isEmpty then scanCommands s ((List.range 4).filterMap (takenOf s)) else s
      if s.bu.service = 2 then scanFailures s else s

/-! ### PCIE_FLR (R283) -/

/-- A command not yet taken, which a function level reset aborts: whether its effects are applied is a free value. -/
def abortedEffect (s : State) (t : Taken) : State :=
  if t.ok ∧ bit s.freeVal.toNat 0 then (firmwareCmd t.cmd.op t.req s.took { t.cmd with ch := 4 }).1 else s.took

/-- The running commands complete internally: they have no channel any more. -/
def orphanCommands (s : State) : State :=
  { s with
    bu.startReq := s.bu.startReq.map (fun x => (4, x.2)),
    bu.rst := s.bu.rst.map (fun r => { r with chan := r.chan.map (fun x => (4, x.2)) }),
    so.pair.handover := s.so.pair.handover.map (fun x => (4, x.2)),
    host.memWaits := s.host.memWaits.map (fun w => { w with ch := 4 }) }

/-- PCIE_FLR. -/
def pcieFlr (s : State) : State :=
  let s := orphanCommands ((((List.range 4).filterMap (takenOf s))).foldl abortedEffect s)
  { s with
    host.mbx := s.host.mbx.map (fun m => if m.busy then { m with busy := false, done := false, sent := false } else m),
    host.evt.enable := false, host.ints.mask := 0x1FF, host.ints.msix := hostFresh.ints.msix, host.ints.pba := 0, host.pci.winBase := 0 }

/-! ### DEBUG_TRANSACTION (R305, R349) -/

/-- One debugger transaction on an island core. What a single step executes is the core's own program: only the step is counted. -/
def debugCore (op : DebugOp) (c : DebugCore) : DebugCore :=
  match op with
  | .writeReg r v => { c with regs := c.regs.set r v }
  | .writeMem a v => { c with mem := c.mem.set a v }
  | .halt => { c with halted := true }
  | .resume => { c with halted := false }
  | .step => if c.halted then { c with steps := c.steps + 1 } else c

/-- A debugger transaction on an island: the replay unit applies it to the checker core of a locked pair. -/
def debugIsland (op : DebugOp) (a : Island) : Island :=
  if a.state = .reset then a
  else { a with main := debugCore op a.main, chk := if isSplit a then a.chk else debugCore op a.chk }

/-- A debugger transaction on a tile: a register of its pages by page × 0x1_0000 + offset, a byte of its SRAM, dbg_halt. The manual gives a tile
no single step. -/
def debugTile (s : State) (p : Nat) (op : DebugOp) : State :=
  if tileAbsorbed s p then s
  else match op with
    | .writeReg r v => tilePut s p (r / 0x10000) (r % 0x10000) (v.toNat % 2 ^ 32)
    | .writeMem a v => sramWrite s p (a % 2 ^ 24) [v] false
    | .halt => tileDbgHalt s p true
    | .resume => tileDbgHalt s p false
    | .step => s

/-- DEBUG_TRANSACTION: only in MAINTENANCE, and of an attached session. -/
def debugTransaction (s : State) (id : Nat) (op : DebugOp) : State :=
  if s.host.opMode || !s.host.sessions.contains id then s
  else if id < 36 then debugTile s id op
  else s.modIsl (id - 0x40) (debugIsland op)

def execFirmwareScan (now : Nat) (s : State) : Out := .next (firmwareScan (s.advance now))
def execPcieFlr (s : State) : Out := .next (pcieFlr s)
def execDebugTransaction (session : Byte) (op : DebugOp) (s : State) : Out := .next (debugTransaction s session.toNat op)

end Sys2Proof.Machine
end

