-- ==== Sys2Proof/Machine/Dispatch.lean ====
section
/-! DEFINITION. One arm per command: each calls the command's own meaning. -/

namespace Sys2Proof.Machine

def exec (i : Instr) (s : State) : Host.Outcome State Fault Refusal :=
  match i with
  | .porNRelease now => Sys2Proof.Machine.execPorNRelease now s
  | .perstNRelease now => Sys2Proof.Machine.execPerstNRelease now s
  | .perstNAssert now => Sys2Proof.Machine.execPerstNAssert now s
  | .aonSupplyLow => Sys2Proof.Machine.execAonSupplyLow s
  | .bootReady now => Sys2Proof.Machine.execBootReady now s
  | .wakeNAssert now => Sys2Proof.Machine.execWakeNAssert now s
  | .mbxSend ch hostWrites bufOk => Sys2Proof.Machine.execMbxSend ch hostWrites bufOk s
  | .firmwareScan now => Sys2Proof.Machine.execFirmwareScan now s
  | .unknownOpcode ch opcode req => Sys2Proof.Machine.execUnknownOpcode ch opcode req s
  | .sysEcho ch req => Sys2Proof.Machine.execSysEcho ch req s
  | .sysIdentify ch req => Sys2Proof.Machine.execSysIdentify ch req s
  | .sysSetMode ch req => Sys2Proof.Machine.execSysSetMode ch req s
  | .sysFwLoad ch req => Sys2Proof.Machine.execSysFwLoad ch req s
  | .sysDefectLoad ch req => Sys2Proof.Machine.execSysDefectLoad ch req s
  | .sysStartUp ch req => Sys2Proof.Machine.execSysStartUp ch req s
  | .startUpDone r => Sys2Proof.Machine.execStartUpDone r s
  | .sysDefectQuery ch req => Sys2Proof.Machine.execSysDefectQuery ch req s
  | .sysReset ch req => Sys2Proof.Machine.execSysReset ch req s
  | .resetDone now => Sys2Proof.Machine.execResetDone now s
  | .tileFail ch req => Sys2Proof.Machine.execTileFail ch req s
  | .quarantineSelftestDone p pass now => Sys2Proof.Machine.execQuarantineSelftestDone p pass now s
  | .hubBuCtrlCntClr => Sys2Proof.Machine.execHubBuCtrlCntClr s
  | .networkRequest r => Sys2Proof.Machine.execNetworkRequest r s
  | .partitionDrainTimeout die tile => Sys2Proof.Machine.execPartitionDrainTimeout die tile s
  | .registerWrite ws => Sys2Proof.Machine.execRegisterWrite ws s
  | .launchStrobe p b => Sys2Proof.Machine.execLaunchStrobe p b s
  | .launchStart p => Sys2Proof.Machine.execLaunchStart p s
  | .descriptorFetch e f => Sys2Proof.Machine.execDescriptorFetch e f s
  | .reservedOpcode e st => Sys2Proof.Machine.execReservedOpcode e st s
  | .nop e st => Sys2Proof.Machine.execNop e st s
  | .complete e st => Sys2Proof.Machine.execComplete e st s
  | .loop p st => Sys2Proof.Machine.execLoop p st s
  | .branchCnt p st => Sys2Proof.Machine.execBranchCnt p st s
  | .waitSem p st => Sys2Proof.Machine.execWaitSem p st s
  | .waitSemRelease p st => Sys2Proof.Machine.execWaitSemRelease p st s
  | .signalSem p st => Sys2Proof.Machine.execSignalSem p st s
  | .waitTime p st now => Sys2Proof.Machine.execWaitTime p st now s
  | .waitTimeRelease p st now => Sys2Proof.Machine.execWaitTimeRelease p st now s
  | .waitEvent p st now => Sys2Proof.Machine.execWaitEvent p st now s
  | .waitEventRelease p st => Sys2Proof.Machine.execWaitEventRelease p st s
  | .eventTimeout p st now => Sys2Proof.Machine.execEventTimeout p st now s
  | .postEvent p st => Sys2Proof.Machine.execPostEvent p st s
  | .matmul p => Sys2Proof.Machine.execMatmul p s
  | .convStripe p => Sys2Proof.Machine.execConvStripe p s
  | .attnPage p => Sys2Proof.Machine.execAttnPage p s
  | .elem p => Sys2Proof.Machine.execElem p s
  | .reduce p => Sys2Proof.Machine.execReduce p s
  | .sfu p => Sys2Proof.Machine.execSfu p s
  | .pool p => Sys2Proof.Machine.execPool p s
  | .argmaxC p => Sys2Proof.Machine.execArgmaxC p s
  | .cropResize p => Sys2Proof.Machine.execCropResize p s
  | .attnCombine p => Sys2Proof.Machine.execAttnCombine p s
  | .move e => Sys2Proof.Machine.execMove e s
  | .fill e => Sys2Proof.Machine.execFill e s
  | .gather p => Sys2Proof.Machine.execGather p s
  | .scatter p => Sys2Proof.Machine.execScatter p s
  | .lbConfigDefine p => Sys2Proof.Machine.execLbConfigDefine p s
  | .lbConfigExport p => Sys2Proof.Machine.execLbConfigExport p s
  | .lbConfigRelease p => Sys2Proof.Machine.execLbConfigRelease p s
  | .lbReleaseApply p => Sys2Proof.Machine.execLbReleaseApply p s
  | .lbConfigUndefine p => Sys2Proof.Machine.execLbConfigUndefine p s
  | .lbConfigUnexport p => Sys2Proof.Machine.execLbConfigUnexport p s
  | .attnWalk p => Sys2Proof.Machine.execAttnWalk p s
  | .attnWalkPinDone p => Sys2Proof.Machine.execAttnWalkPinDone p s
  | .walkPteRead p => Sys2Proof.Machine.execWalkPteRead p s
  | .walkQueuePush p => Sys2Proof.Machine.execWalkQueuePush p s
  | .attnPageEmit p => Sys2Proof.Machine.execAttnPageEmit p s
  | .attnWalkUnpin p => Sys2Proof.Machine.execAttnWalkUnpin p s
  | .descriptorComplete p st chan now => Sys2Proof.Machine.execDescriptorComplete p st chan now s
  | .dmaResponse e tag => Sys2Proof.Machine.execDmaResponse e tag s
  | .exportGateRelease p chan => Sys2Proof.Machine.execExportGateRelease p chan s
  | .iqRequest p r => Sys2Proof.Machine.execIqRequest p r s
  | .sramCorrectedWriteback p word => Sys2Proof.Machine.execSramCorrectedWriteback p word s
  | .tileReset p => Sys2Proof.Machine.execTileReset p s
  | .sramInitDone p => Sys2Proof.Machine.execSramInitDone p s
  | .isoEnAssert p => Sys2Proof.Machine.execIsoEnAssert p s
  | .isoEnRelease p => Sys2Proof.Machine.execIsoEnRelease p s
  | .arithGateRise p => Sys2Proof.Machine.execArithGateRise p s
  | .arithGateFall p => Sys2Proof.Machine.execArithGateFall p s
  | .tilCtrlCntClr p => Sys2Proof.Machine.execTilCtrlCntClr p s
  | .tilCtrlSemClr p => Sys2Proof.Machine.execTilCtrlSemClr p s
  | .tilCtrlAbort p => Sys2Proof.Machine.execTilCtrlAbort p s
  | .tilCtrlLaunchEn p on => Sys2Proof.Machine.execTilCtrlLaunchEn p on s
  | .tilCtrlDbgHalt p on => Sys2Proof.Machine.execTilCtrlDbgHalt p on s
  | .tilEvtAdd p value => Sys2Proof.Machine.execTilEvtAdd p value s
  | .tilErrFirstRearm p => Sys2Proof.Machine.execTilErrFirstRearm p s
  | .tilErrStatClear p mask => Sys2Proof.Machine.execTilErrStatClear p mask s
  | .hubKvtPin src value => Sys2Proof.Machine.execHubKvtPin src value s
  | .hubKvtUnpin src => Sys2Proof.Machine.execHubKvtUnpin src s
  | .hubKvtAppend src value => Sys2Proof.Machine.execHubKvtAppend src value s
  | .kvTableCreate ch req => Sys2Proof.Machine.execKvTableCreate ch req s
  | .kvTableDestroy ch req => Sys2Proof.Machine.execKvTableDestroy ch req s
  | .pageCommit ch req => Sys2Proof.Machine.execPageCommit ch req s
  | .kvTableQuery ch req => Sys2Proof.Machine.execKvTableQuery ch req s
  | .plannerStrobe b => Sys2Proof.Machine.execPlannerStrobe b s
  | .planSearchEnd now => Sys2Proof.Machine.execPlanSearchEnd now s
  | .planTimeLimit now expanded => Sys2Proof.Machine.execPlanTimeLimit now expanded s
  | .planRelease now => Sys2Proof.Machine.execPlanRelease now s
  | .siePublish src value => Sys2Proof.Machine.execSiePublish src value s
  | .plnCtrlCntClr => Sys2Proof.Machine.execPlnCtrlCntClr s
  | .plnCtrlLaunchEn on => Sys2Proof.Machine.execPlnCtrlLaunchEn on s
  | .plnConfig ch req => Sys2Proof.Machine.execPlnConfig ch req s
  | .plnSetLoad ch req => Sys2Proof.Machine.execPlnSetLoad ch req s
  | .plnSetUnload ch req => Sys2Proof.Machine.execPlnSetUnload ch req s
  | .plnQuery ch req => Sys2Proof.Machine.execPlnQuery ch req s
  | .timeSample now offset => Sys2Proof.Machine.execTimeSample now offset s
  | .sampleTimeout now => Sys2Proof.Machine.execSampleTimeout now s
  | .timeConfig ch req => Sys2Proof.Machine.execTimeConfig ch req s
  | .timeSet ch req => Sys2Proof.Machine.execTimeSet ch req s
  | .timeQuery ch req => Sys2Proof.Machine.execTimeQuery ch req s
  | .calWrite ch req => Sys2Proof.Machine.execCalWrite ch req s
  | .calRead ch req => Sys2Proof.Machine.execCalRead ch req s
  | .chainConfig ch req => Sys2Proof.Machine.execChainConfig ch req s
  | .chainStart ch req => Sys2Proof.Machine.execChainStart ch req s
  | .chainStop ch req => Sys2Proof.Machine.execChainStop ch req s
  | .chainSwap ch req => Sys2Proof.Machine.execChainSwap ch req s
  | .chainQuery ch req => Sys2Proof.Machine.execChainQuery ch req s
  | .periodStart c now => Sys2Proof.Machine.execPeriodStart c now s
  | .launchDue c now => Sys2Proof.Machine.execLaunchDue c now s
  | .launchHeld target now => Sys2Proof.Machine.execLaunchHeld target now s
  | .heldLaunchAccept target => Sys2Proof.Machine.execHeldLaunchAccept target s
  | .launchComplete target now => Sys2Proof.Machine.execLaunchComplete target now s
  | .quenchForecast c entry now => Sys2Proof.Machine.execQuenchForecast c entry now s
  | .timCalCtrlCntClr => Sys2Proof.Machine.execTimCalCtrlCntClr s
  | .dramPatrolScrub d => Sys2Proof.Machine.execDramPatrolScrub d s
  | .ceRateWindow d now => Sys2Proof.Machine.execCeRateWindow d now s
  | .mirrorAckTimeout region now => Sys2Proof.Machine.execMirrorAckTimeout region now s
  | .edgeFlitReceive k dir g f => Sys2Proof.Machine.execEdgeFlitReceive k dir g f s
  | .laneFail l => Sys2Proof.Machine.execLaneFail l s
  | .groupRetrainDone k dir g => Sys2Proof.Machine.execGroupRetrainDone k dir g s
  | .edgeHoldTimeout k => Sys2Proof.Machine.execEdgeHoldTimeout k s
  | .edgeTraining k fails => Sys2Proof.Machine.execEdgeTraining k fails s
  | .trainingAttemptDone k disagree => Sys2Proof.Machine.execTrainingAttemptDone k disagree s
  | .retrainWindow k now => Sys2Proof.Machine.execRetrainWindow k now s
  | .flowSwitch flow => Sys2Proof.Machine.execFlowSwitch flow s
  | .flowDrainTimeout flow => Sys2Proof.Machine.execFlowDrainTimeout flow s
  | .qosWindow now => Sys2Proof.Machine.execQosWindow now s
  | .hubDmaLaunch b => Sys2Proof.Machine.execHubDmaLaunch b s
  | .hubDmaCtrlAbort => Sys2Proof.Machine.execHubDmaCtrlAbort s
  | .hubDmaCtrlCntClr => Sys2Proof.Machine.execHubDmaCtrlCntClr s
  | .hubDmaErrRearm => Sys2Proof.Machine.execHubDmaErrRearm s
  | .drmCtrlCntClr d => Sys2Proof.Machine.execDrmCtrlCntClr d s
  | .drmErrInfoRearm d => Sys2Proof.Machine.execDrmErrInfoRearm d s
  | .d2dEctrlCntClr node station => Sys2Proof.Machine.execD2dEctrlCntClr node station s
  | .d2dTdCtrlCntClr d => Sys2Proof.Machine.execD2dTdCtrlCntClr d s
  | .qosCtrlCntClr => Sys2Proof.Machine.execQosCtrlCntClr s
  | .d2dFiCtrlCntClr => Sys2Proof.Machine.execD2dFiCtrlCntClr s
  | .dramScrubConfig ch req => Sys2Proof.Machine.execDramScrubConfig ch req s
  | .mirrorConfig ch req => Sys2Proof.Machine.execMirrorConfig ch req s
  | .fabricRoute ch req => Sys2Proof.Machine.execFabricRoute ch req s
  | .fabricQuery ch req => Sys2Proof.Machine.execFabricQuery ch req s
  | .edgeControl ch req => Sys2Proof.Machine.execEdgeControl ch req s
  | .hubdmaConfig ch req => Sys2Proof.Machine.execHubdmaConfig ch req s
  | .qosConfig ch req => Sys2Proof.Machine.execQosConfig ch req s
  | .qosQuery ch req => Sys2Proof.Machine.execQosQuery ch req s
  | .faultInject ch req => Sys2Proof.Machine.execFaultInject ch req s
  | .faultDisarm ch req => Sys2Proof.Machine.execFaultDisarm ch req s
  | .faultQuery ch req => Sys2Proof.Machine.execFaultQuery ch req s
  | .clkMonitorWindow k khz now => Sys2Proof.Machine.execClkMonitorWindow k khz now s
  | .clkCtrlCntClr => Sys2Proof.Machine.execClkCtrlCntClr s
  | .ladleWrite q item unseen => Sys2Proof.Machine.execLadleWrite q item unseen s
  | .ladleRead q hidden => Sys2Proof.Machine.execLadleRead q hidden s
  | .ladleMark q => Sys2Proof.Machine.execLadleMark q s
  | .ladleRewind q => Sys2Proof.Machine.execLadleRewind q s
  | .ladleRelease q => Sys2Proof.Machine.execLadleRelease q s
  | .ladleDrop q => Sys2Proof.Machine.execLadleDrop q s
  | .ladlePtrMismatch q => Sys2Proof.Machine.execLadlePtrMismatch q s
  | .ldlCtrlQreset q => Sys2Proof.Machine.execLdlCtrlQreset q s
  | .ldlCtrlForceOvw q on => Sys2Proof.Machine.execLdlCtrlForceOvw q on s
  | .ldlCtrlCntClr q => Sys2Proof.Machine.execLdlCtrlCntClr q s
  | .ldlStatClear q mask => Sys2Proof.Machine.execLdlStatClear q mask s
  | .ldlThrWrite q value => Sys2Proof.Machine.execLdlThrWrite q value s
  | .pcieFlr => Sys2Proof.Machine.execPcieFlr s
  | .bar2Access write offset len data => Sys2Proof.Machine.execBar2Access write offset len data s
  | .pcieCompletion src tag outcome data => Sys2Proof.Machine.execPcieCompletion src tag outcome data s
  | .pcieCompletionTimeout src tag => Sys2Proof.Machine.execPcieCompletionTimeout src tag s
  | .pciWinBaseWrite value => Sys2Proof.Machine.execPciWinBaseWrite value s
  | .memRead ch req => Sys2Proof.Machine.execMemRead ch req s
  | .memWrite ch req => Sys2Proof.Machine.execMemWrite ch req s
  | .memFill ch req => Sys2Proof.Machine.execMemFill ch req s
  | .progDirSet ch req => Sys2Proof.Machine.execProgDirSet ch req s
  | .tileControl ch req => Sys2Proof.Machine.execTileControl ch req s
  | .tileQuery ch req => Sys2Proof.Machine.execTileQuery ch req s
  | .tileMapQuery ch req => Sys2Proof.Machine.execTileMapQuery ch req s
  | .traceConfig ch req => Sys2Proof.Machine.execTraceConfig ch req s
  | .traceQuery ch req => Sys2Proof.Machine.execTraceQuery ch req s
  | .debugAttach ch req => Sys2Proof.Machine.execDebugAttach ch req s
  | .debugDetach ch req => Sys2Proof.Machine.execDebugDetach ch req s
  | .eventRingWrite => Sys2Proof.Machine.execEventRingWrite s
  | .evtCtrlEnable value => Sys2Proof.Machine.execEvtCtrlEnable value s
  | .evtCtrlCntClr => Sys2Proof.Machine.execEvtCtrlCntClr s
  | .evtHeadWrite value => Sys2Proof.Machine.execEvtHeadWrite value s
  | .evtStatClear => Sys2Proof.Machine.execEvtStatClear s
  | .eventModeration now => Sys2Proof.Machine.execEventModeration now s
  | .hubIntStatClear mask => Sys2Proof.Machine.execHubIntStatClear mask s
  | .hubIntMaskWrite value => Sys2Proof.Machine.execHubIntMaskWrite value s
  | .hubHcbCtrlCntClr => Sys2Proof.Machine.execHubHcbCtrlCntClr s
  | .hubArbStatClear mask => Sys2Proof.Machine.execHubArbStatClear mask s
  | .csiLongPacket n pkt now => Sys2Proof.Machine.execCsiLongPacket n pkt now s
  | .csiFrameStart n vc fnum now => Sys2Proof.Machine.execCsiFrameStart n vc fnum now s
  | .csiFrameEnd n vc fnum now => Sys2Proof.Machine.execCsiFrameEnd n vc fnum now s
  | .csiLinkTimeout n => Sys2Proof.Machine.execCsiLinkTimeout n s
  | .frontEndLaunch b now => Sys2Proof.Machine.execFrontEndLaunch b now s
  | .csiTrigStart n now => Sys2Proof.Machine.execCsiTrigStart n now s
  | .csiTrigEnd n now => Sys2Proof.Machine.execCsiTrigEnd n now s
  | .captureTimeout now => Sys2Proof.Machine.execCaptureTimeout now s
  | .stripePost n => Sys2Proof.Machine.execStripePost n s
  | .frameRecordWrite n => Sys2Proof.Machine.execFrameRecordWrite n s
  | .ethRxFrame m f now => Sys2Proof.Machine.execEthRxFrame m f now s
  | .ethTxPoll m now => Sys2Proof.Machine.execEthTxPoll m now s
  | .ethTxDone m q now => Sys2Proof.Machine.execEthTxDone m q now s
  | .ethRxqHeadWrite m q value => Sys2Proof.Machine.execEthRxqHeadWrite m q value s
  | .csiCtrlCntClr => Sys2Proof.Machine.execCsiCtrlCntClr s
  | .ethCtrlCntClr => Sys2Proof.Machine.execEthCtrlCntClr s
  | .traySensorRead slot now => Sys2Proof.Machine.execTraySensorRead slot now s
  | .trayReadDone slot raw now => Sys2Proof.Machine.execTrayReadDone slot raw now s
  | .flowPulseEdge clean now => Sys2Proof.Machine.execFlowPulseEdge clean now s
  | .flowStall now => Sys2Proof.Machine.execFlowStall now s
  | .hubTrayCtrlCntClr => Sys2Proof.Machine.execHubTrayCtrlCntClr s
  | .csiPortConfig ch req => Sys2Proof.Machine.execCsiPortConfig ch req s
  | .csiPortQuery ch req => Sys2Proof.Machine.execCsiPortQuery ch req s
  | .captureProfileSet ch req => Sys2Proof.Machine.execCaptureProfileSet ch req s
  | .captureProfileQuery ch req => Sys2Proof.Machine.execCaptureProfileQuery ch req s
  | .ethConfig ch req => Sys2Proof.Machine.execEthConfig ch req s
  | .ethQueueConfig ch req => Sys2Proof.Machine.execEthQueueConfig ch req s
  | .ethQuery ch req => Sys2Proof.Machine.execEthQuery ch req s
  | .trayConfig ch req => Sys2Proof.Machine.execTrayConfig ch req s
  | .trayDemand ch req => Sys2Proof.Machine.execTrayDemand ch req s
  | .trayQuery ch req => Sys2Proof.Machine.execTrayQuery ch req s
  | .islandReset isl level => Sys2Proof.Machine.execIslandReset isl level s
  | .islandStarttestDone isl fault => Sys2Proof.Machine.execIslandStarttestDone isl fault s
  | .islandSupplyFault isl restored => Sys2Proof.Machine.execIslandSupplyFault isl restored s
  | .islandClockFault isl => Sys2Proof.Machine.execIslandClockFault isl s
  | .lockStepMismatch isl point => Sys2Proof.Machine.execLockStepMismatch isl point s
  | .watchdogExpiry isl => Sys2Proof.Machine.execWatchdogExpiry isl s
  | .islandSramUe isl => Sys2Proof.Machine.execIslandSramUe isl s
  | .safetyLinkFrame seg crcOk body it => Sys2Proof.Machine.execSafetyLinkFrame seg crcOk body it s
  | .islandDtReceive isl dt it => Sys2Proof.Machine.execIslandDtReceive isl dt it s
  | .e2eRecordWrite isl src offset data => Sys2Proof.Machine.execE2eRecordWrite isl src offset data s
  | .islandTapMessage isl m it => Sys2Proof.Machine.execIslandTapMessage isl m it s
  | .frozenGapTimeout isl port it => Sys2Proof.Machine.execFrozenGapTimeout isl port it s
  | .safetySensorFrame isl ethertype payload it => Sys2Proof.Machine.execSafetySensorFrame isl ethertype payload it s
  | .islandFrameBoundary isl dt it => Sys2Proof.Machine.execIslandFrameBoundary isl dt it s
  | .islandJudgementDone isl it => Sys2Proof.Machine.execIslandJudgementDone isl it s
  | .canClear isl ctrl f => Sys2Proof.Machine.execCanClear isl ctrl f s
  | .canSafeRequest isl ctrl f => Sys2Proof.Machine.execCanSafeRequest isl ctrl f s
  | .islandMessageTimeEnd isl it => Sys2Proof.Machine.execIslandMessageTimeEnd isl it s
  | .hubSafeRequest isl => Sys2Proof.Machine.execHubSafeRequest isl s
  | .islandModeEvent isl operational => Sys2Proof.Machine.execIslandModeEvent isl operational s
  | .outputReadback isl pin0 pin1 => Sys2Proof.Machine.execOutputReadback isl pin0 pin1 s
  | .selftestSliceOffer isl it => Sys2Proof.Machine.execSelftestSliceOffer isl it s
  | .selftestSliceDone isl fault it => Sys2Proof.Machine.execSelftestSliceDone isl fault it s
  | .latentOverdue isl it => Sys2Proof.Machine.execLatentOverdue isl it s
  | .islandStatusUpdate isl clk => Sys2Proof.Machine.execIslandStatusUpdate isl clk s
  | .anvLoad ch req => Sys2Proof.Machine.execAnvLoad ch req s
  | .anvQuery ch req => Sys2Proof.Machine.execAnvQuery ch req s
  | .anvKeyProgram ch req => Sys2Proof.Machine.execAnvKeyProgram ch req s
  | .anvKeyRevoke ch req => Sys2Proof.Machine.execAnvKeyRevoke ch req s
  | .anvSafeRequest ch req => Sys2Proof.Machine.execAnvSafeRequest ch req s
  | .dlfPortTrainDone p t => Sys2Proof.Machine.execDlfPortTrainDone p t s
  | .dlfLaneLoss p lane => Sys2Proof.Machine.execDlfLaneLoss p lane s
  | .dlfFecRateWindow p corrected uncorrectable => Sys2Proof.Machine.execDlfFecRateWindow p corrected uncorrectable s
  | .dlfFlitReceive p f => Sys2Proof.Machine.execDlfFlitReceive p f s
  | .dlfAckTimeout p => Sys2Proof.Machine.execDlfAckTimeout p s
  | .rdReq p k => Sys2Proof.Machine.execRdReq p k s
  | .rdRsp p k => Sys2Proof.Machine.execRdRsp p k s
  | .wrReq p k => Sys2Proof.Machine.execWrReq p k s
  | .wrRsp p k => Sys2Proof.Machine.execWrRsp p k s
  | .mirWr k => Sys2Proof.Machine.execMirWr k s
  | .mirAck k => Sys2Proof.Machine.execMirAck k s
  | .copy k => Sys2Proof.Machine.execCopy k s
  | .chunkCrc k => Sys2Proof.Machine.execChunkCrc k s
  | .barArrive g dev now => Sys2Proof.Machine.execBarArrive g dev now s
  | .barRelease g => Sys2Proof.Machine.execBarRelease g s
  | .suspect dev set marks => Sys2Proof.Machine.execSuspect dev set marks s
  | .partnerFailing now => Sys2Proof.Machine.execPartnerFailing now s
  | .handover now => Sys2Proof.Machine.execHandover now s
  | .stale => Sys2Proof.Machine.execStale s
  | .probe src => Sys2Proof.Machine.execProbe src s
  | .probeAnswer => Sys2Proof.Machine.execProbeAnswer s
  | .heartbeat m now => Sys2Proof.Machine.execHeartbeat m now s
  | .heartbeatSend now => Sys2Proof.Machine.execHeartbeatSend now s
  | .heartbeatTimeout now => Sys2Proof.Machine.execHeartbeatTimeout now s
  | .probeTimeout now => Sys2Proof.Machine.execProbeTimeout now s
  | .remoteTimeout tag => Sys2Proof.Machine.execRemoteTimeout tag s
  | .dlfDrainTimeout dst => Sys2Proof.Machine.execDlfDrainTimeout dst s
  | .barrierStall g now => Sys2Proof.Machine.execBarrierStall g now s
  | .dlfBarArrive value now => Sys2Proof.Machine.execDlfBarArrive value now s
  | .joinChunkCopy now => Sys2Proof.Machine.execJoinChunkCopy now s
  | .handoverReady now => Sys2Proof.Machine.execHandoverReady now s
  | .dlfCtrlCntClr => Sys2Proof.Machine.execDlfCtrlCntClr s
  | .dlfTopology ch req => Sys2Proof.Machine.execDlfTopology ch req s
  | .dlfPortControl ch req => Sys2Proof.Machine.execDlfPortControl ch req s
  | .dlfRoute ch req => Sys2Proof.Machine.execDlfRoute ch req s
  | .dlfQuery ch req => Sys2Proof.Machine.execDlfQuery ch req s
  | .accumConfig ch req => Sys2Proof.Machine.execAccumConfig ch req s
  | .barrierConfig ch req => Sys2Proof.Machine.execBarrierConfig ch req s
  | .barrierQuery ch req => Sys2Proof.Machine.execBarrierQuery ch req s
  | .suspectClear ch req => Sys2Proof.Machine.execSuspectClear ch req s
  | .pairConfig ch req => Sys2Proof.Machine.execPairConfig ch req s
  | .pairJoin ch req => Sys2Proof.Machine.execPairJoin ch req s
  | .pairSwitchover ch req => Sys2Proof.Machine.execPairSwitchover ch req s
  | .pairQuery ch req => Sys2Proof.Machine.execPairQuery ch req s
  | .quenchSample r now => Sys2Proof.Machine.execQuenchSample r now s
  | .powerStateEntry now => Sys2Proof.Machine.execPowerStateEntry now s
  | .entryWindowEnd now => Sys2Proof.Machine.execEntryWindowEnd now s
  | .powerReturnStage now => Sys2Proof.Machine.execPowerReturnStage now s
  | .dvfsVoltageReached p => Sys2Proof.Machine.execDvfsVoltageReached p s
  | .dvfsClockChanged p => Sys2Proof.Machine.execDvfsClockChanged p s
  | .coolantStopDrain now => Sys2Proof.Machine.execCoolantStopDrain now s
  | .coolantRestored now => Sys2Proof.Machine.execCoolantRestored now s
  | .thermalTrip spot => Sys2Proof.Machine.execThermalTrip spot s
  | .pwrCtrlCntClr => Sys2Proof.Machine.execPwrCtrlCntClr s
  | .pwrStateSet ch req => Sys2Proof.Machine.execPwrStateSet ch req s
  | .dvfsSet ch req => Sys2Proof.Machine.execDvfsSet ch req s
  | .powerLimit ch req => Sys2Proof.Machine.execPowerLimit ch req s
  | .thermalConfig ch req => Sys2Proof.Machine.execThermalConfig ch req s
  | .thermalQuery ch req => Sys2Proof.Machine.execThermalQuery ch req s
  | .porNAssert => Sys2Proof.Machine.execPorNAssert s
  | .ethLink m up => Sys2Proof.Machine.execEthLink m up s
  | .pcieLinkChange rate width flit up => Sys2Proof.Machine.execPcieLinkChange rate width flit up s
  | .pcieDStateChange d3hot => Sys2Proof.Machine.execPcieDStateChange d3hot s
  | .debugTransaction session op => Sys2Proof.Machine.execDebugTransaction session op s
  | .delufTimeMessage now => Sys2Proof.Machine.execDelufTimeMessage now s

end Sys2Proof.Machine
end

