-- ==== Sys2Proof/Machine/Step.lean ====
section
/-! DEFINITION. One step of the block: the command at the front of the queue is run on the state with the queue's rest. -/

namespace Sys2Proof.Machine

/-- A step (log entry 8): the front command's effect; on an empty queue one tick of the time base, device time advanced by the
time-base clock's 1 ns increment (R208, R211). -/
def step (s : State) : Host.Outcome State Fault Refusal :=
  match s.pending with
  | [] => .next (timeTick s)
  | c :: r => exec c { s with pending := r }

/-- The state with a command put at the front of its queue. -/
def State.withCommand (s : State) (c : Instr) : State := { s with pending := c :: s.pending }

/-- The state with the command that a word spells in front of its queue; unchanged where it spells none, as here every word does
(log entry 9). -/
def State.withFetchWord (s : State) (nbits w : Nat) : State :=
  match decodeTableWord nbits w with
  | some c => s.withCommand c
  | none => s

end Sys2Proof.Machine
end

