-- ==== Sys2Proof/Safety.lean ====
section
/-! DEFINITION. What counts as a safe run, and the words in which claims about commands are said. -/

namespace Sys2Proof.Machine

/-- A command completes: it answers a next state, of which `P` holds. -/
def Completes (c : Instr) (s : State) (P : State → Prop) : Prop := ∃ t, exec c s = .next t ∧ P t

/-- A run stops: a fault or a refusal. -/
def Stops (o : Out) : Prop := ∀ t, o ≠ .next t

/-- Both memories are in the canonical form. -/
def MemoryOk (s : State) : Prop := s.host.mem.wf = true ∧ s.fab.mem.wf = true

/-- The internal event buffer holds at most 256 events (R310). -/
def EventsOk (s : State) : Prop := s.host.evt.buf.length ≤ 256

/-! ### Cerfosil commands -/

/-- The management firmware runs with start-up done, and the request is inline and needs no clamp in its header (R288, R292, R428). -/
def Plain (s : State) (r : Request) : Prop := s.bu.service = 2 ∧ s.bu.phase = 2 ∧ r.flags = 0 ∧ r.length.toNat ≤ 240

/-- The inline payload of a plain request. -/
def payBytes (r : Request) : List Byte := slice r.payload 0 r.length.toNat

/-- The command that a plain request decodes to. -/
def plainCmd (ch op : Nat) (r : Request) : Cmd :=
  { ch := ch, op := op, seq := r.seq, inPtr := false, outPtr := false, inLen := r.length.toNat, outAddr := 0, outLen := 0,
    pay := payBytes r, clamps := 0 }

/-- The address lies in the message that interrupt vector `v` writes (R280, R313). -/
def InMessage (s : State) (v a : Nat) : Prop := (s.host.ints.msix.get v).addr ≤ a ∧ a < (s.host.ints.msix.get v).addr + 4

/-- Host memory is unchanged but for the messages of the vectors `vs`. -/
def HostMemKept (s t : State) (vs : List Nat) : Prop :=
  ∀ a, (∀ v ∈ vs, ¬ InMessage s v a) → t.host.mem.read a = s.host.mem.read a

/-- Channel `ch` has answered (R289, R291): the response, done and not busy, the counts, and its interrupt bit. -/
def Answered (s t : State) (ch op : Nat) (r : Request) (st : Half) (clamps : Nat) (data : List Byte) : Prop :=
  let m := s.host.mbx.get ch
  t.host.mbx.get ch = { m with rsp := responseBytes op r.seq st clamps data, seq := r.seq, done := true, busy := false,
                               cmdCnt := (m.cmdCnt + 1) % 4294967296, clampCnt := cnt m.clampCnt clamps } ∧
  bit t.host.ints.stat.toNat ch = true

/-- What an answer leaves of the host side: the other channels, interrupt bits, mask and table, and all else but the message of the vector. -/
def HostKept (s t : State) (ch : Nat) : Prop :=
  t.host = { s.host with mbx := t.host.mbx, ints := t.host.ints, mem := t.host.mem, poison := t.host.poison } ∧
  (∀ n, n ≠ ch → t.host.mbx.get n = s.host.mbx.get n) ∧
  (∀ i, i ≠ ch → bit t.host.ints.stat.toNat i = bit s.host.ints.stat.toNat i) ∧
  t.host.ints.mask = s.host.ints.mask ∧ t.host.ints.msix = s.host.ints.msix ∧ HostMemKept s t [ch]

/-- A command is answered at once and nothing but the host side changes. -/
def AnswersOnly (c : Instr) (s : State) (ch op : Nat) (r : Request) (st : Half) (clamps : Nat) (data : List Byte) : Prop :=
  Completes c s (fun t => t = { s with host := t.host } ∧ Answered s t ch op r st clamps data ∧ HostKept s t ch)

/-! ### Requests on the network -/

/-- A request that no network refuses and that nothing keeps waiting at its target (R37, R40, R246, R251, R255, R402). -/
def Served (s : State) (r : NetReq) : Prop :=
  r.wf = true ∧ targetStopped s (reqTarget s r) = false ∧ blockBusy s r = false ∧ netBlocked s r = false ∧ qosEligible s r = true ∧
  pathUsable s r.src.toNat (nodeOf (reqTarget s r)) = true

/-- The address at which a request's target is reached (R31). -/
def reqAddr (s : State) (r : NetReq) : Nat := localAddr s r.addr.toNat

/-- DRAM beats that hold neither poison nor symbol errors nor undefined contents (R236, R389). -/
def CleanDram (s : State) (addr n : Nat) : Prop :=
  (∀ b ∈ beatsOf addr n, s.fab.poison.hit (b * 32) 32 = false ∧ s.fab.symErr.get b = 0) ∧
  ∀ x ∈ s.fab.lost, ¬ (x.1 < addr + n ∧ addr < x.2.1)

/-- SRAM words of a tile that hold neither poison nor errors (R49). -/
def CleanSram (s : State) (p off n : Nat) : Prop :=
  s.fab.poison.hit (tileWindow p + off) n = false ∧ ∀ w ∈ wordsOf off n, (s.tiles.get p).symErr.get w = 0

/-- A range of device memory holds given bytes afterwards and every other byte is as before. -/
def StoresAt (s t : State) (addr : Nat) (bs : List Byte) : Prop :=
  t.fab.mem.readN addr bs.length = bs ∧ ∀ a, (a < addr ∨ addr + bs.length ≤ a) → t.fab.mem.read a = s.fab.mem.read a

/-- A range of host memory holds given bytes afterwards and every other byte is as before. -/
def HostStoresAt (s t : State) (addr : Nat) (bs : List Byte) : Prop :=
  t.host.mem.readN addr bs.length = bs ∧ ∀ a, (a < addr ∨ addr + bs.length ≤ a) → t.host.mem.read a = s.host.mem.read a

/-- The response of a request joins those sent (R37, R42). -/
def Responds (s t : State) (r : NetReq) (st : Half) (data : List Byte) (poison : Bool) : Prop :=
  t.fab.net.rsps = s.fab.net.rsps ++
    [{ src := r.src, tag := r.tag, op := r.op, addr := r.addr, len := r.len, status := st, data := data, poison := poison }]

/-! ### Cerfosil commands with an effect -/

/-- A command completes with status OK on its channel; the host side changes by the answer only. -/
def Accepts (c : Instr) (s : State) (ch op : Nat) (r : Request) (clamps : Nat) (data : List Byte) (P : State → Prop) : Prop :=
  Completes c s (fun t => Answered s t ch op r stOk clamps data ∧ HostKept s t ch ∧ P t)

/-- What an answer leaves of the host side where the command may also raise events: as `HostKept`, but for the event ring's state and
the interrupt that reports a lost event. -/
def HostKeptEv (s t : State) (ch : Nat) : Prop :=
  t.host = { s.host with mbx := t.host.mbx, evt := t.host.evt, ints := t.host.ints, mem := t.host.mem, poison := t.host.poison } ∧
  (∀ n, n ≠ ch → t.host.mbx.get n = s.host.mbx.get n) ∧
  (∀ i, i ≠ ch → i ≠ 8 → bit t.host.ints.stat.toNat i = bit s.host.ints.stat.toNat i) ∧
  t.host.ints.mask = s.host.ints.mask ∧ t.host.ints.msix = s.host.ints.msix ∧ HostMemKept s t [ch, 8]

/-- A command completes with status OK and may raise events. -/
def AcceptsEv (c : Instr) (s : State) (ch op : Nat) (r : Request) (clamps : Nat) (data : List Byte) (P : State → Prop) : Prop :=
  Completes c s (fun t => Answered s t ch op r stOk clamps data ∧ HostKeptEv s t ch ∧ P t)

/-- What raising events may change: the event ring's state, the interrupt that reports a lost event, and its message. -/
def EventsOnly (s t : State) : Prop :=
  t.host = { s.host with evt := t.host.evt, ints := t.host.ints, mem := t.host.mem, poison := t.host.poison } ∧
  (∀ i, i ≠ 8 → bit t.host.ints.stat.toNat i = bit s.host.ints.stat.toNat i) ∧
  t.host.ints.mask = s.host.ints.mask ∧ t.host.ints.msix = s.host.ints.msix ∧ HostMemKept s t [8]

/-- One event has been raised (R310, R311): it has the next sequence number, and is in the buffer if there was room. -/
def Raised (s t : State) (code aux : Nat) (pay : List Nat) : Prop :=
  t.host.evt.eseq = s.host.evt.eseq + 1 ∧
  (s.host.evt.buf.length < 256 → t.host.evt.buf = s.host.evt.buf ++
    [{ code := BitVec.ofNat 16 code, aux := BitVec.ofNat 8 aux, pay := pay.map (BitVec.ofNat 64), dt := s.dt, eseq := s.host.evt.eseq }])

/-- A field of a plain request's payload. -/
def payField (r : Request) (off n : Nat) : Nat := fld (payBytes r) off n

/-! ### Tiles -/

/-- Only tile `p` changes. -/
def TileOnly (s t : State) (p : Nat) : Prop := t = { s with tiles := t.tiles } ∧ ∀ q, q ≠ p → t.tiles.get q = s.tiles.get q
/-- The record of stream `st` of a tile's running launch. -/
def streamOf (t : Tile) (st : Nat) : StreamSt := match t.run with
  | some r => r.streams.get st
  | none => idleStream

/-- Descriptor `d` is not traced (R306). -/
def Untraced (s : State) (d : Desc) : Prop := s.host.trc.enable = false ∨ bit (d.w 0) 50 = false

/-- The head of stream `st` of tile `p` is `d` and may issue (R47, R54, R55, R58): its opcode and stream agree, nothing holds it, its wait slots
are met, its header is in order. -/
def IssuesNow (s : State) (p st : Nat) (d : Desc) : Prop :=
  headOf (s.tiles.get p) st = some d ∧ tileClocked s p = true ∧ opError st d = none ∧ mayIssue (s.tiles.get p) st d = true ∧
  gated (s.tiles.get p) d = false ∧ headerBad st d = false ∧ Untraced s d

/-- What a semaphore holds once the wait slots of `d` have taken from it (R56). -/
def semTaken (t : Tile) (d : Desc) (i : Nat) : Nat := t.sem.get i - d.waits.count i

/-- What it holds once the signal slots of `d` have added to it too (R56). -/
def semSignalled (t : Tile) (d : Desc) (i : Nat) : Nat := semTaken t d i + d.sigs.count i

/-- `d` issues, follows no descriptor that has not completed, and its signals pass no semaphore's 255: it completes with its issue. -/
def CompletesNow (s : State) (p st : Nat) (d : Desc) : Prop :=
  IssuesNow s p st d ∧ ordered (s.tiles.get p) st d = false ∧ ∀ i, semSignalled (s.tiles.get p) d i ≤ 255

/-- Of the tile `T0` has become `T` but for semaphores and the streams of its launch: the semaphores are `sem`, stream `st` is `x`, and the
other streams and the rest of the launch's record are as before. -/
def TileStep (T0 T T' : Tile) (st : Nat) (sem : Nat → Nat) (x : StreamSt) : Prop :=
  T' = { T with sem := T'.sem, run := T'.run } ∧ (∀ i, T'.sem.get i = sem i) ∧
  ∃ r r', T0.run = some r ∧ T'.run = some r' ∧ r' = { r with streams := r'.streams } ∧ r'.streams.get st = x ∧
    ∀ m, m ≠ st → r'.streams.get m = r.streams.get m

/-- Only tile `p` changes, and by a step of stream `st` (see `TileStep`). -/
def StreamStep (s t : State) (p st : Nat) (T : Tile) (sem : Nat → Nat) (x : StreamSt) : Prop :=
  TileOnly s t p ∧ TileStep (s.tiles.get p) T (t.tiles.get p) st sem x

/-- A tile records an error (R57, R65): its status bit, its count, and the capture if none is held. -/
def Recorded (T T' : Tile) (code stream tag daddr : Nat) : Prop :=
  T'.errStat = T.errStat ||| BitVec.ofNat 32 (2 ^ code) ∧ T'.errCnt = cnt T.errCnt 1 ∧
  T'.errFirst = (if bit T.errFirst.toNat 31 then T.errFirst else BitVec.ofNat 32 (errFirst code stream tag)) ∧
  T'.errDaddr = (if bit T.errFirst.toNat 31 then T.errDaddr else daddr)

/-- The launch of tile `p` has ended with a status (R53): the tile runs none and the calendar is told; only that tile, the calendar's list and what
events change may differ. -/
def LaunchEnded (s t : State) (p : Nat) (st : Half) : Prop :=
  t = { s with host := t.host, cal := { s.cal with done := t.cal.done }, tiles := t.tiles } ∧ EventsOnly s t ∧
  (∀ q, q ≠ p → t.tiles.get q = s.tiles.get q) ∧ (t.tiles.get p).run = none ∧
  (∃ r, (s.tiles.get p).run = some r ∧ t.cal.done.get p = s.cal.done.get p ++ [(r.launch, st)]) ∧
  ∀ q, q ≠ p → t.cal.done.get q = s.cal.done.get q

/-- No descriptor of the tile is under way and no walk runs. -/
def TileQuiet (t : Tile) : Prop := t.issued = [] ∧ t.walk = none

/-- A read of `n` bytes that a fetch unit of source `src` makes within one 256-byte block of DRAM, tile SRAM or hub SRAM: nothing refuses it and
it meets no poison and no error (R51, R57). -/
def FetchClean (s : State) (src a n : Nat) : Prop :=
  0 < n ∧ a % 256 + n ≤ 256 ∧ fetchable a = true ∧ fetchable (a + n - 1) = true ∧ pathUsable s src (nodeOf (target a)) = true ∧
  refusal s false a n = none ∧
  match target a with
  | .dram _ _ => CleanDram s a n
  | .tileSram p off => CleanSram s p off n
  | _ => s.fab.poison.hit (a / 32 * 32) ((a + n + 31) / 32 * 32 - a / 32 * 32) = false

/-- Little-endian word `i` of 8 bytes at an address. -/
def wordAt (s : State) (a i : Nat) : Nat := fld (s.fab.mem.readN a 32) (8 * i) 8

/-! ### The tile DMA and the hub DMA engine -/

/-- A read request of `n` bytes. -/
def readReq (src : Nat) (label : BitVec 4) (tag addr n : Nat) : NetReq :=
  { src := BitVec.ofNat 8 src, label := label, tag := BitVec.ofNat 9 tag, op := 0, addr := BitVec.ofNat 48 addr, len := n, data := [], poison := false }

/-- A write request of `n` bytes. -/
def writeReq (src : Nat) (label : BitVec 4) (tag addr n : Nat) (data : List Byte) (poison : Bool) : NetReq :=
  { src := BitVec.ofNat 8 src, label := label, tag := BitVec.ofNat 9 tag, op := 1, addr := BitVec.ofNat 48 addr, len := n, data := data, poison := poison }

/-- The oldest descriptor of DMA channel `chan` has made every request it can and waits for responses (R55, R123). -/
def ChannelWaits (t : Tile) (chan : Nat) : Prop :=
  ∃ i x w, oldestIssued t 2 chan = some i ∧ t.issued[i]? = some x ∧ x.work = some w ∧ w.todo = [] ∧ w.out ≠ []

/-- A DMA descriptor as it is under way with work `w`. -/
def underWay (d : Desc) (w : DmaWork) : Issued := { desc := d, stream := 2, err := none, work := some w, acc := 0, signals := true }

/-- DMA descriptor `d` leaves the head of its stream and joins those under way with work `w` and `cycles` counted; nothing else changes but
`k` free values taken. -/
def JoinsChannel (s t : State) (p : Nat) (d : Desc) (w : DmaWork) (cycles k : Nat) : Prop :=
  let t0 := s.tiles.get p
  t = { s with tiles := t.tiles, free := s.free + k } ∧ (∀ q, q ≠ p → t.tiles.get q = s.tiles.get q) ∧
  TileStep t0 { t0 with issued := t0.issued ++ [underWay d w], busyDma := (t0.busyDma + cycles) % 2 ^ 64 } (t.tiles.get p) 2 (semTaken t0 d)
    { streamOf t0 2 with pre := (streamOf t0 2).pre.drop 1 }

/-- No export entry of the tile is armed. -/
def NoExports (t : Tile) : Prop := ∀ e, e < 4 → (t.exports.get e).armed = false

/-- An own-SRAM tensor address (R50) and its offset, with `n` bytes from it within one 256-byte block. -/
def OwnBlock (a off n : Nat) : Prop := a = 2 ^ 62 + off ∧ 0 < n ∧ off % 256 + n ≤ 256 ∧ off + n ≤ 2 ^ 24

/-- DMA descriptor `d` leaves its stream, stores `bs` at offset `off` of its own SRAM and waits to complete, nothing of it left to do. -/
def StoresOwn (s t : State) (p : Nat) (d : Desc) (off : Nat) (bs : List Byte) : Prop :=
  let t0 := s.tiles.get p
  t = { s with fab := { s.fab with mem := t.fab.mem, poison := t.fab.poison }, tiles := t.tiles, free := t.free } ∧
  StoresAt s t (tileWindow p + off) bs ∧ (∀ q, q ≠ p → t.tiles.get q = s.tiles.get q) ∧
  (∃ w, (t.tiles.get p).issued = t0.issued ++ [underWay d w] ∧ w.finished = true ∧ w.late = none) ∧
  TileStep t0 { t0 with issued := (t.tiles.get p).issued, busyDma := (t.tiles.get p).busyDma, lbs := (t.tiles.get p).lbs, symErr := (t.tiles.get p).symErr }
    (t.tiles.get p) 2 (semTaken t0 d) { streamOf t0 2 with pre := (streamOf t0 2).pre.drop 1 }

/-- The head of the hub DMA engine's list is `d` and may issue: its opcode and stream are allowed, its header is in order, its channel free. -/
def HubIssuesNow (s : State) (d : Desc) : Prop :=
  hubHead s = some d ∧ hubDmaOpError d = none ∧ hubDmaHeaderBad d = false ∧ hubDmaFree s d = true

/-- The running launch of the hub DMA engine has ended with a status (R53, R257). -/
def HubLaunchEnded (s t : State) (st : Half) (err : Word) : Prop :=
  ∃ l, s.fab.hdma.run = some l ∧ t = { s with
    fab.hdma := { s.fab.hdma with busy := false, err := err, run := none, ptr := none, head := none, work := [], ended := none }
    cal := { s.cal with done := s.cal.done.modify 37 (· ++ [(l, st)]) } }

/-! ### Arithmetic descriptors -/

/-- Offset `off` of own SRAM, as a tensor address (R50). -/
def own (off : Nat) : Nat := 2 ^ 62 + off

/-- An arithmetic descriptor of stream `st` that has done its work and waits to complete; `acc`: the accumulator buffers it targets. -/
def workDone (d : Desc) (st acc : Nat) : Issued := { desc := d, stream := st, err := none, work := none, acc := acc, signals := true }

/-- The signed byte at offset `off` of tile `p`'s SRAM. -/
def byteAt (s : State) (p off : Nat) : Int := (s.fab.mem.read (tileWindow p + off)).toInt

/-- The 32-bit word at offset `off` of tile `p`'s SRAM. -/
def wordIn (s : State) (p off : Nat) : Nat := leNat (s.fab.mem.readN (tileWindow p + off) 4)

/-- The FP32 value at offset `off` of tile `p`'s SRAM. -/
def fpAt (s : State) (p off : Nat) : Val := ofFp32 (wordIn s p off)

/-- FP32 values as the bytes of a row. -/
def fpBytes (vs : List Val) : List Byte := (vs.map (fun v => leBytes 4 (toFp32 v))).flatten

/-- A matrix descriptor has done its work (R104–R108): only accumulator buffer `b` and `cycles` of the matrix unit change, the descriptor
waits to complete, memory and the other buffer are as before. -/
def MatrixDone (s t : State) (p : Nat) (d : Desc) (b cycles : Nat) : Prop :=
  let t0 := s.tiles.get p
  TileOnly s t p ∧ (∀ k, k ≠ b → (t.tiles.get p).acc.get k = t0.acc.get k) ∧
  TileStep t0 { t0 with issued := t0.issued ++ [workDone d 0 (2 ^ b)], busyMat := (t0.busyMat + cycles) % 2 ^ 64, acc := (t.tiles.get p).acc }
    (t.tiles.get p) 0 (semTaken t0 d) { streamOf t0 0 with pre := (streamOf t0 0).pre.drop 1 }

/-- A vector descriptor has done its work (R109, R110): it stored `bs` at offset `off` of own SRAM and nothing else, `cycles` of the vector
unit and `sfu` of the SFU were used, and it waits to complete. -/
def VectorDone (s t : State) (p : Nat) (d : Desc) (off : Nat) (bs : List Byte) (cycles sfu : Nat) : Prop :=
  let t0 := s.tiles.get p
  t = { s with fab := { s.fab with mem := t.fab.mem, poison := t.fab.poison }, tiles := t.tiles } ∧
  StoresAt s t (tileWindow p + off) bs ∧ (∀ q, q ≠ p → t.tiles.get q = s.tiles.get q) ∧
  TileStep t0 { t0 with issued := t0.issued ++ [workDone d 1 0], busyVec := (t0.busyVec + cycles) % 2 ^ 64, busySfu := (t0.busySfu + sfu) % 2 ^ 64,
                        lbs := (t.tiles.get p).lbs, symErr := (t.tiles.get p).symErr }
    (t.tiles.get p) 1 (semTaken t0 d) { streamOf t0 1 with pre := (streamOf t0 1).pre.drop 1 }

/-- What a matrix descriptor of any form may change: its tile, free values taken, and through an error that it records events and the end
of the launch. Memory is as before. -/
def MatrixFrame (s t : State) (p : Nat) : Prop :=
  t = { s with host := t.host, cal := { s.cal with done := t.cal.done }, tiles := t.tiles, free := t.free } ∧ EventsOnly s t ∧
  (∀ q, q ≠ p → t.tiles.get q = s.tiles.get q ∧ t.cal.done.get q = s.cal.done.get q) ∧
  t.tiles.get p = { s.tiles.get p with
    errStat := (t.tiles.get p).errStat, errFirst := (t.tiles.get p).errFirst, errDaddr := (t.tiles.get p).errDaddr, errCnt := (t.tiles.get p).errCnt,
    ceCnt := (t.tiles.get p).ceCnt, ueCnt := (t.tiles.get p).ueCnt, ueTimes := (t.tiles.get p).ueTimes, sem := (t.tiles.get p).sem,
    busyMat := (t.tiles.get p).busyMat, run := (t.tiles.get p).run, issued := (t.tiles.get p).issued, acc := (t.tiles.get p).acc }

/-! ### The planner -/

/-- A range of hub SRAM whose beats hold no poison (R27, R465). -/
def CleanHub (s : State) (a n : Nat) : Prop :=
  hubBase ≤ a ∧ a + n ≤ hubBase + 0x4000000 ∧ s.fab.poison.hit (a / 32 * 32) ((a + n + 31) / 32 * 32 - a / 32 * 32) = false

/-- Cycle `c` has released record `rec_` (R201, R203): to the request's address in hub SRAM, to both islands as the planner's next E2E record,
with its event; the launch is reported, the pins are given back (`k` of each buffer), the registers and counters follow. -/
def PlanReleased (s t : State) (now : Nat) (c : Cycle) (rec_ : List Byte) (status rank flags : Nat) (k : Nat → Nat) : Prop :=
  let s' := s.advance now; let q := s.pln; let req := c.launch.strobe.prog.toNat; let seq := (q.seq + 1) % 2 ^ 32
  let e := e2eBytes 0x31 Config.planStream.toNat q.e2eSeq s'.dt rec_
  let b := fun i => b2n (bit flags i)
  t = { s' with
    host := t.host, fab := { s.fab with mem := t.fab.mem, poison := t.fab.poison }, free := s.free + 4
    cal := { s.cal with done := s.cal.done.modify 36 (· ++ [(c.launch, stOk)]) }, sie := { s.sie with pins := t.sie.pins }
    toIslands := s.toIslands ++ [(0, .record 0x31 0xC400 (slice e 0 256)), (0, .record 0x31 0xC500 (slice e 256 88)),
                                 (1, .record 0x31 0xC400 (slice e 0 256)), (1, .record 0x31 0xC500 (slice e 256 88))]
    pln := { q with
      cycle := none, seq := seq, lastDt := s'.dt, lastReq := req, lastStat := status, prev := some rec_, e2eSeq := (q.e2eSeq + 1) % 2 ^ 32
      cycCnt := cnt q.cycCnt 1, budCnt := cnt q.budCnt (b 0), rechkCnt := cnt q.rechkCnt (b 1), keptCnt := cnt q.keptCnt (b2n (status = 1))
      stopCnt := cnt q.stopCnt (b2n (status = 2)), nspCnt := cnt q.nspCnt (b2n (status = 3)), lateCnt := cnt q.lateCnt (b 3)
      outErr := cnt q.outErr 0, waiting := none } } ∧
  StoresAt s t (rqOut c.req) rec_ ∧ EventsOnly s t ∧
  Raised s' t (if status = 3 then 0x0501 else 0x0500) req [seq + status * 2 ^ 32 + rank * 2 ^ 40 + flags * 2 ^ 48, rqOut c.req] ∧
  ∀ n, t.sie.pins.get n = s.sie.pins.get n - k n

/-! ### Fabric -/

/-- Bellows has recomputed (R256): each point's committed load and breach bit are those of the table; effective minimums, the breach count and
events follow; nothing else changes. -/
def Bellows (s t : State) : Prop :=
  EventsOnly s t ∧
  t = { s with host := t.host, fab.qos := { s.fab.qos with breach := t.fab.qos.breach, breachCnt := t.fab.qos.breachCnt,
                                                            committed := t.fab.qos.committed, eff := t.fab.qos.eff } } ∧
  ∀ p, p < 23 → let l := pointLoads s.fab.routes.rt s.fab.qos.classes s.fab.qos.entries p
    t.fab.qos.committed.get p = l.1 + l.2 ∧ bit t.fab.qos.breach p = decide (qosCapacity s p < l.1 + l.2)

/-- Only the groups and the edges of the fabric change. -/
def EdgesOnly (s t : State) : Prop := t = { s with fab := { s.fab with groups := t.fab.groups, edges := t.fab.edges } }

/-- No injector is armed (R258). -/
def NoInjector (s : State) : Prop := ∀ i, i < 8 → (s.fab.inj.get i).armed = false

/-- Of the fabric, only Ladle `q` changes, and becomes `l`. -/
def LadleIs (s t : State) (q : LadleId) (l : Ladle) : Prop :=
  t = { s with fab := { s.fab with ldl := t.fab.ldl } } ∧ t.fab.ldl.get (ladleKey q) = l ∧
  ∀ k, k ≠ ladleKey q → t.fab.ldl.get k = s.fab.ldl.get k

/-! ### Sensors and coolant -/

/-- A range of hub SRAM that a write of another master may change: clean of poison, and in no buffer that the Sieve holds (R189). -/
def HubFree (s : State) (a n : Nat) : Prop := CleanHub s a n ∧ sieveLocked s a n = false

/-- Only the cameras' and the front end's state changes, and what events change. -/
def CsiOnly (s t : State) : Prop :=
  t = { s with host := t.host, sen := { s.sen with csi := t.sen.csi, capture := t.sen.capture } } ∧ EventsOnly s t

/-- Of the ports only `n` changes, and becomes `p`. -/
def PortIs (s t : State) (n : Nat) (p : CsiPort) : Prop := t.sen.csi.get n = p ∧ ∀ m, m ≠ n → t.sen.csi.get m = s.sen.csi.get m

/-- Of the MACs only `m` changes, and becomes `e`. -/
def MacIs (s t : State) (m : Nat) (e : EthMac) : Prop := t.sen.eth.get m = e ∧ ∀ k, k ≠ m → t.sen.eth.get k = s.sen.eth.get k

/-- Quench has taken the coolant readings as they stand (R413, R414): fallback, flow with its source, state, budget and demand. -/
def CoolantTaken (s t : State) : Prop :=
  EventsOnly s t ∧
  t = { s with
    host := t.host, pwr.budget := budgetOf t
    qch := { s.qch with fallback := slotBad s (slotOfRole s 1) || slotBad s (slotOfRole s 2), flow := t.qch.flow, flowValid := t.qch.flowValid,
                        source := t.qch.source, coolant := t.qch.coolant, demand := quenchDemand t, okSince := t.qch.okSince } } ∧
  (s.qch.conf = 0 → t.qch.flow = s.sen.tray.flow ∧ t.qch.flowValid = !s.sen.tray.stalled ∧ t.qch.source = 0) ∧
  t.qch.coolant = if s.qch.coolant = 3 then 3 else if t.qch.flowValid = true then coolantState s.qch.coolant t.qch.flow else s.qch.coolant

/-- The coolant-stop response has begun (R416, steps 1 to 3): state and count, COOLANT_STOP, every tile's arithmetic gated and its ceiling at
the lowest point, full demand, the safe-state requests. -/
def CoolantStopped (s t : State) (cause : Nat) : Prop :=
  EventsOnly s t ∧ Raised s t 0x0912 cause [s.pwr.avg1 / 16] ∧
  t = { s with
    host := t.host, tiles := t.tiles, fab.clk := t.fab.clk, pwr := { s.pwr with tiles := t.pwr.tiles, budget := budgetOf t }
    qch := { s.qch with coolant := 3, gateAll := true, stopCnt := cnt s.qch.stopCnt 1, stopDt := s.time.dt, drained := false, okSince := none, demand := 1024 }
    toIslands := s.toIslands ++ [(0, .safeRequest), (1, .safeRequest)] } ∧
  ∀ p, (36 ≤ p → t.tiles.get p = s.tiles.get p ∧ t.pwr.tiles.get p = s.pwr.tiles.get p ∧ t.fab.clk.get p = s.fab.clk.get p) ∧
    (p < 36 → t.tiles.get p = { s.tiles.get p with arithGate := true } ∧
      t.pwr.tiles.get p = { s.pwr.tiles.get p with
        ceil := 0, cool := 0, goal := if (s.pwr.tiles.get p).trans = true then (s.pwr.tiles.get p).goal else 0 })

/-! ### Safety islands -/

/-- Of the islands only `i` changes, and nothing else does; what it becomes meets `P`. -/
def IsleBecomes (c : Instr) (s u : State) (i : Nat) (P : Island → Prop) : Prop :=
  Completes c s (fun t => t = u.modIsl i (fun _ => t.isle i) ∧ P (t.isle i))

/-- The island drives its outputs high: it runs and is not degraded (R335). -/
def Releasing (a : Island) : Prop := a.state = .run ∧ a.degraded = false

/-- The pins of `b`, that follow those of `a` when it stops releasing its outputs: low, and reported if both were high (R335, R371). -/
def PinsFall (up : Bool) (a b : Island) : Prop :=
  (Releasing a → b.pin0 = false ∧ b.pin1 = false ∧
    b.notes = a.notes ++ if up = true ∧ a.pin0 = true ∧ a.pin1 = true then [(0x0B05, 1, 0)] else []) ∧
  (¬ Releasing a → b.pin0 = a.pin0 ∧ b.pin1 = a.pin1 ∧ b.notes = a.notes)

/-- `a` has latched cause bits and become `b` (R362): nothing outside CONFIG and RUN; the bits alone while DEGRADED is latched; else the latch, its
count, a new nonce from the generator, and the outputs low. -/
def Latched (up : Bool) (bits : Nat) (a b : Island) : Prop :=
  (a.state ≠ .run → a.state ≠ .config → b = a) ∧
  (a.state = .run ∨ a.state = .config →
    (a.degraded = true → b = { a with cause := a.cause ||| bits }) ∧
    (a.degraded = false → PinsFall up a b ∧ b = { a with
      cause := a.cause ||| bits, degraded := true, latchCnt := cnt a.latchCnt 1, rng := xorshift a.rng, nonce := xorshift a.rng
      pin0 := b.pin0, pin1 := b.pin1, notes := b.notes }))

/-- `a` has failed with a code and become `b` (R337, R341): nothing in RESET and FAULT; else FAULT, with the outputs low and no task left. -/
def Faulted (up : Bool) (code : Nat) (a b : Island) : Prop :=
  (a.state = .reset ∨ a.state = .fault → b = a) ∧
  (a.state ≠ .reset → a.state ≠ .fault → PinsFall up a b ∧ b = { a with
    state := .fault, fault := code, judge := none, slice := none, offer := none, deferred := false, pin0 := b.pin0, pin1 := b.pin1, notes := b.notes })

/-- A safe-state request has reached `a`, which is now `b` (R362, R365): HUB_REQ latched, and remembered for the message time. -/
def Requested (up : Bool) (a b : Island) : Prop :=
  (a.state ≠ .run → a.state ≠ .config → b = a) ∧
  (a.state = .run ∨ a.state = .config → ∃ c, Latched up 1024 a c ∧ b = { c with reqs := true })

/-- A clear has been decided at `a`, which is now `b` (R363): accepted, DEGRADED and its causes are cleared, the window, the run and the
sequence checks restart, a new nonce is drawn and the outputs rise; else it is counted. -/
def Decided (up : Bool) (f : CanFrame) (a b : Island) : Prop :=
  let ok := a.state = .run ∧ fld f.data 4 4 = a.nonce.toNat ∧ fld f.data 8 4 = a.latchCnt ∧ causeActive a = false
  (¬ ok → b = { a with clrRej := cnt a.clrRej 1, notes := a.notes ++ if up = true then [(0x0B04, 0, a.latchCnt)] else [] }) ∧
  (ok → b = { a with
      degraded := false, cause := 0, fails := [], doubtRun := 0, cams := a.cams.map (fun x => { x with frozen := false, cause := 0 })
      streams := a.streams.map (fun (x : E2eStream) => { x with seq := none }), rng := xorshift a.rng, nonce := xorshift a.rng
      pin0 := a.degraded || a.pin0, pin1 := a.degraded || a.pin1, notes := b.notes } ∧
    b.notes = a.notes ++ (if up = true ∧ a.degraded = true ∧ ¬ (a.pin0 = true ∧ a.pin1 = true) then [(0x0B05, 0, 0)] else []) ++
      if up = true then [(0x0B04, 1, a.latchCnt)] else [])

/-- A record of `src` and stream `st` has been discarded by `a`, which is now `b` (R354, R371): counted, reported with its kind, and its entry in
the stream table, if one is marked, has its error. -/
def Discarded (up : Bool) (src st kind : Nat) (mark : Option Nat) (a b : Island) : Prop :=
  b = { a with
    e2eErr := cnt a.e2eErr 1, notes := a.notes ++ if up = true then [(0x0B02, src + st * 256 + kind * 65536, 0)] else []
    streams := match mark with
      | some n => a.streams.set n { a.streams.getD n streamFresh with err := true }
      | none => a.streams }

/-- What ANV_LOAD of object `o` of a kind does to island `i`, which becomes `b`: the status and the check code it reports (R341–R345, R359,
R365, R372). -/
def Loaded (s : State) (i kind : Nat) (o : List Byte) (st : Half) (code : Nat) (b : Island) : Prop :=
  let a := s.isle i
  let busy := (kind = 0 ∧ a.state ≠ .boot) ∨ (kind = 1 ∧ (a.state ≠ .boot ∨ a.fwOk = false)) ∨ (kind = 2 ∧ a.state ≠ .config ∧ a.state ≠ .run)
  let denied := kind = 2 ∧ a.state = .run ∧ s.host.opMode = true
  let own := { a with gen := a.gen + 1, accIt := a.it, streams := a.streams.map (fun (x : E2eStream) => { x with seq := none }) }
  (busy → st = stBusy ∧ code = 0 ∧ b = a) ∧ (denied → st = stDeniedMode ∧ code = 0 ∧ b = a) ∧
  (¬ busy → ¬ denied →
    (kind = 0 → st = firmwareStatus o ∧ (st = stOk → code = 0 ∧ b = { a with fwver := fld o 4 4, fwOk := true }) ∧ (st ≠ stOk → code < 256 ∧ b = a)) ∧
    (kind = 1 → st = configStatus a i o ∧ (st = stOk → code = 0 ∧ b = { a with cfg := some (o.take 64), state := .config }) ∧
      (st ≠ stOk → code < 256 ∧ b = a)) ∧
    (kind = 2 → code = tableCheck a i o ∧ st = checkStatus code ∧ (code ≠ 0 → b = a) ∧
      (code = 0 → a.state = .run → Latched (hubLinkUp s) 128 { own with nextTable := some (sigBody o) } b) ∧
      (code = 0 → a.state = .config → ∃ c, Latched (hubLinkUp s) 1 c b ∧ c = { own with
        state := .run, table := some (sigBody o), nextTable := none, lanes := Tab.const laneEmpty, rotFrom := a.it
        pos := if isSplit a = true then 12 else 0, offer := some (a.it + 100000000), streams := c.streams, cams := c.cams, nextK := c.nextK } ∧
        c.streams.length = tblNs (sigBody o) ∧ (∀ x ∈ c.streams, x.seq = none) ∧ (a.anchor = none → c.nextK = a.nextK))))

/-! ### Deluf -/

/-- Of the ports only `p` changes, and becomes `q`. -/
def LinkIs (s t : State) (p : Nat) (q : DlfPort) : Prop := t.so.ports.get p = q ∧ ∀ k, k ≠ p → t.so.ports.get k = s.so.ports.get k

/-- Packet `k` has been handed to port `p` and nothing else has happened (R376–R378): it is among those sent, and its flit in the retry buffer. -/
def Sent (u t : State) (p : Nat) (k : DlfPacket) : Prop :=
  let q := u.so.ports.get p
  t = { u with so := { u.so with ports := t.so.ports, dlf := { u.so.dlf with sent := u.so.dlf.sent ++ [(p, k)] } } } ∧
  LinkIs u t p { q with txFlits := q.txFlits + 1, nextSeq := q.nextSeq + 1, retry := q.retry ++ [(q.nextSeq, dlfVc u p k, k)] }

/-- The packets of a list have been handed to their ports in order and nothing else has happened. -/
def SentAll (u t : State) (l : List (Nat × DlfPacket)) : Prop :=
  t = { u with so := { u.so with ports := t.so.ports, dlf := { u.so.dlf with sent := u.so.dlf.sent ++ l } } } ∧
  ∀ p, let q := u.so.ports.get p; let n := (l.filter (fun x => x.1 == p)).length
    t.so.ports.get p = { q with txFlits := q.txFlits + n, nextSeq := q.nextSeq + BitVec.ofNat 12 n, retry := (t.so.ports.get p).retry } ∧
    (t.so.ports.get p).retry.map (fun x => x.2.2) = q.retry.map (fun x => x.2.2) ++ (l.filter (fun x => x.1 == p)).map (fun x => x.2)

/-- The firmware has recomputed the route table (R381, R382): each destination without outstanding remote requests has the computed port,
the others keep theirs, and beside the routes only what the end of a reroute changes may change. -/
def Rerouted (u t : State) : Prop :=
  t = reroute u ∧ EventsOnly u t ∧
  t = { u with
    host := t.host, fab := { u.fab with qos := t.fab.qos }, free := t.free
    so := { u.so with dlf := { u.so.dlf with rt := t.so.dlf.rt, newRt := t.so.dlf.newRt, draining := t.so.dlf.draining, rrCnt := t.so.dlf.rrCnt,
                                             reach := t.so.dlf.reach } } } ∧
  ∀ d, (d < 48 → hasRemote u d = false → t.so.dlf.rt.get d = (computeTable u).2.getD d 0xF) ∧
    ((48 ≤ d ∨ hasRemote u d = true) → t.so.dlf.rt.get d = u.so.dlf.rt.get d)

/-- Port `p`, whose record was `q`, has gone DOWN with a cause (R375, R377, R396), and the routes have been recomputed. -/
def PortFell (s t : State) (p : Nat) (q : DlfPort) (cause : Nat) : Prop :=
  ∃ v, v = { s with host := v.host, so := { s.so with ports := v.so.ports } } ∧ EventsOnly s v ∧ Raised s v 0x0701 p [cause] ∧
    LinkIs s v p { q with state := 0, width := 0, downCnt := cnt q.downCnt 1, retry := [], replays := 0, nak := none } ∧ Rerouted v t

/-- Port `p`, whose record was `q`, has replayed (R377): counted, and the sixteenth in a row takes it DOWN. -/
def Replayed (s t : State) (p : Nat) (q : DlfPort) : Prop :=
  let q' := { q with rtyCnt := cnt q.rtyCnt 1, replays := q.replays + 1 }
  (q.replays + 1 < 16 → t = { s with so := { s.so with ports := t.so.ports } } ∧ LinkIs s t p q') ∧ (16 ≤ q.replays + 1 → PortFell s t p q' 0)

/-- TIL_EVT_ADD with inc 1 at counter `ctr` of each logical tile of a mask (R384); nothing else of the tiles changes. -/
def TilesPosted (s t : State) (mask ctr : Nat) : Prop :=
  ∀ p, t.tiles.get p = { s.tiles.get p with ev := (t.tiles.get p).ev } ∧
    ∀ c, (t.tiles.get p).ev.get c % 65536 =
      ((s.tiles.get p).ev.get c + if c = ctr % 16 then ((bitsOf mask 32).filter (fun l => physOf s l == some p)).length else 0) % 65536

/-- Every logical tile of a mask that has a physical tile can be posted to from the management firmware. -/
def PostsLand (s : State) (mask : Nat) : Prop :=
  ∀ l, l < 32 → bit mask l = true → ∀ p, physOf s l = some p →
    tileAbsorbed s p = false ∧ s.fab.transitDown.get (dieOf p) = false ∧ pathUsable s 0x30 (dieOf p) = true

/-- A packet of the barrier and pair firmware to device `d`. -/
def firmwarePacket (s : State) (d kind : Nat) (data : List Byte) : DlfPacket :=
  { kind := BitVec.ofNat 8 kind, src := BitVec.ofNat 8 s.so.dlf.devnum, dst := BitVec.ofNat 8 d, label := 0, hops := 0, tag := 0, status := 0, addr := 0,
    len := data.length, master := 0x30, data := data }

/-- Such a packet to each device of a list that is another one and has a route, with its port. -/
def firmwarePackets (s : State) (ds : List Nat) (kind : Nat) (data : List Byte) : List (Nat × DlfPacket) :=
  (ds.filter (fun d => d != s.so.dlf.devnum && s.so.dlf.rt.get d != 0xF)).map (fun d => (s.so.dlf.rt.get d, firmwarePacket s d kind data))

/-- A barrier at its root has completed without a change of SUSPECT (R384, R385): each member's history has its mark, BAR_RELEASE has gone to each
other member, the epoch and, of a member, the local count have advanced and its tiles are posted. -/
def BarrierCompleted (s t : State) (g : Nat) (last : Option Nat) : Prop :=
  let b := s.so.bars.get g
  let mem := fun (d : Nat) => d < 48 ∧ bit b.members d = true
  let h := fun (d : Nat) => (s.so.late.get d).history <<< 1 ||| if last = some d then (1 : Half) else 0
  let me := s.so.dlf.devnum
  (∀ d, mem d → t.so.late.get d = { history := h d, marks := popcount16 (h d) }) ∧ (∀ d, ¬ mem d → t.so.late.get d = s.so.late.get d) ∧
  (∃ u v, SentAll u v (firmwarePackets s ((List.range 48).filter (fun d => bit b.members d)) 9 [BitVec.ofNat 8 g]) ∧
    u = { s with so := { s.so with bars := u.so.bars, late := u.so.late } } ∧
    t = { v with tiles := t.tiles, so := { v.so with bars := t.so.bars } }) ∧
  (∀ k, k ≠ g → t.so.bars.get k = s.so.bars.get k) ∧
  (mem me → TilesPosted s t b.tmask b.ctr ∧
    t.so.bars.get g = { b with root := [], stalled := false, epoch := (b.epoch + 1) % 2 ^ 32, arrived := b.arrived - b.local_ }) ∧
  (¬ mem me → t.tiles = s.tiles ∧ t.so.bars.get g = { b with root := [], stalled := false, epoch := (b.epoch + 1) % 2 ^ 32 })

/-- No mark of the next completion of group `g`, with `last` the late device, changes who is SUSPECT (R385). -/
def NoSuspectChange (s : State) (g : Nat) (last : Option Nat) : Prop :=
  ∀ d, d < 48 → bit (s.so.bars.get g).members d = true →
    let n := popcount16 ((s.so.late.get d).history <<< 1 ||| if last = some d then (1 : Half) else 0)
    (6 ≤ n → bit s.so.dlf.suspect.toNat d = true) ∧ (n ≤ 2 → bit s.so.dlf.suspect.toNat d = false)

/-- After a completion of group `b` at the root, `s`, a root that is a member and has local arrivals of a whole further epoch arrives again (R384). -/
def Rearrives (s t : State) (b : BarGroup) (g now : Nat) : Prop :=
  let again := bit b.members s.so.dlf.devnum = true ∧ b.local_ ≤ b.arrived - b.local_
  (¬ again → t = s) ∧ (again → ∀ (g' : Fin 16) (d : Fin 48), g'.val = g → d.val = s.so.dlf.devnum → exec (.barArrive g' d now) s = .next t)

/-- A STANDBY has taken over (R389): TARGET regions are SOURCE with mirroring OFF, the role is PRIMARY, the DT and the count are kept, the event raised. -/
def TakenOver (s t : State) (handover : Bool) : Prop :=
  let p := s.so.pair
  EventsOnly s t ∧ Raised s t 0x0720 p.role [if handover = true then 1 else 0, s.time.dt] ∧
  t = { s with
    host := t.host, fab := { s.fab with mir := { s.fab.mir with regions := t.fab.mir.regions } }
    so := { s.so with pair := { p with role := 1, switchDt := s.time.dt, switches := min (p.switches + 1) 255, probe := none } } } ∧
  ∀ i, t.fab.mir.regions.get i = if i < 8 ∧ (s.fab.mir.regions.get i).type = 2 then { s.fab.mir.regions.get i with type := 1, on := false }
    else s.fab.mir.regions.get i

/-- A JOINING or STALE device has lost its primary (R389): PAIR_LOST, its TARGET regions INVALID and their contents undefined, the role NONE. -/
def PairLost (s t : State) : Prop :=
  let p := s.so.pair
  EventsOnly s t ∧ Raised s t 0x0723 s.so.dlf.partner [p.role, p.joinPos] ∧
  t = { s with
    host := t.host, fab := { s.fab with lost := t.fab.lost }, free := t.free
    so := { s.so with pair := { p with role := 0, join := false, verify := false, verified := 0, probe := none, invalid := t.so.pair.invalid } } } ∧
  (∀ i, bit t.so.pair.invalid i = (bit p.invalid i || decide (i < 8 ∧ (s.fab.mir.regions.get i).type = 2))) ∧
  ∀ i, i < 8 → (s.fab.mir.regions.get i).type = 2 → ∀ a, (s.fab.mir.regions.get i).base ≤ a →
    a < (s.fab.mir.regions.get i).base + (s.fab.mir.regions.get i).size * 2 ^ 26 → ∃ x ∈ t.fab.lost, x.1 ≤ a ∧ a < x.2.1

end Sys2Proof.Machine
end

