-- ==== Sys2Proof/Certificates/Slice0/Obligations.lean ====
section
/-! DEFINITION. The statements about the block: each says what rules of the manual give one family of commands. -/

open Sys2Proof Sys2Proof.Machine

/-- For every command c, queue rest r and state s whose queue is c followed by r: step of s is exec of c on s with the queue r. The queue is the model's (log entry 8), not the manual's. -/
def Obligations.StepRunsFrontCommand : Prop :=
  ∀ (c : Instr) (r : List Instr) (s : State), s.pending = c :: r → step s = exec c { s with pending := r }

/-- On an empty queue a step answers a next state. While the time base counts, device time with its 48 fractional bits advances by 1 ns plus the servo's rate correction and nothing else changes; while it is stopped nothing changes. That the tick is what an empty queue does is the model's choice (log entry 8). -/
def Obligations.EmptyQueueTicksTimeBase : Prop :=
  ∀ s : State, s.pending = [] →
    (s.time.counting = false → step s = .next s) ∧
    (s.time.counting = true → ∃ t, step s = .next t ∧
      t = { s with time := { s.time with dt := t.time.dt, frac := t.time.frac } } ∧ t.time.frac < 2 ^ 48 ∧
      t.time.dt * 2 ^ 48 + t.time.frac =
        (((s.time.dt * 2 ^ 48 + s.time.frac : Nat) : Int) + 2 ^ 48 + s.time.rate * 2 ^ 16).toNat % 2 ^ 112)

/-- For every command and state, exec answers a next state, or the command is a NETWORK_REQUEST or IQ_REQUEST whose request is not well formed (its length outside 1 to 256, across a 256-byte boundary, or a write without its bytes) and exec answers the fault malformed. No command is refused. -/
def Obligations.OnlyMalformedRequestsStop : Prop :=
  ∀ (c : Instr) (s : State),
    (∃ t, exec c s = .next t) ∨
    (∃ (r : NetReq) (what : String), (c = .networkRequest r ∨ ∃ p, c = .iqRequest p r) ∧ r.wf = false ∧ exec c s = .fault (.malformed what))

/-- For every state whose device memory and host memory are in the canonical form (addresses strictly rising, no byte listed that reads as an unlisted one), a step that answers a next state leaves both in that form: no command stores a byte but through the memory's own operations. -/
def Obligations.EveryStepKeepsMemoryCanonical : Prop :=
  ∀ s t : State, MemoryOk s → step s = .next t → MemoryOk t

/-- For every state whose internal event buffer holds at most 256 events, a step that answers a next state leaves at most 256 there, whatever command it ran: an event that finds the buffer full is lost and counted (R310). -/
def Obligations.EveryStepKeepsEventBufferBounded : Prop :=
  ∀ s t : State, EventsOk s → step s = .next t → EventsOk t

/-- State.reset has both memories canonical (nothing listed), an empty event buffer and an empty queue. -/
def Obligations.ResetMeetsInvariants : Prop :=
  MemoryOk State.reset ∧ EventsOk State.reset ∧ State.reset.pending = []

/-- NETWORK_REQUEST, for a request that is served at once, whose path is usable and whose DRAM target does not refuse it. A read of clean beats answers OK with the bytes at the address and changes only the network, the charge of Bellows and the held requests. A write outside the mirrored regions over beats without symbol errors stores its bytes at the address and nowhere else, answers OK, and changes beside these only poison, symbol errors and undefined ranges of the fabric. -/
def Obligations.NetworkRequestsReadAndWriteDram : Prop :=
  ∀ (r : NetReq) (s : State) (d off : Nat), Served s r → reqTarget s r = .dram d off →
    (r.op = 0 → refusal s false (reqAddr s r) r.len = none → CleanDram s (reqAddr s r) r.len →
      Completes (.networkRequest r) s (fun t =>
        t = { s with fab := { s.fab with net := t.fab.net, qos := t.fab.qos, routes := t.fab.routes } } ∧
        Responds s t r stOk (s.fab.mem.readN (reqAddr s r) r.len) false)) ∧
    (r.op = 1 → refusal s true (reqAddr s r) r.len = none → mirrorOf s 1 (reqAddr s r) r.len = none →
      (∀ b ∈ beatsOf (reqAddr s r) r.len, s.fab.symErr.get b = 0) →
      Completes (.networkRequest r) s (fun t =>
        t = { s with fab := { s.fab with net := t.fab.net, qos := t.fab.qos, routes := t.fab.routes, mem := t.fab.mem, poison := t.fab.poison,
                                         symErr := t.fab.symErr, lost := t.fab.lost } } ∧
        StoresAt s t (reqAddr s r) r.data ∧ Responds s t r stOk [] false))

/-- IQ_REQUEST at tile p, for a request that is served at once, addresses the SRAM window of p at an offset and is not refused. A read of words without poison or errors answers OK with the bytes and changes only the network, the charge of Bellows and the held requests. A write stores its bytes at the window's base plus the offset and nowhere else and answers OK; beside the network and poison only that tile's line-buffer counts and word errors may change. -/
def Obligations.TileRequestsReadAndWriteSram : Prop :=
  ∀ (p : Fin 36) (r : NetReq) (s : State) (off : Nat), Served s r → reqTarget s r = .tileSram p off →
    (r.op = 0 → refusal s false (reqAddr s r) r.len = none → CleanSram s p off r.len →
      Completes (.iqRequest p r) s (fun t =>
        t = { s with fab := { s.fab with net := t.fab.net, qos := t.fab.qos, routes := t.fab.routes } } ∧
        Responds s t r stOk (s.fab.mem.readN (tileWindow p + off) r.len) false)) ∧
    (r.op = 1 → refusal s true (reqAddr s r) r.len = none →
      Completes (.iqRequest p r) s (fun t =>
        t = { s with fab := { s.fab with net := t.fab.net, qos := t.fab.qos, routes := t.fab.routes, mem := t.fab.mem, poison := t.fab.poison },
                     tiles := t.tiles } ∧
        StoresAt s t (tileWindow p + off) r.data ∧ Responds s t r stOk [] false ∧
        (∀ q, q ≠ p.val → t.tiles.get q = s.tiles.get q) ∧
        t.tiles.get p = { s.tiles.get p with lbs := (t.tiles.get p).lbs, symErr := (t.tiles.get p).symErr }))

/-- PARTITION_DRAIN_TIMEOUT of a partition in reset with one request under way, a read at that partition that does not come from BAR2: it answers TARGET_RESET with poisoned zeros and leaves the network (R34). BAR2_ACCESS in Run with the link up, outside D3hot and within one 256-byte block, to an address outside the host and reserved ranges: one request of source 0x33 and label 0 at PCI_WIN_BASE plus the offset joins those under way and nothing else changes; in D3hot nothing changes. -/
def Obligations.DrainTimeoutAndBar2EnterNetwork : Prop :=
  (∀ (d : Fin 4) (p : Option (Fin 9)) (r : NetReq) (s : State), partitionDown s d (p.map (fun x => 9 * d.val + x.val)) = true →
    s.fab.net.inflight = [r] → atPartition s d (p.map (fun x => 9 * d.val + x.val)) r = true → r.op = 0 → r.src ≠ 0x33 →
    Completes (.partitionDrainTimeout d p) s (fun t =>
      t = { s with fab := { s.fab with net := t.fab.net, routes := t.fab.routes } } ∧ t.fab.net.inflight = [] ∧
      Responds s t r stTargetReset (List.replicate r.len 0) true)) ∧
  (∀ (write : Bool) (off len : Nat) (data : List Byte) (s : State), s.host.pci.d3hot = false → s.host.pci.up = true → 0 < len →
    off + len ≤ 2 ^ 28 → s.pwr.state = .run → s.pwr.entering = none → (s.host.pci.winBase + off) % 256 + len ≤ 256 →
    s.host.pci.winBase + off + len ≤ 2 ^ 48 → bar2Illegal (s.host.pci.winBase + off) = false →
    exec (.bar2Access write off len data) s = .next { s with fab.net.inflight := s.fab.net.inflight ++
      [{ src := 0x33, label := 0, tag := 0, op := if write then 1 else 0, addr := BitVec.ofNat 48 (s.host.pci.winBase + off), len := len,
         data := if write then slice data 0 len else [], poison := false }] }) ∧
  (∀ (write : Bool) (off len : Nat) (data : List Byte) (s : State), s.host.pci.d3hot = true →
    exec (.bar2Access write off len data) s = .next s)

/-- REGISTER_WRITE with a write of KVT_TSEL from one port takes effect alone: the register holds the value's low 12 bits and nothing else changes. With a second write from a higher port the lower port's value is kept, and the higher port's is lost: its lost_arb bit is set, HUB_ARB_CNT increments, HUB_ARB_ADDR captures the address if it held none, and HUB_INT_STAT bit 6 is set; of the rest only what the interrupt's message changes may change. -/
def Obligations.LowerPortWinsRegisterWrite : Prop :=
  ∀ (a b : Fin 4) (v w : Word) (x y : BitVec 8) (s : State),
    exec (.registerWrite [{ port := a, bar0 := false, addr := regAddr 0 0x30 0x18, size := 4, value := v.setWidth 64, src := x }]) s =
      .next { s with kvt.tsel := v.toNat % 4096 } ∧
    (a < b → Completes (.registerWrite
        [{ port := a, bar0 := false, addr := regAddr 0 0x30 0x18, size := 4, value := v.setWidth 64, src := x },
         { port := b, bar0 := false, addr := regAddr 0 0x30 0x18, size := 4, value := w.setWidth 64, src := y }]) s (fun t =>
      t = { s with host := { s.host with arb := t.host.arb, ints := t.host.ints, mem := t.host.mem, poison := t.host.poison },
                   kvt.tsel := v.toNat % 4096 } ∧
      t.host.arb = { s.host.arb with lost := s.host.arb.lost ||| BitVec.ofNat 4 (2 ^ b.val), cnt := cnt s.host.arb.cnt 1, valid := true,
                                     addr := if s.host.arb.valid then s.host.arb.addr else regAddr 0 0x30 0x18 } ∧
      bit t.host.ints.stat.toNat 6 = true ∧ HostMemKept s t [6]))

/-- EVT_CTRL_CNT_CLR zeroes EVT_DROP_CNT and EVT_STAT_CLEAR the bad-head flag, and nothing else. EVT_HEAD_WRITE of a value within the words the host owns sets EVT_HEAD, any other value sets the bad-head flag. EVT_CTRL_ENABLE writes enable; a 0 to 1 change starts tail and head at 0 with phase 1, the ring size is taken only while disabled, cnt_clr zeroes EVT_DROP_CNT, and nothing outside these changes. EVENT_MODERATION due with EVT_TAIL advanced sets HUB_INT_STAT bit 4. EVENT_RING_WRITE with an enabled ring, room for the oldest event and 4 more words, and no loss to report takes the event from the buffer, advances EVT_TAIL past it modulo the ring size and stores its words at EVT_TAIL, the header with the present phase; outside the ring's words and the interrupt's message host memory is unchanged. HUB_INT_STAT_CLEAR clears the bits written 1, HUB_ARB_STAT_CLEAR the lost_arb bits and valid written 1, and nothing else. HUB_INT_MASK_WRITE sets the 9 mask bits and leaves HUB_INT_STAT; where it unmasks no set bit nothing else changes, and for each set bit that it unmasks, with the vector unmasked and host memory reachable, one more message of that vector is sent. HUB_HCB_CTRL_CNT_CLR zeroes every channel's clamp and send-lost counts and the arbitration and order counts, and nothing else. -/
def Obligations.EventRingInterruptAndArbitrationRegisters : Prop :=
  ((
    (∀ s : State, exec .evtCtrlCntClr s = .next { s with host.evt.dropCnt := 0 }) ∧
    (∀ s : State, exec .evtStatClear s = .next { s with host.evt.badHead := false }) ∧
    (∀ (v : Word) (s : State), let e := s.host.evt; let n := 2 ^ e.log2
      let owned := v.toNat < n ∧ (v.toNat + n - e.head) % n ≤ (e.tail + n - e.head) % n
      (owned → exec (.evtHeadWrite v) s = .next { s with host.evt.head := v.toNat }) ∧
      (¬ owned → exec (.evtHeadWrite v) s = .next { s with host.evt.badHead := true })) ∧
    (∀ (v : Word) (s : State), let e := s.host.evt; let on := bit v.toNat 0
      exec (.evtCtrlEnable v) s = .next { s with host.evt := { e with
        enable := on, log2 := if e.enable then e.log2 else clampN 6 20 (field v.toNat 7 3), dropCnt := if bit v.toNat 2 then 0 else e.dropCnt,
        tail := if on && !e.enable then 0 else e.tail, head := if on && !e.enable then 0 else e.head, phase := (on && !e.enable) || e.phase } }) ∧
    (∀ (now : Nat) (s : State), s.host.evt.moved = true →
      (∀ t, s.host.evt.lastSet = some t → t + s.host.evt.mod * 1000 ≤ (s.advance now).dt) →
      Completes (.eventModeration now) s (fun t =>
        t = { s.advance now with host := t.host } ∧ bit t.host.ints.stat.toNat 4 = true ∧
        t.host = { s.host with ints := t.host.ints, mem := t.host.mem, poison := t.host.poison,
                               evt := { s.host.evt with moved := false, lastSet := some (s.advance now).dt } } ∧ HostMemKept s t [4])) ∧
    (∀ (x : Event) (rest : List Event) (s : State), let e := s.host.evt; let n := 2 ^ e.log2; let ws := eventWords e.phase x
      e.buf = x :: rest → e.enable = true → e.lost = 0 → (e.tail + n - e.head) % n + ws.length + 4 ≤ n →
      s.host.pci.up = true → e.base + 8 * n ≤ 0xF00000000000 →
      Completes .eventRingWrite s (fun t =>
        t = { s with host := { s.host with evt := t.host.evt, ints := t.host.ints, mem := t.host.mem, poison := t.host.poison } } ∧
        t.host.evt = { e with buf := rest, tail := (e.tail + ws.length) % n, phase := (e.phase != decide (n ≤ e.tail + ws.length)),
                              moved := t.host.evt.moved, lastSet := t.host.evt.lastSet } ∧
        (∀ i k, i < ws.length → k < 8 → ¬ InMessage s 4 (e.base + 8 * ((e.tail + i) % n) + k) →
          t.host.mem.read (e.base + 8 * ((e.tail + i) % n) + k) = (leBytes 8 (ws.getD i 0)).getD k 0) ∧
        (∀ a, (a < e.base ∨ e.base + 8 * n ≤ a) → ¬ InMessage s 4 a → t.host.mem.read a = s.host.mem.read a)))) ∧ (
    (∀ (m : Word) (s : State), exec (.hubIntStatClear m) s = .next { s with host.ints.stat := s.host.ints.stat &&& ~~~m }) ∧
    (∀ (m : Word) (s : State), exec (.hubArbStatClear m) s = .next { s with host.arb := { s.host.arb with
      lost := s.host.arb.lost &&& ~~~(m.setWidth 4), valid := s.host.arb.valid && !bit m.toNat 31 } }) ∧
    (∀ (m : Word) (s : State),
      let fresh := fun (i : Nat) => bit s.host.ints.mask.toNat i && !bit m.toNat i && bit s.host.ints.stat.toNat i
      ((∀ i, i < 9 → fresh i = false) → exec (.hubIntMaskWrite m) s = .next { s with host.ints.mask := m &&& 0x1FF }) ∧
      Completes (.hubIntMaskWrite m) s (fun t =>
        t = { s with host := { s.host with ints := t.host.ints, mem := t.host.mem, poison := t.host.poison } } ∧
        t.host.ints.mask = m &&& 0x1FF ∧ t.host.ints.stat = s.host.ints.stat ∧ t.host.ints.msix = s.host.ints.msix ∧
        HostMemKept s t [0, 1, 2, 3, 4, 5, 6, 7, 8] ∧
        ∀ i, i < 9 → fresh i = true → (s.host.ints.msix.get i).masked = false → hostReach s (s.host.ints.msix.get i).addr 4 = true →
          t.host.ints.sent.get i = s.host.ints.sent.get i + 1)) ∧
    (∀ s : State, Completes .hubHcbCtrlCntClr s (fun t =>
      t = { s with host := { s.host with mbx := t.host.mbx, arb := { s.host.arb with cnt := 0, ordOvr := 0 } } } ∧
      ∀ n, t.host.mbx.get n = { s.host.mbx.get n with clampCnt := 0, sendLost := 0 }))))

/-- PCIE_COMPLETION of an outstanding host read of a master other than the host: a success answers OK with the bytes; unsupported request and completer abort answer DECODE_ERROR and poison answers UNCORRECTABLE, each poisoned and with its AER bit recorded. PCIE_COMPLETION_TIMEOUT answers NO_ROUTE poisoned with the completion-time-out bit. In each the read is no longer outstanding and nothing else changes; with no such read nothing changes. PCI_WIN_BASE_WRITE keeps bits 47 to 28 of the value, PCIE_D_STATE_CHANGE sets the D-state, and nothing else. PCIE_LINK_CHANGE to up records rate, width and flit mode and changes beside them only Bellows and what its breach events change of the host side. -/
def Obligations.PcieCompletionsLinkAndWindow : Prop :=
  (∀ (r : NetReq) (rest : List NetReq) (o : PcieOutcome) (data : List Byte) (s : State), s.host.reads = r :: rest → r.src ≠ 0x33 →
    Completes (.pcieCompletion r.src r.tag o data) s (fun t =>
      t = { s with host := { s.host with reads := rest, pci := t.host.pci }, fab := { s.fab with net := { s.fab.net with rsps := t.fab.net.rsps } } } ∧
      (match o with
       | .success => t.host.pci = s.host.pci ∧ Responds s t r stOk (slice data 0 r.len) false
       | .unsupported => t.host.pci = { s.host.pci with aer := s.host.pci.aer ||| 2 } ∧ Responds s t r stDecodeError (List.replicate r.len 0) true
       | .completerAbort => t.host.pci = { s.host.pci with aer := s.host.pci.aer ||| 4 } ∧ Responds s t r stDecodeError (List.replicate r.len 0) true
       | .poisoned => t.host.pci = { s.host.pci with aer := s.host.pci.aer ||| 8 } ∧ Responds s t r stUncorrectable (slice data 0 r.len) true))) ∧
  (∀ (r : NetReq) (rest : List NetReq) (s : State), s.host.reads = r :: rest → r.src ≠ 0x33 →
    Completes (.pcieCompletionTimeout r.src r.tag) s (fun t =>
      t = { s with host := { s.host with reads := rest, pci := { s.host.pci with aer := s.host.pci.aer ||| 1 } },
                   fab := { s.fab with net := { s.fab.net with rsps := t.fab.net.rsps } } } ∧
      Responds s t r stNoRoute (List.replicate r.len 0) true)) ∧
  (∀ (src : BitVec 8) (tag : BitVec 9) (o : PcieOutcome) (data : List Byte) (s : State), (∀ r ∈ s.host.reads, r.src ≠ src ∨ r.tag ≠ tag) →
    exec (.pcieCompletion src tag o data) s = .next s ∧ exec (.pcieCompletionTimeout src tag) s = .next s) ∧
  (∀ (v : Quad) (s : State), exec (.pciWinBaseWrite v) s = .next { s with host.pci.winBase := v.toNat % 2 ^ 48 / 2 ^ 28 * 2 ^ 28 }) ∧
  (∀ (d : Bool) (s : State), exec (.pcieDStateChange d) s = .next { s with host.pci.d3hot := d }) ∧
  (∀ (rate width : BitVec 4) (flit : Bool) (s : State), Completes (.pcieLinkChange rate width flit true) s (fun t =>
    t = { s with host := { s.host with pci := { s.host.pci with rate := rate, width := width, flit := flit, up := true }, evt := t.host.evt,
                                       ints := t.host.ints, mem := t.host.mem, poison := t.host.poison },
                 fab := { s.fab with qos := t.fab.qos } } ∧
    t.fab.qos = { s.fab.qos with eff := t.fab.qos.eff, committed := t.fab.qos.committed, breach := t.fab.qos.breach,
                                 breachCnt := t.fab.qos.breachCnt } ∧ HostMemKept s t [8]))

/-- A write of 1 to MBX_n_SEND.go of a device that is not in D3hot, with the channel not busy, copies MBX_n_REQ into the channel's request buffer and sets busy and clears done; what the host has written to its memory before is there. With the channel busy it is ignored, MBX_n_SEND_LOST counts it, and nothing else of the channel changes. A later write to MBX_n_REQ changes that register only, not the request that was sent. The other channels stay as they were; in Run nothing outside the host side changes. -/
def Obligations.MailboxSendTakesTheRequest : Prop :=
  (∀ (ch : Fin 4) (writes : List (Nat × List Byte)) (ok : Bool) (s : State), s.host.pci.d3hot = false →
    let m := s.host.mbx.get ch
    Completes (.mbxSend ch writes ok) s (fun t =>
      (m.busy = false → t.host.mbx.get ch = { m with inBuf := m.req, busy := true, done := false, sent := true, bufOk := ok }) ∧
      (m.busy = true → t.host.mbx.get ch = { m with sendLost := cnt m.sendLost 1 }) ∧
      (∀ n, n ≠ ch.val → t.host.mbx.get n = s.host.mbx.get n) ∧
      (s.pwr.state = .run → s.pwr.entering = none →
        t = { s with host := { s.host with mbx := t.host.mbx, mem := t.host.mem, poison := t.host.poison } } ∧
        (∀ a, (∀ w ∈ writes, a < w.1 ∨ w.1 + w.2.length ≤ a) → t.host.mem.read a = s.host.mem.read a) ∧
        ∀ a bs, writes = [(a, bs)] → t.host.mem.readN a bs.length = bs))) ∧
  ∀ (n off v : Nat) (s : State), off < 0x100 → off % 4 = 0 →
    mbxPut s n off v = s.modMbx n (fun m => { m with req := putBytes m.req off (leBytes 4 v) })

/-- For a plain request whose range of 1 to 224 bytes lies in hub SRAM within one 256-byte block, that nothing holds back: MEM_READ of beats without poison answers OK with fail_off all ones, 12 zero bytes and the range's bytes, and changes only the host side and the charge of Bellows; MEM_WRITE and MEM_FILL, where the Sieve does not lock the range, store the payload's bytes or the repeated pattern there and nowhere else, and answer OK with the count of bytes. For a plain request whose fields need no clamp. PROG_DIR_SET, with no masked tile running or with a launch queued, sets the directory base and count of every reachable tile of the mask. TILE_CONTROL action 1 sets launch_en of every reachable tile of the mask. Each answers OK with the mask of the tiles reached and leaves every other tile and everything but the host side as it was. TILE_QUERY of a mapped logical tile answers with its eight registers, and TILE_MAP_QUERY with the map, the spares and the defective slots; neither changes anything but the host side. -/
def Obligations.MemoryAndProgramCommands : Prop :=
  ((
    ∀ (ch : Fin 4) (r : Request) (s : State), Plain s r →
      let a := payField r 0 8
      let n := payField r 8 4
      let q : NetReq := { src := 0x30, label := 0, tag := 0, op := 0, addr := BitVec.ofNat 48 a, len := n, data := [], poison := false }
      hubBase ≤ a → a + n ≤ hubBase + 0x4000000 → 1 ≤ n → n ≤ 224 → a % 256 + n ≤ 256 →
      ((hubRead s a n).2 = false → netBlocked s q = false →
        Accepts (.memRead ch r) s ch 0x0100 r 0 (leBytes 4 0xFFFFFFFF ++ List.replicate 12 0 ++ s.fab.mem.readN a n) (fun t =>
          t = { s with host := t.host, fab := { s.fab with qos := t.fab.qos } })) ∧
      (sieveLocked s a n = false → netBlocked s { q with op := 1, data := slice (payBytes r) 16 n } = false →
        Accepts (.memWrite ch r) s ch 0x0101 r 0 (leBytes 4 n) (fun t =>
          t = { s with host := t.host, fab := { s.fab with qos := t.fab.qos, mem := t.fab.mem, poison := t.fab.poison } } ∧
          StoresAt s t a (slice (payBytes r) 16 n))) ∧
      (payField r 12 4 = 0 → payField r 24 1 = 4 → sieveLocked s a n = false →
        let bs := (List.range n).map (fun i => (leBytes 4 (payField r 16 4)).getD (i % 4) 0)
        netBlocked s { q with op := 1, data := bs } = false →
        Accepts (.memFill ch r) s ch 0x0102 r 0 (leBytes 4 n) (fun t =>
          t = { s with host := t.host, fab := { s.fab with qos := t.fab.qos, mem := t.fab.mem, poison := t.fab.poison } } ∧
          StoresAt s t a bs))) ∧ (
    ∀ (ch : Fin 4) (r : Request) (s : State), Plain s r →
      let ts := tilesReached s (payField r 0 4)
      let mask := maskOf 32 (fun l => ts.any (·.1 == l))
      (payField r 4 4 = 0 → payField r 8 8 % 32 = 0 → payField r 8 8 < 2 ^ 48 → payField r 16 2 ≤ 4096 →
        (∀ x ∈ maskTiles s (payField r 0 4), (s.tiles.get x.2).run = none ∧ (s.tiles.get x.2).queue = []) →
        Accepts (.progDirSet ch r) s ch 0x0300 r 0 (leBytes 4 mask) (fun t => t = { s with host := t.host, tiles := t.tiles } ∧
          (∀ x ∈ ts, t.tiles.get x.2 = { s.tiles.get x.2 with pdirBase := payField r 8 8, pdirCnt := payField r 16 2 }) ∧
          (∀ q, (∀ x ∈ ts, x.2 ≠ q) → t.tiles.get q = s.tiles.get q))) ∧
      (payField r 4 1 = 1 →
        Accepts (.tileControl ch r) s ch 0x0301 r 0 (leBytes 4 mask) (fun t => t = { s with host := t.host, tiles := t.tiles } ∧
          (∀ x ∈ ts, t.tiles.get x.2 = { s.tiles.get x.2 with launchEn := true }) ∧
          (∀ q, (∀ x ∈ ts, x.2 ≠ q) → t.tiles.get q = s.tiles.get q))) ∧
      (∀ p, payField r 0 1 ≤ 31 → physOf s (payField r 0 1) = some p →
        AnswersOnly (.tileQuery ch r) s ch 0x0302 r stOk 0
          (leBytes 4 (tilId s p) ++ leBytes 4 (tilStat (s.tiles.get p)) ++ leBytes 4 (s.tiles.get p).errFirst.toNat ++
           leBytes 8 ((s.tiles.get p).errDaddr % 2 ^ 64) ++ leBytes 4 ((s.tiles.get p).errCnt % 2 ^ 32) ++ leBytes 4 ((s.tiles.get p).ceCnt % 2 ^ 32) ++
           leBytes 4 ((s.tiles.get p).ueCnt % 2 ^ 32) ++ leBytes 4 ((s.tiles.get p).wtLate % 2 ^ 32))) ∧
      AnswersOnly (.tileMapQuery ch r) s ch 0x0303 r stOk 0
        (catMap 32 (fun l => [BitVec.ofNat 8 (lmapByte (physOf s l))]) ++
         catMap 4 (fun d => [BitVec.ofNat 8 ((s.bu.spares.getD d none).getD 0xFF)]) ++
         leBytes 8 (maskOf 36 (fun p => (s.tiles.get p).defective || (s.tiles.get p).role == 2)))))

/-- For a plain request: SYS_ECHO answers OK with its own payload; SYS_IDENTIFY with identity, mode, service, firmware version, chip identity, device number and PCIe link; TRACE_QUERY with the trace configuration and write pointer; an undefined opcode answers BAD_OPCODE with an empty payload. Each completes its channel as R289 and R291 say, sets its interrupt bit, and changes nothing outside the host side, of which the other channels, the other interrupt bits and all memory but the interrupt's message stay. While the boot service runs, an inline request of a command other than SYS_ECHO, SYS_IDENTIFY and SYS_FW_LOAD answers BUSY with an empty payload and changes nothing but the host side: said of SYS_SET_MODE, MEM_WRITE, CAL_WRITE and KV_TABLE_CREATE. With no service running a command changes nothing. -/
def Obligations.SystemQueriesAndServices : Prop :=
  ((
    ∀ (ch : Fin 4) (r : Request) (s : State), Plain s r →
      AnswersOnly (.sysEcho ch r) s ch 0x0000 r stOk 0 (payBytes r) ∧
      AnswersOnly (.sysIdentify ch r) s ch 0x0001 r stOk 0
        (leBytes 4 hubIdent ++ leBytes 4 (b2n s.host.opMode) ++ leBytes 4 2 ++ leBytes 4 s.bu.fwver.toNat ++ leBytes 8 Config.uid.toNat ++
         leBytes 4 s.so.dlf.devnum ++ leBytes 4 (pciLink s)) ∧
      AnswersOnly (.traceQuery ch r) s ch 0x0801 r stOk 0 (traceBytes s.host.trc ++ leBytes 8 s.host.trc.wptr) ∧
      (∀ op : Half, definedOpcodes.contains op.toNat = false →
        AnswersOnly (.unknownOpcode ch op r) s ch op.toNat r stBadOpcode 0 [])) ∧ (
    ∀ (ch : Fin 4) (r : Request) (s : State), r.flags = 0 →
      (s.bu.service = 1 →
        AnswersOnly (.sysSetMode ch r) s ch 0x0002 r stBusy 0 [] ∧ AnswersOnly (.memWrite ch r) s ch 0x0101 r stBusy 0 [] ∧
        AnswersOnly (.calWrite ch r) s ch 0x0410 r stBusy 0 [] ∧ AnswersOnly (.kvTableCreate ch r) s ch 0x0600 r stBusy 0 []) ∧
      (s.bu.service = 0 → exec (.sysEcho ch r) s = .next s ∧ exec (.memWrite ch r) s = .next s)))

/-- For a plain request whose fields need no clamp. SYS_SET_MODE to OPERATIONAL from MAINTENANCE sets the mode, clears every debug session, disarms every injector and tells both islands; its response holds the applied and the previous mode; to the mode in force it changes nothing. TRACE_CONFIG of a ring outside the host and reserved ranges takes its fields and starts the write pointer at 0. DEBUG_ATTACH of a mapped tile in MAINTENANCE, not attached, adds its session and answers its number; DEBUG_DETACH removes it and ends the tile's halt. Nothing else changes but the host side. -/
def Obligations.ModeTraceAndDebugCommands : Prop :=
  ∀ (ch : Fin 4) (r : Request) (s : State), Plain s r →
    (payField r 0 1 = 1 → s.host.opMode = false →
      Completes (.sysSetMode ch r) s (fun t => Answered s t ch 0x0002 r stOk 0 (leBytes 4 1 ++ leBytes 4 0) ∧
        t = { s with host := t.host, fab := { s.fab with inj := t.fab.inj, ldl := t.fab.ldl }, tiles := t.tiles, anv := t.anv, toIslands := t.toIslands } ∧
        t.host.opMode = true ∧ t.host.sessions = [] ∧ (∀ i, i < 8 → (t.fab.inj.get i).armed = false) ∧
        t.toIslands = s.toIslands ++ [(0, .modeEvent true), (1, .modeEvent true)] ∧ HostMemKept s t [ch, 8])) ∧
    (payField r 0 1 = 1 → s.host.opMode = true → AnswersOnly (.sysSetMode ch r) s ch 0x0002 r stOk 0 (leBytes 4 1 ++ leBytes 4 1)) ∧
    (payField r 4 1 ≤ 1 → payField r 5 3 = 0 → payField r 8 8 % 4096 = 0 → 12 ≤ payField r 16 1 → payField r 16 1 ≤ 28 → traceBad (payField r 8 8) (2 ^ payField r 16 1) = false →
      Completes (.traceConfig ch r) s (fun t => Answered s t ch 0x0800 r stOk 0 (slice (payBytes r) 0 17) ∧ t = { s with host := t.host } ∧
        t.host = { s.host with mbx := t.host.mbx, ints := t.host.ints, mem := t.host.mem, poison := t.host.poison, trc := t.host.trc } ∧
        t.host.trc = { mask := BitVec.ofNat 32 (payField r 0 4), enable := payField r 4 1 == 1, base := payField r 8 8, log2 := payField r 16 1, wptr := 0 } ∧
        HostMemKept s t [ch])) ∧
    (∀ p, payField r 0 1 = 0 → payField r 1 1 ≤ 31 → s.host.opMode = false → physOf s (payField r 1 1) = some p → p ∉ s.host.sessions →
      Completes (.debugAttach ch r) s (fun t => Answered s t ch 0x0802 r stOk 0 (leBytes 1 p) ∧ t = { s with host := t.host } ∧
        t.host.sessions = s.host.sessions ++ [p] ∧ HostMemKept s t [ch])) ∧
    (payField r 0 1 < 36 → payField r 0 1 ∈ s.host.sessions →
      Completes (.debugDetach ch r) s (fun t => Answered s t ch 0x0803 r stOk 0 [] ∧ t = { s with host := t.host, tiles := t.tiles } ∧
        t.host.sessions = s.host.sessions.filter (· != payField r 0 1) ∧ (∀ q, q ≠ payField r 0 1 → t.tiles.get q = s.tiles.get q) ∧
        t.tiles.get (payField r 0 1) = { s.tiles.get (payField r 0 1) with dbgHalt := false } ∧ HostMemKept s t [ch]))

/-- POR_N_RELEASE and PERST_N_RELEASE set their pin (and the first the supplies' good mark and a cold boot's cause) and nothing else. PERST_N_ASSERT with POR_N low changes only the pin; with the supplies good and the device not in Off it is a warm reset: no service, every DRAM byte and the host's memory and the islands kept, every other device byte 0, and the defect list, map and spares kept if a start-up had completed and none runs. POR_N_ASSERT and AON_SUPPLY_LOW reset everything but the islands, the host's memory and the queue: device memory reads 0 and the list is empty. BOOT_READY with POR_N and PERST_N high and no service brings up the boot service, every channel's ready bit and the link. WAKE_N_ASSERT in Off boots cold with wake cause 1, in Run changes only the pin. -/
def Obligations.PinsResetAndBoot : Prop :=
  (∀ (now : Nat) (s : State), exec (.porNRelease now) s =
    .next { s.advance now with pins := { s.pins with porN := true, aonGood := true }, pwr := { s.pwr with boot := 0 } }) ∧
  (∀ (now : Nat) (s : State), exec (.perstNRelease now) s = .next { s.advance now with pins := { s.pins with perstN := true } }) ∧
  (∀ (now : Nat) (s : State), s.pins.porN = false →
    exec (.perstNAssert now) s = .next { s.advance now with pins := { s.pins with perstN := false } }) ∧
  (∀ (now : Nat) (s : State), s.pins.porN = true → s.pins.aonGood = true → s.pwr.state ≠ .off → Completes (.perstNAssert now) s (fun t =>
    t.pins = { s.pins with perstN := false } ∧ t.bu.service = 0 ∧ t.bu.phase = 0 ∧ t.bu.warm = true ∧ t.anv.isl = s.anv.isl ∧
    HostMemKept s t [8] ∧ t.pending = s.pending ∧ (∀ a, t.fab.mem.read a = if a < 4 * dieSpan then s.fab.mem.read a else 0) ∧
    (s.bu.retained = true → s.bu.phase ≠ 1 → t.bu.defects = s.bu.defects ∧ t.bu.map = s.bu.map ∧ t.bu.spares = s.bu.spares))) ∧
  (∀ s : State, Completes .porNAssert s (fun t => t.pins = { s.pins with porN := false } ∧ t.bu = State.reset.bu ∧ t.anv.isl = s.anv.isl ∧
    t.host.mem = s.host.mem ∧ t.pending = s.pending ∧ ∀ a, t.fab.mem.read a = 0)) ∧
  (∀ s : State, Completes .aonSupplyLow s (fun t => t.pins = { s.pins with aonGood := false } ∧ t.bu = State.reset.bu ∧ t.anv.isl = s.anv.isl ∧
    t.pwr.trip = false ∧ t.host.mem = s.host.mem ∧ t.pending = s.pending ∧ ∀ a, t.fab.mem.read a = 0)) ∧
  (∀ (now : Nat) (s : State), s.pins.porN = true → s.pins.perstN = true → s.pins.aonGood = true → s.bu.service = 0 → s.pwr.state = .run →
    Completes (.bootReady now) s (fun t => t = { s.advance now with host := t.host, bu := { s.bu with service := 1 },
                                                                    fab := { s.fab with qos := t.fab.qos, clk := t.fab.clk } } ∧
      (∀ n, t.host.mbx.get n = { s.host.mbx.get n with ready := true }) ∧ t.host.pci.up = true ∧ HostMemKept s t [8])) ∧
  (∀ (now : Nat) (s : State), s.pins.porN = true → s.pins.aonGood = true →
    (s.pwr.state = .off → Completes (.wakeNAssert now) s (fun t =>
      t.pins = { s.pins with wakeN := false } ∧ t.pwr.state = .run ∧ t.pwr.boot = 1 ∧ t.pwr.wake = 1 ∧ t.anv.isl = s.anv.isl)) ∧
    (s.pwr.state = .run → s.pwr.entering = none →
      exec (.wakeNAssert now) s = .next { s.advance now with pins := { s.pins with wakeN := false } }))

/-- SYS_FW_LOAD from the host of an image whose header is well formed, while no other channel waits: if the vendor key signed it the firmware's service runs with its version and the command answers OK with that version, else it answers BAD_SIGNATURE and the service stays. SYS_DEFECT_LOAD of one legal entry before start-up replaces the preloaded entries by it and keeps the detected ones. SYS_START_UP before any start-up begins it and leaves its channel busy. START_UP_DONE with a failing unit ends in FAILED with it; with no fault found, no guard band and no stranded die a cold start ends in DONE with device time 0, the numbering of R17 over the tiles not listed, and every such tile out of reset. SYS_DEFECT_QUERY answers the summary and changes only the host side. -/
def Obligations.BringUpCommandsAndStartUp : Prop :=
  (∀ (ch : Fin 4) (r : Request) (s : State), let d := decodeCmd s ch 0x0003 r (s.host.mbx.get ch).bufOk 0
    s.bu.service = 1 → r.flags = 1 → d.2 = true → fwHeaderOk d.1 = true → (∀ n, n < 4 → n ≠ ch.val → (s.host.mbx.get n).sent = false) →
    let signed := sigKeyHash d.1.pay = Config.vendorKeyHash ∧ sigOk d.1.pay = true
    Completes (.sysFwLoad ch r) s (fun t => HostKept s t ch ∧
      (signed → Answered s t ch 0x0003 r stOk d.1.clamps (leBytes 4 (fld d.1.pay 16 4)) ∧
        t = { s with host := t.host, bu := { s.bu with service := 2, fwver := BitVec.ofNat 32 (fld d.1.pay 16 4) } }) ∧
      (¬ signed → Answered s t ch 0x0003 r stBadSignature d.1.clamps [] ∧ t = { s with host := t.host }))) ∧
  (∀ (ch : Fin 4) (r : Request) (s : State) (e : Quad), s.bu.service = 2 → r.flags = 0 → r.length.toNat ≤ 240 → s.bu.ran = false → s.bu.warm = false →
    payField r 0 2 = 1 → payField r 2 6 = 0 → preloadEntry (payField r 8 8) = (some e, 0) →
    let old := s.bu.defects.filter (fun x => field x.toNat 59 58 != 0)
    (∀ x ∈ old, defectKey x.toNat ≠ defectKey e.toNat) → old.length < 512 →
    ∃ data, Accepts (.sysDefectLoad ch r) s ch 0x0010 r 0 data (fun t =>
      t = { s with host := t.host, bu := { s.bu with defects := insertDefect e old } })) ∧
  (∀ (ch : Fin 4) (r : Request) (s : State), s.bu.service = 2 → r.flags = 0 → r.length.toNat ≤ 240 → s.bu.phase = 0 →
    Completes (.sysStartUp ch r) s (fun t => t.bu.phase = 1 ∧ t.bu.step = 1 ∧ t.bu.ran = true ∧ t.bu.startReq = some (ch.val, r) ∧
      t.bu = { s.bu with phase := 1, fast := s.bu.warm && s.bu.retained, full := t.bu.full, step := 1, ran := true, failUnit := 0,
                         startReq := some (ch.val, r) } ∧
      t = { s.modMbx ch (fun m => { m with busy := true, done := false }) with bu := t.bu })) ∧
  (∀ (q : StartUpResult) (s : State), s.bu.phase = 1 → q.failUnit ≠ 0 →
    Completes (.startUpDone q) s (fun t => t.bu.phase = 3 ∧ t.bu.step = 9 ∧ t.bu.failUnit = q.failUnit.toNat)) ∧
  (∀ (q : StartUpResult) (s : State), s.bu.phase = 1 → s.bu.fast = false → s.bu.failUnit = 0 → q.failUnit = 0 → q.lanes = [] → q.tileFaults = [] →
    q.guards = [] → strandedDie (trainEdges s q.edgesUp) = 0 →
    Completes (.startUpDone q) s (fun t => t.bu.phase = 2 ∧ t.bu.step = 9 ∧ t.bu.dur = q.us % 2 ^ 32 ∧ t.bu.retained = true ∧ t.time.dt = 0 ∧
      t.bu.defects = s.bu.defects ∧
      t.bu.map = (numbering (fun p => !listedTile s p)).1 ∧ t.bu.spares = (numbering (fun p => !listedTile s p)).2 ∧
      ∀ p, p < 36 → (t.tiles.get p).defective = listedTile s p ∧
        (listedTile s p = false → (t.tiles.get p).inReset = false ∧ (t.tiles.get p).isoEn = false))) ∧
  (∀ (ch : Fin 4) (r : Request) (s : State), Plain s r → AnswersOnly (.sysDefectQuery ch r) s ch 0x0012 r stOk 0 (startSummary s))

/-- For a plain SYS_RESET with no reset running: scope 0 of a tile in service puts that tile into reset, records the reset and leaves the channel busy; scopes 4 and 5 are queued for the next scan and answered OK with HUB_RST_STAT. RESET_DONE of a scope 0 reset whose tile has returned, with no command waiting, ends it, counts it and reports it by an event and nothing else. TILE_FAIL of a tile in service of a die out of reset leaves that tile failed, listed out of service and in reset, counts it and answers OK. HUB_BU_CTRL_CNT_CLR zeroes the three counts and nothing else. -/
def Obligations.ResetCommandsAndTileFailure : Prop :=
  (∀ (ch : Fin 4) (r : Request) (s : State), Plain s r →
    (payField r 0 1 = 0 → payField r 1 1 < 36 → s.bu.rst = none → (s.tiles.get (payField r 1 1)).role ≠ 2 →
      Completes (.sysReset ch r) s (fun t =>
        t.bu = { s.bu with rst := some { scope := 0, index := payField r 1 1, from_ := s.dt, chan := some (ch.val, r) }, rstScope := 0,
                           rstIndex := payField r 1 1 } ∧
        (t.tiles.get (payField r 1 1)).inReset = true ∧ (t.tiles.get (payField r 1 1)).isoEn = true ∧ (t.tiles.get (payField r 1 1)).run = none ∧
        (∀ q, q ≠ payField r 1 1 → t.tiles.get q = s.tiles.get q) ∧ (t.host.mbx.get ch).busy = true ∧ (t.host.mbx.get ch).done = false)) ∧
    (payField r 0 1 = 4 ∨ payField r 0 1 = 5 → payField r 1 1 = 0 →
      Accepts (.sysReset ch r) s ch 0x0013 r 0 (leBytes 4 (rstStat s) ++ leBytes 4 0) (fun t =>
        t = { s with host := t.host, bu := { s.bu with rstQueued := some (payField r 0 1, 0) } }))) ∧
  (∀ (now p : Nat) (from_ : Nat) (s : State), s.bu.rst = some { scope := 0, index := p, from_ := from_, chan := none } →
    (s.tiles.get p).inReset = false → (s.tiles.get p).initBusy = false → (s.tiles.get p).isoEn = false → (s.tiles.get p).role ≠ 3 →
    Completes (.resetDone now) s (fun t =>
      t = { s.advance now with host := t.host, bu := { s.bu with rst := none, rstCnt := cnt s.bu.rstCnt 1 } } ∧ EventsOnly s t ∧
      Raised (s.advance now) t 0x0014 0 [p, ((s.advance now).dt - from_) / 1000])) ∧
  (∀ (ch : Fin 4) (r : Request) (s : State), Plain s r → payField r 0 1 < 36 → (s.tiles.get (payField r 0 1)).role ≠ 2 →
    s.fab.dieReset.get (dieOf (payField r 0 1)) = false →
    Completes (.tileFail ch r) s (fun t => (∃ data, Answered s t ch 0x0014 r stOk 0 data) ∧
      (t.tiles.get (payField r 0 1)).role = 2 ∧ (t.tiles.get (payField r 0 1)).failed = true ∧ (t.tiles.get (payField r 0 1)).inReset = true ∧
      t.bu.failCnt = cnt s.bu.failCnt 1)) ∧
  (∀ s : State, exec .hubBuCtrlCntClr s = .next { s with bu := { s.bu with failCnt := 0, substCnt := 0, rstCnt := 0 } })

/-- TILE_RESET gives tile p its reset values, isolated, in reset and with its SRAM to be initialised; identity, straps and inputs stay. SRAM_INIT_DONE of a tile in reset that has not failed clears its window to zero, leaves every byte outside it, and takes the tile out of reset, an active or spare tile into quarantine. ISO_EN_ASSERT isolates the tile and ends its launches; ISO_EN_RELEASE ends the isolation once reset and initialisation are over, else nothing happens. QUARANTINE_SELFTEST_DONE of a tile in quarantine: a pass returns it as active or spare with cleared SRAM, a failure is kept for the next scan. In each no other tile's registers change but as the maps of R65 say. -/
def Obligations.TileResetIsolationAndQuarantine : Prop :=
  (∀ (p : Fin 36) (s : State), Completes (.tileReset p) s (fun t => EventsOnly s t ∧
    t = { s with host := t.host, time := t.time, cal := t.cal, kvt := t.kvt, tiles := t.tiles } ∧
    t.tiles.get p = { resetTile (s.tiles.get p) with isoEn := true, inReset := true, initBusy := true } ∧
    ∀ q, q ≠ p.val → t.tiles.get q = s.tiles.get q)) ∧
  (∀ (p : Fin 36) (s : State), (s.tiles.get p).inReset = true → (s.tiles.get p).initBusy = true → (s.tiles.get p).failed = false →
    (s.tiles.get p).defective = false →
    Completes (.sramInitDone p) s (fun t =>
      t = { s with fab := { s.fab with mem := t.fab.mem, poison := t.fab.poison }, tiles := t.tiles } ∧
      (∀ a, t.fab.mem.read a = if tileWindow p ≤ a ∧ a < tileWindow p + 0x1000000 then 0 else s.fab.mem.read a) ∧
      t.tiles.get p = { s.tiles.get p with inReset := false, initBusy := false, symErr := Tab.const 0,
                                           role := if (s.tiles.get p).role < 2 then 3 else (s.tiles.get p).role } ∧
      ∀ q, q ≠ p.val → t.tiles.get q = s.tiles.get q)) ∧
  (∀ (p : Fin 36) (s : State), Completes (.isoEnAssert p) s (fun t => EventsOnly s t ∧
    t = { s with host := t.host, time := t.time, cal := t.cal, kvt := t.kvt, tiles := t.tiles } ∧
    t.tiles.get p = { s.tiles.get p with isoEn := true, run := none, queue := [], issued := [], walk := none } ∧
    (∀ q, q ≠ p.val → t.tiles.get q = s.tiles.get q) ∧ t.cal.held.get p = [])) ∧
  (∀ (p : Fin 36) (s : State), let free := (s.tiles.get p).inReset = false ∧ (s.tiles.get p).initBusy = false
    (free → exec (.isoEnRelease p) s = .next (s.modTile p (fun x => { x with isoEn := false }))) ∧
    (¬ free → exec (.isoEnRelease p) s = .next s)) ∧
  (∀ (p : Fin 36) (now : Nat) (s : State), (s.tiles.get p).role = 3 →
    Completes (.quarantineSelftestDone p true now) s (fun t =>
      (t.tiles.get p).role = (if (s.tiles.get p).logical = none then 1 else 0) ∧ (t.tiles.get p).isoEn = false ∧ (t.tiles.get p).inReset = false ∧
      (∀ q, q ≠ p.val → t.tiles.get q = s.tiles.get q) ∧
      ∀ a, t.fab.mem.read a = if tileWindow p ≤ a ∧ a < tileWindow p + 0x1000000 then 0 else s.fab.mem.read a) ∧
    exec (.quarantineSelftestDone p false now) s =
      .next { s.advance now with bu := { s.bu with fails := s.bu.fails ++ [(p.val, 1)] } })

/-- For a tile descriptor at the head of its stream that may issue, follows no unfinished one and passes no semaphore's 255: NOP leaves the stream; COMPLETE closes and ends the stream while another valid stream is unfinished, and with every other valid stream done and nothing under way ends the launch with OK; BRANCH_CNT compares its semaphore, event counter, loop index or LCH_SEQ with the immediate and restarts fetching at its target if the condition holds, else goes on. Each consumes its wait slots and applies its signal slots; no other stream, tile field or state changes. -/
def Obligations.ControlDescriptorsStepStream : Prop :=
  ∀ (p : Fin 36) (st : Fin 4) (d : Desc) (s : State), CompletesNow s p st d →
    let t0 := s.tiles.get p; let x := streamOf t0 st; let sem := semSignalled t0 d; let pre := x.pre.drop 1
    let jump := uint 48 ((d.addr : Int) + sint 32 (field (d.w 2) 31 0) * 64)
    (d.op = 0x00 → d.zeroFrom 1 = true → Completes (.nop (.tile p) st) s (fun t => StreamStep s t p st t0 sem { x with pre := pre })) ∧
    (d.op = 0x01 → d.zeroFrom 1 = true →
      ((∃ m, m < 4 ∧ m ≠ st.val ∧ (streamOf t0 m).valid = true ∧ (streamOf t0 m).done = false) →
        Completes (.complete (.tile p) st) s (fun t => StreamStep s t p st t0 sem { x with pre := [], closed := true, done := true })) ∧
      ((∀ m, m < 4 → m ≠ st.val → (streamOf t0 m).valid = true → (streamOf t0 m).done = true) → TileQuiet t0 →
        Completes (.complete (.tile p) st) s (fun t => LaunchEnded s t p stOk ∧ t.host = s.host ∧
          t.tiles.get p = { t0 with sem := (t.tiles.get p).sem, run := none } ∧ ∀ i, (t.tiles.get p).sem.get i = sem i))) ∧
    (d.op = 0x03 → field (d.w 1) 31 15 = 0 → field (d.w 1) 14 12 ≤ 3 → field (d.w 1) 11 10 = 0 → field (d.w 1) 7 6 = 0 → field (d.w 2) 63 32 = 0 →
      d.zeroFrom 3 = true →
      ∀ v : Nat, (field (d.w 1) 9 8 = 0 ∧ v = semTaken t0 d (field (d.w 1) 5 0)) ∨
        (field (d.w 1) 9 8 = 1 ∧ field (d.w 1) 5 0 < 16 ∧ v = t0.ev.get (field (d.w 1) 5 0)) ∨
        (field (d.w 1) 9 8 = 1 ∧ 16 ≤ field (d.w 1) 5 0 ∧ field (d.w 1) 5 0 < 32 ∧ v = rowCounter (t0.lbs.get (field (d.w 1) 5 0 - 16))) ∨
        (field (d.w 1) 9 8 = 2 ∧ field (d.w 1) 5 0 < 4 ∧ v = (x.loops.get (field (d.w 1) 5 0)).2) ∨
        (field (d.w 1) 9 8 = 3 ∧ field (d.w 1) 5 0 = 0 ∧ v = t0.curSeq.toNat) →
      let holds := (field (d.w 1) 14 12 = 0 ∧ v = field (d.w 1) 63 32) ∨ (field (d.w 1) 14 12 = 1 ∧ v ≠ field (d.w 1) 63 32) ∨
        (field (d.w 1) 14 12 = 2 ∧ field (d.w 1) 63 32 ≤ v) ∨ (field (d.w 1) 14 12 = 3 ∧ v < field (d.w 1) 63 32)
      (holds → Completes (.branchCnt p st) s (fun t => StreamStep s t p st t0 sem { x with pre := [], fetch := jump })) ∧
      (¬ holds → Completes (.branchCnt p st) s (fun t => StreamStep s t p st t0 sem { x with pre := pre })))

/-- For a LOOP at the head of its stream that may issue, follows no unfinished descriptor and passes no semaphore's 255, with N passes and counter c: passes is the loop index if c is armed, else 0, plus 1. If passes is below N the counter is armed, holds passes, and fetching goes on at the target; else the counter is disarmed and holds 0, and the stream goes on. So with the counter disarmed before the first pass, the execution after pass k (from 0) returns to the body with the index k + 1 while k + 1 is below N, and the Nth falls through with the counter disarmed as before the first. No other stream, tile field or state changes, but for the semaphores that its wait and signal slots name. -/
def Obligations.LoopRunsItsPasses : Prop :=
  ∀ (p : Fin 36) (st : Fin 4) (d : Desc) (s : State), CompletesNow s p st d →
    d.op = 0x02 → field (d.w 1) 63 34 = 0 → field (d.w 2) 63 32 = 0 → d.zeroFrom 3 = true →
    let t0 := s.tiles.get p; let x := streamOf t0 st; let sem := semSignalled t0 d; let pre := x.pre.drop 1
    let c := field (d.w 1) 33 32; let n := field (d.w 1) 31 0
    let target := uint 48 ((d.addr : Int) + sint 32 (field (d.w 2) 31 0) * 64)
    let repeats := fun (t : State) (passes : Nat) => StreamStep s t p st t0 sem { x with pre := [], fetch := target, loops := x.loops.set c (true, passes) }
    let exits := fun (t : State) => StreamStep s t p st t0 sem { x with pre := pre, loops := x.loops.set c (false, 0) }
    (let passes := (if (x.loops.get c).1 = true then (x.loops.get c).2 else 0) + 1
     (passes < n → Completes (.loop p st) s (fun t => repeats t passes)) ∧
     (n ≤ passes → Completes (.loop p st) s exits)) ∧
    ∀ k, k < n → x.loops.get c = (decide (0 < k), k) →
      (k + 1 < n → Completes (.loop p st) s (fun t => repeats t (k + 1))) ∧
      (k + 1 = n → Completes (.loop p st) s exits)

/-- WAIT_SEM with a nonempty mask and a count issues: with every named semaphore at the count (and no lower stream with a head) it completes, subtracting the count if it consumes, and signals its slots; else its stream waits from now. WAIT_SEM_RELEASE of a waiting descriptor does the same and changes nothing while a semaphore is short. SIGNAL_SEM adds its count to every named semaphore together with its slots; where one named only by the mask passes 255 under err_cont, that semaphore stays at 255 and SEM_OVERFLOW is recorded. No other tile, stream or state changes, but for the event of the error. -/
def Obligations.SemaphoreWaitsAndSignals : Prop :=
  ∀ (p : Fin 36) (st : Fin 4) (d : Desc) (s : State), let t0 := s.tiles.get p; let x := streamOf t0 st
    let inMask : Nat → Bool := fun i => decide (i < 64) && bit (d.w 1) i
    let take : Nat → Nat := fun i => if bit (d.w 2) 8 && inMask i then d.w 2 % 256 else 0
    field (d.w 2) 63 9 = 0 → d.zeroFrom 3 = true → d.w 1 ≠ 0 → d.w 2 % 256 ≠ 0 →
    (d.op = 0x04 → (∀ l, l < st.val → headOf t0 l = none) →
      (IssuesNow s p st d →
        ((∀ i, inMask i = true → d.w 2 % 256 ≤ semTaken t0 d i) → (∀ i, semSignalled t0 d i ≤ 255) →
          Completes (.waitSem p st) s (fun t =>
            StreamStep s t p st t0 (fun i => semTaken t0 d i - take i + d.sigs.count i) { x with pre := x.pre.drop 1 })) ∧
        ((∃ i, inMask i = true ∧ semTaken t0 d i < d.w 2 % 256) →
          Completes (.waitSem p st) s (fun t =>
            StreamStep s t p st t0 (semTaken t0 d) { x with pre := x.pre.drop 1, waiting := some (s.dt, d) }))) ∧
      (∀ since, waitingIn t0 st = some (since, d) → tileClocked s p = true → Untraced s d →
        ((∀ i, inMask i = true → d.w 2 % 256 ≤ t0.sem.get i) → (∀ i, t0.sem.get i + d.sigs.count i ≤ 255) →
          Completes (.waitSemRelease p st) s (fun t =>
            StreamStep s t p st t0 (fun i => t0.sem.get i - take i + d.sigs.count i) { x with waiting := none })) ∧
        ((∃ i, inMask i = true ∧ t0.sem.get i < d.w 2 % 256) → exec (.waitSemRelease p st) s = .next s))) ∧
    (d.op = 0x05 → bit (d.w 2) 8 = false → IssuesNow s p st d → ordered t0 st d = false →
      let sem : Nat → Nat := fun i => semSignalled t0 d i + if inMask i then d.w 2 % 256 else 0
      ((∀ i, sem i ≤ 255) → Completes (.signalSem p st) s (fun t => StreamStep s t p st t0 sem { x with pre := x.pre.drop 1 })) ∧
      (∀ k, d.errCont = true → 255 < sem k → (∀ i, i ≠ k → sem i ≤ 255) →
        Completes (.signalSem p st) s (fun t => t = { s with host := t.host, tiles := t.tiles } ∧ EventsOnly s t ∧
          (∀ q, q ≠ p.val → t.tiles.get q = s.tiles.get q) ∧ Recorded t0 (t.tiles.get p) teOverflow st d.tag d.addr ∧
          (t.tiles.get p).sem.get k = 255 ∧ ∀ i, i ≠ k → (t.tiles.get p).sem.get i = sem i)))

/-- WAIT_TIME, its target absolute or relative to LCH_DT, advances its stream at once where device time has reached the target (counting one that is past), else waits from that time; WAIT_TIME_RELEASE ends the wait once the target is reached, else nothing changes. WAIT_EVENT completes where its counter has reached its threshold modulo 2^16, taking the threshold from the counter if it consumes, else waits; WAIT_EVENT_RELEASE ends the wait in the same way. EVENT_TIMEOUT of a wait whose timeout has passed first records TIMEOUT: under err_cont the wait ends, else the launch of a tile with nothing under way ends with TILE_ERROR. The frames are those of the other sequencer rows. -/
def Obligations.TimedAndEventWaits : Prop :=
  ∀ (p : Fin 36) (st : Fin 4) (d : Desc) (now : Nat) (s : State), let s' := s.advance now; let t0 := s.tiles.get p; let x := streamOf t0 st
    (∀ r, t0.run = some r → d.op = 0x06 → field (d.w 2) 63 1 = 0 → d.zeroFrom 3 = true →
      let target := if bit (d.w 2) 0 then (d.w 1 + r.launch.strobe.dt) % 2 ^ 64 else d.w 1
      (IssuesNow s p st d → (∀ i, semSignalled t0 d i ≤ 255) →
        let T := { t0 with wtLate := if target < s'.dt then cnt t0.wtLate 1 else t0.wtLate }
        (target ≤ s'.dt → Completes (.waitTime p st now) s (fun t =>
          StreamStep s' t p st T (semSignalled t0 d) { x with pre := x.pre.drop 1 })) ∧
        (s'.dt < target → Completes (.waitTime p st now) s (fun t =>
          StreamStep s' t p st T (semTaken t0 d) { x with pre := x.pre.drop 1, waiting := some (s'.dt, d) }))) ∧
      (∀ since, waitingIn t0 st = some (since, d) → tileClocked s p = true → Untraced s d → (∀ i, t0.sem.get i + d.sigs.count i ≤ 255) →
        (target ≤ s'.dt → Completes (.waitTimeRelease p st now) s (fun t =>
          StreamStep s' t p st t0 (fun i => t0.sem.get i + d.sigs.count i) { x with waiting := none })) ∧
        (s'.dt < target → exec (.waitTimeRelease p st now) s = .next s'))) ∧
    (d.op = 0x07 → field (d.w 1) 63 33 = 0 → field (d.w 1) 15 5 = 0 → field (d.w 2) 63 32 = 0 → d.zeroFrom 3 = true →
      let c := field (d.w 1) 4 0; let thr := field (d.w 1) 31 16
      (bit (d.w 1) 32 = true → c < 16) →
      let T := if bit (d.w 1) 32 then { t0 with ev := t0.ev.modify c (fun n => (n + 65536 - thr) % 65536) } else t0
      (IssuesNow s p st d → (∀ i, semSignalled t0 d i ≤ 255) →
        ((eventValue t0 c + 65536 - thr) % 65536 < 32768 → Completes (.waitEvent p st now) s (fun t =>
          StreamStep s' t p st T (semSignalled t0 d) { x with pre := x.pre.drop 1 })) ∧
        (32768 ≤ (eventValue t0 c + 65536 - thr) % 65536 → Completes (.waitEvent p st now) s (fun t =>
          StreamStep s' t p st t0 (semTaken t0 d) { x with pre := x.pre.drop 1, waiting := some (s'.dt, d) }))) ∧
      (∀ since, waitingIn t0 st = some (since, d) → tileClocked s p = true → Untraced s d → (∀ i, t0.sem.get i + d.sigs.count i ≤ 255) →
        ((eventValue t0 c + 65536 - thr) % 65536 < 32768 → Completes (.waitEventRelease p st) s (fun t =>
          StreamStep s t p st T (fun i => t0.sem.get i + d.sigs.count i) { x with waiting := none })) ∧
        (32768 ≤ (eventValue t0 c + 65536 - thr) % 65536 → exec (.waitEventRelease p st) s = .next s ∧
          (field (d.w 2) 31 0 ≠ 0 → since + field (d.w 2) 31 0 ≤ s'.dt →
            (d.errCont = true → Completes (.eventTimeout p st now) s (fun t =>
              t = { s' with host := t.host, tiles := t.tiles } ∧ EventsOnly s t ∧ (∀ q, q ≠ p.val → t.tiles.get q = s.tiles.get q) ∧
              Recorded t0 (t.tiles.get p) teTimeout st d.tag d.addr ∧ streamOf (t.tiles.get p) st = { x with waiting := none } ∧
              ∀ i, (t.tiles.get p).sem.get i = t0.sem.get i + d.sigs.count i)) ∧
            (d.errCont = false → TileQuiet t0 → Completes (.eventTimeout p st now) s (fun t =>
              LaunchEnded s' t p stTileError ∧ Recorded t0 (t.tiles.get p) teTimeout st d.tag d.addr ∧
              (t.tiles.get p).sem = t0.sem ∧ (t.tiles.get p).ev = t0.ev))))))

/-- POST_EVENT to its own tile adds the increment to the counter modulo 2^16 and its stream goes on. To a logical tile mapped to another tile in service and reachable it adds to that tile's counter only; to a VACANT logical tile under err_cont it records TILE_VACANT and goes on. A descriptor with a reserved opcode, or on a stream its opcode does not allow, in a tile with nothing under way records BAD_OPCODE or BAD_STREAM and ends the launch with TILE_ERROR. -/
def Obligations.PostsAndReservedOpcodes : Prop :=
  ∀ (p : Fin 36) (st : Fin 4) (d : Desc) (s : State), let t0 := s.tiles.get p; let x := streamOf t0 st
    (CompletesNow s p st d → d.op = 0x08 → field (d.w 1) 63 32 = 0 → field (d.w 1) 15 12 = 0 → field (d.w 1) 7 6 = 0 → d.zeroFrom 2 = true →
      field (d.w 1) 31 16 ≠ 0 →
      let c := field (d.w 1) 11 8; let inc := field (d.w 1) 31 16; let add : Tab Nat → Tab Nat := fun e => e.modify c (fun n => (n + inc) % 65536)
      (bit (d.w 1) 5 = true → Completes (.postEvent p st) s (fun t =>
        StreamStep s t p st { t0 with ev := add t0.ev } (semSignalled t0 d) { x with pre := x.pre.drop 1 })) ∧
      (∀ q, bit (d.w 1) 5 = false → lmapPhys (t0.lmap.get (field (d.w 1) 4 0)) = some q → q < 36 → q ≠ p.val → tileAbsorbed s q = false →
        (s.tiles.get q).defective = false → s.fab.transitDown.get (dieOf q) = false → pathUsable s p (dieOf q) = true →
        Completes (.postEvent p st) s (fun t => t = { s with tiles := t.tiles } ∧
          t.tiles.get q = { s.tiles.get q with ev := add (s.tiles.get q).ev } ∧ (∀ k, k ≠ q → k ≠ p.val → t.tiles.get k = s.tiles.get k) ∧
          TileStep t0 t0 (t.tiles.get p) st (semSignalled t0 d) { x with pre := x.pre.drop 1 })) ∧
      (bit (d.w 1) 5 = false → lmapPhys (t0.lmap.get (field (d.w 1) 4 0)) = none → d.errCont = true →
        Completes (.postEvent p st) s (fun t => t = { s with host := t.host, tiles := t.tiles } ∧ EventsOnly s t ∧
          (∀ k, k ≠ p.val → t.tiles.get k = s.tiles.get k) ∧ Recorded t0 (t.tiles.get p) teVacant st d.tag d.addr ∧
          (t.tiles.get p).ev = t0.ev ∧ streamOf (t.tiles.get p) st = { x with pre := x.pre.drop 1 }))) ∧
    (∀ e, headOf t0 st = some d → opError st d = some e → mayIssue t0 st d = true → tileClocked s p = true → Untraced s d → TileQuiet t0 →
      Completes (.reservedOpcode (.tile p) st) s (fun t => LaunchEnded s t p stTileError ∧ Recorded t0 (t.tiles.get p) e st d.tag d.addr ∧
        (t.tiles.get p).ev = t0.ev ∧ ∀ i, (t.tiles.get p).sem.get i = semTaken t0 d i))

/-- LAUNCH_STROBE at a tile that takes it (launch_en, room in the queue of 8, not isolated, clocked) with nothing held for it queues the launch there; at any other tile nothing changes. LAUNCH_START of an idle clocked tile takes the oldest queued launch: LCH_SEQ and the program are set, S0 to S47 read 0 and S48 to S63 are kept, every generator lane is seeded and every stream is idle; a program beyond the directory ends it with BAD_PROGRAM. HELD_LAUNCH_ACCEPT moves the oldest held launch into the queue of a tile, into the idle hub DMA engine, or behind the running cycle of the planner, where that target can take it, and else changes nothing. -/
def Obligations.LaunchesAreQueuedStartedAndAccepted : Prop :=
  (∀ (p : Fin 36) (b : Strobe) (s : State),
    (tileReady s p = true → s.cal.held.get p = [] →
      exec (.launchStrobe p b) s = .next (s.modTile p (fun t => { t with queue := t.queue ++ [{ strobe := b, link := none }] }))) ∧
    (((s.tiles.get p).launchEn = false ∨ 8 ≤ (s.tiles.get p).queue.length ∨ tileAbsorbed s p = true ∨ tileClocked s p = false) →
      exec (.launchStrobe p b) s = .next s)) ∧
  (∀ (p : Fin 36) (l : Launch) (rest : List Launch) (s : State), let t0 := s.tiles.get p
    t0.run = none → tileClocked s p = true → t0.queue = l :: rest →
    (l.strobe.prog.toNat < t0.pdirCnt → Completes (.launchStart p) s (fun t => TileOnly s t p ∧
      t.tiles.get p = { t0 with queue := rest, curSeq := l.strobe.seq, lastProg := l.strobe.prog.toNat,
                                run := some { launch := l, streams := Tab.const idleStream, dirRead := false, ended := none },
                                sem := (t.tiles.get p).sem, rng := (t.tiles.get p).rng } ∧
      (∀ i, (t.tiles.get p).sem.get i = if i < 48 then 0 else t0.sem.get i) ∧
      ∀ lane, lane < 1024 → (t.tiles.get p).rng.get lane = laneSeed l.strobe.seq p lane)) ∧
    (t0.pdirCnt ≤ l.strobe.prog.toNat → TileQuiet t0 → Completes (.launchStart p) s (fun t =>
      t = { s with host := t.host, cal := { s.cal with done := t.cal.done }, tiles := t.tiles, free := s.free + 1 } ∧ EventsOnly s t ∧
      (∀ q, q ≠ p.val → t.tiles.get q = s.tiles.get q) ∧ (t.tiles.get p).run = none ∧ (t.tiles.get p).queue = rest ∧
      (t.tiles.get p).errStat = t0.errStat ||| BitVec.ofNat 32 (2 ^ 0x0B) ∧
      t.cal.done.get p = s.cal.done.get p ++ [(l, stBadProgram)] ∧ ∀ q, q ≠ p.val → t.cal.done.get q = s.cal.done.get q))) ∧
  (∀ (g : Fin 39) (h : Held) (rest : List Held) (s : State), s.cal.held.get g = h :: rest →
    let s' := { s with cal.held := s.cal.held.set g rest }
    (g.val < 36 → tileReady s g = true →
      exec (.heldLaunchAccept g) s = .next (s'.modTile g (fun t => { t with queue := t.queue ++ [h.launch] }))) ∧
    (g.val < 36 → tileReady s g = false → exec (.heldLaunchAccept g) s = .next s) ∧
    (g.val = 36 → plannerReady s = true → s.pln.cycle.isSome = true → exec (.heldLaunchAccept g) s = .next { s' with pln.waiting := some h.launch }) ∧
    (g.val = 36 → plannerReady s = false → exec (.heldLaunchAccept g) s = .next s) ∧
    (g.val = 37 → s.fab.hdma.run = none → h.launch.strobe.prog.toNat < s.fab.hdma.pdirCnt →
      exec (.heldLaunchAccept g) s = .next { s' with fab.hdma := { s.fab.hdma with
        busy := true, prog := h.launch.strobe.prog.toNat, run := some h.launch, ptr := none, head := none, work := [], ended := none } }) ∧
    (g.val = 37 → s.fab.hdma.run.isSome = true → exec (.heldLaunchAccept g) s = .next s) ∧
    (g.val = 38 → frontEndReady s = true → 64 ≤ h.launch.strobe.prog.toNat →
      exec (.heldLaunchAccept g) s = .next { s' with cal := { s'.cal with done := s.cal.done.modify 38 (· ++ [(h.launch, stBadProgram)]) } }))

/-- DESCRIPTOR_FETCH of a tile whose launch runs in a clocked tile. The directory entry, read clean: with at least one valid stream and no reserved bit in a valid word, each stream becomes valid or idle with the word's address; with a reserved bit in the first bad valid word n the launch of a quiet tile ends with TILE_ERROR and BAD_FIELD recorded for stream n, tag 0, at that word's address; with no valid stream it ends with BAD_PROGRAM. A descriptor of a valid stream, read clean with less than 8 prefetched and no COMPLETE among the last, joins the prefetched ones and the stream's address moves on 64 bytes. An address the fetch may not read ends the launch with TILE_ERROR and FETCH_ERROR. Only that tile changes, but for the events of the errors. -/
def Obligations.TileFetchesDirectoryAndDescriptors : Prop :=
  ∀ (p : Fin 36) (r : Running) (s : State), let t0 := s.tiles.get p
    t0.run = some r → r.ended = none → tileClocked s p = true →
    (r.dirRead = false →
      let a := t0.pdirBase + 32 * r.launch.strobe.prog.toNat; let w := wordAt s a
      (FetchClean s p a 32 → (∀ i, i < 4 → bit (w i) 0 = true → field (w i) 63 48 = 0 ∧ field (w i) 5 1 = 0) →
        ((∃ i, i < 4 ∧ bit (w i) 0 = true) → Completes (.descriptorFetch (.tile p) .directory) s (fun t => TileOnly s t p ∧
          ∃ m : Tab StreamSt, t.tiles.get p = { t0 with run := some { r with dirRead := true, streams := m } } ∧
            ∀ i, i < 4 → m.get i = { idleStream with valid := bit (w i) 0, fetch := field (w i) 47 6 * 64 })) ∧
        ((∀ i, i < 4 → bit (w i) 0 = false) → TileQuiet t0 → Completes (.descriptorFetch (.tile p) .directory) s (fun t =>
          LaunchEnded s { t with free := s.free } p stBadProgram ∧ (t.tiles.get p).errStat = t0.errStat ||| BitVec.ofNat 32 (2 ^ 0x0B)))) ∧
      (∀ n, FetchClean s p a 32 → n < 4 → (∀ i, i < n → bit (w i) 0 = true → field (w i) 63 48 = 0 ∧ field (w i) 5 1 = 0) →
        bit (w n) 0 = true → (field (w n) 63 48 ≠ 0 ∨ field (w n) 5 1 ≠ 0) → TileQuiet t0 →
        Completes (.descriptorFetch (.tile p) .directory) s (fun t =>
          LaunchEnded s t p stTileError ∧ Recorded t0 (t.tiles.get p) teBadField n 0 (a + 8 * n))) ∧
      (fetchable a = false → TileQuiet t0 → Completes (.descriptorFetch (.tile p) .directory) s (fun t =>
        LaunchEnded s { t with free := s.free } p stTileError ∧ (t.tiles.get p).errStat = t0.errStat ||| BitVec.ofNat 32 (2 ^ 0x04)))) ∧
    (∀ st : Fin 4, r.dirRead = true → let x := r.streams.get st
      x.valid = true → x.closed = false → x.pre.length < 8 → (∀ d, x.pre.getLast? = some d → d.op ≠ 0x01) →
      (FetchClean s p x.fetch 64 → Completes (.descriptorFetch (.tile p) (.stream st)) s (fun t => TileOnly s t p ∧
        t.tiles.get p = { t0 with run := some { r with streams := r.streams.set st { x with
          fetch := (x.fetch + 64) % 2 ^ 48
          pre := x.pre ++ [{ addr := x.fetch, words := (List.range 8).map (fun i => BitVec.ofNat 64 (fld (s.fab.mem.readN x.fetch 64) (8 * i) 8)) }] } } })) ∧
      (fetchable x.fetch = false → TileQuiet t0 → Completes (.descriptorFetch (.tile p) (.stream st)) s (fun t =>
        LaunchEnded s { t with free := s.free } p stTileError ∧ (t.tiles.get p).errStat = t0.errStat ||| BitVec.ofNat 32 (2 ^ 0x04))))

/-- For a tile that takes requests: cnt_clr zeroes the eight counters; sem_clr zeroes semaphores and event counters while the tile is idle and does nothing while a launch runs; launch_en is written; dbg_halt is written in DEVELOPMENT mode with a debug session attached, else not; TIL_EVT_ADD adds bits 31:16 to the counter of bits 3:0 modulo 2^16; writing TIL_ERR_STAT clears the bits written 1; TIL_ERR_FIRST.valid written 1 rearms the capture; abort ends the launch of a quiet tile with ABORTED, and with descriptors under way leaves it ended with that status, its waits given up, until they complete. At a tile that absorbs requests each of these is only counted. ARITH_GATE follows its input; a corrected SRAM word written back has no error left. Nothing else changes. -/
def Obligations.TileControlRegistersAndInputs : Prop :=
  ∀ (p : Fin 36) (s : State), let t0 := s.tiles.get p
    (tileAbsorbed s p = false →
      exec (.tilCtrlCntClr p) s = .next (s.modTile p (fun t => { t with
        errCnt := 0, ceCnt := 0, ueCnt := 0, wtLate := 0, busyMat := 0, busyVec := 0, busySfu := 0, busyDma := 0 })) ∧
      (t0.run = none → exec (.tilCtrlSemClr p) s = .next (s.modTile p (fun t => { t with sem := Tab.const 0, ev := Tab.const 0 }))) ∧
      (t0.run.isSome = true → Completes (.tilCtrlSemClr p) s (fun t => TileOnly s t p ∧ t.tiles.get p = t0)) ∧
      (∀ on, exec (.tilCtrlLaunchEn p on) s = .next (s.modTile p (fun t => { t with launchEn := on }))) ∧
      (∀ on, s.host.opMode = false → s.host.sessions.contains p.val = true →
        exec (.tilCtrlDbgHalt p on) s = .next (s.modTile p (fun t => { t with dbgHalt := on }))) ∧
      (∀ on, (s.host.opMode = true ∨ s.host.sessions.contains p.val = false) → exec (.tilCtrlDbgHalt p on) s = .next s) ∧
      (∀ v : Word, exec (.tilEvtAdd p v) s = .next (s.modTile p (fun t => { t with
        ev := t.ev.modify (v.toNat % 16) (fun n => (n + v.toNat / 65536 % 65536) % 65536) }))) ∧
      (∀ m : Word, exec (.tilErrStatClear p m) s = .next (s.modTile p (fun t => { t with errStat := t.errStat &&& ~~~m }))) ∧
      Completes (.tilErrFirstRearm p) s (fun t => TileOnly s t p ∧ t.tiles.get p = { t0 with errFirst := (t.tiles.get p).errFirst } ∧
        ∀ i, bit (t.tiles.get p).errFirst.toNat i = (bit t0.errFirst.toNat i && decide (i ≠ 31))) ∧
      (∀ r, t0.run = some r → r.ended = none →
        (TileQuiet t0 → Completes (.tilCtrlAbort p) s (fun t => LaunchEnded s t p stAborted ∧ t.tiles.get p = { t0 with run := none })) ∧
        (t0.issued ≠ [] → Completes (.tilCtrlAbort p) s (fun t => TileOnly s t p ∧ ∃ m : Tab StreamSt,
          t.tiles.get p = { t0 with run := some { r with ended := some stAborted, streams := m }, issued := t0.issued.map Issued.stopped } ∧
          ∀ i, m.get i = { r.streams.get i with waiting := none })))) ∧
    (tileAbsorbed s p = true → ∀ (on : Bool) (v m : Word),
      ∀ c ∈ [Instr.tilCtrlCntClr p, .tilCtrlSemClr p, .tilCtrlAbort p, .tilCtrlLaunchEn p on, .tilCtrlDbgHalt p on, .tilEvtAdd p v,
             .tilErrFirstRearm p, .tilErrStatClear p m],
        exec c s = .next { s with fab.absorbs := s.fab.absorbs.modify (dieOf p) (cnt · 1) }) ∧
    exec (.arithGateRise p) s = .next (s.modTile p (fun t => { t with arithGate := true })) ∧
    exec (.arithGateFall p) s = .next (s.modTile p (fun t => { t with arithGate := false })) ∧
    (∀ w : Fin 2097152, t0.symErr.get w = 1 → Completes (.sramCorrectedWriteback p w) s (fun t => TileOnly s t p ∧
      t.tiles.get p = { t0 with symErr := (t.tiles.get p).symErr } ∧
      ∀ i, (t.tiles.get p).symErr.get i = if i = w.val then 0 else t0.symErr.get i))

/-- For the oldest issued descriptor of a tile, of the stream named (and channel, in the DMA stream), with no request left, whose unit is not held by ARITH_GATE, in a live launch of a clocked tile, not a COMPLETE, releasing no line-buffer row and untraced: it leaves the descriptors under way and its signal slots (and the additions of a SIGNAL_SEM) are added to the semaphores, none of which passes 255; in the DMA stream this is stated where none remains. While its requests are outstanding or ARITH_GATE holds its unit nothing changes but the time. -/
def Obligations.IssuedDescriptorsCompleteInOrder : Prop :=
  ∀ (p : Fin 36) (st chan : Fin 4) (now : Nat) (x : Issued) (rest : List Issued) (s : State), let t0 := s.tiles.get p; let s' := s.advance now
    t0.issued = x :: rest → x.stream = st.val → (st.val ≠ 2 ∨ x.desc.chan = chan.val ∧ rest = []) →
    (gated t0 x.desc = false → tileClocked s p = true → (∀ w, x.work = some w → w.finished = true ∧ w.late = none) → liveRun s p = true →
      releasesOf x.desc = [] → x.desc.op ≠ 0x01 → Untraced s x.desc →
      let sem : Nat → Nat := fun i => t0.sem.get i + ((semAdds x.desc x.signals).filter (·.1 == i) |>.map (·.2)).sum
      (∀ i, sem i ≤ 255) → Completes (.descriptorComplete p st chan now) s (fun t => TileOnly s' t p ∧
        t.tiles.get p = { t0 with issued := rest, sem := (t.tiles.get p).sem } ∧ ∀ i, (t.tiles.get p).sem.get i = sem i)) ∧
    (gated t0 x.desc = true → st.val ≠ 2 → exec (.descriptorComplete p st chan now) s = .next s') ∧
    (∀ w, st.val ≠ 2 → x.work = some w → w.finished = false → exec (.descriptorComplete p st chan now) s = .next s')

/-- A tile's DMA descriptor that may issue, on a channel whose oldest descriptor waits for responses, and whose fields are legal: MOVE joins with the reads of every row of its source (none yet if it decodes), FILL with the writes of every row and its pattern repeated, GATHER and SCATTER with the read of their index list, at the addresses after the loop increments. Busy cycles are one for each 1,024 bytes where the data stays in own SRAM and an unstated number else. Its wait slots are consumed; nothing else changes. -/
def Obligations.TransfersJoinTheirChannel : Prop :=
  ∀ (p : Fin 36) (d : Desc) (s : State), let t0 := s.tiles.get p
    IssuesNow s p 2 d → ChannelWaits t0 d.chan →
    (d.op = 0x30 →
      let zc := field (d.w 6) 1 0; let lc := field (d.w 6) 3 2
      let src := loopAdd t0 2 (bit (d.w 6) 4) lc (sint 32 (field (d.w 7) 31 0)) (d.w 1)
      let dst := loopAdd t0 2 (bit (d.w 6) 5) lc (sint 32 (field (d.w 7) 63 32)) (d.w 2)
      let rs := moveRuns d (some src) dst (strides (d.w 4)) (strides (d.w 5)); let n := (rs.map (·.len)).sum
      moveCountsOk (d.w 3) = true → field (d.w 6) 63 6 = 0 → zc ≠ 3 → tensorBad src = false → tensorBad dst = false → (zc = 0 → runsFit rs = true) →
      (zc ≠ 0 → field (d.w 3) 56 41 = 1 ∧ field (d.w 3) 40 25 = 1 ∧ field (d.w 3) 24 0 % 64 = 0) → (zc = 1 → dst % 64 = 0) → (zc = 2 → src % 64 = 0) →
      let local_ := zc = 0 ∧ ownSram t0 p src = true ∧ ownSram t0 p dst = true
      Completes (.move (.tile p)) s (fun t =>
        (local_ → JoinsChannel s t p d (newWork [src, dst] 1 (readPlan rs) (List.replicate n 0)) ((n + 1023) / 1024) 0) ∧
        (¬ local_ → JoinsChannel s t p d (if zc = 2 then newWork [src, dst] 1 [] [] else newWork [src, dst] 1 (readPlan rs) (List.replicate n 0))
          ((Config.freeQuad s.free).toNat % 2 ^ 32) 1))) ∧
    (d.op = 0x31 →
      let dst := loopAdd t0 2 (bit (d.w 6) 5) (field (d.w 6) 3 2) (sint 32 (field (d.w 5) 31 0)) (d.w 1)
      let rs := moveRuns d none dst (0, 0) (strides (d.w 4)); let n := (rs.map (·.len)).sum
      let buf := (rs.map (fun r => (List.range r.len).map (fun x => BitVec.ofNat 8 (d.w 2 / 256 ^ (x % 2 ^ field (d.w 6) 1 0))))).flatten
      moveCountsOk (d.w 3) = true → field (d.w 6) 63 6 = 0 → bit (d.w 6) 4 = false → field (d.w 5) 63 32 = 0 → d.w 7 = 0 → tensorBad dst = false →
      runsFit rs = true →
      Completes (.fill (.tile p)) s (fun t =>
        (ownSram t0 p dst = true → JoinsChannel s t p d (newWork [0, dst] 2 (writePlan rs []) buf) ((n + 1023) / 1024) 0) ∧
        (ownSram t0 p dst = false → JoinsChannel s t p d (newWork [0, dst] 2 (writePlan rs []) buf) ((Config.freeQuad s.free).toNat % 2 ^ 32) 1))) ∧
    (let w5 := d.w 5; let lc := field w5 37 36; let plain := sint 32 (field (d.w 7) 31 0); let count := field w5 32 17; let rl := field w5 16 0
     let idx := loopAdd t0 2 (bit w5 39) lc (sint 32 (field (d.w 7) 63 32)) (d.w 3); let bytes := count * (if bit w5 33 then 4 else 2)
     let far := sint 32 (field (d.w 4) 31 0); let near := sint 32 (field (d.w 6) 31 0)
     field w5 63 40 = 0 → count ≠ 0 → 0 < rl → rl ≤ 65536 → field (d.w 6) 63 32 = 0 → tensorBad idx = false → tensorFits idx bytes = true →
     (∀ dst, d.op = 0x32 → dst = loopAdd t0 2 (bit w5 38) lc plain (d.w 2) → tensorBad (d.w 1) = false → tensorBad dst = false →
       (∀ r, r < count → tensorFits (tensorAdd dst (r * near)) rl = true) →
       (bit w5 35 = true → rl % 64 = 0 ∧ field (d.w 4) 31 0 % 64 = 0 ∧ zcWorst rl ≤ far.natAbs ∧ d.w 1 % 64 = 0) →
       Completes (.gather p) s (fun t => JoinsChannel s t p d
         { newWork [d.w 1, dst, idx] 0 (tensorPieces false idx bytes 0) (List.replicate bytes 0) with phase := 0 }
         ((Config.freeQuad s.free).toNat % 2 ^ 32) 1)) ∧
     (∀ src, d.op = 0x33 → src = loopAdd t0 2 (bit w5 38) lc plain (d.w 1) → tensorBad src = false → tensorBad (d.w 2) = false → bit w5 34 = false →
       (∀ r, r < count → tensorFits (tensorAdd src (r * near)) rl = true) →
       (bit w5 35 = true → rl % 64 = 0 ∧ field (d.w 4) 31 0 % 64 = 0 ∧ zcWorst rl ≤ far.natAbs ∧ d.w 2 % 64 = 0) →
       Completes (.scatter p) s (fun t => JoinsChannel s t p d
         { newWork [src, d.w 2, idx] 0 (tensorPieces false idx bytes 0) (List.replicate bytes 0) with phase := 0 }
         ((Config.freeQuad s.free).toNat % 2 ^ 32) 1)))

/-- On a free channel of a tile with no export armed, for one row within a 256-byte block: a FILL stores its pattern of 1, 2, 4 or 8 bytes repeated; a MOVE without the codec between ranges that do not overlap stores the clean source bytes; a GATHER of one 16-bit index below its limit stores the row that the index selects by the stride, and for the sentinel zeros, or nothing if it skips; a SCATTER of one index stores its row at the place the index selects, and nothing for the sentinel. Every byte outside the stored ones is unchanged and the descriptor waits to complete. -/
def Obligations.TransfersWithinOwnSramStoreTheirBytes : Prop :=
  ∀ (p : Fin 36) (d : Desc) (s : State), let t0 := s.tiles.get p; let mem := s.fab.mem; let win := tileWindow p
    IssuesNow s p 2 d → oldestIssued t0 2 d.chan = none → NoExports t0 →
    (∀ off n, d.op = 0x31 → OwnBlock (d.w 1) off n → d.w 3 = 2 ^ 41 + 2 ^ 25 + n → d.w 5 = 0 → d.w 6 < 4 → d.w 7 = 0 →
      Completes (.fill (.tile p)) s (fun t =>
        StoresOwn s t p d off ((List.range n).map (fun x => BitVec.ofNat 8 (d.w 2 / 256 ^ (x % 2 ^ d.w 6)))))) ∧
    (∀ so dn n, d.op = 0x30 → OwnBlock (d.w 1) so n → OwnBlock (d.w 2) dn n → (so + n ≤ dn ∨ dn + n ≤ so) → d.w 3 = 2 ^ 41 + 2 ^ 25 + n → d.w 6 = 0 →
      CleanSram s p so n →
      Completes (.move (.tile p)) s (fun t => StoresOwn s t p d dn (mem.readN (win + so) n))) ∧
    (∀ so dn io n x, d.op = 0x32 → d.w 1 = 2 ^ 62 + so → so < 2 ^ 24 → OwnBlock (d.w 2) dn n → OwnBlock (d.w 3) io 2 →
      d.w 5 % 2 ^ 34 = 2 ^ 17 + n → d.w 5 < 2 ^ 35 → d.w 6 < 2 ^ 32 → CleanSram s p io 2 → x = leNat (mem.readN (win + io) 2) →
      (∀ ro, x ≠ 0xFFFF → x < field (d.w 4) 63 32 → 0 ≤ sint 32 (field (d.w 4) 31 0) → ro = so + x * (sint 32 (field (d.w 4) 31 0)).toNat →
        ro % 256 + n ≤ 256 → ro + n ≤ 2 ^ 24 → CleanSram s p ro n →
        Completes (.gather p) s (fun t => StoresOwn s t p d dn (mem.readN (win + ro) n))) ∧
      (x = 0xFFFF → bit (d.w 5) 34 = false → Completes (.gather p) s (fun t => StoresOwn s t p d dn (List.replicate n 0))) ∧
      (x = 0xFFFF → bit (d.w 5) 34 = true → Completes (.gather p) s (fun t => StoresOwn s t p d dn []))) ∧
    (∀ so dn io n x, d.op = 0x33 → OwnBlock (d.w 1) so n → d.w 2 = 2 ^ 62 + dn → dn < 2 ^ 24 → OwnBlock (d.w 3) io 2 →
      d.w 5 = 2 ^ 17 + n → d.w 6 < 2 ^ 32 → CleanSram s p io 2 → x = leNat (mem.readN (win + io) 2) →
      (∀ ro, x ≠ 0xFFFF → x < field (d.w 4) 63 32 → 0 ≤ sint 32 (field (d.w 4) 31 0) → ro = dn + x * (sint 32 (field (d.w 4) 31 0)).toNat →
        ro % 256 + n ≤ 256 → ro + n ≤ 2 ^ 24 → CleanSram s p so n →
        Completes (.scatter p) s (fun t => StoresOwn s t p d ro (mem.readN (win + so) n))) ∧
      (x = 0xFFFF → Completes (.scatter p) s (fun t => StoresOwn s t p d dn [])))

/-- On a free channel of a tile with no request outstanding, a MOVE of one row within a 256-byte block from a device address outside own SRAM puts one read request of that tile, label, address and length into the network and changes no memory. DMA_RESPONSE with the OK answer of the one outstanding read of such a MOVE to own SRAM stores its bytes there and takes the answer; with an error answer under err_cont it records RSP_ERROR. The OK answer of the last outstanding write leaves the descriptor with nothing to do. EXPORT_GATE_RELEASE of a write held at an export entry without credit changes nothing; with credit, for a write within the entry's current slot at another tile, the write request enters the network and its bytes are counted against the row. -/
def Obligations.TransfersOverNetworkAnswered : Prop :=
  ∀ (p : Fin 36) (s : State), let t0 := s.tiles.get p; let win := tileWindow p
    (∀ (d : Desc) (a dn n : Nat), IssuesNow s p 2 d → oldestIssued t0 2 d.chan = none → freeTag t0 = some t0.nextTag → d.op = 0x30 → d.w 1 = a →
      a < 2 ^ 48 → (a + n ≤ win ∨ win + 2 ^ 24 ≤ a) → a % 256 + n ≤ 256 → OwnBlock (d.w 2) dn n → d.w 3 = 2 ^ 41 + 2 ^ 25 + n → d.w 6 = 0 →
      Completes (.move (.tile p)) s (fun t =>
        t = { s with
              fab.net.inflight := s.fab.net.inflight ++ [readReq p (BitVec.ofNat 4 d.label) t0.nextTag a n]
              tiles := t.tiles, free := s.free + 1 } ∧
        (∀ q, q ≠ p.val → t.tiles.get q = s.tiles.get q) ∧
        TileStep t0 { t0 with issued := (t.tiles.get p).issued, nextTag := (t0.nextTag + 1) % 512, busyDma := (t.tiles.get p).busyDma }
          (t.tiles.get p) 2 (semTaken t0 d) { streamOf t0 2 with pre := (streamOf t0 2).pre.drop 1 } ∧
        ∃ w, (t.tiles.get p).issued = t0.issued ++ [underWay d w] ∧
          w.out = [(t0.nextTag, { write := false, addr := a, len := n, off := 0 })] ∧ w.todo = [] ∧ w.phase = 1)) ∧
    (∀ (d : Desc) (w : DmaWork) (k : Piece) (tag : BitVec 9) (r : NetRsp) (rest : List NetRsp), liveRun s p = true → t0.issued = [underWay d w] →
      w.out = [(tag.toNat, k)] → w.todo = [] → s.fab.net.rsps = r :: rest → r.src = BitVec.ofNat 8 p → r.tag = tag →
      (∀ a dn n, k = { write := false, addr := a, len := n, off := 0 } → w.phase = 1 → d.op = 0x30 → w.addrs = [a, 2 ^ 62 + dn] → d.w 6 = 0 →
        a < 2 ^ 48 → (a + n ≤ win ∨ win + 2 ^ 24 ≤ a) → OwnBlock (2 ^ 62 + dn) dn n → d.w 3 = 2 ^ 41 + 2 ^ 25 + n → w.bad = [] → w.buf.length = n →
        w.late = none → r.data.length = n → NoExports t0 →
        (r.status = stOk → Completes (.dmaResponse (.tile p) tag) s (fun t =>
          t = { s with fab := { s.fab with net := { s.fab.net with rsps := rest }, mem := t.fab.mem, poison := t.fab.poison }, tiles := t.tiles } ∧
          StoresAt s t (win + dn) r.data ∧ (∀ q, q ≠ p.val → t.tiles.get q = s.tiles.get q) ∧
          ∃ w', (t.tiles.get p).issued = [underWay d w'] ∧ w'.finished = true)) ∧
        (r.status ≠ stOk → d.errCont = true → Completes (.dmaResponse (.tile p) tag) s (fun t =>
          Recorded t0 (t.tiles.get p) teRsp 2 d.tag d.addr ∧ (∀ q, q ≠ p.val → t.tiles.get q = s.tiles.get q) ∧
          StoresAt s t (win + dn) (List.replicate n 0) ∧ t.fab.net.rsps = rest))) ∧
      (k.write = true → w.phase = 2 → r.status = stOk → Completes (.dmaResponse (.tile p) tag) s (fun t =>
        t = { s with fab.net.rsps := rest, tiles := t.tiles } ∧ (∀ q, q ≠ p.val → t.tiles.get q = s.tiles.get q) ∧
        t.tiles.get p = { t0 with issued := [underWay d { w with out := [] }] }))) ∧
    (∀ (d : Desc) (w : DmaWork) (k : Piece) (chan : Fin 4) (e q : Nat), liveRun s p = true → t0.issued = [underWay d w] → d.chan = chan.val →
      w.out = [] → w.todo = [k] → w.phase = 2 → w.gate = some e → k.write = true → e < 4 → k.addr < 2 ^ 48 → 0 < k.len → k.len ≤ 256 →
      let x := t0.exports.get e; let lo := tileWindow q + x.base + x.wrow % x.n * x.pitch
      x.armed = true → (∀ f, f < 4 → f ≠ e → (t0.exports.get f).armed = false) → lmapPhys (t0.lmap.get x.ltile) = some q → q ≠ p.val → q < 36 → 0 < x.n →
      lo ≤ k.addr → k.addr + k.len ≤ lo + x.pitch → tileWindow q ≤ k.addr → k.addr + k.len ≤ tileWindow q + 2 ^ 24 →
      ((x.wrow % 65536 + 65536 - (x.n + t0.ev.get x.ctr) % 65536) % 65536 < 32768 → Completes (.exportGateRelease p chan) s (fun t =>
        TileOnly s t p ∧ t.tiles.get p = t0)) ∧
      (32768 ≤ (x.wrow % 65536 + 65536 - (x.n + t0.ev.get x.ctr) % 65536) % 65536 → freeTag t0 = some t0.nextTag →
        Completes (.exportGateRelease p chan) s (fun t =>
          t = { s with
                fab.net.inflight := s.fab.net.inflight ++
                  [writeReq p (BitVec.ofNat 4 d.label) t0.nextTag k.addr k.len (slice w.buf k.off k.len) (inBad w.bad k.off k.len)]
                tiles := t.tiles } ∧
          (∀ j, j ≠ p.val → t.tiles.get j = s.tiles.get j) ∧
          t.tiles.get p = { t0 with nextTag := (t0.nextTag + 1) % 512, exports := (t.tiles.get p).exports,
                                    issued := [underWay d { w with todo := [], gate := none, out := [(t0.nextTag, k)] }] } ∧
          (t.tiles.get p).exports.get e = (if x.pitch ≤ x.issued + k.len then { x with wrow := x.wrow + 1, issued := 0 }
            else { x with issued := x.issued + k.len }) ∧ ∀ f, f ≠ e → (t.tiles.get p).exports.get f = t0.exports.get f)))

/-- HUB_DMA_LAUNCH of an idle engine starts the launch, or ends it with BAD_PROGRAM beyond the directory; a busy engine takes none. DESCRIPTOR_FETCH reads the directory entry and then the next descriptor. At the head of the list: NOP is done with; COMPLETE ends the launch with OK; a reserved opcode or wrong stream is captured and ends it with ENGINE_ERROR; a MOVE or FILL of one row within a 256-byte block sends one read, or one write of the pattern, of source 0x34. DMA_RESPONSE: an OK read's bytes are sent to the destination in one write; an OK write is counted in HUB_DMA_BYTES and its descriptor is done. Abort ends the launch with ABORTED once nothing is outstanding; cnt_clr zeroes HUB_DMA_BYTES; HUB_DMA_ERR is rearmed. Nothing else changes. -/
def Obligations.HubDmaEngineRunsItsList : Prop :=
  ∀ s : State, let h := s.fab.hdma
    (∀ b : Strobe, let started : State := { s with fab.hdma := { h with
        busy := true, prog := b.prog.toNat, run := some { strobe := b, link := none }, ptr := none, head := none, work := [], ended := none } }
      (h.run = none → s.cal.held.get 37 = [] → b.prog.toNat < h.pdirCnt → exec (.hubDmaLaunch b) s = .next started) ∧
      (h.run = none → s.cal.held.get 37 = [] → h.pdirCnt ≤ b.prog.toNat →
        Completes (.hubDmaLaunch b) s (fun t => HubLaunchEnded started t stBadProgram h.err)) ∧
      (h.run.isSome = true → exec (.hubDmaLaunch b) s = .next s)) ∧
    (∀ l, h.run = some l → h.ended = none →
      (let a := h.pdirBase + 8 * l.strobe.prog.toNat; let e := fld (s.fab.mem.readN a 8) 0 8
       h.ptr = none → FetchClean s 0x34 a 8 → bit e 0 = true →
         exec (.descriptorFetch .hub .directory) s = .next { s with fab.hdma := { h with ptr := some (field e 47 6 * 64) } }) ∧
      (∀ a, h.ptr = some a → h.head = none → FetchClean s 0x34 a 64 →
        exec (.descriptorFetch .hub (.stream 2)) s = .next { s with fab.hdma := { h with
          ptr := some ((a + 64) % 2 ^ 48)
          head := some { addr := a, words := (List.range 8).map (fun i => BitVec.ofNat 64 (fld (s.fab.mem.readN a 64) (8 * i) 8)) } } }) ∧
      ((∀ x ∈ h.work, x.2.out = []) → Completes .hubDmaCtrlAbort s (fun t => HubLaunchEnded s t stAborted h.err)) ∧
      ((∃ x ∈ h.work, x.2.out ≠ []) → exec .hubDmaCtrlAbort s = .next { s with fab.hdma := { h with
        ended := some stAborted, head := none, work := h.work.map (fun x => (x.1, { x.2 with todo := [] })) } })) ∧
    (∀ (st : Fin 4) (d : Desc), HubIssuesNow s d →
      (d.op = 0x00 → d.zeroFrom 1 = true → exec (.nop .hub st) s = .next { s with fab.hdma := { h with head := none } }) ∧
      (d.op = 0x01 → d.zeroFrom 1 = true → Completes (.complete .hub st) s (fun t => HubLaunchEnded s t stOk h.err)) ∧
      (∀ a b n l, h.run = some l → h.work = [] → 0 < n → a % 256 + n ≤ 256 → a < 2 ^ 48 → b < 2 ^ 48 → h.nextTag < 512 → d.w 3 = 2 ^ 41 + 2 ^ 25 + n →
        (d.op = 0x30 → d.w 1 = a → d.w 2 = b → d.w 6 = 0 → Completes (.move .hub) s (fun t => ∃ w,
          w.out = [(h.nextTag, { write := false, addr := a, len := n, off := 0 })] ∧ w.todo = [] ∧ w.phase = 1 ∧ w.buf.length = n ∧
          t = { s with fab.hdma := { h with head := none, nextTag := (h.nextTag + 1) % 512, work := [(d, w)] }
                       fab.net.inflight := s.fab.net.inflight ++ [readReq 0x34 l.strobe.label h.nextTag a n] })) ∧
        (d.op = 0x31 → d.w 1 = a → d.w 5 = 0 → d.w 6 < 4 → d.w 7 = 0 → Completes (.fill .hub) s (fun t => ∃ w,
          w.out = [(h.nextTag, { write := true, addr := a, len := n, off := 0 })] ∧ w.todo = [] ∧
          t = { s with fab.hdma := { h with head := none, nextTag := (h.nextTag + 1) % 512, work := [(d, w)] }
                       fab.net.inflight := s.fab.net.inflight ++ [writeReq 0x34 l.strobe.label h.nextTag a n ((List.range n).map (fun x => BitVec.ofNat 8 (d.w 2 / 256 ^ (x % 2 ^ d.w 6)))) false] })))) ∧
    (∀ (st : Fin 4) (d : Desc) (e : Nat), hubHead s = some d → hubDmaOpError d = some e → h.work = [] →
      Completes (.reservedOpcode .hub st) s (fun t =>
        HubLaunchEnded s t stEngineError (if bit h.err.toNat 31 then h.err else BitVec.ofNat 32 (errFirst e 2 d.tag)))) ∧
    (∀ (d : Desc) (w : DmaWork) (k : Piece) (tag : BitVec 9) (r : NetRsp) (rest : List NetRsp) (l : Launch), h.run = some l → h.ended = none →
      h.work = [(d, w)] → w.out = [(tag.toNat, k)] → w.todo = [] → s.fab.net.rsps = r :: rest → r.src = 0x34 → r.tag = tag → r.status = stOk →
      h.nextTag < 512 →
      (k.write = true → w.phase = 2 → exec (.dmaResponse .hub tag) s = .next { s with
        fab.hdma := { h with work := [], bytes := (h.bytes + k.len) % 2 ^ 64 }
        fab.net.rsps := rest }) ∧
      (∀ a b n, k = { write := false, addr := a, len := n, off := 0 } → w.phase = 1 → d.op = 0x30 → w.addrs = [a, b] → d.w 6 = 0 → a < 2 ^ 48 →
        b < 2 ^ 48 → 0 < n → b % 256 + n ≤ 256 → d.w 3 = 2 ^ 41 + 2 ^ 25 + n → w.bad = [] → w.buf.length = n → r.data.length = n →
        (a + n ≤ b ∨ b + n ≤ a) →
        Completes (.dmaResponse .hub tag) s (fun t => ∃ w', w'.out = [(h.nextTag, { write := true, addr := b, len := n, off := 0 })] ∧ w'.todo = [] ∧
          t = { s with fab.hdma := { h with nextTag := (h.nextTag + 1) % 512, work := [(d, w')] }
                       fab.net.rsps := rest
                       fab.net.inflight := s.fab.net.inflight ++ [writeReq 0x34 l.strobe.label h.nextTag b n (r.data) false] }))) ∧
    exec .hubDmaCtrlCntClr s = .next { s with fab.hdma := { h with bytes := 0 } } ∧
    exec .hubDmaErrRearm s = .next { s with fab.hdma := { h with err := h.err &&& 0x7FFFFFFF#32 } }

/-- A MATMUL of any form whose head may issue and whose buffer is free, outside a page walk, changes its tile's semaphores, accumulators, counters, error registers and launch, events and free values only, never memory. MATMUL of INT8 by INT8 in own SRAM, m rows of A by n rows of B over k elements: cell (i, j) becomes its initial value (0, or its old value under KEEP) plus the sum of A[i,x] times B[j,x] modulo 2^32, other cells keep theirs, and k cycles count. CONV_STRIPE of INT8 without padding or halo does the same for each output pixel over its taps and channels. -/
def Obligations.MatrixUnitAccumulatesIntegerProducts : Prop :=
  ∀ (p : Fin 36) (d : Desc) (s : State), let t0 := s.tiles.get p
    IssuesNow s p 0 d →
    (d.op = 0x10 → matmulReady p s d = true → t0.walk = none → Completes (.matmul p) s (fun t => MatrixFrame s t p)) ∧
    (∀ ao bo pa pb k m n init b, d.op = 0x10 → d.w 1 = own ao → d.w 2 = own bo → d.w 3 = 0 → d.w 4 = 0 → d.w 5 = 0 →
      d.w 6 = 8 + 8 * 2 ^ 16 + pa * 2 ^ 32 → d.w 7 = pb + k * 2 ^ 18 + (m - 1) * 2 ^ 35 + (n - 1) * 2 ^ 42 + init * 2 ^ 49 + b * 2 ^ 51 →
      ao % 64 = 0 → bo % 64 = 0 → 0 < k → k ≤ 65536 → k ≤ 64 * pa → k ≤ 64 * pb → pa < 2 ^ 18 → pb < 2 ^ 18 → 0 < m → m ≤ 128 → 0 < n → n ≤ 128 →
      ao + (m - 1) * (64 * pa) + k ≤ 2 ^ 24 → bo + (n - 1) * (64 * pb) + k ≤ 2 ^ 24 → b ≤ 1 →
      (∀ i, i < m → CleanSram s p (ao + i * (64 * pa)) k) → (∀ j, j < n → CleanSram s p (bo + j * (64 * pb)) k) →
      (init = 0 ∧ accFree t0 (2 ^ b) = true ∨ init = 1 ∧ (t0.acc.get b).type = .int32) →
      Completes (.matmul p) s (fun t => MatrixDone s t p d b k ∧ ((t.tiles.get p).acc.get b).type = .int32 ∧
        (∀ i j, i < m → j < n → ((t.tiles.get p).acc.get b).cells.get (128 * i + j) =
          let old := if init = 1 then (t0.acc.get b).cells.get (128 * i + j) else (0, false)
          (old.1 + BitVec.ofInt 32 ((List.range k).map (fun x => byteAt s p (ao + i * (64 * pa) + x) * byteAt s p (bo + j * (64 * pb) + x))).sum, old.2)) ∧
        ∀ i j, j < 128 → (m ≤ i ∨ n ≤ j) → ((t.tiles.get p).acc.get b).cells.get (128 * i + j) = (t0.acc.get b).cells.get (128 * i + j))) ∧
    (d.op = 0x11 → convReady p s d = true → t0.walk = none → Completes (.convStripe p) s (fun t => MatrixFrame s t p)) ∧
    (∀ (ao bo inW inRows pa cin kh kw sy sx dy dx oy0 ox0 orows ocols n b : Nat), d.op = 0x11 → d.w 1 = own ao → d.w 2 = own bo → d.w 3 = 0 →
      d.w 4 = 8 * 2 ^ 48 + 8 * 2 ^ 32 →
      d.w 5 = (inW - 1) * 2 ^ 52 + (inRows - 1) * 2 ^ 40 + pa * 2 ^ 24 + (cin - 1) * 2 ^ 12 + (kh - 1) * 2 ^ 8 + (kw - 1) * 2 ^ 4 →
      d.w 6 = (sy - 1) * 2 ^ 61 + (sx - 1) * 2 ^ 58 + (dy - 1) * 2 ^ 55 + (dx - 1) * 2 ^ 52 →
      d.w 7 = oy0 * 2 ^ 52 + ox0 * 2 ^ 40 + (orows - 1) * 2 ^ 33 + (ocols - 1) * 2 ^ 26 + (n - 1) * 2 ^ 19 + b * 2 ^ 18 →
      0 < inW → inW ≤ 4096 → 0 < inRows → inRows ≤ 4096 → 0 < cin → cin ≤ 4096 → pa < 2 ^ 16 → inW * cin ≤ 64 * pa → 0 < kh → kh < 16 → 0 < kw → kw < 16 →
      0 < sy → sy ≤ 8 → 0 < sx → sx ≤ 8 → 0 < dy → dy ≤ 8 → 0 < dx → dx ≤ 8 → 0 < orows → 0 < ocols → orows * ocols ≤ 128 → 0 < n → n ≤ 128 → b ≤ 1 →
      oy0 < 4096 → ox0 < 4096 → (oy0 + orows - 1) * sy + (kh - 1) * dy < inRows → (ox0 + ocols - 1) * sx + (kw - 1) * dx < inW →
      let k := kh * kw * cin; let pb := roundUp k 64
      ao % 64 = 0 → bo % 64 = 0 → ao + (inRows - 1) * (64 * pa) + inW * cin ≤ 2 ^ 24 → bo + (n - 1) * pb + k ≤ 2 ^ 24 →
      (∀ y, y < inRows → CleanSram s p (ao + y * (64 * pa)) (inW * cin)) → (∀ j, j < n → CleanSram s p (bo + j * pb) k) → accFree t0 (2 ^ b) = true →
      Completes (.convStripe p) s (fun t => (∃ cycles, MatrixDone s t p d b cycles) ∧
        ∀ oy ox j, oy < orows → ox < ocols → j < n →
          ((t.tiles.get p).acc.get b).cells.get (128 * (oy * ocols + ox) + j) =
            (BitVec.ofInt 32 ((List.range kh).map (fun ky => ((List.range kw).map (fun kx => ((List.range cin).map (fun c =>
              byteAt s p (ao + ((oy0 + oy) * sy + ky * dy) * (64 * pa) + ((ox0 + ox) * sx + kx * dx) * cin + c) *
              byteAt s p (bo + j * pb + (ky * kw + kx) * cin + c))).sum)).sum)).sum, false)))

/-- For a row of n FP32 elements read clean from own SRAM: ELEM stores for each element its operation of one, two or three operand rows; REDUCE by maximum or minimum stores the extreme of the row times its scale; SFU stores post times the function of pre times the element, each product rounded to FP32. The busy cycles of the units count, the descriptor waits to complete, and every byte outside the result is unchanged. The operations are the exact ones of R113; the functions give R93's special cases: NaN for NaN, exp2 of minus infinity +0, reciprocal of a zero an infinity of its sign, rsqrt of -0 minus infinity, GELU of minus infinity -0. -/
def Obligations.VectorUnitComputesRows : Prop :=
  (∀ (p : Fin 36) (d : Desc) (ao dof n : Nat) (s : State), IssuesNow s p 1 d → d.w 1 = own ao → 0 < n → n < 65536 → ao + 4 * n ≤ 2 ^ 24 →
    dof + 4 * n ≤ 2 ^ 24 → CleanSram s p ao (4 * n) → (dof + 4 * n ≤ ao ∨ ao + 4 * n ≤ dof) →
    (∀ op bo co, d.op = 0x20 → d.w 4 = own dof → d.w 5 = 0 → d.w 6 = 2 ^ 48 →
      (elemArity op = some 1 ∧ d.w 2 = 0 ∧ d.w 3 = 0 ∧ d.w 7 = n + op * 2 ^ 16 ∨
       elemArity op = some 2 ∧ d.w 2 = own bo ∧ d.w 3 = 0 ∧ d.w 7 = n + op * 2 ^ 16 + 4 * 2 ^ 24 ∨
       elemArity op = some 3 ∧ d.w 2 = own bo ∧ d.w 3 = own co ∧ d.w 7 = n + op * 2 ^ 16 + 4 * 2 ^ 24 + 4 * 2 ^ 27) →
      (d.w 2 ≠ 0 → bo + 4 * n ≤ 2 ^ 24 ∧ CleanSram s p bo (4 * n) ∧ (dof + 4 * n ≤ bo ∨ bo + 4 * n ≤ dof)) →
      (d.w 3 ≠ 0 → co + 4 * n ≤ 2 ^ 24 ∧ CleanSram s p co (4 * n) ∧ (dof + 4 * n ≤ co ∨ co + 4 * n ≤ dof)) →
      Completes (.elem p) s (fun t => VectorDone s t p d dof (fpBytes ((List.range n).map (fun x => elemOp op (fpAt s p (ao + 4 * x))
        (if d.w 2 = 0 then vzero else fpAt s p (bo + 4 * x)) (if d.w 3 = 0 then vzero else fpAt s p (co + 4 * x))))) ((n + 255) / 256) 0)) ∧
    (∀ op k, d.op = 0x21 → d.w 2 = own dof → d.w 3 = 0 → d.w 4 = k * 2 ^ 32 → k < 2 ^ 32 → d.w 5 = 2 ^ 48 → d.w 6 = n + op * 2 ^ 16 → d.w 7 = 0 → op = 2 ∨ op = 3 →
      Completes (.reduce p) s (fun t => VectorDone s t p d dof
        (fpBytes [rne32 ((extreme (if op = 2 then Val.max else Val.min) ((List.range n).map (fun x => rne32 (fpAt s p (ao + 4 * x))))).mul (ofFp32 k))])
        ((n + 255) / 256) 0)) ∧
    (∀ fn pre post, d.op = 0x22 → d.w 2 = own dof → d.w 3 = pre + post * 2 ^ 32 → pre < 2 ^ 32 → post < 2 ^ 32 → d.w 4 = fn * 2 ^ 32 → fn ≤ 6 → d.w 5 = 0 →
      d.w 6 = 1 + n * 2 ^ 16 → d.w 7 = 0 →
      Completes (.sfu p) s (fun t => VectorDone s t p d dof (fpBytes ((List.range n).map (fun x =>
        rne32 ((ofFp32 post).mul (sfuFn fn (rne32 ((fpAt s p (ao + 4 * x)).mul (ofFp32 pre)))))))) ((n + 63) / 64) ((n + 63) / 64)))) ∧
  (∀ a b c : Val, elemOp 0x01 a b c = a.add b ∧ elemOp 0x03 a b c = a.mul b ∧ elemOp 0x04 a b c = (a.mul b).add c ∧
    elemOp 0x08 a b c = (a.max b).min c ∧ elemOp 0x0D a b c = (if a.eq vzero then c else b)) ∧
  (∀ fn, fn ≤ 6 → sfuFn fn .nan = .nan) ∧ sfuFn 0 (.inf true) = vzero ∧ (∀ n, sfuFn 2 (.fin n 0) = .inf n) ∧ sfuFn 3 (.fin true 0) = .inf true ∧
  sfuFn 6 (.inf true) = .fin true 0

/-- In own SRAM with operands read clean and FP32 elements: a MAX POOL of one output row without padding or halo stores for each output pixel and channel the maximum over the window's taps; an ARGMAX_C of one row of n pixels without a value output stores for each pixel the index of its largest channel, the lowest of equals, NaN ignored; a CROP_RESIZE of one box and one sample stores for each channel the extrapolation value where the sample lies outside the map by more than one, or where the box is not finite, and else the bilinear mix of its four neighbours. Every byte outside the result is unchanged and the descriptor waits to complete. -/
def Obligations.ImageOperatorsOnVectorUnit : Prop :=
  ∀ (p : Fin 36) (d : Desc) (ao dof : Nat) (s : State), IssuesNow s p 1 d → d.w 1 = own ao →
    (∀ (inW inRows pa c kh kw sy sx oy ow : Nat), d.op = 0x23 → d.w 2 = own dof → d.w 7 = 0 →
      let dp := (4 * ow * c + 63) / 64
      d.w 3 = dp * 2 ^ 16 → d.w 4 = (inW - 1) * 2 ^ 52 + (inRows - 1) * 2 ^ 40 + pa * 2 ^ 24 + (c - 1) * 2 ^ 12 + (kh - 1) * 2 ^ 8 + (kw - 1) * 2 ^ 4 →
      d.w 5 = (sy - 1) * 2 ^ 61 + (sx - 1) * 2 ^ 58 → d.w 6 = oy * 2 ^ 52 →
      0 < inW → inW ≤ 4096 → 0 < inRows → inRows ≤ 4096 → 0 < c → c ≤ 4096 → pa < 2 ^ 16 → 4 * inW * c ≤ 64 * pa → 0 < kh → kh < 16 → 0 < kw → kw < 16 →
      0 < sy → sy ≤ 8 → 0 < sx → sx ≤ 8 → oy < 4096 → kh ≤ inRows → kw ≤ inW → ow = (inW - kw) / sx + 1 → oy * sy + kh ≤ inRows → dp < 2 ^ 16 →
      ao + (inRows - 1) * (64 * pa) + 4 * inW * c ≤ 2 ^ 24 → dof + 4 * ow * c ≤ 2 ^ 24 →
      (∀ y, y < inRows → CleanSram s p (ao + y * (64 * pa)) (4 * inW * c)) →
      (dof + 4 * ow * c ≤ ao ∨ ao + (inRows - 1) * (64 * pa) + 4 * inW * c ≤ dof) →
      Completes (.pool p) s (fun t => ∃ cycles, VectorDone s t p d dof (fpBytes (((List.range ow).map (fun x => (List.range c).map (fun ch =>
        extreme Val.max (((List.range kh).map (fun ky => (List.range kw).map (fun kx =>
          fpAt s p (ao + (oy * sy + ky) * (64 * pa) + 4 * ((x * sx + kx) * c + ch))))).flatten)))).flatten)) cycles 0)) ∧
    (∀ (n c pa : Nat), d.op = 0x24 → d.w 2 = own dof → d.w 3 = 0 → d.w 4 = c → 0 < c → c < 2 ^ 16 → d.w 5 = 2 ^ 48 + n * 2 ^ 32 + pa * 2 ^ 16 →
      0 < n → n < 2 ^ 16 → pa < 2 ^ 16 → d.w 6 = 0 → d.w 7 = 0 → ao + 4 * n * c ≤ 2 ^ 24 → dof + 2 * n ≤ 2 ^ 24 → CleanSram s p ao (4 * n * c) →
      Completes (.argmaxC p) s (fun t => ∃ (cycles : Nat) (best : Nat → Nat),
        VectorDone s t p d dof (((List.range n).map (fun x => leBytes 2 (best x))).flatten) cycles 0 ∧
        ∀ x, x < n → let v := fun ch => fpAt s p (ao + 4 * (x * c + ch))
          ((∀ ch, ch < c → (v ch).isNan = true) → best x = 0xFFFF) ∧
          ((∃ ch, ch < c ∧ (v ch).isNan = false) → best x < c ∧ (v (best x)).isNan = false ∧
            (∀ ch, ch < c → (v ch).isNan = false → (v (best x)).below (v ch) = false) ∧
            ∀ ch, ch < best x → (v ch).isNan = true ∨ (v ch).below (v (best x)) = true))) ∧
    (∀ (bo h w c pa bs ext : Nat), d.op = 0x25 → d.w 2 = own bo → d.w 3 = own dof → d.w 4 = ext * 2 ^ 32 → ext < 2 ^ 32 →
      d.w 5 = (h - 1) * 2 ^ 52 + (w - 1) * 2 ^ 40 + (c - 1) * 2 ^ 28 + pa * 2 ^ 12 → d.w 6 = bs * 2 ^ 21 → d.w 7 = 0 →
      0 < h → h ≤ 4096 → 0 < w → w ≤ 4096 → 0 < c → c ≤ 4096 → pa < 2 ^ 16 → bs < 2 ^ 20 → 4 * c ≤ 64 * bs → bo % 16 = 0 →
      ao + (h - 1) * (64 * pa) + 4 * w * c ≤ 2 ^ 24 → bo + 16 ≤ 2 ^ 24 → dof + 4 * c ≤ 2 ^ 24 → CleanSram s p bo 16 →
      (∀ y, y < h → CleanSram s p (ao + y * (64 * pa)) (4 * w * c)) →
      let g := fun i => fpAt s p (bo + 4 * i); let y := cropCoord false (g 0) (g 2) 1 0; let x := cropCoord false (g 1) (g 3) 1 0
      let finite := ∀ i, i < 4 → (g i).isNan = false ∧ (g i).isInf = false
      let outside := cropOutside y h = true ∨ cropOutside x w = true
      (¬ finite ∨ outside → Completes (.cropResize p) s (fun t => ∃ cycles, VectorDone s t p d dof (fpBytes (List.replicate c (ofFp32 ext))) cycles 0)) ∧
      (finite → ¬ outside → let ty := cropTaps y h; let tx := cropTaps x w
        let px := fun (r k ch : Nat) => rne32 (fpAt s p (ao + r * (64 * pa) + 4 * (k * c + ch)))
        Completes (.cropResize p) s (fun t => ∃ cycles, VectorDone s t p d dof (fpBytes ((List.range c).map (fun ch =>
          bilinear ty.2.2 tx.2.2 (px ty.1 tx.1 ch) (px ty.1 tx.2.1 ch) (px ty.2.1 tx.1 ch) (px ty.2.1 tx.2.1 ch)))) cycles 0)))

/-- For an LB_CONFIG in stream 3 that may issue with its fields in order: DEFINE sets up its line buffer with base, halo, kept rows, slot pitch, first row, credit target and empty counters; EXPORT arms its entry for the logical tile and offset of its address and zeroes its credit counter; UNDEFINE and UNEXPORT clear the defined and armed flags; each then waits to complete. RELEASE of a buffer whose rows have arrived moves its release pointer by the rows, posts the credit to its own counter if the target is the tile itself, and completes; with too few rows its stream waits, and LB_RELEASE_APPLY applies the waiting release once they have arrived and changes nothing before. -/
def Obligations.LineBuffersAreConfiguredAndReleased : Prop :=
  ∀ (p : Fin 36) (d : Desc) (s : State), let t0 := s.tiles.get p; let x0 := streamOf t0 3; let b := lbNum d
    d.op = 0x40 →
    (IssuesNow s p 3 d →
      let held : Tile → Tile := fun T => { T with issued := t0.issued ++ [workDone d 3 0] }; let next := { x0 with pre := x0.pre.drop 1 }
      (∀ o, lbOp d = 0 → d.w 1 = own o → o % 128 = 0 → o + lbRing d ≤ 2 ^ 24 → lbFieldsBad d true true false true false true true = false →
        lbOverlaps t0 b o (lbRing d) = false →
        Completes (.lbConfigDefine p) s (fun t => StreamStep s t p 3 (held { t0 with lbs := t0.lbs.set b {
          defined := true, base := o, h := lbHalo d, k := lbSkew d, pitch := lbPitch d * 64, y0 := lbY0 d, rc := 0, rp := 0, fill := Tab.const 0,
          cen := bit (d.w 3) 15, ltile := field (d.w 3) 12 8, self := bit (d.w 3) 5, ctr := field (d.w 3) 3 0 } }) (semTaken t0 d) next)) ∧
      (∀ l o, lbOp d = 1 → d.w 1 = 2 ^ 63 + l * 2 ^ 48 + o → l < 32 → o < 2 ^ 24 → o + lbRing d ≤ 2 ^ 24 → (lmapPhys (t0.lmap.get l)).isSome = true →
        lbFieldsBad d true false true true false false true = false →
        Completes (.lbConfigExport p) s (fun t => StreamStep s t p 3 (held { t0 with
          exports := t0.exports.set (lbExp d) { armed := true, base := o, ltile := l, n := lbHalo d + lbSkew d, pitch := lbPitch d * 64, y0 := lbY0 d,
                                                wrow := 0, issued := 0, ctr := field (d.w 3) 3 0 }
          ev := t0.ev.set (field (d.w 3) 3 0) 0 }) (semTaken t0 d) next)) ∧
      (lbOp d = 3 → lbFieldsBad d false true false false false false false = false →
        Completes (.lbConfigUndefine p) s (fun t => StreamStep s t p 3 (held { t0 with lbs := t0.lbs.modify b (fun x => { x with defined := false }) })
          (semTaken t0 d) next)) ∧
      (lbOp d = 4 → lbFieldsBad d false false true false false false false = false →
        Completes (.lbConfigUnexport p) s (fun t => StreamStep s t p 3
          (held { t0 with exports := t0.exports.modify (lbExp d) (fun x => { x with armed := false }) }) (semTaken t0 d) next))) ∧
    (lbOp d = 2 → let x := t0.lbs.get b; let n := lbRel d
      lbFieldsBad d false true false false true false false = false → x.defined = true → (x.cen = false ∨ x.self = true) →
      let T : Tile := { t0 with
        lbs := t0.lbs.modify b (fun y => lbAdvance (y.h + y.k) { y with rp := y.rp + n })
        ev := if x.cen then t0.ev.modify (x.ctr % 16) (fun v => (v + n) % 65536) else t0.ev }
      (IssuesNow s p 3 d → (∀ i, semSignalled t0 d i ≤ 255) →
        (n ≤ x.rc - x.rp → Completes (.lbConfigRelease p) s (fun t => StreamStep s t p 3 T (semSignalled t0 d) { x0 with pre := x0.pre.drop 1 })) ∧
        (x.rc - x.rp < n → Completes (.lbConfigRelease p) s (fun t =>
          StreamStep s t p 3 t0 (semTaken t0 d) { x0 with pre := x0.pre.drop 1, waiting := some (s.dt, d) }))) ∧
      (∀ since, waitingIn t0 3 = some (since, d) → tileClocked s p = true → Untraced s d → (∀ i, t0.sem.get i + d.sigs.count i ≤ 255) →
        (n ≤ x.rc - x.rp → Completes (.lbReleaseApply p) s (fun t =>
          StreamStep s t p 3 T (fun i => t0.sem.get i + d.sigs.count i) { x0 with waiting := none })) ∧
        (x.rc - x.rp < n → exec (.lbReleaseApply p) s = .next s)))

/-- ATTN_PAGE of FP8 (or wider) Q in own SRAM and a clean FP8 page within one die's DRAM, with init: with no valid slot every row's entry becomes m minus infinity, l and flags 0, its O row 0, and the page's cycles count; with valid slots each row's entry and O row are what folding the page into the initial row gives (R160 to R162). ATTN_COMBINE of one partial per row from own SRAM with a final FP32 output stores O divided by L for an ordinary row, and zeros for a row that saw nothing. Memory outside the entries or rows is unchanged and the descriptor waits to complete. -/
def Obligations.AttentionPagesAndCombination : Prop :=
  ∀ (p : Fin 36) (d : Desc) (s : State), let t0 := s.tiles.get p
    (∀ (qo so kv m f count : Nat), IssuesNow s p 0 d → d.op = 0x12 → d.w 1 = own qo → d.w 2 = own so → d.w 3 = kv → f = field (d.w 6) 24 21 →
      count = field (d.w 6) 31 25 → m = attnM d → attnInit d = true → attnIsWalk d = false → bit (d.w 6) 4 = false → bit (d.w 6) 3 = false →
      attnBad d = false → kvFmtOk f = true → attnPairOk d f = true → count ≤ 64 → pageOk kv (attnD d) f = true → kv < 2 ^ 48 → attnD d ≤ 128 →
      qo % 64 = 0 → so % 16 = 0 → qo + (m - 1) * attnPitch d + attnD d * (fmtBits (fmtCode (attnFmtQ d)) / 8) ≤ 2 ^ 24 → so + 16 * m ≤ 2 ^ 24 →
      CleanDram s kv (pageBytes (attnD d) f) → pathUsable s p (dieOf p) = true → (∀ k, target kv = .dram k (kv % dieSpan) → pathUsable s p k = true ∧
        refusal s false kv 256 = none) →
      (∀ i, i < m → CleanSram s p (qo + i * attnPitch d) (attnD d * (fmtBits (fmtCode (attnFmtQ d)) / 8))) →
      let page := s.fab.mem.readN kv (pageBytes (attnD d) f)
      let q := fun i => aRow (rowVals (attnFmtQ d) (s.fab.mem.readN (tileWindow p + qo + i * attnPitch d) (attnD d * (fmtBits (fmtCode (attnFmtQ d)) / 8))) []
        (attnD d), []) 0
      let row := fun i => if count = 0 then rowInit (attnD d)
        else (rowStep d f count (field (d.w 7) 63 32) (some (kvRows (attnD d) f 0 page, (kvRows (attnD d) f 64 page).map (·.vals)))
          (fun _ => 0) i (q i) (rowInit (attnD d))).1
      Completes (.attnPage p) s (fun t =>
        t = { s with fab := { s.fab with mem := t.fab.mem, poison := t.fab.poison }, tiles := t.tiles, free := s.free + m } ∧
        StoresAt s t (tileWindow p + so) (((List.range m).map (fun i => rowEntry (row i))).flatten) ∧
        (∀ k, k ≠ p.val → t.tiles.get k = s.tiles.get k) ∧
        TileStep t0 { t0 with issued := t0.issued ++ [workDone d 0 (2 ^ attnAcc d)], busyMat := (t0.busyMat + pageCycles d f) % 2 ^ 64,
                              busySfu := (t0.busySfu + (65 * m + 63) / 64) % 2 ^ 64, acc := (t.tiles.get p).acc, lbs := (t.tiles.get p).lbs,
                              symErr := (t.tiles.get p).symErr }
          (t.tiles.get p) 0 (semTaken t0 d) { streamOf t0 0 with pre := (streamOf t0 0).pre.drop 1 } ∧
        (∀ k, k ≠ attnAcc d → (t.tiles.get p).acc.get k = t0.acc.get k) ∧
        ∀ i c, i < m → c < attnD d → ((t.tiles.get p).acc.get (attnAcc d)).cells.get (128 * i + c) = (row i).o.getD c (0, false))) ∧
    (∀ (lo so oo dof : Nat), IssuesNow s p 1 d → d.op = 0x26 → d.w 1 = own lo → d.w 2 = own dof → d.w 3 = 0 → d.w 4 = 0 → d.w 5 = 0 → d.w 6 = 0 → d.w 7 = 0 →
      lo + 16 ≤ 2 ^ 24 → so + 16 ≤ 2 ^ 24 → oo + 4 ≤ 2 ^ 24 → dof + 4 ≤ 2 ^ 24 → CleanSram s p lo 16 → CleanSram s p so 16 → CleanSram s p oo 4 →
      leNat (s.fab.mem.readN (tileWindow p + lo) 8) = own so → leNat (s.fab.mem.readN (tileWindow p + lo + 8) 8) = own oo →
      wordIn s p (so + 8) % 4 = 0 →
      let m := fpAt s p so; let l := fpAt s p (so + 4); let o := fpAt s p oo
      (m = .inf true → Completes (.attnCombine p) s (fun t => ∃ cycles, VectorDone s { t with free := s.free } p d dof (fpBytes [vzero]) cycles 1)) ∧
      (m.isNan = false → m ≠ .inf true → fadd vzero (fmul (Val.ofInt 1) l) ≠ vzero → (fadd vzero (fmul (Val.ofInt 1) l)).eq vzero = false →
        Completes (.attnCombine p) s (fun t => ∃ cycles, VectorDone s { t with free := s.free } p d dof
          (fpBytes [rne32 ((fadd vzero (fmul (Val.ofInt 1) o)).div (fadd vzero (fmul (Val.ofInt 1) l)))]) cycles 1)))

/-- On a tile whose head may issue: ATTN_WALK of a table that exists pins the table's current generation for that tile and waits; of a table that does not it waits too, and counts the refused write. ATTN_WALK_PIN_DONE with the pin held and head and part within the table takes the pin results and stops at the smaller of the range's end and the table's pages; with the pin refused it ends the launch of a quiet tile with FETCH_ERROR. WALK_PTE_READ of one clean block of entries in order keeps those with a count. WALK_QUEUE_PUSH moves one page into the queue of 8, or the end marker once no page is left, and nothing while the queue is full. ATTN_PAGE_EMIT with the end marker first only initialises the template's state and takes the marker. ATTN_WALK_UNPIN once the marker is taken and no page is under way releases the pin and ends the wait. -/
def Obligations.PageWalkerWalksATable : Prop :=
  ∀ (p : Fin 36) (s : State), let t0 := s.tiles.get p; let x0 := streamOf t0 3; let tbl := fun n => s.kvt.tables.get n
    (∀ (d : Desc), IssuesNow s p 3 d → d.op = 0x41 → field (d.w 1) 63 53 = 0 → field (d.w 1) 23 22 = 0 → d.w 2 < 4 → d.zeroFrom 3 = true →
      field (d.w 1) 38 24 ≠ 0 → field (d.w 1) 38 24 ≤ 16384 → pathUsable s p 4 = true → s.kvt.pins.get p = none →
      let n := field (d.w 1) 11 0; let k := currentSlot (tbl n); let ok := (tbl n).defined = true ∧ (tbl n).destroying = false
      Completes (.attnWalk p) s (fun t => t = { s with kvt := t.kvt, tiles := t.tiles } ∧ (∀ q, q ≠ p.val → t.tiles.get q = s.tiles.get q) ∧
        TileStep t0 { t0 with walk := some { desc := d, head := field (d.w 1) 15 12, status := if (tbl n).defined && !(tbl n).destroying then stOk else stDecodeError,
                                             ready := false, pinA := 0, pinB := 0, nextPg := field (d.w 1) 52 39, stop := 0, ptes := [], queue := [],
                                             ended := false, taken := false, first := false } }
          (t.tiles.get p) 3 (semTaken t0 d) { x0 with pre := x0.pre.drop 1, waiting := some (s.dt, d) } ∧
        (ok → t.kvt = { s.kvt with pins := t.kvt.pins, tables := t.kvt.tables } ∧ t.kvt.pins.get p = some (n, k) ∧
          (∀ q, q ≠ p.val → t.kvt.pins.get q = s.kvt.pins.get q) ∧ (∀ m, m ≠ n → t.kvt.tables.get m = tbl m) ∧
          t.kvt.tables.get n = { tbl n with slots := (tbl n).slots.modify k (fun x => { x with refs := x.refs + 1 }) }) ∧
        (¬ ok → t.kvt = { s.kvt with errCnt := cnt s.kvt.errCnt 1 }))) ∧
    (∀ (w : Walk), t0.walk = some w → liveRun s p = true → tileClocked s p = true →
      (w.ready = false → w.status = stOk → ∀ n k, s.kvt.pins.get p = some (n, k) → w.head ≤ field (pinRes s p).2 15 12 →
        (field (pinRes s p).2 54 53 = 1 ∨ field (w.desc.w 1) 21 16 = 0) →
        Completes (.attnWalkPinDone p) s (fun t => TileOnly s t p ∧ t.tiles.get p = { t0 with walk := some { w with
          ready := true, pinA := (pinRes s p).1, pinB := (pinRes s p).2
          stop := min (w.nextPg + field (w.desc.w 1) 38 24) (field (pinRes s p).2 30 16) } })) ∧
      (w.ready = false → w.status ≠ stOk → t0.issued = [] → Completes (.attnWalkPinDone p) s (fun t => LaunchEnded s t p stTileError ∧
        Recorded t0 (t.tiles.get p) teFetch 3 w.desc.tag w.desc.addr)) ∧
      (w.ready = true → w.ended = false → w.ptes = [] → field w.pinB 54 53 = 0 →
        let a := field w.pinA 47 6 * 64 + (w.head * field w.pinB 46 32 + w.nextPg) * 8; let n := min (8 - a / 8 % 8) (w.stop - w.nextPg)
        let e := fun i => fld (s.fab.mem.readN (a / 64 * 64) 64) (a % 64 + 8 * i) 8
        w.nextPg < w.stop → FetchClean s p (a / 64 * 64) 64 → (∀ i, i < n → pteBad w (e i) = false) →
        Completes (.walkPteRead p) s (fun t => TileOnly s t p ∧ t.tiles.get p = { t0 with walk := some { w with
          nextPg := w.nextPg + n
          ptes := (List.range n).filterMap (fun i => if field (e i) 54 48 = 0 then none else
            some { addr := field (e i) 47 12 * 4096, count := field (e i) 54 48, fmt := field (e i) 63 60, kpos0 := (w.nextPg + i) * 64 % 2 ^ 32 }) } })) ∧
      (w.ready = true → w.ended = false →
        (∀ x r, w.ptes = x :: r → w.queue.length < 8 → Completes (.walkQueuePush p) s (fun t => TileOnly s t p ∧
          t.tiles.get p = { t0 with walk := some { w with ptes := r, queue := w.queue ++ [some x] } })) ∧
        (w.ptes = [] → w.stop ≤ w.nextPg → w.queue.length < 8 → Completes (.walkQueuePush p) s (fun t => TileOnly s t p ∧
          t.tiles.get p = { t0 with walk := some { w with queue := w.queue ++ [none], ended := true } })) ∧
        (8 ≤ w.queue.length → exec (.walkQueuePush p) s = .next s)) ∧
      (∀ d r, IssuesNow s p 0 d → d.op = 0x12 → attnIsWalk d = true → attnBad d = false → attnD d = walkD w → w.queue = none :: r →
        attnInit d = false → (attnOffs t0 p d).isSome = true →
        Completes (.attnPageEmit p) s (fun t => TileOnly s t p ∧
          TileStep t0 { t0 with walk := some { w with queue := [], taken := true }, issued := t0.issued ++ [workDone d 0 (attnAccMask d)] }
            (t.tiles.get p) 0 (semTaken t0 d) { streamOf t0 0 with pre := (streamOf t0 0).pre.drop 1 })) ∧
      (∀ since, w.taken = true → t0.issued = [] → waitingIn t0 3 = some (since, w.desc) → w.desc.op = 0x41 → Untraced s w.desc →
        pathUsable s p 4 = true → (∀ i, t0.sem.get i + w.desc.sigs.count i ≤ 255) → ∀ n k, s.kvt.pins.get p = some (n, k) → k < 8 →
        ((tbl n).slots.get k).state = 1 → ((tbl n).slots.get k).commit ≤ (tbl n).released →
        Completes (.attnWalkUnpin p) s (fun t => t = { s with kvt := t.kvt, tiles := t.tiles } ∧ (∀ q, q ≠ p.val → t.tiles.get q = s.tiles.get q) ∧
          t.kvt = { s.kvt with pins := t.kvt.pins, tables := t.kvt.tables } ∧ t.kvt.pins.get p = none ∧
          (∀ m, m ≠ n → t.kvt.tables.get m = tbl m) ∧
          t.kvt.tables.get n = { tbl n with slots := (tbl n).slots.modify k (fun x => { x with refs := x.refs - 1 }) } ∧
          TileStep t0 { t0 with walk := none } (t.tiles.get p) 3 (fun i => t0.sem.get i + w.desc.sigs.count i) { x0 with waiting := none })))

/-- HUB_KVT_PIN by a tile without a pin of a defined table counts one more reference on its current generation; of a table that is absent or being destroyed, or by a source that is no tile, it only counts an error. HUB_KVT_UNPIN of a generation that stays referenced or current gives the reference back. HUB_KVT_APPEND raises the entry's token count in the page table in DRAM where the new one is larger, and counts the append. KV_TABLE_CREATE with legal fields defines the table with one current generation, commit 1 and append 0, and answers what it applied; a defined table answers BUSY. KV_TABLE_DESTROY of an unpinned table whose current generation is commit 1 ends it and reports its release. PAGE_COMMIT with the current commit and append numbers makes the new generation current and the old one DRAINING while pinned; with others it answers STALE. KV_TABLE_QUERY reports the table. -/
def Obligations.KvTablesPinAppendAndCommit : Prop :=
  ∀ s : State, let tbl := fun n => s.kvt.tables.get n; let slot := fun n k => (tbl n).slots.get k
    (∀ (src : BitVec 8) (v : Quad), let n := v.toNat % 4096; let ok := (tbl n).defined = true ∧ (tbl n).destroying = false
      (src.toNat < 36 → s.kvt.pins.get src.toNat = none → ok → exec (.hubKvtPin src v) s = .next { s with kvt := { s.kvt with
        tables := s.kvt.tables.modify n (fun t => { t with slots := t.slots.modify (currentSlot (tbl n)) (fun x => { x with refs := x.refs + 1 }) })
        pins := s.kvt.pins.set src.toNat (some (n, currentSlot (tbl n))) } }) ∧
      ((36 ≤ src.toNat ∨ s.kvt.pins.get src.toNat = none ∧ ¬ ok) → exec (.hubKvtPin src v) s = .next { s with kvt.errCnt := cnt s.kvt.errCnt 1 }) ∧
      (36 ≤ src.toNat → exec (.hubKvtUnpin src) s = .next { s with kvt.errCnt := cnt s.kvt.errCnt 1 }) ∧
      (src.toNat < 36 → s.kvt.pins.get src.toNat = none → exec (.hubKvtUnpin src) s = .next s)) ∧
    (∀ (src : BitVec 8) (n k : Nat), src.toNat < 36 → s.kvt.pins.get src.toNat = some (n, k) → (slot n k).state = 1 → (slot n k).commit ≤ (tbl n).released →
      k < 8 →
      Completes (.hubKvtUnpin src) s (fun t => t = { s with kvt := { s.kvt with pins := t.kvt.pins, tables := t.kvt.tables } } ∧
        t.kvt.pins.get src.toNat = none ∧ (∀ q, q ≠ src.toNat → t.kvt.pins.get q = s.kvt.pins.get q) ∧ (∀ m, m ≠ n → t.kvt.tables.get m = tbl m) ∧
        t.kvt.tables.get n = { tbl n with slots := (tbl n).slots.modify k (fun x => { x with refs := x.refs - 1 }) })) ∧
    (∀ (src : BitVec 8) (v : Quad), let n := v.toNat % 4096; let x := slot n (currentSlot (tbl n)); let h := field v.toNat 53 50
      let pg := field v.toNat 49 36; let c := field v.toNat 60 54; let a := x.root + (h * x.hstride + pg) * 8; let e := leNat (s.fab.mem.readN a 8)
      (tbl n).defined = true → (tbl n).destroying = false → h < (tbl n).heads → pg < x.npages → c ≤ 64 → CleanDram s a 8 → a % 8 = 0 →
      Completes (.hubKvtAppend src v) s (fun t =>
        t = { s with fab := { s.fab with mem := t.fab.mem, poison := t.fab.poison, symErr := t.fab.symErr, lost := t.fab.lost }, kvt := t.kvt } ∧
        t.kvt = { s.kvt with tables := s.kvt.tables.modify n (fun t => { t with append := (t.append + 1) % 2 ^ 32 }) } ∧
        StoresAt s t a (leBytes 8 (if field e 54 48 < c then e - field e 54 48 * 2 ^ 48 + c * 2 ^ 48 else e)))) ∧
    (∀ (ch : Fin 4) (r : Request), Plain s r →
      (let n := payField r 0 2; let heads := payField r 2 1; let dim := payField r 3 2; let mode := payField r 5 1; let parts := payField r 6 1
       let shard := payField r 7 1; let root := payField r 8 8; let np := payField r 16 4; let hs := payField r 20 4
       n < 4096 → 1 ≤ heads → heads ≤ 16 → 32 ≤ dim → dim ≤ 256 → dim % 32 = 0 → mode ≤ 2 → 1 ≤ parts → parts ≤ 64 → shard < parts → root % 64 = 0 →
       root < 4 * dieSpan → 1 ≤ np → np ≤ 16384 → np ≤ hs → hs ≤ 16384 → payField r 24 8 = 0 → r.length = 32 →
       ((tbl n).defined = true → AnswersOnly (.kvTableCreate ch r) s ch 0x0600 r stBusy 0 []) ∧
       ((tbl n).defined = false → Accepts (.kvTableCreate ch r) s ch 0x0600 r 0 (payBytes r ++ leBytes 4 1 ++ leBytes 4 0) (fun t =>
         t = { s with host := t.host, kvt.tables := t.kvt.tables } ∧ (∀ m, m ≠ n → t.kvt.tables.get m = tbl m) ∧
         (let u := t.kvt.tables.get n
          u.defined = true ∧ u.destroying = false ∧ u.heads = heads ∧ u.d = dim ∧ u.mode = mode ∧ u.parts = parts ∧ u.shard = shard ∧ u.commit = 1 ∧
          u.append = 0 ∧ u.released = 1 ∧ u.slots.get 0 = { state := 1, root := root, npages := np, hstride := hs, commit := 1, refs := 0 } ∧
          ∀ k, k ≠ 0 → (u.slots.get k).state = 0)))) ∧
      (let n := payField r 0 2
       n < 4096 → r.length = 2 →
       ((tbl n).defined = false → AnswersOnly (.kvTableDestroy ch r) s ch 0x0601 r stNotDefined 0 [] ∧ AnswersOnly (.kvTableQuery ch r) s ch 0x0603 r stNotDefined 0 []) ∧
       ((tbl n).defined = true → AnswersOnly (.kvTableQuery ch r) s ch 0x0603 r stOk 0
         (leBytes 4 (tbl n).heads ++ leBytes 4 (tbl n).d ++ leBytes 4 (tbl n).mode ++ leBytes 4 (tbl n).parts ++ leBytes 4 (tbl n).shard ++
          leBytes 4 (tbl n).commit ++ leBytes 4 (tbl n).append ++ leBytes 4 (currentSlot (tbl n)) ++
          catMap 8 (fun i => leBytes 4 (slot n i).state ++ leBytes 4 (slot n i).refs ++ leBytes 4 (slot n i).commit) ++ leBytes 4 (tbl n).released)) ∧
       ((tbl n).defined = true → (tbl n).commit = 1 → (tbl n).released = 1 → (slot n 0).state = 1 → (slot n 0).refs = 0 →
         (∀ k, k ≠ 0 → (slot n k).state = 0) → AcceptsEv (.kvTableDestroy ch r) s ch 0x0601 r 0 (leBytes 4 0) (fun t =>
           t = { s with host := t.host, kvt.tables := t.kvt.tables } ∧ (∀ m, m ≠ n → t.kvt.tables.get m = tbl m) ∧
           (t.kvt.tables.get n).defined = false ∧ Raised s t 0x0600 0 [n + 2 * 2 ^ 32]))) ∧
      (let n := payField r 0 2; let np := payField r 12 4; let root := payField r 16 8; let hs := payField r 24 4; let old := currentSlot (tbl n)
       n < 4096 → payField r 2 2 = 0 → 1 ≤ np → np ≤ hs → hs ≤ 16384 → root % 64 = 0 → root < 4 * dieSpan → payField r 28 4 = 0 → r.length = 32 →
       (tbl n).defined = true → (tbl n).destroying = false →
       ((payField r 4 4 ≠ (tbl n).commit ∨ payField r 8 4 ≠ (tbl n).append) → AnswersOnly (.pageCommit ch r) s ch 0x0602 r stStale 0 []) ∧
       (∀ k, payField r 4 4 = (tbl n).commit → payField r 8 4 = (tbl n).append → k < 8 → (slot n k).state = 0 → (∀ j, j < k → (slot n j).state ≠ 0) →
         (slot n old).state = 1 → 0 < (slot n old).refs → (slot n old).commit ≤ (tbl n).released → (tbl n).commit + 1 < 2 ^ 32 →
         Accepts (.pageCommit ch r) s ch 0x0602 r 0 (leBytes 4 ((tbl n).commit + 1) ++ leBytes 4 k ++ leBytes 4 np ++ leBytes 4 hs) (fun t =>
           t = { s with host := t.host, kvt.tables := t.kvt.tables } ∧ (∀ m, m ≠ n → t.kvt.tables.get m = tbl m) ∧
           t.kvt.tables.get n = { tbl n with commit := (tbl n).commit + 1, slots := (t.kvt.tables.get n).slots } ∧
           ∀ j, (t.kvt.tables.get n).slots.get j =
             if j = k then { state := 1, root := root, npages := np, hstride := hs, commit := (tbl n).commit + 1, refs := 0 }
             else if j = old then { slot n old with state := 2 } else slot n j))))

/-- TIME_SAMPLE with no source changes nothing but the time of the command; in ACQUIRE with no chain running and an offset beyond the step threshold (of at least 50 ns) it steps device time back by the offset and counts the step; in LOCKED with an offset within 50 ns it slews, the new rate within 500 ppm being a free value (log entry 6); the 16th good sample in a row in ACQUIRE enters LOCKED and reports it. SAMPLE_TIMEOUT after 8 intervals without a sample enters HOLDOVER at the average of the last rates, before that nothing. TIME_CONFIG in FREERUN with legal fields takes them and enters ACQUIRE for a source. TIME_SET sets device time while no chain runs and no source is selected, else answers BUSY. TIME_QUERY reports. TIM_CAL_CTRL.cnt_clr zeroes the counters of the time base and of every chain. DELUF_TIME_MESSAGE of the time master sends the time to every device it has a route to. Each changes only what is named. -/
def Obligations.TimeBaseServoAndCommands : Prop :=
  (∀ (now : Nat) (off : Int) (s : State), let s' := s.advance now; let u := s'.time
    (s.time.src = 0 → exec (.timeSample now off) s = .next s') ∧
    (s.time.src ≠ 0 → u.state = 1 → chainsRunning s = false → u.stepThr * 65536 < off.natAbs → 50 ≤ u.stepThr →
      Completes (.timeSample now off) s (fun t => t = { s' with time := { u with
          offset := off, sampleCnt := cnt u.sampleCnt 1, lastSample := u.dt, srcReject := false, stepInhibit := false, good := 0,
          bad := if 500 * 65536 < off.natAbs then u.bad + 1 else 0, dt := t.time.dt, frac := t.time.frac, stepCnt := cnt u.stepCnt 1 } } ∧
        t.time.frac < 2 ^ 48 ∧ t.time.dt * 2 ^ 48 + t.time.frac =
          (max 0 (((u.dt * 2 ^ 48 + u.frac : Nat) : Int) - off * 2 ^ 32)).toNat % 2 ^ 112)) ∧
    (s.time.src ≠ 0 → u.state = 2 → off.natAbs ≤ 50 * 65536 → Completes (.timeSample now off) s (fun t => t = { s' with
        free := s.free + 1
        time := { u with offset := off, sampleCnt := cnt u.sampleCnt 1, lastSample := u.dt, srcReject := false, stepInhibit := false,
                         good := min 255 (u.good + 1), bad := 0, rate := t.time.rate, rates := (t.time.rate :: u.rates).take 64 } } ∧
      t.time.rate.natAbs ≤ 2147484)) ∧
    (s.time.src ≠ 0 → u.state = 1 → off.natAbs ≤ 50 * 65536 → 50 ≤ u.stepThr → 15 ≤ u.good →
      Completes (.timeSample now off) s (fun t => t = { s' with host := t.host, free := s.free + 1, time := t.time } ∧ t.time.state = 2 ∧
        t.time.good = min 255 (u.good + 1) ∧ t.time.dt = u.dt ∧ t.time.rate.natAbs ≤ 2147484 ∧ EventsOnly s t ∧ Raised s' t 0x0400 2 [uint 64 off])) ∧
    (let due := u.lastSample + 8 * sampleInterval u ≤ u.dt ∧ (u.state = 1 ∨ u.state = 2)
     (due → Completes (.sampleTimeout now) s (fun t => EventsOnly s t ∧ t = { s' with host := t.host, time := { u with
        state := 3, good := 0, bad := 0, rate := if u.rates = [] then u.rate else u.rates.sum / (u.rates.length : Int),
        unlockCnt := if u.state = 2 then cnt u.unlockCnt 1 else u.unlockCnt } })) ∧
     (¬ due → exec (.sampleTimeout now) s = .next s'))) ∧
  (∀ (ch : Fin 4) (r : Request) (s : State), Plain s r →
    (let src := payField r 0 1; let sl := sint 8 (payField r 3 1)
     s.time.state = 0 → r.length = 16 → src ≤ 3 → payField r 1 1 ≤ 3 → payField r 2 1 ≤ 47 → -5 ≤ sl → sl ≤ 0 → 1000 ≤ payField r 4 4 →
     payField r 4 4 ≤ 1000000 → payField r 8 8 = 0 →
     Accepts (.timeConfig ch r) s ch 0x0400 r 0 (payBytes r) (fun t => t = { s with host := t.host, time := { s.time with
       src := src, ethPort := payField r 1 1, delufMaster := payField r 2 1, syncLog := sl, stepThr := payField r 4 4, lastSample := s.time.dt,
       state := if src = 0 then 0 else 1, good := 0, bad := 0 } })) ∧
    ((chainsRunning s = true ∨ s.time.src ≠ 0) → AnswersOnly (.timeSet ch r) s ch 0x0401 r stBusy 0 []) ∧
    (chainsRunning s = false → s.time.src = 0 → Accepts (.timeSet ch r) s ch 0x0401 r 0 (leBytes 8 (payField r 0 8)) (fun t =>
      t = { s with host := t.host, time := { s.time with dt := payField r 0 8, frac := 0 } })) ∧
    AnswersOnly (.timeQuery ch r) s ch 0x0402 r stOk 0 (leBytes 8 s.time.dt ++ leBytes 4 (timCfg s.time) ++ leBytes 4 (timStat s) ++
      leBytes 8 (uint 64 s.time.offset) ++ leBytes 4 (uint 32 s.time.rate) ++ leBytes 4 s.time.unlockCnt ++ leBytes 4 s.time.sampleCnt ++
      leBytes 4 s.time.stepCnt)) ∧
  (∀ s : State, Completes .timCalCtrlCntClr s (fun t =>
    t = { s with time := { s.time with unlockCnt := 0, sampleCnt := 0, stepCnt := 0 }, cal := { s.cal with chains := t.cal.chains } } ∧
    ∀ c, t.cal.chains.get c = { s.cal.chains.get c with lateCnt := 0, maxLagSeen := 0, heldCnt := 0, dlMissCnt := 0, skipCnt := 0, vacCnt := 0, errCnt := 0 })) ∧
  (∀ (now : Nat) (s : State), let s' := s.advance now; let me := s.so.dlf.devnum
    (s.so.dlf.valid = true → s.time.src ≠ 3 → s.time.delufMaster = me → Completes (.delufTimeMessage now) s (fun t =>
      t = { s' with so := { s.so with dlf := { s.so.dlf with msgs := t.so.dlf.msgs } } } ∧
      ∃ l, t.so.dlf.msgs = s.so.dlf.msgs ++ l ∧ ∀ x, x ∈ l ↔ x.1 < 48 ∧ x.1 ≠ me ∧ s.so.dlf.rt.get x.1 ≠ 0xF ∧ x.2 = (4, s'.time.dt))) ∧
    ((s.so.dlf.valid = false ∨ s.time.src = 3 ∨ s.time.delufMaster ≠ me) → exec (.delufTimeMessage now) s = .next s'))

/-- PERIOD_START of a chain without skip, swap or open work, whose start time A has come: the chain runs period n at A, with its lag against the grid, the effective offsets of its entries still to be launched and the tile map of that moment; a first period starts at the chain's start, a later one at the latest of its grid point, the minimum period after the last start and the last completion; an on-time period raises nothing, the first late one raises CHAIN_LATE. Before its time nothing happens. LAUNCH_DUE of the next entry with no vacant target, no lag and room in every hold puts its strobe there and records the launch; before its time nothing happens. LAUNCH_HELD counts a strobe held longer than 100 ns once. LAUNCH_COMPLETE of the last target, in time, closes the launch and notes the time for its chain, an error status being counted and reported. QUENCH_FORECAST of an entry without a power figure changes nothing; of one for a single tile it lowers that tile's ceiling to the highest point at which the estimates hold. -/
def Obligations.CalendarStartsPeriodsAndLaunches : Prop :=
  (∀ (c : Fin 8) (now : Nat) (s : State), let s' := s.advance now; let x := s.cal.chains.get c
    let a := match x.n with
      | none => x.start
      | some n => max (x.start + (n + 1) * x.nominal) (max (x.at_ + x.min) x.w)
    let n := match x.n with
      | none => 0
      | some n => n + 1
    (x.state = .waiting ∨ x.state = .running) → x.toMake = [] → chainOpen s c = false → x.skipEn = false → x.swap = none →
    (x.runCount = 0 ∨ x.spent + 1 < x.runCount) → roleSilent s = false → s.time.state ≠ 4 → x.lateRun = 0 →
    (a ≤ s'.dt → let lag := a - (x.start + n * x.nominal)
      Completes (.periodStart c now) s (fun t => EventsOnly s t ∧
        t = { s' with host := t.host, cal := { s.cal with chains := t.cal.chains }, tiles := t.tiles } ∧
        (∀ k, k ≠ c.val → t.cal.chains.get k = s.cal.chains.get k) ∧
        (∀ p, t.tiles.get p = { s.tiles.get p with heldOff := (s.tiles.get p).heldOff.filter (· != c.val) }) ∧
        t.cal.chains.get c = { x with
          state := .running, n := some n, at_ := a, w := a, toMake := (effOffsets s.cal.entries x.first x.count x.min).1, ran := x.ran + 1,
          spent := x.spent + 1, map := s.bu.map, lag := sat 32 lag, lateCnt := if lag = 0 then x.lateCnt else cnt x.lateCnt 1,
          lateRun := if lag = 0 then 0 else 1, lateMax := if lag = 0 then x.lateMax else max x.lateMax lag,
          maxLagSeen := if lag = 0 then x.maxLagSeen else sat 32 (max x.maxLagSeen lag) } ∧
        (lag = 0 → t.host = s.host) ∧ (0 < lag → Raised s' t 0x0410 c [n, sat 32 lag]))) ∧
    (s'.dt < a → exec (.periodStart c now) s = .next s')) ∧
  (∀ (c : Fin 8) (now e off n : Nat) (rest : List (Nat × Nat)) (s : State), let s' := s.advance now; let x := s.cal.chains.get c
    let ent := s.cal.entries.get e; let tg := entryTargets x.map ent; let at_ := x.at_ + off
    x.toMake = (e, off) :: rest → x.n = some n → tg.2 = 0 → tg.1 ≠ [] → tg.1.Nodup → x.lag = 0 → (∀ g ∈ tg.1, (s.cal.held.get g).length < 64) →
    (∀ p ∈ tg.1, p < 36 → tileUnlaunchable s c p = false) →
    (at_ ≤ s'.dt → Completes (.launchDue c now) s (fun t =>
      t = { s' with cal := { s.cal with chains := t.cal.chains, made := t.cal.made, nextId := s.cal.nextId + 1, held := t.cal.held }, pwr.tiles := t.pwr.tiles } ∧
      t.cal.made = s.cal.made ++ [{ id := s.cal.nextId, chain := c, idx := n, entry := e, tag := BitVec.ofNat 32 (ceTag ent), sched := at_,
                                    deadline := ceDeadline ent, left := tg.1, err := none }] ∧
      t.cal.chains.get c = { x with toMake := rest } ∧ (∀ k, k ≠ c.val → t.cal.chains.get k = s.cal.chains.get k) ∧
      (∀ g, t.cal.held.get g = s.cal.held.get g ++ if g ∈ tg.1 then
        [{ launch := { strobe := entryStrobe ent n at_, link := some s.cal.nextId }, chain := c, counted := false }] else []) ∧
      ∀ p, t.pwr.tiles.get p = if p ∈ tg.1 ∧ p < 36 then { s.pwr.tiles.get p with period := x.nominal } else s.pwr.tiles.get p)) ∧
    (s'.dt < at_ → exec (.launchDue c now) s = .next s')) ∧
  (∀ (g : Fin 39) (now : Nat) (h : Held) (s : State), let s' := s.advance now
    s.cal.held.get g = [h] → s.pwr.state = .run → s.pwr.entering = none → h.counted = false → h.launch.strobe.dt + 100 < s'.dt →
    Completes (.launchHeld g now) s (fun t => t = { s' with cal := { s.cal with chains := t.cal.chains, held := t.cal.held } } ∧
      (∀ k, t.cal.held.get k = if k = g.val then [{ h with counted := true }] else s.cal.held.get k) ∧
      ∀ k, t.cal.chains.get k = if k = h.chain then { s.cal.chains.get k with heldCnt := cnt (s.cal.chains.get k).heldCnt 1 } else s.cal.chains.get k)) ∧
  (∀ (g : Fin 39) (now : Nat) (l : Launch) (st : Half) (rest : List (Launch × Half)) (m : Made) (s : State), let s' := s.advance now
    s.cal.done.get g = (l, st) :: rest → l.link = some m.id → s.cal.made = [m] → m.left = [g.val] → m.err = none → m.deadline = 0 →
    (s.cal.chains.get m.chain).state = .running → (s.cal.chains.get m.chain).runCount = 0 → s.time.state ≠ 4 →
    Completes (.launchComplete g now) s (fun t => EventsOnly s t ∧
      t = { s' with host := t.host, cal := { s.cal with chains := t.cal.chains, made := [], done := s.cal.done.set g rest } } ∧
      (∀ k, k ≠ m.chain → t.cal.chains.get k = s.cal.chains.get k) ∧
      t.cal.chains.get m.chain = { s.cal.chains.get m.chain with
        w := max (s.cal.chains.get m.chain).w s'.dt
        errCnt := if st = stOk then (s.cal.chains.get m.chain).errCnt else cnt (s.cal.chains.get m.chain).errCnt 1 } ∧
      (st = stOk → t.host = s.host) ∧
      (st ≠ stOk → g.val < 36 → Raised s' t 0x0414 m.chain
        [m.idx % 2 ^ 32 + st.toNat * 2 ^ 32 + g * 2 ^ 48, m.tag.toNat * 2 ^ 32 + m.entry % 4096 * 2 ^ 20]))) ∧
  (∀ (c : Fin 8) (e : Fin 4096) (now : Nat) (s : State), let s' := s.advance now; let x := s.cal.chains.get c; let ent := s.cal.entries.get e
    (cePower ent = 0 → exec (.quenchForecast c e now) s = .next s') ∧
    (∀ p best, x.state ≠ .idle → x.first ≤ e → e < x.first + x.count → ceValid ent = true → cePower ent ≠ 0 → p < 36 →
      entryTargets (if x.map = [] then s.bu.map else x.map) ent = ([p], 0) → best ≤ 6 → forecastFits s' [p] (cePower ent) best = true →
      (∀ k, best < k → k ≤ 6 → forecastFits s' [p] (cePower ent) k = false) → best < (s.pwr.tiles.get p).ceil →
      Completes (.quenchForecast c e now) s (fun t =>
        t = { s' with pwr.tiles := t.pwr.tiles, qch.fcCnt := cnt s.qch.fcCnt 1, fab.clk := t.fab.clk } ∧
        (∀ q, q ≠ p → t.pwr.tiles.get q = s.pwr.tiles.get q ∧ t.fab.clk.get q = s.fab.clk.get q) ∧
        t.pwr.tiles.get p = { s.pwr.tiles.get p with ceil := best, cool := 0, goal := (t.pwr.tiles.get p).goal } ∧
        ((s.pwr.tiles.get p).trans = false → (t.pwr.tiles.get p).goal = min (s.pwr.tiles.get p).host (min best (s.pwr.tiles.get p).budget)))))

/-- CAL_WRITE of one legal entry into a range that no running chain uses stores it, and answers BUSY where one does. CAL_READ returns the entries. CHAIN_CONFIG of an idle chain with legal fields takes them, and answers BUSY of a running one. CHAIN_START of configured idle chains makes them WAITING at the start sent, or at the next grid point at least 1 ms ahead; it answers BUSY if one is not idle and NOT_DEFINED if one is not configured. CHAIN_STOP of a waiting chain with no open work makes it idle. CHAIN_SWAP of a running chain notes the range for the first period at least 1 ms ahead, and answers NOT_DEFINED of another. CHAIN_QUERY reports configuration and registers. Each changes only that chain or those entries. -/
def Obligations.CalendarCommandsConfigureChains : Prop :=
  ∀ (ch : Fin 4) (r : Request) (s : State), Plain s r →
    (let first := payField r 0 2
     r.length = 40 → first < 4096 → payField r 2 2 = 1 → payField r 4 4 = 0 → payField r 16 2 % 16 = 0 → payField r 26 2 = 0 → payField r 30 2 = 0 →
     payField r 36 4 = 0 →
     (entriesLocked s first 1 = true → AnswersOnly (.calWrite ch r) s ch 0x0410 r stBusy 0 []) ∧
     (entriesLocked s first 1 = false → Accepts (.calWrite ch r) s ch 0x0410 r 0 (leBytes 2 1 ++ leBytes 2 0 ++ leBytes 4 0) (fun t =>
       t = { s with host := t.host, cal := { s.cal with entries := s.cal.entries.set first (slice (payBytes r) 8 32) } }))) ∧
    (∀ n, r.length = 4 → payField r 2 2 = n → 1 ≤ n → n ≤ 7 → payField r 0 2 + n ≤ 4096 →
      AnswersOnly (.calRead ch r) s ch 0x0411 r stOk 0 ((List.range n).map (fun i => s.cal.entries.get (payField r 0 2 + i))).flatten) ∧
    (let n := payField r 0 1; let nom := payField r 4 4; let x := s.cal.chains.get n
     r.length = 24 → n < 8 → payField r 1 1 ≤ 1 → payField r 2 2 = 0 → 100000 ≤ nom → nom ≤ 1000000000 → (nom + 1) / 2 ≤ payField r 8 4 →
     payField r 8 4 ≤ nom → payField r 12 2 + payField r 14 2 ≤ 4096 → payField r 12 2 < 4096 → nom ≤ payField r 20 4 →
     (x.state ≠ .idle → AnswersOnly (.chainConfig ch r) s ch 0x0412 r stBusy 0 []) ∧
     (x.state = .idle → Accepts (.chainConfig ch r) s ch 0x0412 r 0 (payBytes r) (fun t =>
       t = { s.modChain n (fun x => { x with
               configured := true, skipEn := decide (payField r 1 1 = 1), nominal := nom, min := payField r 8 4, first := payField r 12 2,
               count := payField r 14 2, runCount := payField r 16 4, maxLag := payField r 20 4 }) with host := t.host }))) ∧
    (let m := payField r 0 1; let at_ := payField r 8 8
     r.length = 16 → payField r 1 7 = 0 →
     ((∃ n, n < 8 ∧ bit m n = true ∧ (s.cal.chains.get n).state ≠ .idle) → AnswersOnly (.chainStart ch r) s ch 0x0413 r stBusy 0 []) ∧
     ((∀ n, n < 8 → bit m n = true → (s.cal.chains.get n).state = .idle) → (∃ n, n < 8 ∧ bit m n = true ∧ (s.cal.chains.get n).configured = false) →
       AnswersOnly (.chainStart ch r) s ch 0x0413 r stNotDefined 0 []) ∧
     ((∀ n, n < 8 → bit m n = true → (s.cal.chains.get n).state = .idle ∧ (s.cal.chains.get n).configured = true) →
       let at0 := fun n => if s.time.dt + 1000000 ≤ at_ then at_
         else at_ + (s.time.dt + 1000000 - at_ + (s.cal.chains.get n).nominal - 1) / (s.cal.chains.get n).nominal * (s.cal.chains.get n).nominal
       Accepts (.chainStart ch r) s ch 0x0413 r 0
         (catMap 8 (fun n => if bit m n then leBytes 8 (at0 n) ++
             leBytes 4 (effOffsets s.cal.entries (s.cal.chains.get n).first (s.cal.chains.get n).count (s.cal.chains.get n).min).2 ++ leBytes 4 0
           else leBytes 16 0)) (fun t =>
         t = { s with host := t.host, cal := { s.cal with chains := t.cal.chains } } ∧
         ∀ n, let x := s.cal.chains.get n
           t.cal.chains.get n = if n < 8 ∧ bit m n = true then { x with
             state := .waiting, n := none, at_ := 0, w := 0, toMake := [], ran := 0, spent := 0, swap := none, map := [], lateRun := 0, lateMax := 0, lag := 0,
             start := at0 n } else x))) ∧
    (∀ n, r.length = 2 → n < 8 → payField r 0 1 = 2 ^ n → payField r 1 1 = 0 → let x := s.cal.chains.get n
     x.state = .waiting → chainOpen s n = false → s.time.state ≠ 4 →
     Accepts (.chainStop ch r) s ch 0x0414 r 0 (catMap 8 (fun i => leBytes 8 (if i = n then x.n.getD (2 ^ 64 - 1) else 0))) (fun t =>
       t = { s with host := t.host, cal := { s.cal with chains := t.cal.chains } } ∧
       t.cal.chains.get n = { x with state := .idle, swap := none, toMake := [] } ∧ ∀ k, k ≠ n → t.cal.chains.get k = s.cal.chains.get k)) ∧
    (let n := payField r 0 1; let x := s.cal.chains.get n; let first := payField r 2 2; let count := payField r 4 2
     let k := if s.time.dt + 1000000 ≤ x.start then 0 else (s.time.dt + 1000000 - x.start + x.nominal - 1) / x.nominal
     r.length = 6 → n < 8 → payField r 1 1 = 0 → first < 4096 → first + count ≤ 4096 →
     (x.state ≠ .running → AnswersOnly (.chainSwap ch r) s ch 0x0415 r stNotDefined 0 []) ∧
     (x.state = .running → x.swap = none → Accepts (.chainSwap ch r) s ch 0x0415 r 0
       (leBytes 8 k ++ leBytes 4 (effOffsets s.cal.entries first count x.min).2) (fun t =>
         t = { s.modChain n (fun y => { y with swap := some (k, first, count) }) with host := t.host }))) ∧
    (r.length = 1 → payField r 0 1 < 8 → AnswersOnly (.chainQuery ch r) s ch 0x0416 r stOk 0
      (chainConfigBytes (payField r 0 1) (s.cal.chains.get (payField r 0 1)) ++ regBytes (chainRegs (s.cal.chains.get (payField r 0 1)) 0)))

/-- PLANNER_STROBE at a planner that refuses strobes changes nothing; at a busy one it waits; with a program above 15 it raises PLAN_ERROR and ends with BAD_PROGRAM; else it copies the request block from clean hub SRAM and pins the current epoch, a field out of range raising PLAN_ERROR and ending the search. PLAN_SEARCH_END with no set enabled ends with an empty list; with one NORMAL set of one primitive that fits the start state, has no cost samples and one swept entry, and with horizon 1, the list holds its end state if the map's root is EMPTY and nothing if it is FULL; the newest epoch is pinned for the check. PLAN_TIME_LIMIT before its time changes nothing, at its time it ends the search with BUDGET. PLAN_RELEASE of a ranked cycle whose check epoch is its search epoch releases rank 0 with status NEW, of a bad request NO_SAFE_PLAN with no primitive. The three change nothing without a cycle in their phase. SIE_PUBLISH of an open buffer with a right header and the next epoch makes it current, and is refused with a decode error of a current or pinned buffer or a wrong epoch. PLN_CTRL.cnt_clr zeroes the counters, launch_en is as written. -/
def Obligations.PlannerCyclesRunAndRelease : Prop :=
  (∀ (b : Strobe) (s : State), let l : Launch := { strobe := b, link := none }; let p := b.prog.toNat; let a := s.pln.reqBase + 128 * p
    let r := s.fab.mem.readN a 128
    (plannerReady s = false → exec (.plannerStrobe b) s = .next s) ∧
    (plannerReady s = true → s.cal.held.get 36 = [] →
      (s.pln.cycle.isSome = true → exec (.plannerStrobe b) s = .next { s with pln.waiting := some l }) ∧
      (s.pln.cycle = none → 15 < p → Completes (.plannerStrobe b) s (fun t =>
        t = { s with host := t.host, cal := { s.cal with done := s.cal.done.modify 36 (· ++ [(l, stBadProgram)]) } } ∧ EventsOnly s t ∧
        Raised s t 0x0502 0 [1 + p * 65536])) ∧
      (s.pln.cycle = none → p ≤ 15 → CleanHub s a 128 → Completes (.plannerStrobe b) s (fun t => EventsOnly s t ∧
        t = { s with
          host := t.host, sie := { s.sie with pins := t.sie.pins }
          pln.cycle := some { launch := l, req := r, reqBad := !requestOk r, pinE := s.sie.cur, eSearch := s.sie.curEpoch, pinN := none, eCheck := 0,
                              mapBad := false, ended := if requestOk r = true then none else some ([], false) } } ∧
        (∀ n, t.sie.pins.get n = s.sie.pins.get n + if s.sie.cur = some n then 1 else 0) ∧
        (requestOk r = true → t.host = s.host) ∧ (requestOk r = false → Raised s t 0x0502 0 [2 + p * 65536]))))) ∧
  (∀ (now : Nat) (c : Cycle) (s : State), let s' := s.advance now
    s.pln.cycle = some c → c.ended = none →
    let ends := fun (t : State) (l : List Ranked) (budget : Bool) (seen k : Nat) =>
      t = { s' with
        free := s.free + k
        pln.cycle := some { c with pinN := s.sie.cur, eCheck := s.sie.curEpoch, ended := some (l, budget) }
        sie := { s.sie with pins := t.sie.pins, cand := if seen = 0 then s.sie.cand else (s.sie.cand + seen) % 2 ^ 64,
                            entries := if seen = 0 then s.sie.entries else (s.sie.entries + seen) % 2 ^ 64 } } ∧
      ∀ n, t.sie.pins.get n = s.sie.pins.get n + if s.sie.cur = some n then 1 else 0
    let up := c.launch.strobe.dt + rqBudget c.req ≤ s'.dt + s.pln.reserve * 1000 ∨ s.qch.coolant = 3
    1 ≤ fld c.req 0x54 4 →
    ((∀ n, n < 8 → bit (fld c.req 0xC 1) n = true → s.pln.sets.get n = none) →
      Completes (.planSearchEnd now) s (fun t => ends t [] false 0 0) ∧ (up → Completes (.planTimeLimit now 0) s (fun t => ends t [] true 0 0))) ∧
    (∀ e, ¬ up → exec (.planTimeLimit now e) s = .next s') ∧
    (∀ (n b : Nat) (st : PlanSet), n < 8 → fld c.req 0xC 1 = 2 ^ n → s.pln.sets.get n = some st → st.kind = 0 → st.nprim = 1 → st.voxel = s.sie.voxel →
      let rec_ := s.fab.mem.readN (st.addr + 0x100) 64; let ea := st.addr + 16 * fld rec_ 0x18 4; let e := s.fab.mem.readN ea 16
      let h := bufHdr s b; let q := rqHb c.req / 16; let d := rotCell q (sint 16 (fld e 8 2), sint 16 (fld e 10 2))
      let x := s32 (rqX c.req + (rotEnd q (sint 16 (fld rec_ 8 2), sint 16 (fld rec_ 10 2))).1)
      let y := s32 (rqY c.req + (rotEnd q (sint 16 (fld rec_ 8 2), sint 16 (fld rec_ 10 2))).2)
      let inMap := fun (i : Int) => 0 ≤ i ∧ i < 2 ^ (s.sie.depth - 2)
      CleanHub s (st.addr + 0x100) 64 → CleanHub s ea 16 → fld rec_ 0 1 = rqHb c.req % 16 → fld rec_ 1 1 = rqSb c.req →
      bit (fld c.req 0x50 4) (fld rec_ 4 1) = true → fld rec_ 0x1C 1 = 0 → fld rec_ 6 2 = 1 → rqHorizon c.req = 1 →
      c.pinE = some b → 24 ≤ (s.sie.bufs.get b).2 → CleanHub s ((s.sie.bufs.get b).1 + 0x10) 8 →
      inMap (rqX c.req + d.1 - sint 32 (fld h 0x18 4)) → inMap (rqY c.req + d.2 - sint 32 (fld h 0x1C 4)) →
      inMap (rqZ c.req + sint 8 (fld e 12 1) - sint 32 (fld h 0x20 4)) →
      let root := leNat (s.fab.mem.readN ((s.sie.bufs.get b).1 + 0x10) 8)
      (field root 63 62 = 0 → Completes (.planSearchEnd now) s (fun t => ends t
        [{ f := fOf c.req x y (fld rec_ 0x10 4), g := fld rec_ 0x10 4,
           chain := [{ set := n, q := q, idx := 0, x := rqX c.req, y := rqY c.req, off := 0 }] }] false 1 0)) ∧
      (field root 63 62 = 1 → Completes (.planSearchEnd now) s (fun t => ends t [] false 1 1)))) ∧
  (∀ (now : Nat) (c : Cycle) (s : State), let s' := s.advance now; let out := rqOut c.req
    let late := b2n (decide (c.launch.strobe.dt + rqBudget c.req < s'.dt))
    s.pln.cycle = some c → s.pln.waiting = none → hubBase ≤ out → out + 320 ≤ hubBase + 0x4000000 → sieveLocked s out 320 = false →
    (∀ (x : Ranked) (rest : List Ranked) (budget : Bool) (b : Nat), c.ended = some (x :: rest, budget) → c.reqBad = false → c.pinE = some b →
      c.pinN = some b → c.eCheck = c.eSearch → let flags := b2n budget + 4 * b2n c.mapBad + 8 * late
      Completes (.planRelease now) s (fun t => PlanReleased s t now c (planRecord c.launch.strobe.prog.toNat
        { status := 0, rank := 0, prims := x.chain, t0 := rqT0 c.req, cost := some x.g, x := rqX c.req, y := rqY c.req } flags
        ((s.pln.seq + 1) % 2 ^ 32) c.eSearch c.eSearch s'.dt (fld (bufHdr s b) 0x28 8) x.g) 0 0 flags (fun n => if n = b then 2 else 0))) ∧
    (c.ended = some ([], false) → c.reqBad = true → c.pinN = none → let flags := 4 * b2n c.mapBad + 8 * late + 16
      Completes (.planRelease now) s (fun t => ∃ rec_, rec_.length = 320 ∧ fld rec_ 0 2 = 3 ∧ fld rec_ 2 2 = flags ∧ fld rec_ 10 1 = 0 ∧
        PlanReleased s t now c rec_ 3 0xFF flags (fun n => if c.pinE = some n then 1 else 0)))) ∧
  (∀ (now e : Nat) (s : State), let s' := s.advance now
    ((s.pln.cycle = none ∨ ∃ c l, s.pln.cycle = some c ∧ c.ended = some l) →
      exec (.planSearchEnd now) s = .next s' ∧ exec (.planTimeLimit now e) s = .next s') ∧
    ((s.pln.cycle = none ∨ ∃ c, s.pln.cycle = some c ∧ c.ended = none) → exec (.planRelease now) s = .next s')) ∧
  (∀ (src : BitVec 8) (v : Word) (s : State), let b := v.toNat % 2; let x := s.sie.bufs.get b; let h := s.fab.mem.readN x.1 64; let e := fld h 8 4
    (s.sie.valid = true → s.sie.cur ≠ some b → s.sie.pins.get b = 0 → 64 ≤ x.2 → CleanHub s x.1 64 → fld h 0 2 = 1 → fld h 2 1 = s.sie.depth →
      fld h 3 1 = 0 → fld h 4 2 = s.sie.voxel → fld h 6 2 = 0 → fld h 12 4 = 0 → fld h 0x30 16 = 0 →
      (s.sie.cur = none ∨ e = (s.sie.curEpoch + 1) % 2 ^ 32) →
      exec (.siePublish src v) s = .next { s with sie := { s.sie with cur := some b, curEpoch := e } }) ∧
    ((s.sie.cur = some b ∨ 0 < s.sie.pins.get b ∨ (s.sie.cur.isSome = true ∧ e ≠ (s.sie.curEpoch + 1) % 2 ^ 32)) →
      Completes (.siePublish src v) s (fun t => EventsOnly s t ∧ Raised s t 0x0003 src.toNat [0x8000210018, 1] ∧
        t = { s with host := t.host, fab.net.decodeErrs := cnt s.fab.net.decodeErrs 1, sie.pubRej := cnt s.sie.pubRej 1 }))) ∧
  (∀ s : State, exec .plnCtrlCntClr s = .next { s with
      pln := { s.pln with cycCnt := 0, budCnt := 0, rechkCnt := 0, keptCnt := 0, stopCnt := 0, nspCnt := 0, lateCnt := 0, outErr := 0 }
      sie := { s.sie with entries := 0, cand := 0, mapErr := 0, pubRej := 0 } }) ∧
  ∀ (on : Bool) (s : State), exec (.plnCtrlLaunchEn on) s = .next { s with pln.launchEn := on }

/-- PLN_CONFIG with legal fields and buffers that lie apart in hub SRAM is BUSY while strobes are accepted or a cycle runs or waits; else it sets the buffers, voxel size, depth, reserve and request table, with no epoch current, no pin, no previous plan and sequence number 0; with overlapping buffers it answers DECODE_ERROR. PLN_SET_LOAD of an image in clean hub SRAM that passes every check fills its slot and answers its kind and counts; a wrong format answers BAD_SET with check 1, a second STOP set NO_RESOURCE, a loaded slot BUSY, an image outside device memory DECODE_ERROR. PLN_SET_UNLOAD empties a loaded slot and answers NOT_DEFINED of an empty one, BUSY during a cycle. PLN_QUERY reports. Each changes only what is named. -/
def Obligations.PlannerCommandsConfigureAndLoad : Prop :=
  ∀ (ch : Fin 4) (r : Request) (s : State), Plain s r →
    (let b0 := payField r 8 8; let l0 := payField r 16 4; let b1 := payField r 24 8; let l1 := payField r 32 4
     r.length = 48 → 50 ≤ payField r 0 2 → payField r 0 2 ≤ 400 → 3 ≤ payField r 2 1 → payField r 2 1 ≤ 12 → payField r 3 1 = 0 → 50 ≤ payField r 4 4 →
     payField r 4 4 ≤ 5000 → b0 % 64 = 0 → b1 % 64 = 0 → l0 ≤ 25165824 → l1 ≤ 25165824 → payField r 20 4 = 0 → payField r 36 4 = 0 →
     payField r 40 8 % 64 = 0 → payField r 40 8 < 0x100000000000 → 0x6000000000 ≤ b0 → b0 + l0 ≤ 0x6004000000 → 0x6000000000 ≤ b1 →
     b1 + l1 ≤ 0x6004000000 →
     ((s.pln.launchEn = true ∨ s.pln.cycle ≠ none ∨ s.pln.waiting ≠ none) → AnswersOnly (.plnConfig ch r) s ch 0x0500 r stBusy 0 []) ∧
     (s.pln.launchEn = false → s.pln.cycle = none → s.pln.waiting = none →
       ((b0 < b1 + l1 ∧ b1 < b0 + l0) → AnswersOnly (.plnConfig ch r) s ch 0x0500 r stDecodeError 0 []) ∧
       ((b0 + l0 ≤ b1 ∨ b1 + l1 ≤ b0) → Accepts (.plnConfig ch r) s ch 0x0500 r 0 (payBytes r) (fun t =>
         t = { s with
           host := t.host, pln := { s.pln with reqBase := payField r 40 8, reserve := payField r 4 4, seq := 0, lastStat := 0xF, prev := none }
           sie := { s.sie with valid := true, voxel := payField r 0 2, depth := payField r 2 1, bufs := t.sie.bufs, cur := none, curEpoch := 0,
                               pins := t.sie.pins } } ∧
         t.sie.bufs.get 0 = (b0, l0) ∧ t.sie.bufs.get 1 = (b1, l1) ∧ ∀ n, t.sie.pins.get n = 0)))) ∧
    (let n := payField r 0 1; let a := payField r 8 8; let len := payField r 16 4; let img := s.fab.mem.readN a len; let h := img.take 256
     r.length = 20 → n < 8 → payField r 1 7 = 0 → a % 64 = 0 →
     ((s.pln.cycle ≠ none ∨ s.pln.waiting ≠ none ∨ (s.pln.sets.get n).isSome = true) → AnswersOnly (.plnSetLoad ch r) s ch 0x0501 r stBusy 0 []) ∧
     (s.pln.cycle = none → s.pln.waiting = none → s.pln.sets.get n = none →
       ((len = 0 ∨ hostBase ≤ a) → AnswersOnly (.plnSetLoad ch r) s ch 0x0501 r stDecodeError 0 []) ∧
       (CleanHub s a len → 256 ≤ len →
         (fld h 0 4 ≠ 0x5031534B → AnswersOnly (.plnSetLoad ch r) s ch 0x0501 r stBadSet 0 (leBytes 4 1)) ∧
         (setCheck s len img = 0 → len = roundUp (0x100 + 64 * fld h 8 4 + 16 * fld h 0xC 4) 64 →
           (fld h 4 1 = 1 → (∃ k st, k < 8 ∧ s.pln.sets.get k = some st ∧ st.kind = 1) → AnswersOnly (.plnSetLoad ch r) s ch 0x0501 r stNoResource 0 []) ∧
           ((fld h 4 1 = 0 ∨ ∀ k st, k < 8 → s.pln.sets.get k = some st → st.kind = 0) →
             Accepts (.plnSetLoad ch r) s ch 0x0501 r 0 (leBytes 1 (fld h 4 1) ++ leBytes 4 (fld h 8 4) ++ leBytes 4 (fld h 0xC 4)) (fun t =>
               t = { s with host := t.host, pln.sets := s.pln.sets.set n (some { kind := fld h 4 1, nprim := fld h 8 4, nentries := fld h 0xC 4, addr := a,
                                                                                 length := len, voxel := fld h 6 2 }) })))))) ∧
    (let n := payField r 0 1
     r.length = 1 → n < 8 →
     ((s.pln.cycle ≠ none ∨ s.pln.waiting ≠ none) → AnswersOnly (.plnSetUnload ch r) s ch 0x0502 r stBusy 0 []) ∧
     (s.pln.cycle = none → s.pln.waiting = none →
       (s.pln.sets.get n = none → AnswersOnly (.plnSetUnload ch r) s ch 0x0502 r stNotDefined 0 []) ∧
       ((s.pln.sets.get n).isSome = true → Accepts (.plnSetUnload ch r) s ch 0x0502 r 0 [] (fun t =>
         t = { s with host := t.host, pln.sets := s.pln.sets.set n none })))) ∧
    AnswersOnly (.plnQuery ch r) s ch 0x0503 r stOk 0 (leBytes 4 (sieCfg s) ++ leBytes 4 s.pln.reserve ++
      catMap 8 (fun n => match s.pln.sets.get n with
        | some st => leBytes 1 st.kind ++ leBytes 4 st.nprim ++ leBytes 8 st.addr
        | none => List.replicate 13 0) ++
      leBytes 8 (sieEpochStat s) ++ slice (s.pln.prev.getD []) 0 64 ++ regBytes (plnCounters s) ++ regBytes (sieCounters s))

/-- DRAM_PATROL_SCRUB of a controller that is not ready, in self-refresh, capped or switched off changes nothing; else it moves to the next codeword, at the end of the stack to 0 with a pass counted. A clean or poisoned codeword stays; one symbol in error is corrected and counted for its channel; two are counted, captured if no error is held, reported as DRAM_UE with source 0xFF, and the codeword is poisoned. CE_RATE_WINDOW restarts the second's counts; a channel at 1,000 or more is captured and reported once until a second below. DRM_CTRL.cnt_clr zeroes the controller's counters, DRM_ERR_INFO.valid written 1 re-arms the capture. DRAM_SCRUB_CONFIG sets the controllers of its mask. MIRROR_CONFIG sets a region, and answers BUSY while it is ON, DECODE_ERROR outside one die, NO_RESOURCE past the total or over another region. Each changes only what is named. -/
def Obligations.DramScrubbingRatesAndMirrorRegions : Prop :=
  (∀ (d : Fin 4) (s : State), let c := s.fab.drm.get d; let a := d.val * 0x600000000 + c.scrubPos; let b := a / 32; let chn := dramChannel c.scrubPos
    let on := c.scrubEn = true ∧ c.ready = true ∧ c.selfref = false ∧ c.cap50 = false
    let adv := fun (x : Dram) => { x with
      scrubPos := if c.scrubPos + 32 < 0x600000000 then c.scrubPos + 32 else 0
      scrubPass := if c.scrubPos + 32 < 0x600000000 then x.scrubPass else cnt x.scrubPass 1 }
    let rest := fun (t : State) => (∀ k, k ≠ d.val → t.fab.drm.get k = s.fab.drm.get k) ∧
      ∀ x, t.fab.symErr.get x = if x = b then s.fab.symErr.dflt else s.fab.symErr.get x
    c.scrubPos % 32 = 0 →
    (¬ on → exec (.dramPatrolScrub d) s = .next s) ∧
    (on → (s.fab.symErr.get b = 0 ∨ s.fab.poison.hit a 32 = true) → exec (.dramPatrolScrub d) s = .next (s.modDrm d adv)) ∧
    (on → s.fab.symErr.get b = 1 → s.fab.poison.hit a 32 = false → Completes (.dramPatrolScrub d) s (fun t => rest t ∧
      t = { s with fab := { s.fab with drm := t.fab.drm, symErr := t.fab.symErr } } ∧
      t.fab.drm.get d = adv { c with ceCnt := cnt c.ceCnt 1, ceCh := c.ceCh.modify chn (fun n => sat 16 (n + 1)), ceWin := c.ceWin.modify chn (· + 1) })) ∧
    (on → 2 ≤ s.fab.symErr.get b → s.fab.poison.hit a 32 = false →
      let c' : Dram := { c with
        ueCnt := cnt c.ueCnt 1, errValid := true, errAddr := if c.errValid = true then c.errAddr else a, errChan := if c.errValid = true then c.errChan else chn
        errKind := if c.errValid = true then c.errKind else 1, errSrc := if c.errValid = true then c.errSrc else 0xFF }
      Completes (.dramPatrolScrub d) s (fun t => rest t ∧ EventsOnly s t ∧ Raised s t 0x0100 d [a, drmErrInfo c'] ∧
        t = { s with host := t.host, fab := { s.fab with drm := t.fab.drm, symErr := t.fab.symErr, poison := t.fab.poison } } ∧
        t.fab.drm.get d = adv c' ∧ ∀ w, w ∈ t.fab.poison ↔ w / 4 = b ∨ w ∈ s.fab.poison))) ∧
  (∀ (d : Fin 4) (now : Nat) (s : State), let s' := s.advance now; let c := s.fab.drm.get d
    ((∀ h, h < 64 → c.ceWin.get h < 1000) → Completes (.ceRateWindow d now) s (fun t =>
      t = { s' with fab := { s.fab with drm := t.fab.drm } } ∧ (∀ k, k ≠ d.val → t.fab.drm.get k = s.fab.drm.get k) ∧
      t.fab.drm.get d = { c with ceWin := Tab.const 0, ceRated := (t.fab.drm.get d).ceRated } ∧
      ∀ h, h < 64 → (t.fab.drm.get d).ceRated.get h = false)) ∧
    (∀ g, g < 64 → 1000 ≤ c.ceWin.get g → (∀ h, h < 64 → h ≠ g → c.ceWin.get h < 1000) → Completes (.ceRateWindow d now) s (fun t => EventsOnly s t ∧
      t = { s' with host := t.host, fab := { s.fab with drm := t.fab.drm } } ∧ (∀ k, k ≠ d.val → t.fab.drm.get k = s.fab.drm.get k) ∧
      t.fab.drm.get d = { c with
        ceWin := Tab.const 0, ceRated := (t.fab.drm.get d).ceRated, errValid := true
        errAddr := if c.errValid = true then c.errAddr else 0, errChan := if c.errValid = true then c.errChan else g
        errKind := if c.errValid = true then c.errKind else 2, errSrc := if c.errValid = true then c.errSrc else 0xFF } ∧
      (∀ h, h < 64 → (t.fab.drm.get d).ceRated.get h = decide (h = g)) ∧
      (c.ceRated.get g = false → Raised s' t 0x0101 d [g, c.ceWin.get g]) ∧ (c.ceRated.get g = true → t.host = s.host)))) ∧
  (∀ (d : Fin 4) (s : State),
    exec (.drmCtrlCntClr d) s = .next (s.modDrm d (fun c => { c with ceCnt := 0, ueCnt := 0, poisonCnt := 0, scrubPass := 0, ceCh := Tab.const 0 })) ∧
    exec (.drmErrInfoRearm d) s = .next (s.modDrm d (fun c => { c with errValid := false }))) ∧
  ∀ (ch : Fin 4) (r : Request) (s : State), Plain s r →
    (r.length = 3 → payField r 0 1 < 16 → payField r 1 1 ≤ 1 → 1 ≤ payField r 2 1 → payField r 2 1 ≤ 168 →
      Accepts (.dramScrubConfig ch r) s ch 0x0120 r 0 (payBytes r) (fun t => t = { s with host := t.host, fab := { s.fab with drm := t.fab.drm } } ∧
        ∀ d, t.fab.drm.get d = if d < 4 ∧ bit (payField r 0 1) d = true
          then { s.fab.drm.get d with scrubEn := decide (payField r 1 1 = 1), scrubHrs := payField r 2 1 } else s.fab.drm.get d)) ∧
    (let n := payField r 0 1; let ty := payField r 1 1; let size := payField r 2 2; let base := payField r 8 8; let top := base + size * 0x4000000
     let inDie := top ≤ 4 * dieSpan ∧ base / dieSpan = (top - 1) / dieSpan
     let meets := ∃ i, i < 8 ∧ ((i ≠ n ∧ (s.fab.mir.regions.get i).type ≠ 0 ∧ base < (s.fab.mir.regions.get i).range.2 ∧
         (s.fab.mir.regions.get i).range.1 < top) ∨
       ((s.so.acc.get i).fmt ≠ 0 ∧ base < (s.so.acc.get i).base + (s.so.acc.get i).size * 65536 ∧ (s.so.acc.get i).base < top))
     r.length = 16 → n < 8 → ty ≤ 2 → 1 ≤ size → size ≤ 128 → payField r 4 4 = 0 → base % 0x4000000 = 0 →
     ((s.fab.mir.regions.get n).on = true → AnswersOnly (.mirrorConfig ch r) s ch 0x0121 r stBusy 0 []) ∧
     ((s.fab.mir.regions.get n).on = false →
       (ty ≠ 0 → ¬ inDie → AnswersOnly (.mirrorConfig ch r) s ch 0x0121 r stDecodeError 0 []) ∧
       (ty ≠ 0 → inDie → (128 < mirrorTotal s ty n + size ∨ meets) → AnswersOnly (.mirrorConfig ch r) s ch 0x0121 r stNoResource 0 []) ∧
       ((ty = 0 ∨ (inDie ∧ mirrorTotal s ty n + size ≤ 128 ∧ ¬ meets)) → let tot := fun k => mirrorTotal s k n + (if ty = k then size else 0)
         Accepts (.mirrorConfig ch r) s ch 0x0121 r 0 (payBytes r ++ leBytes 4 (tot 1) ++ leBytes 4 (tot 2)) (fun t =>
         t = { s.modRegion n (fun _ => { type := ty, size := size, base := base, on := false, diverged := false }) with
           host := t.host, so.pair := { s.so.pair with invalid := Nat.land s.so.pair.invalid (255 - 2 ^ n),
                                                       verified := Nat.land s.so.pair.verified (255 - 2 ^ n) } }))))

/-- EDGE_FLIT_RECEIVE at a group that is off or retraining changes nothing. With no injector armed, an intact DATA flit with the expected gseq advances it, releases what its ack covers, returns credits, and is delivered if its eseq is next on the edge, else kept for its turn; a flit rejected by a lane or by its crc is counted and named in a NAK, a failed lane's counter advancing. LANE_FAIL follows the table of R245: a lane already bad changes nothing, an unused one is marked, at full width the lowest good spare takes its place with LANE_SPARED, with none left the group retrains at half width, at half width an unused good lane takes its place, with none left the group is disabled. GROUP_RETRAIN_DONE makes the group live. EDGE_HOLD_TIMEOUT answers a held request with NO_ROUTE. EDGE_TRAINING derives every group's width from its good lanes. TRAINING_ATTEMPT_DONE leaves disagreeing groups off and makes the edge UP with 4 live groups, else counts the attempt and disables the edge at the third. RETRAIN_WINDOW trains the groups left off, at most every 100 ms. The counter clears of a station and of a transit domain, EDGE_CONTROL and FABRIC_QUERY act on what they name. Each changes only what is named; Bellows recomputes where a width or an edge changes. -/
def Obligations.EdgesCarryFlitsSpareLanesAndTrain : Prop :=
  (∀ (k : Fin 8) (dir : Fin 2) (g : Fin 8) (f : EdgeFlit) (s : State), let n := groupNo k dir g; let back := groupNo k (1 - dir.val) g; let q := s.fab.groups.get n
    let e := s.fab.edges.get k
    ((q.width = 0 ∨ q.retraining = true) → exec (.edgeFlitReceive k dir g f) s = .next s) ∧
    (q.width ≠ 0 → q.retraining = false → NoInjector s →
      (f.crcOk = true → f.badLanes = [] → f.kind = 0 → f.gseq = q.expect → Completes (.edgeFlitReceive k dir g f) s (fun t => EdgesOnly s t ∧
        (∀ m, t.fab.groups.get m = if m = n then { q with expect := q.expect + 1, nak := none }
          else if m = back then { s.fab.groups.get m with retry := (s.fab.groups.get m).retry.filter (fun a => !seqLe a f.ack),
                                                          credits := (s.fab.groups.get m).credits + f.credit.toNat } else s.fab.groups.get m) ∧
        (∀ j, j ≠ k.val → t.fab.edges.get j = s.fab.edges.get j) ∧
        (f.eseq = e.eseq.get dir → e.early.get dir = [] → t.fab.edges.get k = { e with
          eseq := e.eseq.set dir (f.eseq + 1), early := e.early.set dir [], delivered := e.delivered.modify dir (· + 1984) }) ∧
        ((∀ x ∈ e.early.get dir, x.1 ≠ e.eseq.get dir) → f.eseq ≠ e.eseq.get dir → t.fab.edges.get k = { e with
          eseq := e.eseq.set dir (e.eseq.get dir), early := e.early.set dir (e.early.get dir ++ [(f.eseq, slice f.data 0 1984)])
          delivered := e.delivered.modify dir (· + 0) }))) ∧
      (f.crcOk = false → f.badLanes = [] →
        exec (.edgeFlitReceive k dir g f) s = .next (s.modGroup n (fun q => { q with rtyCnt := cnt q.rtyCnt 1, nak := some q.expect }))) ∧
      (∀ l x, f.badLanes = [l] → q.map[l.val]? = some x → exec (.edgeFlitReceive k dir g f) s = .next (s.modGroup n (fun q => { q with
        rtyCnt := cnt q.rtyCnt 1, nak := some q.expect, lerr := q.lerr.modify x (fun v => sat 8 (v + 1)), win := q.win.modify x (· + 1) }))))) ∧
  (∀ (l : LaneRef) (s : State), let k := l.edge.val; let n := groupNo k l.dir l.group; let q := s.fab.groups.get n; let lane := l.lane.val
    let bad := lane :: q.bad; let spare := (List.range 68).find? (fun x => !bad.contains x && !q.map.contains x)
    let good := (List.range 68).filter (fun x => !bad.contains x); let pay := l.dir.val + 2 * l.group.val
    (q.bad.contains lane = true → exec (.laneFail l) s = .next s) ∧
    (q.bad.contains lane = false →
      (q.map.contains lane = false → exec (.laneFail l) s = .next (s.modGroup n (fun q => { q with bad := bad }))) ∧
      (∀ i, indexOf? (· == lane) q.map = some i →
        (∀ x, q.width = 2 → spare = some x → Completes (.laneFail l) s (fun t => EventsOnly s t ∧ Raised s t 0x0103 k [pay + i * 256 + x * 65536] ∧
          t = { s.modGroup n (fun q => { q with bad := bad, map := q.map.set i x, spares := q.spares + 1 }) with host := t.host })) ∧
        (∀ x, q.width = 1 → spare = some x → exec (.laneFail l) s = .next (s.modGroup n (fun q => { q with bad := bad, map := q.map.set i x }))) ∧
        (q.width = 2 → spare = none → 32 ≤ good.length → good.length < 64 →
          let u := s.modGroup n (fun q => { q with
            bad := bad, width := 1, map := good.take 32, spares := 0, retraining := true, leftOff := false, nak := none, replay := false, win := Tab.const 0 })
          (¬ ((s.fab.edges.get k).state = 2 ∧ liveGroups u k < 4) → Completes (.laneFail l) s (fun t => Bellows u t))) ∧
        (q.width = 1 → spare = none →
          let v := s.modGroup n (fun q => { q with bad := bad, width := 0, sig := 0, map := [] })
          let cut := (s.fab.edges.get k).state = 2 ∧ liveGroups v k < 4
          Completes (.laneFail l) s (fun t => ∃ u, EventsOnly s u ∧ Raised s u 0x0105 k [pay, widthSig v k l.dir] ∧ u = { v with host := u.host } ∧
            (¬ cut → Bellows u t) ∧
            (cut → ∃ w, EventsOnly u w ∧ Raised u w 0x0106 k [] ∧
              w = { u.modEdge k (fun e => { e with state := 3, holding := true }) with host := w.host } ∧ Bellows w t)))))) ∧
  (∀ (k : Fin 8) (dir : Fin 2) (g : Fin 8) (s : State), let n := groupNo k dir g; let q := s.fab.groups.get n
    let v := s.modGroup n (fun q => { q with retraining := false, sig := q.width, retrains := sat 8 (q.retrains + 1), replay := false })
    (q.retraining = false → exec (.groupRetrainDone k dir g) s = .next s) ∧
    (q.retraining = true → (q.sig ≤ q.width → exec (.groupRetrainDone k dir g) s = .next v) ∧
      (q.width < q.sig → Completes (.groupRetrainDone k dir g) s (fun t => t = { v with host := t.host } ∧ EventsOnly s t ∧
        Raised s t 0x0104 k [dir.val + 2 * g.val, widthSig v k dir])))) ∧
  (∀ (k : Fin 8) (s : State), let u := s.modEdge k (fun e => { e with holding := false })
    ((s.fab.edges.get k).holding = false → exec (.edgeHoldTimeout k) s = .next s) ∧
    ((s.fab.edges.get k).holding = true →
      ((∀ r ∈ s.fab.net.inflight, usesEdge s k r = false) → exec (.edgeHoldTimeout k) s = .next u) ∧
      (∀ r, s.fab.net.inflight = [r] → usesEdge s k r = true → r.src ≠ 0x33 → exec (.edgeHoldTimeout k) s = .next { u with
        fab.net := { s.fab.net with
          inflight := []
          rsps := s.fab.net.rsps ++ [{ src := r.src, tag := r.tag, op := r.op, addr := r.addr, len := r.len, status := stNoRoute, data := [],
                                       poison := r.op == 0 }] } }))) ∧
  (∀ (k : Fin 8) (fails : List LaneRef) (s : State), let up := (s.fab.edges.get k).state = 2
    Completes (.edgeTraining k fails) s (fun t => ∃ u, EdgesOnly s u ∧ Bellows u t ∧
      (∀ m, (∀ dir g, dir < 2 → g < 8 → m ≠ groupNo k dir g) → u.fab.groups.get m = s.fab.groups.get m) ∧
      (∀ j, j ≠ k.val → u.fab.edges.get j = s.fab.edges.get j) ∧
      (u.fab.edges.get k = if up then s.fab.edges.get k else { s.fab.edges.get k with state := 1, eseq := Tab.const 0, early := Tab.const [] }) ∧
      ∀ dir g, dir < 2 → g < 8 → let q := s.fab.groups.get (groupNo k dir g)
        let q' := { q with bad := (q.bad ++ (fails.filter (fun l => l.edge.val == k.val && l.dir.val == dir && l.group.val == g)).map (fun l => l.lane.val) ++
                                   defectLanes s k dir g).eraseDups }
        let good := (List.range 68).filter (fun x => !q'.bad.contains x); let w := if 64 ≤ good.length then 2 else if 32 ≤ good.length then 1 else 0
        u.fab.groups.get (groupNo k dir g) = if up ∧ q.width ≠ 0 ∧ ¬ (q.width = 1 ∧ 64 ≤ good.length) then q' else
          { q' with width := w, sig := w, map := good.take (32 * w), spares := 0, retraining := false, leftOff := false, nak := none, replay := false,
                    win := Tab.const 0 })) ∧
  (∀ (k : Fin 8) (dis : List (Fin 2 × Fin 8)) (s : State), let e := s.fab.edges.get k
    (e.state ≠ 1 → exec (.trainingAttemptDone k dis) s = .next s) ∧
    (e.state = 1 → Completes (.trainingAttemptDone k dis) s (fun t => ∃ u, EdgesOnly s u ∧
      (∀ x ∈ dis, u.fab.groups.get (groupNo k x.1 x.2) = { s.fab.groups.get (groupNo k x.1 x.2) with width := 0, sig := 0, map := [], leftOff := true }) ∧
      (∀ m, (∀ x ∈ dis, m ≠ groupNo k x.1 x.2) → u.fab.groups.get m = s.fab.groups.get m) ∧
      (∀ j, j ≠ k.val → u.fab.edges.get j = s.fab.edges.get j) ∧ u.fab.edges.get k = { e with mismatch := !dis.isEmpty } ∧
      (4 ≤ liveGroups u k → Bellows (u.modEdge k (fun e => { e with state := 2, attempts := 0, holding := false })) t) ∧
      (liveGroups u k < 4 → e.attempts < 2 → t = u.modEdge k (fun e => { e with attempts := e.attempts + 1 })) ∧
      (liveGroups u k < 4 → 2 ≤ e.attempts → ∃ w, EventsOnly u w ∧ Raised u w 0x0106 k [] ∧
        w = { u.modEdge k (fun e => { e with attempts := 3, state := 3, holding := true }) with host := w.host } ∧ Bellows w t)))) ∧
  (∀ (k : Fin 8) (now : Nat) (s : State), let s' := s.advance now; let e := s.fab.edges.get k
    let due := e.state = 2 ∧ (∃ dir g, dir < 2 ∧ g < 8 ∧ (s.fab.groups.get (groupNo k dir g)).leftOff = true) ∧ ∀ x, e.winAt = some x → x + 100000000 ≤ s'.dt
    (¬ due → exec (.retrainWindow k now) s = .next s') ∧
    (due → Completes (.retrainWindow k now) s (fun t => EdgesOnly s' t ∧ (∀ j, j ≠ k.val → t.fab.edges.get j = s.fab.edges.get j) ∧
      t.fab.edges.get k = { e with winAt := some s'.dt } ∧
      ∀ m, let q := s.fab.groups.get m
        ((∃ dir g, dir < 2 ∧ g < 8 ∧ m = groupNo k dir g) → q.leftOff = true → t.fab.groups.get m = { trainGroup q with sig := 0, retraining := true }) ∧
        (((∀ dir g, dir < 2 → g < 8 → m ≠ groupNo k dir g) ∨ q.leftOff = false) → t.fab.groups.get m = q)))) ∧
  (let clr := fun (s t : State) (l : List (Nat × Nat)) => ∀ m,
     ((∃ x ∈ l, ∃ g, g < 8 ∧ m = groupNo x.1 x.2 g) → t.fab.groups.get m = { s.fab.groups.get m with rtyCnt := 0, lerr := Tab.const 0, retrains := 0 }) ∧
     ((∀ x ∈ l, ∀ g, g < 8 → m ≠ groupNo x.1 x.2 g) → t.fab.groups.get m = s.fab.groups.get m)
   (∀ (e : Fin 4) (s : State), Completes (.d2dEctrlCntClr 4 e) s (fun t => t = { s with fab := { s.fab with groups := t.fab.groups } } ∧ clr s t [(e.val, 1)])) ∧
   (∀ (d : Fin 4) (n : Fin 5) (e : Fin 4) (s : State), n.val = d.val → let l := [(d.val, 0), (4 + (d.val + 3) % 4, 0), (4 + d.val, 1)]
     (e.val = 3 → exec (.d2dEctrlCntClr n e) s = .next s) ∧
     (∀ x, l[e.val]? = some x → Completes (.d2dEctrlCntClr n e) s (fun t => t = { s with fab := { s.fab with groups := t.fab.groups } } ∧ clr s t [x]))) ∧
   ∀ (d : Fin 4) (s : State), Completes (.d2dTdCtrlCntClr d) s (fun t =>
     t = { s with fab := { s.fab with groups := t.fab.groups, absorbs := s.fab.absorbs.set d 0 } } ∧
     clr s t [(d.val, 0), (4 + (d.val + 3) % 4, 0), (4 + d.val, 1)])) ∧
  ∀ (ch : Fin 4) (r : Request) (s : State), Plain s r → let k := payField r 0 1; let e := s.fab.edges.get k
    (r.length = 3 → k < 8 → payField r 2 1 ≤ 1 →
      let forgets := fun (t : State) => ∀ m,
        (∀ dir g, dir < 2 → g < 8 → m = groupNo k dir g → payField r 2 1 = 1 → t.fab.groups.get m = { s.fab.groups.get m with bad := defectLanes s k dir g }) ∧
        (((∀ dir g, dir < 2 → g < 8 → m ≠ groupNo k dir g) ∨ payField r 2 1 = 0) → t.fab.groups.get m = s.fab.groups.get m)
      let trains := fun (t : State) => t = { s with host := t.host, fab := { s.fab with groups := t.fab.groups, edges := t.fab.edges } } ∧ forgets t ∧
        (∀ j, j ≠ k → t.fab.edges.get j = s.fab.edges.get j) ∧ t.fab.edges.get k = { e with state := 1, attempts := 0 }
      (payField r 1 1 = 1 → edgeInUse s k = true → AnswersOnly (.edgeControl ch r) s ch 0x0124 r stBusy 0 []) ∧
      (payField r 1 1 = 1 → edgeInUse s k = false → AcceptsEv (.edgeControl ch r) s ch 0x0124 r 0 (leBytes 4 3) (fun t =>
        t = { s.modEdge k (fun e => { e with state := 3 }) with
          host := t.host, fab := { (s.modEdge k (fun e => { e with state := 3 })).fab with qos := t.fab.qos } } ∧
        t.fab.qos = { s.fab.qos with breach := t.fab.qos.breach, breachCnt := t.fab.qos.breachCnt, committed := t.fab.qos.committed, eff := t.fab.qos.eff })) ∧
      (payField r 1 1 = 2 → e.state = 3 → Accepts (.edgeControl ch r) s ch 0x0124 r 0 (leBytes 4 1) trains) ∧
      (payField r 1 1 = 2 → e.state ≠ 3 → AnswersOnly (.edgeControl ch r) s ch 0x0124 r stOk 0 (leBytes 4 e.state)) ∧
      (payField r 1 1 = 0 → e.state ≠ 2 → Accepts (.edgeControl ch r) s ch 0x0124 r 0 (leBytes 4 1) trains) ∧
      (payField r 1 1 = 0 → e.state = 2 → Accepts (.edgeControl ch r) s ch 0x0124 r 0 (leBytes 4 2) (fun t =>
        t = { s with host := t.host, fab := { s.fab with groups := t.fab.groups } } ∧ forgets t))) ∧
    (r.length = 1 → k < 8 → let station := fun (x : Nat × Nat) => regBytes ((stationRegs s x.1 x.2 0).filter (fun r =>
        decide (r.off = 0) || (decide (0x20 ≤ r.off) && decide (r.off < 0x40)) || (decide (0x60 ≤ r.off) && decide (r.off < 0xA0))))
      AnswersOnly (.fabricQuery ch r) s ch 0x0123 r stOk 0 ((if k < 4 then station (4, k) ++ station (k, 0)
        else station (k - 4, 2) ++ station ((k - 3) % 4, 1)) ++ leBytes 8 s.fab.routes.rt))

/-- FABRIC_ROUTE with a legal table answers NO_ROUTE if a changed path uses an edge that is not UP, BUSY during a reroute; else the changed flows are held with their requests under way. FLOW_SWITCH gives a held flow with no request left its new code, and the last one ends the reroute with its count and ROUTE_CHANGE; otherwise it changes nothing. FLOW_DRAIN_TIMEOUT answers a flow's outstanding request with NO_ROUTE. QOS_WINDOW counts the entries whose request waited below their effective minimum, zeroes the window's bytes, takes a waiting table into force and recomputes. QOS_CONFIG of one legal entry makes it and the classes the table of the next window. QOS_QUERY and FAULT_QUERY report. The counter clears zero what they name. FAULT_INJECT with a legal configuration arms an idle injector outside OPERATIONAL and answers DENIED_MODE, BUSY or BAD_FIELD otherwise; FAULT_DISARM disarms. HUBDMA_CONFIG sets the directory unless the engine is busy. Each changes only what is named. -/
def Obligations.RoutesBandwidthAndInjectors : Prop :=
  (∀ (i : Fin 20) (s : State), let q := s.fab.routes
    ((q.newRt = none ∨ q.held.contains i.val = false ∨ ∃ r, (i.val, r) ∈ q.heldReqs) → exec (.flowSwitch i) s = .next s) ∧
    (∀ new, q.newRt = some new → i.val ∈ q.held → (∀ x ∈ q.heldReqs, x.1 ≠ i.val) →
      let codes := fun (rt : Nat) => ∀ j, j < 20 → flowCode rt j = if j = i.val then flowCode new i else flowCode q.rt j
      (q.held.erase i ≠ [] → Completes (.flowSwitch i) s (fun t => codes t.fab.routes.rt ∧
        t = { s with fab.routes := { q with rt := t.fab.routes.rt, held := q.held.erase i, switched := q.switched + 1 } })) ∧
      (q.held.erase i = [] → Completes (.flowSwitch i) s (fun t => codes t.fab.routes.rt ∧ ∃ u, Bellows u t ∧ EventsOnly s u ∧
        Raised s u 0x0107 0 [t.fab.routes.rt] ∧
        u = { s with host := u.host, fab.routes := { q with rt := t.fab.routes.rt, held := [], newRt := none, switched := q.switched + 1,
                                                            routeCnt := cnt q.routeCnt 1 } })))) ∧
  (∀ (i : Fin 20) (s : State), let q := s.fab.routes
    ((∀ x ∈ q.heldReqs, x.1 ≠ i.val) → exec (.flowDrainTimeout i) s = .next s) ∧
    (∀ r, q.heldReqs = [(i.val, r)] → s.fab.net.inflight = [r] → r.src ≠ 0x33 → exec (.flowDrainTimeout i) s = .next { s with fab := { s.fab with
      routes := { q with heldReqs := [] }
      net := { s.fab.net with
        inflight := []
        rsps := s.fab.net.rsps ++ [{ src := r.src, tag := r.tag, op := r.op, addr := r.addr, len := r.len, status := stNoRoute, data := [],
                                     poison := r.op == 0 }] } } })) ∧
  (∀ (now : Nat) (s : State), let s' := s.advance now; let q := s.fab.qos
    Completes (.qosWindow now) s (fun t => ∃ u, Bellows u t ∧
      (∀ n, let waited := n < 64 ∧ q.used.get n < q.eff.get n ∧ ∃ r ∈ s.fab.net.inflight, ∃ g, qosTarget (target r.addr.toNat) = some g ∧
           qosEntryFor s r.src.toNat r.label.toNat g (r.op == 1) = some n
        (waited → u.fab.qos.short.get n = cnt (q.short.get n) 1) ∧ (¬ waited → u.fab.qos.short.get n = q.short.get n)) ∧
      (q.newTab = none → u = { s' with fab.qos := { q with short := u.fab.qos.short, used := Tab.const 0, window := s'.dt / 1000 } }) ∧
      ∀ cl es, q.newTab = some (cl, es) → u = { s' with fab.qos := { q with
        short := u.fab.qos.short, used := Tab.const 0, window := s'.dt / 1000, classes := cl, configured := true, newTab := none
        entries := es.foldl (fun t e => t.set e.1 e.2) q.entries } })) ∧
  (∀ s : State, exec .qosCtrlCntClr s = .next { s with fab.qos := { s.fab.qos with breachCnt := 0, short := Tab.const 0, mBytes := Tab.const 0 } }) ∧
  (∀ s : State, Completes .d2dFiCtrlCntClr s (fun t =>
    t = { s with fab := { s.fab with inj := t.fab.inj, routes := { s.fab.routes with routeCnt := 0 } } } ∧
    ∀ i, t.fab.inj.get i = if i < 8 then { s.fab.inj.get i with fired := 0 } else s.fab.inj.get i)) ∧
  ∀ (ch : Fin 4) (r : Request) (s : State), Plain s r →
    (let new := payField r 0 8
     let usable := ∀ i l, i < 20 → flowCode s.fab.routes.rt i ≠ flowCode new i → pathEdges new (pairOf i).1 (pairOf i).2 = some l →
       ∀ h ∈ l, edgeUp s h.1 = true
     r.length = 8 → clampTable new = (new, 0) →
     (¬ usable → AnswersOnly (.fabricRoute ch r) s ch 0x0122 r stNoRoute 0 []) ∧
     (usable → s.fab.routes.newRt.isSome = true → AnswersOnly (.fabricRoute ch r) s ch 0x0122 r stBusy 0 []) ∧
     (usable → s.fab.routes.newRt = none → changedFlows s.fab.routes.rt new ≠ [] → ∃ us, us ≤ 20000 ∧
       Accepts (.fabricRoute ch r) s ch 0x0122 r 0 (leBytes 4 (changedFlows s.fab.routes.rt new).length ++ leBytes 4 us) (fun t =>
         t = { s with host := t.host, free := s.free + 1, fab.routes := { s.fab.routes with
           newRt := some new, held := changedFlows s.fab.routes.rt new, heldReqs := t.fab.routes.heldReqs, switched := 0 } } ∧
         ∀ i q, (i, q) ∈ t.fab.routes.heldReqs ↔ q ∈ s.fab.net.inflight ∧ flowOf q = some i ∧ i ∈ changedFlows s.fab.routes.rt new))) ∧
    (let cl := payField r 0 4; let first := payField r 4 1; let e := payField r 8 8
     let l := pointLoads s.fab.routes.rt (BitVec.ofNat 32 cl) (s.fab.qos.entries.set first (BitVec.ofNat 64 e))
     r.length = 16 → first < 64 → payField r 5 1 = 1 → payField r 6 2 = 0 → (∀ i, i < 16 → field cl (2 * i + 1) (2 * i) ≠ 3) → field e 59 58 ≠ 3 →
     field e 51 48 ≤ 6 → field e 39 32 = 0 → field e 57 56 = 0 → field e 62 60 = 0 → s.fab.qos.newTab = none →
     Accepts (.qosConfig ch r) s ch 0x0220 r 0 (leBytes 4 cl ++ leBytes 1 first ++ leBytes 1 1 ++ leBytes 2 0 ++ leBytes 8 e ++
       leBytes 8 (roundUp (s.time.dt + 1) 1000) ++ leBytes 4 (maskOf 23 (fun p => decide (qosCapacity s p < (l p).1 + (l p).2)))) (fun t =>
         t = { s with host := t.host, fab.qos := { s.fab.qos with newTab := some (BitVec.ofNat 32 cl, [(first, BitVec.ofNat 64 e)]) } })) ∧
    AnswersOnly (.qosQuery ch r) s ch 0x0221 r stOk 0 (leBytes 4 (s.fab.qos.breach % 2 ^ 23 + 2 ^ 31 * b2n s.fab.qos.configured) ++
      leBytes 4 s.fab.qos.classes.toNat ++ catMap 23 (fun p => leBytes 8 (qosCapacity s p % 2 ^ 32 * 2 ^ 32 + s.fab.qos.committed.get p % 2 ^ 32))) ∧
    (let i := payField r 0 1; let v := payField r 8 8
     r.length = 28 → i < 8 → payField r 1 7 = 0 → 1 ≤ payField r 24 4 → clampFi v = (v, 0) →
     (s.host.opMode = true → AnswersOnly (.faultInject ch r) s ch 0x0810 r stDeniedMode 0 []) ∧
     (s.host.opMode = false → (s.fab.inj.get i).armed = true → AnswersOnly (.faultInject ch r) s ch 0x0810 r stBusy 0 []) ∧
     (s.host.opMode = false → (s.fab.inj.get i).armed = false →
       (fiAction v = 2 → fiClass v ≠ 1 → AnswersOnly (.faultInject ch r) s ch 0x0810 r stBadField 0 []) ∧
       ((fiAction v ≠ 2 ∨ fiClass v = 1) → Accepts (.faultInject ch r) s ch 0x0810 r 0 (payBytes r) (fun t =>
         t = { s.modInj i (fun _ => { armed := true, cfg := BitVec.ofNat 64 v, t := payField r 16 8, count := payField r 24 4, fired := 0,
                                      left := payField r 24 4, reported := false }) with host := t.host })))) ∧
    (r.length = 1 → Accepts (.faultDisarm ch r) s ch 0x0811 r 0
      (catMap 8 (fun i => leBytes 4 (if bit (payField r 0 1) i = true then (s.fab.inj.get i).fired else 0))) (fun t =>
        t = { s with host := t.host, fab := { s.fab with inj := t.fab.inj } } ∧
        ∀ i, t.fab.inj.get i = if i < 8 ∧ bit (payField r 0 1) i = true then { s.fab.inj.get i with armed := false, left := 0 } else s.fab.inj.get i)) ∧
    AnswersOnly (.faultQuery ch r) s ch 0x0812 r stOk 0 (catMap 8 (fun i => let j := s.fab.inj.get i
      leBytes 8 (j.cfg.toNat % 2 ^ 63 + 2 ^ 63 * b2n j.armed) ++ leBytes 8 j.t ++ leBytes 4 j.count ++ leBytes 4 j.fired)) ∧
    (r.length = 10 → payField r 0 8 % 64 = 0 → payField r 0 8 < 2 ^ 48 → payField r 8 2 ≤ 256 →
      (s.fab.hdma.busy = true → AnswersOnly (.hubdmaConfig ch r) s ch 0x0125 r stBusy 0 []) ∧
      (s.fab.hdma.busy = false → Accepts (.hubdmaConfig ch r) s ch 0x0125 r 0 (payBytes r) (fun t =>
        t = { s with host := t.host, fab.hdma := { s.fab.hdma with pdirBase := payField r 0 8, pdirCnt := payField r 8 2 } })))

/-- CLK_MONITOR_WINDOW of a domain that is off or starting changes nothing; in a window in which the target changed it only records the frequency; a count within 1 % leaves RUN, one outside it FAULT with its count and CLOCK_FAULT, and three in a row at a tile report it as failed. LADLE_WRITE in Run: an item that does not close its word waits in it, one that closes it stores the word (of an instance of equal widths, its bytes through vbytes); a writer without handshake that sees the queue full loses the write in normal mode, with overrun, its count and the packet in progress cut by an err word, and in overwrite mode discards the oldest word, counted as lost; a handshake writer never writes then; items of a packet being skipped or dropped are discarded up to its eop. LADLE_READ delivers the oldest visible word of a readable packet, and with mark only advances RD. MARK, REWIND and RELEASE act on the instance with mark alone. DROP inside a packet discards the rest of it, now or as it arrives. LADLE_PTR_MISMATCH loses what is stored, is counted and reported, fails its tile, and is an internal error of PCIe for PCI_IN and PCI_OUT. qreset and force_ovw act outside OPERATIONAL; the counters, flags and threshold are cleared and set as written. Each changes only what is named. -/
def Obligations.ClockMonitorsAndLadleQueues : Prop :=
  (∀ (k : Fin 98) (khz now : Nat) (s : State), let s' := s.advance now; let c := s.fab.clk.get k; let want := nominalKhz s' k
    let sets := fun (st : Nat) => { s' with fab.clk := s.fab.clk.set k { state := st, freq := khz, changed := false } }
    let good := want * 99 ≤ khz * 100 ∧ khz * 100 ≤ want * 101
    ((c.state = 0 ∨ c.state = 1) → exec (.clkMonitorWindow k khz now) s = .next s') ∧
    (2 ≤ c.state → (c.changed = true → exec (.clkMonitorWindow k khz now) s = .next (sets c.state)) ∧
      (c.changed = false → good → exec (.clkMonitorWindow k khz now) s =
        .next (if k.val < 36 then (sets 2).modTile k (fun t => { t with clkFaults := 0 }) else sets 2)) ∧
      (c.changed = false → ¬ good → Completes (.clkMonitorWindow k khz now) s (fun t => EventsOnly s t ∧ Raised s' t 0x0004 k [khz % 2 ^ 24] ∧
        t.fab = { s.fab with clk := s.fab.clk.set k { state := 3, freq := khz, changed := false }, clkFaults := cnt s.fab.clkFaults 1 } ∧
        t = { s' with host := t.host, fab := t.fab, tiles := t.tiles, bu := { s.bu with fails := t.bu.fails } } ∧
        (∀ p, t.tiles.get p = if p = k.val ∧ p < 36 then { s.tiles.get p with clkFaults := (s.tiles.get p).clkFaults + 1 } else s.tiles.get p) ∧
        t.bu.fails = s.bu.fails ++ if k.val < 36 ∧ (s.tiles.get k).clkFaults = 2 ∧ (s.tiles.get k).role ≠ 2 then [(k.val, 4)] else [])))) ∧
  (∀ s : State, exec .clkCtrlCntClr s = .next { s with fab.clkFaults := 0 }) ∧
  (∀ (q : LadleId) (i : LadleItem) (unseen : Nat) (s : State), let c := ladleCfg q; let l := s.fab.ldl.get (ladleKey q)
    let full := l.part = [] ∧ ladleCap s q ≤ l.words.length + unseen; let stays := i.eop = false ∧ l.part.length + 1 < c.r / c.w
    let writes := fun (l' : Ladle) => Completes (.ladleWrite q i unseen) s (fun t => LadleIs s t q l')
    s.pwr.state = .run → s.pwr.entering = none → l.owed = none →
    (l.discard = true → writes { l with discard := !i.eop, inPkt := !i.eop }) ∧
    (l.discard = false → l.skip = true → writes { l with skip := !i.eop, inPkt := !i.eop }) ∧
    (l.discard = false → l.skip = false → ¬ full →
      (stays → writes { l with part := l.part ++ [i], inPkt := true }) ∧
      (¬ stays → writes { l with words := l.words ++ [packWord c (l.part ++ [i])], part := [], inPkt := !i.eop }) ∧
      (c.w = c.r → l.part = [] → i.data.length = c.w → (i.vbytes = c.w ∨ (i.eop = true ∧ i.vbytes ≤ c.w)) → writes { l with
        words := l.words ++ [{ data := slice (i.data.take i.vbytes) 0 c.w, eop := i.eop, err := i.err, vbytes := i.vbytes, info := i.info }]
        inPkt := !i.eop })) ∧
    (l.discard = false → l.skip = false → full →
      (c.hand = true → writes l) ∧
      (c.hand = false → ladleOverwrite s q = true → stays → writes { l with
        words := l.words.drop 1, rd := l.rd - 1, mark := l.mark - 1, lostCnt := cnt l.lostCnt 1, part := [i], inPkt := true }) ∧
      (c.hand = false → ladleOverwrite s q = false →
        (∀ ws w, l.words = ws ++ [w] → l.inPkt = true → w.eop = false → writes { l with
          overrun := true, ovrCnt := cnt l.ovrCnt 1, words := ws ++ [{ w with eop := true, err := true }], skip := !i.eop, inPkt := !i.eop }) ∧
        (∀ ws w, l.words = ws ++ [w] → w.eop = true → writes { l with
          overrun := true, ovrCnt := cnt l.ovrCnt 1, owed := some i.info, skip := !i.eop, inPkt := !i.eop })))) ∧
  (∀ (q : LadleId) (hidden : Nat) (s : State), let c := ladleCfg q; let l := s.fab.ldl.get (ladleKey q)
    let v := (l.words.drop l.rd).take (l.words.length - l.rd - hidden)
    let readable := c.pkts = false ∨ l.inRead = true ∨ (∃ w ∈ v, w.eop = true) ∨ (c.cut = true ∧ ladleThr c l ≤ ((firstPacket v).map (·.vbytes)).sum)
    ((v = [] ∨ ¬ readable) → exec (.ladleRead q hidden) s = .next s) ∧
    (∀ w rest, v = w :: rest → readable → 12 ≤ ladleKey q → Completes (.ladleRead q hidden) s (fun t => LadleIs s t q
      { l with rd := if c.mark = true then l.rd + 1 else l.rd, words := if c.mark = true then l.words else l.words.drop 1, inRead := c.pkts && !w.eop }))) ∧
  (∀ (q : LadleId) (s : State), let c := ladleCfg q; let l := s.fab.ldl.get (ladleKey q)
    (c.mark = false → exec (.ladleMark q) s = .next s ∧ exec (.ladleRewind q) s = .next s ∧ exec (.ladleRelease q) s = .next s) ∧
    (c.mark = true → exec (.ladleMark q) s = .next (s.modLdl (ladleKey q) (fun l => { l with mark := l.rd })) ∧
      exec (.ladleRewind q) s = .next (s.modLdl (ladleKey q) (fun l => { l with rd := l.mark })) ∧
      exec (.ladleRelease q) s = .next (s.modLdl (ladleKey q) (fun l => { l with words := l.words.drop l.rd, rd := 0, mark := 0 }))) ∧
    ((c.drop = false ∨ l.inRead = false) → exec (.ladleDrop q) s = .next s) ∧
    (c.drop = true → l.inRead = true → let rest := l.words.drop l.rd
      Completes (.ladleDrop q) s (fun t => ∃ u, LadleIs s u q (if (∃ w ∈ rest, w.eop = true)
        then { l with dropCnt := cnt l.dropCnt 1, inRead := false, words := l.words.take l.rd ++ rest.drop (firstPacket rest).length }
        else { l with dropCnt := cnt l.dropCnt 1, inRead := false, words := l.words.take l.rd, part := [], discard := true }) ∧
        (12 ≤ ladleKey q → t = u) ∧ (ladleKey q < 12 → t = u.modCsi (ladleKey q) (fun p => { p with line := [] })))) ∧
    (12 ≤ ladleKey q → let lost : Ladle := { l with
        lostCnt := cnt l.lostCnt (l.words.length + l.part.length), words := [], part := [], rd := 0, mark := 0, skip := false, inPkt := false, owed := none
        discard := false, inRead := false }
      Completes (.ladlePtrMismatch q) s (fun t => ∃ u, LadleIs s u q { lost with ptrCnt := cnt l.ptrCnt 1 } ∧
        (∃ v, EventsOnly u v ∧ Raised u v 0x0005 c.inst [c.unit + c.page * 256] ∧ v = { u with host := v.host } ∧
          match q with
          | .tile p _ => t = { v with bu.fails := s.bu.fails ++ if (s.tiles.get p).role = 2 then [] else [(p.val, 3)] }
          | .hub i => t = { v with host.pci.aer := if i.val = 36 ∨ i.val = 37 then v.host.pci.aer ||| 16 else v.host.pci.aer }
          | _ => t = v)) ∧
      (s.host.opMode = false → Completes (.ldlCtrlQreset q) s (fun t => LadleIs s t q lost))) ∧
    (s.host.opMode = true → exec (.ldlCtrlQreset q) s = .next s) ∧
    (∀ on, (s.host.opMode = true → exec (.ldlCtrlForceOvw q on) s = .next s) ∧
      (s.host.opMode = false → exec (.ldlCtrlForceOvw q on) s = .next (s.modLdl (ladleKey q) (fun l => { l with force := on })))) ∧
    exec (.ldlCtrlCntClr q) s = .next (s.modLdl (ladleKey q) (fun l => { l with ovrCnt := 0, lostCnt := 0, ptrCnt := 0, dropCnt := 0 })) ∧
    (∀ m : Word, exec (.ldlStatClear q m) s = .next (s.modLdl (ladleKey q) (fun l => { l with
      overrun := l.overrun && !bit m.toNat 31, markLost := l.markLost && !bit m.toNat 30 }))) ∧
    ∀ v : Word, (c.cut = false → exec (.ldlThrWrite q v) s = .next s) ∧
      (c.cut = true → exec (.ldlThrWrite q v) s = .next (s.modLdl (ladleKey q) (fun l => { l with
        thr := some (max 64 (min c.depth (v.toNat % 2 ^ 17 / 64 * 64))) }))))

/-- CSI_LONG_PACKET counts the packet; one with an uncorrectable header goes no further; else the link is up, corrected headers and CRC errors are counted, a line of the tapped stream joins the tap's frame, a packet of no enabled filter is counted, and one of a filter enters CSI_RX_n marked with its filter, CRC outcome and whether a frame takes it. CSI_FRAME_START opens the frame of its filter, restarts the tap, and starts the capture of an armed camera, or counts a frame not armed; an open captured frame is closed with TRUNC. CSI_FRAME_END closes it and sends the tap's frame to its island. CSI_LINK_TIMEOUT reports a lost link once. FRONT_END_LAUNCH arms the cameras of its profile, or ends with BAD_PROGRAM; a busy front end takes no strobe. The trigger rises and falls at its times. CAPTURE_TIMEOUT ends what is open. A word read from CSI_RX_n joins its line, and the last word writes the line's row. STRIPE_POST posts once. FRAME_RECORD_WRITE writes the record and with the last one ends the launch. A queue reset closes the port's frames. CSI_CTRL.cnt_clr and the four commands act as their rules say. Each changes only what is named. -/
def Obligations.CamerasDeliverAndCaptureFrames : Prop :=
  (∀ (n : Fin 12) (k : CsiPacket) (now : Nat) (s : State), let s' := s.advance now; let p := s.sen.csi.get n; let l := s.fab.ldl.get n
    let fits := fun (f : Nat) => filtOn (p.filters.get f) = true ∧ filtVc (p.filters.get f) = k.vc.val ∧ filtDt (p.filters.get f) = k.dt.toNat
    let tap := p.tapOpen = true ∧ filtVc (p.filters.get 0) = k.vc.val
    let p' : CsiPort := { p with
      up := true, pktCnt := cnt p.pktCnt 1, eccCnt := if k.ecc = .corrected then cnt p.eccCnt 1 else p.eccCnt
      crcErr := if k.crcOk = true then p.crcErr else cnt p.crcErr 1
      tapLines := if tap ∧ filtDt (p.filters.get 0) = k.dt.toNat then p.tapLines ++ [some k.payload] else p.tapLines
      tapEmb := if tap ∧ k.dt = 0x12 ∧ p.tapEmb = none then some (k.payload.take 64) else p.tapEmb }
    let link := fun (t : State) => (p.up = true → t.host = s.host) ∧ (p.up = false → Raised s' t 0x0A00 n [1])
    (k.ecc = .uncorrectable → exec (.csiLongPacket n k now) s = .next (s'.modCsi n (fun p => { p with pktCnt := cnt p.pktCnt 1, hdrErr := cnt p.hdrErr 1 }))) ∧
    (k.ecc ≠ .uncorrectable → (∀ f, f < 4 → ¬ fits f) → Completes (.csiLongPacket n k now) s (fun t => CsiOnly s' t ∧ link t ∧
      t.sen.capture = s.sen.capture ∧ PortIs s t n { p' with filtCnt := cnt p.filtCnt 1 })) ∧
    (∀ f, f < 4 → fits f → (∀ g, g < f → ¬ fits g) → k.ecc ≠ .uncorrectable → 1 ≤ k.payload.length → k.payload.length ≤ 16 → l.part = [] → l.owed = none →
      l.skip = false → l.discard = false → l.words.length < ladleCap s (.hub ⟨n, by omega⟩) → s.pwr.state = .run → s.pwr.entering = none →
      Completes (.csiLongPacket n k now) s (fun t => EventsOnly s t ∧ link t ∧ PortIs s t n p' ∧
        t = { s' with host := t.host, sen := { s.sen with csi := t.sen.csi }, fab := { s.fab with ldl := t.fab.ldl } } ∧
        (∀ m, m ≠ n.val → t.fab.ldl.get m = s.fab.ldl.get m) ∧
        let info := f + (if k.crcOk = true then 0 else 4) + (match cameraAt s n f with
          | some (_, x) => if x.phase = 1 then 8 else 0
          | none => 0)
        t.fab.ldl.get n = { l with
          inPkt := false, words := l.words ++ [{ data := slice k.payload 0 64, eop := true, err := false, vbytes := k.payload.length, info := info }] }))) ∧
  (∀ (n : Fin 12) (vc : Fin 32) (fnum : Half) (now f : Nat) (s : State), let s' := s.advance now; let p := s.sen.csi.get n
    let tap := p.configured = true ∧ filtVc (p.filters.get 0) = vc.val
    p.up = true → f < 4 → filtVc (p.filters.get f) = vc.val →
    (filtOn (p.filters.get f) = true → (∀ g, g < 4 → g ≠ f → filtOn (p.filters.get g) = false) → p.tapOpen = false →
      let opens := fun (t : State) (noArm : Nat) => CsiOnly s' t ∧ t.host = s.host ∧ PortIs s t n { p with
          lastFs := s'.dt, openF := p.openF.set f true, noArm := noArm, fnum := if tap then fnum else p.fnum, tapOpen := decide tap
          tapLines := if tap then [] else p.tapLines, tapEmb := if tap then none else p.tapEmb, taps := (t.sen.csi.get n).taps } ∧
        ∀ i, (t.sen.csi.get n).taps.get i = if tap ∧ i < 2 then { p.taps.get i with cfg := tapCfgOf s i n } else p.taps.get i
      (cameraAt s n f = none → Completes (.csiFrameStart n vc fnum now) s (fun t => opens t (cnt p.noArm 1) ∧ t.sen.capture = s.sen.capture)) ∧
      (∀ i x c, cameraAt s n f = some (i, x) → s.sen.capture = some c →
        (x.phase = 0 → p.openF.get f = false → Completes (.csiFrameStart n vc fnum now) s (fun t => opens t p.noArm ∧
          t.sen.capture = some { c with cams := c.cams.modify i (fun x => { x with phase := 1, dtFs := s'.dt, fnum := fnum }) })) ∧
        (x.phase = 1 → p.openF.get f = true → Completes (.csiFrameStart n vc fnum now) s (fun t => opens t (cnt p.noArm 1) ∧
          t.sen.capture = some { c with cams := c.cams.modify i (fun x => { x with phase := 2, dtFe := s'.dt, flags := x.flags ||| 2 }) })))) ∧
    (p.openF.get f = true → (∀ g, g < 4 → g ≠ f → p.openF.get g = false) → (p.tapOpen = false ∨ ¬ tap) →
      let closes := fun (t : State) => CsiOnly s' t ∧ t.host = s.host ∧ PortIs s t n { p with openF := p.openF.set f false }
      (cameraAt s n f = none → Completes (.csiFrameEnd n vc fnum now) s (fun t => closes t ∧ t.sen.capture = s.sen.capture)) ∧
      (∀ i x c, cameraAt s n f = some (i, x) → s.sen.capture = some c → x.phase = 1 → Completes (.csiFrameEnd n vc fnum now) s (fun t => closes t ∧
        t.sen.capture = some { c with cams := c.cams.modify i (fun x => { x with phase := 2, dtFe := s'.dt, flags := x.flags ||| 0 }) }))) ∧
    (∀ a : TapCfg, tap → p.tapOpen = true → (∀ g, g < 4 → p.openF.get g = false) → (p.taps.get 0).cfg = some a → (p.taps.get 1).cfg = none →
      let dt := filtDt (p.filters.get 0); let y := tapSamples a dt p.tapLines
      Completes (.csiFrameEnd n vc fnum now) s (fun t =>
        t = { s' with
          sen := { s.sen with csi := t.sen.csi }
          toIslands := s.toIslands ++ [(0, .tap { port := n, fnum := p.fnum, dtype := BitVec.ofNat 6 dt, samples := y.1,
                                                  embedded := if a.emb = true then (p.tapEmb.getD []).take 64 else [], trunc := y.2 })] } ∧
        PortIs s t n { p with tapOpen := false, tapLines := [], tapEmb := none,
                              taps := p.taps.modify 0 (fun x => { x with trunc := y.2, sent := sat 24 (x.sent + 1) }) }))) ∧
  (∀ (n : Fin 12) (s : State), ((s.sen.csi.get n).up = false → exec (.csiLinkTimeout n) s = .next s) ∧
    ((s.sen.csi.get n).up = true → Completes (.csiLinkTimeout n) s (fun t => EventsOnly s t ∧ Raised s t 0x0A00 n [0] ∧
      t = { s.modCsi n (fun p => { p with up := false }) with host := t.host }))) ∧
  (∀ (b : Strobe) (now : Nat) (s : State), let s' := s.advance now; let l : Launch := { strobe := b, link := none }
    ((s.sen.capture.isSome = true ∨ stoppedDomain s.pwr.state 67 = true) → exec (.frontEndLaunch b now) s = .next s') ∧
    (s.sen.capture = none → stoppedDomain s.pwr.state 67 = false → s.cal.held.get 38 = [] →
      ((64 ≤ b.prog.toNat ∨ s.sen.profiles.get b.prog.toNat = none) → exec (.frontEndLaunch b now) s =
        .next { s' with cal := { s.cal with done := s.cal.done.modify 38 (· ++ [(l, stBadProgram)]) } }) ∧
      (∀ pr, b.prog.toNat < 64 → s.sen.profiles.get b.prog.toNat = some pr → exec (.frontEndLaunch b now) s = .next { s' with
        sen.capture := some {
          launch := l, head := slice pr 0 16, since := s'.dt, failed := false
          cams := (List.range (fld pr 1 1)).map (fun c => {
            entry := slice pr (16 + 64 * c) 64, phase := 0, fnum := 0, dtFs := 0
            dtFe := 0, arrived := 0, rows := 0, lost := 0, bytes := 0, flags := 0, posts := 0, trigPhase := 0 }) } }))) ∧
  (∀ (n : Fin 12) (now : Nat) (c : Capture) (i : Nat) (x : Camera) (s : State), let s' := s.advance now
    let start := max (c.launch.strobe.dt + fld c.head 4 4 * 1000) c.since
    let rises := bit (fld x.entry 3 1) 2 = true ∧ x.trigPhase = 0 ∧ start ≤ s'.dt
    let falls := x.trigPhase = 1 ∧ start + fld c.head 8 2 * 1000 ≤ s'.dt
    cameraOfPort s n = some (c, i, x) →
    let moves := fun (t : State) (ph : Nat) (pin : Bool) => CsiOnly s' t ∧ t.host = s.host ∧ PortIs s t n { s.sen.csi.get n with trig := pin } ∧
      t.sen.capture = some { c with cams := c.cams.modify i (fun x => { x with trigPhase := ph }) }
    (rises → Completes (.csiTrigStart n now) s (fun t => moves t 1 true)) ∧ (¬ rises → exec (.csiTrigStart n now) s = .next s') ∧
    (falls → Completes (.csiTrigEnd n now) s (fun t => moves t 2 false)) ∧ (¬ falls → exec (.csiTrigEnd n now) s = .next s')) ∧
  (∀ (now : Nat) (s : State), let s' := s.advance now
    (s.sen.capture = none → exec (.captureTimeout now) s = .next s') ∧
    (∀ c, s.sen.capture = some c → (s'.dt < c.since + fld c.head 10 2 * 1000000 → exec (.captureTimeout now) s = .next s') ∧
      (c.since + fld c.head 10 2 * 1000000 ≤ s'.dt → exec (.captureTimeout now) s = .next { s' with sen.capture := some { c with cams := c.cams.map (fun x =>
        if x.phase = 0 then { x with phase := 2, dtFe := s'.dt, flags := x.flags ||| 1 }
        else if x.phase = 1 then { x with phase := 2, dtFe := s'.dt, flags := x.flags ||| 2 } else x) } }))) ∧
  (∀ (n : Fin 12) (s : State), let p := s.sen.csi.get n; let l := s.fab.ldl.get n
    (∀ w : LWord, ladleReadable (ladleCfg (.hub ⟨n, by omega⟩)) l 0 = true → (ladleVisible l 0).head? = some w →
      let l' : Ladle := { l with words := l.words.drop 1, inRead := !w.eop }
      (w.eop = false → Completes (.ladleRead (.hub ⟨n, by omega⟩) 0) s (fun t => ∃ u, LadleIs s u (.hub ⟨n, by omega⟩) l' ∧
        t = u.modCsi n (fun p => { p with line := p.line ++ w.data.take w.vbytes }))) ∧
      (∀ (c : Capture) (i : Nat) (x : Camera), let line := p.line ++ w.data.take w.vbytes; let row := camRow c x x.arrived
        w.eop = true → w.err = false → w.info < 16 → bit w.info 2 = false → bit w.info 3 = true → s.sen.capture = some c → cameraAt s n (w.info % 4) = some (i, x) →
        x.phase = 1 → x.arrived < fld x.entry 6 2 → fld x.entry 2 1 = 0 → camPosts x = false → 0 < line.length →
        line.length = payloadBytes (filtDt (p.filters.get (fld x.entry 1 1))) (fld x.entry 4 2) → HubFree s row line.length →
        Completes (.ladleRead (.hub ⟨n, by omega⟩) 0) s (fun t => ∃ u, LadleIs s u (.hub ⟨n, by omega⟩) l' ∧ StoresAt s t row line ∧
          PortIs s t n { p with line := [] } ∧
          t = { u with
            fab := { u.fab with mem := t.fab.mem, poison := t.fab.poison }
            sen := { s.sen with csi := t.sen.csi, capture := some { c with cams := c.cams.modify i (fun x => { x with
              arrived := x.arrived + 1, rows := x.rows + 1, bytes := x.bytes + line.length }) } } }))) ∧
    (s.sen.capture = none → Completes (.ladlePtrMismatch (.hub ⟨n, by omega⟩)) s (fun t => EventsOnly s t ∧ Raised s t 0x0005 n [0x5000] ∧
      t = { s with host := t.host, fab := { s.fab with ldl := t.fab.ldl }, sen := { s.sen with csi := t.sen.csi } } ∧
      (∀ m, m ≠ n.val → t.fab.ldl.get m = s.fab.ldl.get m) ∧ (t.fab.ldl.get n).words = [] ∧ (t.fab.ldl.get n).lostCnt = cnt l.lostCnt (l.words.length + l.part.length) ∧
      PortIs s t n { p with line := [], openF := (t.sen.csi.get n).openF } ∧ ∀ f, f < 4 → (t.sen.csi.get n).openF.get f = false))) ∧
  (∀ (n : Fin 12) (c : Capture) (i : Nat) (x : Camera) (s : State), cameraOfPort s n = some (c, i, x) → c.cams[i]? = some x →
    let lt := fld x.entry 30 1; let ctr := fld x.entry 31 1 % 16
    (0 < x.posts ∨ (lastPostDue x = true ∧ csiDrained s n = true) →
      (∀ p, physOf s lt = some p → tileAbsorbed s p = false → s.fab.transitDown.get (dieOf p) = false → pathUsable s 0x32 (dieOf p) = true →
        Completes (.stripePost n) s (fun t => t = { s with tiles := t.tiles, sen.capture := t.sen.capture } ∧ (∀ q, q ≠ p → t.tiles.get q = s.tiles.get q) ∧
          t.tiles.get p = { s.tiles.get p with ev := (s.tiles.get p).ev.modify ctr (fun v => (v + 1) % 65536) } ∧
          ∃ flags, flags % 2 ^ 31 = x.flags % 2 ^ 31 ∧
            t.sen.capture = some { c with cams := c.cams.set i { x with posts := x.posts - 1, flags := flags } })) ∧
      (physOf s lt = none → Completes (.stripePost n) s (fun t => ∃ flags, flags % 2 ^ 31 = (x.flags ||| 128) % 2 ^ 31 ∧
        t = { s with sen.capture := some { c with cams := c.cams.set i { x with posts := x.posts - 1, flags := flags } } }))) ∧
    (x.posts = 0 → (lastPostDue x = false ∨ csiDrained s n = false) → exec (.stripePost n) s = .next s) ∧
    ((x.phase ≠ 2 ∨ csiDrained s n = false ∨ 0 < x.posts ∨ lastPostDue x = true) → exec (.frameRecordWrite n) s = .next s) ∧
    (x.phase = 2 → csiDrained s n = true → x.posts = 0 → lastPostDue x = false → c.cams = [x] →
      let flags := (x.flags % 2 ^ 31) ||| (if x.arrived < fld x.entry 6 2 ∧ bit x.flags 0 = false then 2 else 0); let at_ := fld x.entry 32 8 + 64 * camSlot c x
      let st := if c.failed = true ∨ flags &&& 0x41 ≠ 0 then stEngineError else stOk
      HubFree s at_ 64 → Completes (.frameRecordWrite n) s (fun t => EventsOnly s t ∧ StoresAt s t at_ (frameRecord c x flags) ∧
        PortIs s t n { s.sen.csi.get n with frameCnt := cnt (s.sen.csi.get n).frameCnt 1 } ∧
        t = { s with
          host := t.host, fab := { s.fab with mem := t.fab.mem, poison := t.fab.poison }, sen := { s.sen with csi := t.sen.csi, capture := none }
          cal := { s.cal with done := s.cal.done.modify 38 (· ++ [(c.launch, st)]) } } ∧
        (flags &&& 0x1BE = 0 → t.host = s.host) ∧
        (flags &&& 0x1BE ≠ 0 → Raised s t 0x0A01 n [flags + c.launch.strobe.seq.toNat * 2 ^ 32, at_])))) ∧
  (∀ s : State, Completes .csiCtrlCntClr s (fun t => t = { s with sen := { s.sen with csi := t.sen.csi } } ∧
    ∀ n, (12 ≤ n → t.sen.csi.get n = s.sen.csi.get n) ∧ (n < 12 → t.sen.csi.get n = { s.sen.csi.get n with
      pktCnt := 0, eccCnt := 0, hdrErr := 0, crcErr := 0, filtCnt := 0, noArm := 0, lineLost := 0, frameCnt := 0, taps := (t.sen.csi.get n).taps } ∧
      ∀ i, (t.sen.csi.get n).taps.get i = if i < 2 then { (s.sen.csi.get n).taps.get i with sent := 0 } else (s.sen.csi.get n).taps.get i))) ∧
  ∀ (ch : Fin 4) (r : Request) (s : State), Plain s r →
    (let n := payField r 0 1; let filt := fun (f : Nat) => payField r (8 + 2 * f) 2
     let armed := ∃ c i x, cameraOfPort s n = some (c, i, x) ∧ x.phase ≠ 3
     let badType := ∃ f, f < 4 ∧ (f = 0 ∨ filtOn (filt f) = true) ∧ pixelGroup (filtDt (filt f)) = none
     r.length = 16 → n < 12 → payField r 1 1 = 0 → (payField r 2 1 = 1 ∨ payField r 2 1 = 2 ∨ payField r 2 1 = 4) → payField r 3 1 ≤ 1 →
     80 ≤ payField r 4 2 → payField r 4 2 ≤ 4500 → payField r 6 2 = 0 → (∀ f, f < 4 → filt f &&& 0xBF1F = filt f) →
     (armed → AnswersOnly (.csiPortConfig ch r) s ch 0x0200 r stBusy 0 []) ∧
     (¬ armed → badType → AnswersOnly (.csiPortConfig ch r) s ch 0x0200 r stBadField 0 []) ∧
     (¬ armed → ¬ badType → Accepts (.csiPortConfig ch r) s ch 0x0200 r 0 (payBytes r) (fun t => t = { s with host := t.host, sen := { s.sen with csi := t.sen.csi } } ∧
       PortIs s t n { s.sen.csi.get n with phy := 0, lanes := payField r 2 1, scramble := payField r 3 1, rate := payField r 4 2, configured := true,
                                           filters := (t.sen.csi.get n).filters } ∧ ∀ f, f < 4 → (t.sen.csi.get n).filters.get f = filt f))) ∧
    (let n := payField r 0 1
     r.length = 1 → n < 12 → AnswersOnly (.csiPortQuery ch r) s ch 0x0201 r stOk 0
       (csiConfBytes n (s.sen.csi.get n) ++ regBytes (csiRegs s n 0) ++ leBytes 4 (skmReg s n 0) ++ leBytes 4 (skmReg s n 1))) ∧
    (let e := slice (payBytes r) 16 64; let f := fun (o n : Nat) => fld e o n; let pr := payField r 0 1
     let used := ∃ c, s.sen.capture = some c ∧ c.launch.strobe.prog.toNat = pr
     r.length = 80 → pr < 64 → payField r 1 1 = 1 → payField r 2 2 = 0 → payField r 4 4 ≤ 1000000 → 1 ≤ payField r 8 2 → payField r 8 2 ≤ 1000 →
     1 ≤ payField r 10 2 → payField r 10 2 ≤ 1000 → payField r 12 4 = 0 → f 0 1 ≤ 11 → f 1 1 ≤ 3 → f 2 1 ≤ 4 → f 3 1 < 8 → 1 ≤ f 4 2 → f 4 2 ≤ 8192 →
     1 ≤ f 6 2 → f 6 2 ≤ 8192 → f 8 8 % 64 = 0 → f 16 4 % 64 = 0 → 1 ≤ f 20 1 → f 20 1 ≤ 8 → f 21 1 = 0 → 1 ≤ f 22 2 →
     (if f 2 1 = 3 then f 24 4 % 64 = 0 else f 24 4 = 0) → f 28 2 ≤ 8192 → f 30 1 ≤ 31 → f 31 1 &&& 0x70 = 0 → f 32 8 % 64 = 0 → f 40 24 = 0 →
     (used → AnswersOnly (.captureProfileSet ch r) s ch 0x0202 r stBusy 0 []) ∧
     (¬ used → (profileBad s [e] = true → AnswersOnly (.captureProfileSet ch r) s ch 0x0202 r stBadField 0 []) ∧
       (profileBad s [e] = false → profileOutside s [e] = true → AnswersOnly (.captureProfileSet ch r) s ch 0x0202 r stDecodeError 0 []) ∧
       (profileBad s [e] = false → profileOutside s [e] = false → Accepts (.captureProfileSet ch r) s ch 0x0202 r 0 ((payBytes r).take 16) (fun t =>
         t = { s with host := t.host, sen := { s.sen with profiles := s.sen.profiles.set pr (some (payBytes r)) } })))) ∧
    (r.length = 1 → payField r 0 1 < 64 →
      (s.sen.profiles.get (payField r 0 1) = none → AnswersOnly (.captureProfileQuery ch r) s ch 0x0203 r stNotDefined 0 []) ∧
      ∀ pr, s.sen.profiles.get (payField r 0 1) = some pr → AnswersOnly (.captureProfileQuery ch r) s ch 0x0203 r stOk 0 pr)

/-- ETH_RX_FRAME does nothing while the MAC is off or its link down; it counts a bad FCS; a frame of no queue or of a full one is dropped, counted and reported at most once a second; a frame of the 802.1AS queue is counted; any other frame goes to its slot in hub SRAM with its record, TAIL and the sequence number go on, and the post of every k-th frame is made. ETH_TX_POLL sees which queues' descriptors are owned. ETH_TX_DONE sends the frame of the lowest active queue, writes its descriptor back and looks at the next. ETH_RXQ_HEAD_WRITE moves HEAD unless it would pass TAIL. ETH_LINK reports a change. TRAY_SENSOR_READ begins a read that is due, TRAY_READ_DONE stores its value or counts the failure, and Quench takes the readings. FLOW_PULSE_EDGE measures the flow between clean edges, FLOW_STALL after 250 ms without one zeroes it and stops the coolant. The clear bits and the seven commands act as their rules say. Each changes only what is named. -/
def Obligations.EthernetAndTray : Prop :=
  (∀ (m : Fin 4) (f : EthFrame) (now : Nat) (s : State), let s' := s.advance now; let e := s.sen.eth.get m
    let first := fun (q : Nat) => q < 4 ∧ rxqMatches s m q f.bytes = true ∧ ∀ i, i < q → rxqMatches s m i f.bytes = false
    let dropped := Completes (.ethRxFrame m f now) s (fun t => t = { s' with host := t.host, sen := { s.sen with eth := t.sen.eth } } ∧ EventsOnly s t ∧
      let late := ∀ d, e.dropDt = some d → d + 1000000000 ≤ s'.dt
      (late → Raised s' t 0x0A11 m [e.drops + 1] ∧ MacIs s t m { e with rxDrop := cnt e.rxDrop 1, drops := 0, dropDt := some s'.dt }) ∧
      (¬ late → t.host = s.host ∧ MacIs s t m { e with rxDrop := cnt e.rxDrop 1, drops := e.drops + 1 }))
    ((e.enable = false ∨ e.link = false) → exec (.ethRxFrame m f now) s = .next s') ∧
    (e.enable = true → e.link = true →
      (f.fcsOk = false → exec (.ethRxFrame m f now) s = .next (s'.modEth m (fun e => { e with fcsErr := cnt e.fcsErr 1 }))) ∧
      (f.fcsOk = true → ((∀ q, q < 4 → rxqMatches s m q f.bytes = false) → dropped) ∧
        ∀ q, first q → let x := e.rxq.get q; let reserved := ptpMac s m = true ∧ q = 3
          (reserved → exec (.ethRxFrame m f now) s = .next (s'.modEth m (fun e => { e with rxFrames := e.rxFrames + 1 }))) ∧
          (¬ reserved → (x.tail + 1) % x.nslots = x.head → dropped) ∧
          (¬ reserved → (x.tail + 1) % x.nslots ≠ x.head →
            let base := x.base + x.tail * x.slot; let room := x.slot - 32; let n := x.count + 1
            let lands := fun (p : Nat) => bit x.ctr 7 = true ∧ x.k ≤ n ∧ physOf s x.ltile = some p
            let rec_ := slice (leBytes 8 s'.dt ++ leBytes 4 f.bytes.length ++ leBytes 2 ((ethType f.bytes).2.getD 0) ++
              leBytes 2 (if room < f.bytes.length then 1 else 0) ++ leBytes 4 x.seq) 0 32
            HubFree s base (32 + (f.bytes.take room).length) →
            (∀ p, lands p → tileAbsorbed s p = false ∧ s.fab.transitDown.get (dieOf p) = false ∧ pathUsable s 0x30 (dieOf p) = true) →
            Completes (.ethRxFrame m f now) s (fun t => StoresAt s t base (rec_ ++ f.bytes.take room) ∧
              t = { s' with fab := { s.fab with mem := t.fab.mem, poison := t.fab.poison }, sen := { s.sen with eth := t.sen.eth }, tiles := t.tiles } ∧
              (∀ p, lands p → t.tiles.get p = { s.tiles.get p with ev := (s.tiles.get p).ev.modify (x.ctr % 16) (fun v => (v + 1) % 65536) }) ∧
              (∀ p, ¬ lands p → t.tiles.get p = s.tiles.get p) ∧
              MacIs s t m { e with rxFrames := e.rxFrames + 1, rxq := e.rxq.set q { x with
                tail := (x.tail + 1) % x.nslots, seq := (x.seq + 1) % 2 ^ 32, count := if x.k ≤ n then 0 else n } }))))) ∧
  (∀ (m : Fin 4) (now : Nat) (s : State), let s' := s.advance now; let e := s.sen.eth.get m
    (e.enable = false → exec (.ethTxPoll m now) s = .next s') ∧
    (e.enable = true → (∀ q, q < 4 → (e.txq.get q).on = true → CleanHub s (txDesc (e.txq.get q)) 32) →
      Completes (.ethTxPoll m now) s (fun t => t = { s' with sen := { s.sen with eth := t.sen.eth } } ∧ MacIs s t m { e with txq := (t.sen.eth.get m).txq } ∧
        ∀ q, (t.sen.eth.get m).txq.get q = if q < 4 ∧ (e.txq.get q).on = true then
          { e.txq.get q with active := bit (fld (s.fab.mem.readN (txDesc (e.txq.get q)) 32) 12 2) 0 } else e.txq.get q))) ∧
  (∀ (m q : Fin 4) (now : Nat) (s : State), let s' := s.advance now; let e := s.sen.eth.get m; let x := e.txq.get q
    let sends := e.enable = true ∧ e.link = true ∧ x.active = true ∧ ∀ i, i < q.val → (e.txq.get i).active = false
    let at_ := txDesc x; let d := s.fab.mem.readN at_ 32; let y := { x with pos := (x.pos + 1) % x.nslots }
    (¬ sends → exec (.ethTxDone m q now) s = .next s') ∧
    (sends → HubFree s at_ 32 → CleanHub s (fld d 0 8) (fld d 8 4) → CleanHub s (txDesc y) 32 →
      Completes (.ethTxDone m q now) s (fun t =>
        StoresAt s t at_ (putBytes (putBytes (putBytes d 12 (leBytes 2 ((if bit (fld d 12 2) 1 = true then 2 else 0) + 4))) 14 (leBytes 2 0)) 16
          (leBytes 8 (if bit (fld d 12 2) 1 = true then s'.dt else fld d 16 8))) ∧
        t = { s' with fab := { s.fab with mem := t.fab.mem, poison := t.fab.poison }, sen := { s.sen with eth := t.sen.eth } } ∧
        MacIs s t m { e with
          txFrames := e.txFrames + 1, wire := e.wire ++ [(s.fab.mem.readN (fld d 0 8) (fld d 8 4), true)]
          txq := e.txq.set q { y with active := bit (fld (t.fab.mem.readN (txDesc y) 32) 12 2) 0 } }))) ∧
  (∀ (m q : Fin 4) (w : Word) (s : State), let e := s.sen.eth.get m; let x := e.rxq.get q; let v := w.toNat % 65536
    let dist := fun (v : Nat) => (v + x.nslots - x.head) % x.nslots
    (v < x.nslots → dist v ≤ dist x.tail → Completes (.ethRxqHeadWrite m q w) s (fun t => t = { s with sen := { s.sen with eth := t.sen.eth } } ∧
      MacIs s t m { e with rxq := e.rxq.set q { x with head := v } })) ∧
    ((x.nslots ≤ v ∨ dist x.tail < dist v) → exec (.ethRxqHeadWrite m q w) s = .next s)) ∧
  (∀ (m : Fin 4) (up : Bool) (s : State), let e := s.sen.eth.get m
    (e.link = up → exec (.ethLink m up) s = .next s) ∧
    (e.link ≠ up → Completes (.ethLink m up) s (fun t => EventsOnly s t ∧ Raised s t 0x0A10 m [if up = true then 1 else 0] ∧
      t = { s.modEth m (fun e => { e with link := up }) with host := t.host }))) ∧
  (∀ s : State,
    Completes .ethCtrlCntClr s (fun t => t = { s with sen := { s.sen with eth := t.sen.eth } } ∧ ∀ m, t.sen.eth.get m = if m < 4 then
      { s.sen.eth.get m with rxFrames := 0, txFrames := 0, fcsErr := 0, rxDrop := 0 } else s.sen.eth.get m) ∧
    exec .hubTrayCtrlCntClr s = .next { s with sen.tray.faultCnt := 0 }) ∧
  (∀ (k : Fin 8) (now : Nat) (s : State), let s' := s.advance now; let x := s.sen.tray.slots.get k
    let due := fld x.conf 1 1 ≠ 0 ∧ x.busy = false ∧ (∀ d, x.lastRd = some d → d + fld x.conf 6 2 * 1000000 ≤ s'.dt) ∧ stoppedDomain s.pwr.state 73 = false
    (due → exec (.traySensorRead k now) s = .next (s'.modSlot k (fun x => { x with busy := true, lastRd := some s'.dt }))) ∧
    (¬ due → exec (.traySensorRead k now) s = .next s')) ∧
  (∀ (k : Fin 8) (now : Nat) (s : State), let s' := s.advance now; let x := s.sen.tray.slots.get k; let role := fld x.conf 1 1
    let slots := fun (u : State) (y : TraySlot) => u.sen.tray.slots = s.sen.tray.slots.modify k (fun _ => y)
    (x.busy = false → ∀ raw, exec (.trayReadDone k raw now) s = .next s') ∧
    (x.busy = true → Completes (.trayReadDone k none now) s (fun t => ∃ u, CoolantTaken u t ∧ EventsOnly s u ∧
        u = { s' with host := u.host, sen := { s.sen with tray := { s.sen.tray with slots := u.sen.tray.slots, faultCnt := cnt s.sen.tray.faultCnt 1 } } } ∧
        slots u { x with busy := false, fails := x.fails + 1, fault := x.fault || decide (3 ≤ x.fails + 1) } ∧
        (x.fails = 2 ∧ x.fault = false → Raised s' u 0x0A20 k [1]) ∧ (¬ (x.fails = 2 ∧ x.fault = false) → u.host = s.host)) ∧
      ∀ raw : BitVec 16, let v := trayValue x.conf raw.toNat
        (role ≠ 2 ∨ s.qch.outlet = []) → Completes (.trayReadDone k (some raw) now) s (fun t => ∃ u w, CoolantTaken u w ∧ EventsOnly s u ∧
          u = { s' with
            host := u.host, sen := { s.sen with tray := { s.sen.tray with slots := u.sen.tray.slots } }
            qch := { s.qch with tIn := if role = 1 then v else s.qch.tIn, tOut := if role = 2 then v else s.qch.tOut } } ∧
          slots u { x with busy := false, fails := 0, fault := false, valid := true, good := s'.dt, value := v } ∧
          (x.fault = true → Raised s' u 0x0A20 k [0]) ∧ (x.fault = false → u.host = s.host) ∧
          t = if role = 2 then { w with qch.outlet := [(s'.dt, v)] } else w))) ∧
  (∀ (now : Nat) (s : State), let s' := s.advance now; let y := s.sen.tray
    exec (.flowPulseEdge false now) s = .next s' ∧
    (y.edges = 0 → exec (.flowPulseEdge true now) s = .next { s' with sen.tray := { y with pulseDt := s'.dt, edges := 1, stalled := y.stalled } }) ∧
    (1 ≤ y.edges → y.pulseDt < s'.dt → ∀ k : Rat, ofFp32 y.k.toNat = .fin false k → 0 < k →
      Completes (.flowPulseEdge true now) s (fun t => ∃ u, CoolantTaken u t ∧ u = { s' with
          sen := { s.sen with tray := { y with pulseDt := s'.dt, edges := y.edges + 1, stalled := false, flow := u.sen.tray.flow } }, free := u.free } ∧
        let x : Rat := 60000000000000 / (((s'.dt - y.pulseDt : Nat) : Rat) * k)
        u.sen.tray.flow ≤ 65535 ∧ (x ≤ 65535 → ((u.sen.tray.flow : Rat) < x + 1 ∧ x - 1 < (u.sen.tray.flow : Rat))) ∧ (65535 ≤ x → u.sen.tray.flow = 65535))) ∧
    ((y.stalled = true ∨ s'.dt < y.pulseDt + 250000000) → exec (.flowStall now) s = .next s') ∧
    (y.stalled = false → y.pulseDt + 250000000 ≤ s'.dt →
      let z := { s' with sen.tray := { y with stalled := true, flow := 0, edges := 0 } }
      Completes (.flowStall now) s (fun t => ∃ u, (s.qch.coolant = 3 → u = z) ∧ (s.qch.coolant ≠ 3 → CoolantStopped z u 0) ∧ CoolantTaken u t))) ∧
  ∀ (ch : Fin 4) (r : Request) (s : State), Plain s r →
    (let m := payField r 0 1
     r.length = 16 → m < 4 → payField r 1 1 ≤ 1 → payField r 2 1 ≤ 2 → payField r 3 1 = 0 → 64 ≤ payField r 4 2 → payField r 4 2 ≤ 9216 → payField r 6 2 = 0 →
     1 ≤ payField r 14 2 → payField r 14 2 ≤ 1000 → Accepts (.ethConfig ch r) s ch 0x0208 r 0 (payBytes r) (fun t =>
       t = { s with host := t.host, sen := { s.sen with eth := t.sen.eth } } ∧ MacIs s t m { s.sen.eth.get m with
         enable := decide (payField r 1 1 = 1), fec := payField r 2 1, mtu := payField r 4 2, addr := slice (payBytes r) 8 6, pollUs := payField r 14 2 })) ∧
    (let m := payField r 0 1; let e := s.sen.eth.get m; let rx := payField r 1 1 = 0; let q := payField r 2 1; let f := payField r
     let bytes := if rx then f 16 4 * f 20 2 else f 16 4 * 32
     let busy := (¬ rx ∧ (e.txq.get q).active = true) ∨ (rx ∧ q = 3 ∧ ptpMac s m = true)
     r.length = 30 → m < 4 → f 1 1 ≤ 1 → q < 4 → f 3 1 ≤ 15 → f 4 4 = 0 → f 8 8 % 64 = 0 → 16 ≤ f 16 4 → f 16 4 ≤ 65536 → 2048 ≤ f 20 2 → f 20 2 ≤ 16384 →
     f 20 2 % 64 = 0 → f 22 1 ≤ 2 → f 23 1 = 0 → f 26 1 ≤ 31 → f 27 1 &&& 0x8F = f 27 1 → 1 ≤ f 28 2 →
     (busy → AnswersOnly (.ethQueueConfig ch r) s ch 0x0209 r stBusy 0 []) ∧
     (¬ busy → inDramOrHub (f 8 8) bytes = false → AnswersOnly (.ethQueueConfig ch r) s ch 0x0209 r stDecodeError 0 []) ∧
     (¬ busy → inDramOrHub (f 8 8) bytes = true → Accepts (.ethQueueConfig ch r) s ch 0x0209 r 0 (payBytes r) (fun t =>
       t = { s with host := t.host, sen := { s.sen with eth := t.sen.eth } } ∧
       (rx → MacIs s t m { e with rxq := e.rxq.set q {
         on := true, label := f 3 1, base := f 8 8, nslots := f 16 4, slot := f 20 2, kind := f 22 1
         value := f 24 2, ltile := f 26 1, ctr := f 27 1, k := f 28 2, head := 0, tail := 0, seq := 0, count := 0 } }) ∧
       (¬ rx → MacIs s t m { e with txq := e.txq.set q { on := true, label := f 3 1, base := f 8 8, nslots := f 16 4, pos := 0, active := false } })))) ∧
    (r.length = 1 → payField r 0 1 < 4 → AnswersOnly (.ethQuery ch r) s ch 0x020A r stOk 0 (regBytes (ethRegs s (payField r 0 1) 0))) ∧
    (let n := payField r 0 1; let k := payField r 16 4
     r.length = 20 → n < 8 → payField r 1 1 ≤ 4 → payField r 2 1 ≤ 1 → 8 ≤ payField r 3 1 → payField r 3 1 ≤ 0x77 → payField r 5 1 ≤ 3 →
     10 ≤ payField r 6 2 → payField r 6 2 ≤ 1000 → (n = 0 → clampFp32 1 100000 k = k) →
     Accepts (.trayConfig ch r) s ch 0x0210 r 0 (payBytes r) (fun t => t = { s with host := t.host, sen.tray := { s.sen.tray with
       slots := s.sen.tray.slots.modify n (fun x => { x with conf := slice (payBytes r) 0 16 }), configured := true,
       k := if n = 0 then BitVec.ofNat 32 k else s.sen.tray.k } })) ∧
    (r.length = 2 → payField r 0 2 ≤ 1024 → Accepts (.trayDemand ch r) s ch 0x0211 r 0
      (leBytes 4 (if s.sen.tray.configured = true ∧ stoppedDomain s.pwr.state 73 = false then max s.qch.demand (payField r 0 2) else 1024))
      (fun t => t = { s with host := t.host, sen.tray.floor := payField r 0 2 })) ∧
    (r.length = 0 → AnswersOnly (.trayQuery ch r) s ch 0x0212 r stOk 0 (regBytes (pageTray s)))

/-- SIx_RST_N low and a supply outside its limits put an island back in RESET with its fuses kept; with the pin high and the supply back it starts its tests with a new generator. The tests' end enters BOOT or FAULT. A clock fault, a compare-point difference outside split mode, the watchdog and an uncorrectable SRAM error enter FAULT with their code and the outputs low. A readback difference latches OUTPUT; a mode event to MAINTENANCE latches MODE where the table says so; a safe-state request from the hub or by CAN FD latches HUB_REQ. A CAN frame of another identifier, island or operation, and a CLEAR on the other controller, change nothing; a bad CRC counts. At the end of a message time a clear is decided, rejected beside a request, or kept for the end of a judgement. Only that island changes. -/
def Obligations.IslandsResetFaultAndLatch : Prop :=
  (∀ (i : Fin 2) (s : State), let a := s.isle i
    let starts := fun (t : State) (b : Island) => t = { s.modIsl i (fun _ => t.isle i) with free := s.free + 1 } ∧ (t.isle i).rng ≠ 0 ∧
      t.isle i = { b with state := .starttest, fault := 0, rng := (t.isle i).rng }
    exec (.islandReset i false) s = .next (s.modIsl i (fun _ => { islandFresh false a.supply a.keys with
      fault := if a.supply = true then 0 else a.fault, canOut := a.canOut })) ∧
    exec (.islandSupplyFault i false) s = .next (s.modIsl i (fun _ => { islandFresh a.rstN false a.keys with fault := 5, canOut := a.canOut })) ∧
    (a.state = .reset → a.supply = true → Completes (.islandReset i true) s (fun t => starts t { a with rstN := true })) ∧
    ((a.state ≠ .reset ∨ a.supply = false) → exec (.islandReset i true) s = .next (s.modIsl i (fun a => { a with rstN := true }))) ∧
    (a.state = .reset → a.rstN = true → Completes (.islandSupplyFault i true) s (fun t => starts t { a with supply := true })) ∧
    ((a.state ≠ .reset ∨ a.rstN = false) → exec (.islandSupplyFault i true) s = .next (s.modIsl i (fun a => { a with supply := true })))) ∧
  (∀ (i : Fin 2) (fault : BitVec 8) (s : State), let a := s.isle i
    IsleBecomes (.islandStarttestDone i fault) s s i (fun b =>
      (a.state ≠ .starttest → b = a) ∧ (a.state = .starttest → fault = 0 → b = { a with state := .boot }) ∧
      (a.state = .starttest → fault ≠ 0 → b = { a with state := .fault, fault := fault.toNat }))) ∧
  (∀ (i : Fin 2) (s : State), let a := s.isle i; let up := hubLinkUp s
    IsleBecomes (.islandClockFault i) s s i (Faulted up 6 a) ∧ IsleBecomes (.watchdogExpiry i) s s i (Faulted up 4 a) ∧
    IsleBecomes (.islandSramUe i) s s i (Faulted up 7 a) ∧
    ∀ point : Fin 47, (isSplit a = true → exec (.lockStepMismatch i point) s = .next s) ∧
      (isSplit a = false → IsleBecomes (.lockStepMismatch i point) s s i (Faulted up 3 a))) ∧
  (∀ (i : Fin 2) (p0 p1 : Bool) (s : State), let a := s.isle i; let up := hubLinkUp s; let cmd := a.state == .run && !a.degraded
    let low := !p0 || !p1
    let b' := { a with pin0 := p0, pin1 := p1, notes := a.notes ++ if up = true ∧ low ≠ (!a.pin0 || !a.pin1) then [(0x0B05, if low = true then 1 else 0, 0)] else [] }
    IsleBecomes (.outputReadback i p0 p1) s s i (fun b => (p0 = cmd ∧ p1 = cmd → b = b') ∧ (¬ (p0 = cmd ∧ p1 = cmd) → Latched up 512 b' b))) ∧
  (∀ (i : Fin 2) (s : State), let a := s.isle i
    (hubLinkUp s = false → exec (.hubSafeRequest i) s = .next s ∧ ∀ op, exec (.islandModeEvent i op) s = .next s) ∧
    (hubLinkUp s = true → IsleBecomes (.hubSafeRequest i) s (takeFrame s i .safeRequest) i (Requested true a) ∧
      ∀ op, IsleBecomes (.islandModeEvent i op) s (takeFrame s i (.modeEvent op)) i (fun b =>
        let b' := { a with maint := !op }
        (a.state = .reset ∨ a.state = .fault → b = a) ∧
        (a.state ≠ .reset → a.state ≠ .fault → (∀ t, a.table = some t → op = false → bit (fld t 40 1) 0 = true → Latched true 64 b' b) ∧
          ((op = true ∨ ∀ t, a.table = some t → bit (fld t 40 1) 0 = false) → b = b'))))) ∧
  (∀ (i ctrl : Fin 2) (f : CanFrame) (s : State), let a := s.isle i; let d := f.data; ∀ c ∈ [Instr.canClear i ctrl f, .canSafeRequest i ctrl f],
    ((a.state ≠ .run ∨ a.table = none) → IsleBecomes c s s i (fun b => b = a)) ∧
    (∀ t, a.state = .run → a.table = some t →
      (f.id.toNat ≠ fld t 38 2 → IsleBecomes c s s i (fun b => b = a)) ∧
      (f.id.toNat = fld t 38 2 → (d.length < 16 ∨ (crc32c (d.take 12)).toNat ≠ fld d 12 4) →
        IsleBecomes c s s i (fun b => b = { a with clrRej := cnt a.clrRej 1 })) ∧
      (f.id.toNat = fld t 38 2 → 16 ≤ d.length → (crc32c (d.take 12)).toNat = fld d 12 4 →
        (fld d 0 1 ≠ i → IsleBecomes c s s i (fun b => b = a)) ∧
        (fld d 0 1 = i → fld d 1 1 ≠ 1 → fld d 1 1 ≠ 2 → IsleBecomes c s s i (fun b => b = a)) ∧
        (fld d 0 1 = i → fld d 1 1 = 2 → IsleBecomes c s s i (Requested (hubLinkUp s) a)) ∧
        (fld d 0 1 = i → fld d 1 1 = 1 → IsleBecomes c s s i (fun b =>
          b = if ctrl.val = (if bit (fld t 40 1) 2 = true then 1 else 0) then { a with clears := a.clears ++ [f] } else a))))) ∧
  ∀ (i : Fin 2) (it : Nat) (s : State), let a := s.isle i; let up := hubLinkUp s; let b' := { a with it := max a.it it, clears := [], reqs := false }
    (a.clears = [] → IsleBecomes (.islandMessageTimeEnd i it) s s i (fun b => b = if a.reqs = false ∧ a.judge.isSome = true then { b' with due := a.due ++ [] } else b')) ∧
    (∀ f, a.clears = [f] → IsleBecomes (.islandMessageTimeEnd i it) s s i (fun b =>
      (a.reqs = true → b = { b' with clrRej := cnt a.clrRej 1, notes := a.notes ++ if up = true then [(0x0B04, 0, a.latchCnt)] else [] }) ∧
      (a.reqs = false → a.judge.isSome = true → b = { b' with due := a.due ++ [f] }) ∧
      (a.reqs = false → a.judge = none → Decided up f b' b)))

/-- A safety-link frame does nothing over a segment that is down, is counted when its link CRC fails, and else has the effect of its payload. The first DT anchors DTe and sets the first frame. A write to an ingress lane outside RUN is ignored; one of another source discards the lane's record; a whole record is checked in the order of R354 and counted with its kind, or taken. A tap message moves its camera's detector, a gap latches FROZEN, a sensor frame is taken or counted. At a frame boundary the DT is compared and the judgement released; at its end the verdict, the approval, the counters, the causes and the output message follow. A self-test slice runs or is deferred, ends, fails or completes a rotation; 600 s without one raises LATENT_OVERDUE. A status update stores the mirror and reports what changed. -/
def Obligations.IslandsJudgeTheirInputs : Prop :=
  (∀ (g : Segment) (ok : Bool) (b : SafetyPayload) (it : Nat) (s : State), let i := segIsland g; let u := takeFrame s i b
    (segUp s g = false → exec (.safetyLinkFrame g ok b it) s = .next u) ∧
    (segUp s g = true → NoInjector s → ok = false →
      ((s.isle i).state ≠ .reset → IsleBecomes (.safetyLinkFrame g ok b it) s u i (fun x => x = { s.isle i with linkErr := cnt (s.isle i).linkErr 1 })) ∧
      ((s.isle i).state = .reset → exec (.safetyLinkFrame g ok b it) s = .next u))) ∧
  (∀ (g : Segment) (i : Fin 2) (it : Nat) (s : State), segIsland g = i → segUp s g = true → NoInjector s →
    let via := fun (b : SafetyPayload) (o : Out) => exec (.safetyLinkFrame g true b it) s = o
    via .safeRequest (exec (.hubSafeRequest i) s) ∧ (∀ op, via (.modeEvent op) (exec (.islandModeEvent i op) s)) ∧
    (∀ m, via (.tap m) (exec (.islandTapMessage i m it) s)) ∧ (∀ src off data, via (.record src off data) (exec (.e2eRecordWrite i src off data) s)) ∧
    ∀ dt, via (.deviceTime dt) (exec (.islandDtReceive i dt it) (takeFrame s i (.deviceTime dt)))) ∧
  (∀ (i : Fin 2) (dt it : Nat) (s : State), let a := s.isle i
    (hubLinkUp s = false → exec (.islandDtReceive i dt it) s = .next s) ∧
    (hubLinkUp s = true → IsleBecomes (.islandDtReceive i dt it) s s i (fun b =>
      ((a.state = .reset ∨ a.state = .fault ∨ a.anchor.isSome = true) → b = a) ∧
      (a.state ≠ .reset → a.state ≠ .fault → a.anchor = none → b = { a with it := max a.it it, anchor := some (dt, it), nextK := b.nextK } ∧
        (a.table = none → b.nextK = a.nextK) ∧
        ∀ t, a.table = some t → 0 < fld t 24 4 → ∃ k, b.nextK = some k ∧
          let fin := fun (k : Nat) => fld t 28 4 * 1000 + k * (fld t 24 4 * 1000); let now := dt + (max a.it it - it)
          now < fin k ∧ (k = 0 ∨ fin (k - 1) ≤ now))))) ∧
  (∀ (i : Fin 2) (src : BitVec 8) (off : BitVec 16) (data : List Byte) (s : State), let a := s.isle i; let ln := off.toNat / 1024; let l := a.lanes.get ln
    let u := takeFrame s i (.record src off data); let up := hubLinkUp s; let c := Instr.e2eRecordWrite i src off data
    let clear := { a with lanes := a.lanes.set ln laneEmpty }
    (a.state ≠ .run → IsleBecomes c s u i (fun b => b = a)) ∧
    (a.state = .run → src.toNat = ln → l.active = false → off.toNat % 1024 ≠ 0 → IsleBecomes c s u i (fun b => b = a)) ∧
    (∀ t, a.state = .run → a.table = some t → src.toNat ≠ ln → l.bytes.any (fun x => x.1 == 2) = true →
      let st := (assocGet 0 l.bytes 2).toNat
      IsleBecomes c s u i (Discarded up ln st 1 (indexOf? (fun e => fld e 0 1 == ln && fld e 1 1 == st) (tblStreams t)) clear)) ∧
    (∀ t, a.state = .run → a.table = some t → src.toNat = ln → off.toNat = ln * 1024 → l = laneEmpty → data.length = 24 + fld data 16 2 → data.length ≤ 1024 →
      let h := data.take 24; let pay := data.drop 24; let st := fld data 2 1
      let n := indexOf? (fun e => fld e 0 1 == ln && fld e 1 1 == st) (tblStreams t); let e := tblStream t (n.getD 0)
      let x := a.streams.getD (n.getD 0) streamFresh
      let gap := fun (q : Nat) => (fld data 4 4 + 2 ^ 32 - q) % 2 ^ 32
      let bad3 := fld data 0 1 ≠ 1 ∨ fld data 3 1 ≠ 0 ∨ fld data 18 2 ≠ 0 ∨ fld data 1 1 ≠ ln
      let bad4 := n = none ∨ pay.length < fld e 2 2 ∨ fld e 4 2 < pay.length
      let bad5 := (crc32c (putBytes h 20 [0, 0, 0, 0] ++ pay)).toNat ≠ fld data 20 4
      let bad6 := ∃ q, x.seq = some q ∧ ¬ (1 ≤ gap q ∧ gap q ≤ fld e 6 1)
      (bad3 → IsleBecomes c s u i (Discarded up ln st 3 n clear)) ∧
      (¬ bad3 → bad4 → IsleBecomes c s u i (Discarded up ln st 4 none clear)) ∧
      (¬ bad3 → ¬ bad4 → bad5 → IsleBecomes c s u i (Discarded up ln st 5 n clear)) ∧
      (¬ bad3 → ¬ bad4 → ¬ bad5 → bad6 → IsleBecomes c s u i (Discarded up ln st 6 n clear)) ∧
      (¬ bad3 → ¬ bad4 → ¬ bad5 → ¬ bad6 → IsleBecomes c s u i (fun b => b = { clear with streams := a.streams.set (n.getD 0) { x with
        seq := some (fld data 4 4), prev := x.last, inFrame := true
        last := some { seq := fld data 4 4, dt := fld data 8 8, crc := fld data 20 4, pay := pay, gen := a.gen } } })))) ∧
  (∀ (i : Fin 2) (m : TapMessage) (it : Nat) (s : State), let a := s.isle i; let x := a.cams.get m.port; let a' := { a with it := max a.it it }
    let rule := if a.state = .run then a.table.bind (fun t => frozenRule t m.port) else none
    (hubLinkUp s = false → exec (.islandTapMessage i m it) s = .next s) ∧
    (hubLinkUp s = true → IsleBecomes (.islandTapMessage i m it) s (takeFrame s i (.tap m)) i (fun b =>
      (rule = none → b = a') ∧
      ∀ r, rule = some r →
        let sig := crc32c (m.samples ++ if bit (fld r 7 1) 0 = true then slice m.embedded 0 64 else [])
        let same := if x.sig = some sig then x.same + 1 else 1
        let count := (frozenN r ≤ same); let frame := x.seen = true ∧ m.fnum ≠ 0 ∧ m.fnum = x.fnum; let gap := frozenGap r < ((it : Int) - x.lastIt : Int)
        let now := (if count then 1 else 0) + if frame then 2 else 0; let why := now + if gap then 4 else 0
        b = { a' with cams := a.cams.set m.port { x with
          sig := some sig, same := same, fnum := m.fnum, seen := true, lastIt := it, now := now, trunc := m.trunc
          cause := x.cause ||| why, frozen := x.frozen || decide (why ≠ 0) } }))) ∧
  (∀ (i : Fin 2) (port : Fin 12) (it : Nat) (s : State), let a := s.isle i; let x := a.cams.get port; let a' := { a with it := max a.it it }
    IsleBecomes (.frozenGapTimeout i port it) s s i (fun b =>
      ((a.state ≠ .run ∨ a.table.bind (fun t => frozenRule t port) = none) → b = a') ∧
      ∀ r, a.state = .run → a.table.bind (fun t => frozenRule t port) = some r →
        (frozenGap r ≤ ((it : Int) - x.lastIt : Int) → b = { a' with cams := a.cams.set port { x with now := x.now ||| 4, cause := x.cause ||| 4, frozen := true } }) ∧
        (((it : Int) - x.lastIt : Int) < frozenGap r → b = a'))) ∧
  (∀ (i : Fin 2) (ty : Half) (p : List Byte) (it : Nat) (s : State), let a := s.isle i; let a' := { a with it := max a.it it }
    IsleBecomes (.safetySensorFrame i ty p it) s s i (fun b =>
      ((a.state ≠ .run ∨ a.table = none ∨ a.cfg = none) → b = a') ∧
      ∀ t c, a.state = .run → a.table = some t → a.cfg = some c → let n := fld t 41 1; let e := 16 + 2 * n
        let mine := fld c 24 1 ≠ 0 ∧ n ≠ 0 ∧ ty.toNat = fld t 42 2
        let bad := p.length < e + 4 ∨ fld p 0 1 ≠ 1 ∨ fld p 1 1 ≠ n ∨ (crc32c (p.take e)).toNat ≠ fld p e 4 ∨ a.sensSeq = some (fld p 4 4)
        (¬ mine → b = a') ∧ (mine → bad → b = { a' with sensErr := cnt a.sensErr 1 }) ∧
        (mine → ¬ bad → b = { a' with sensSeq := some (fld p 4 4), sensor := some (it, (List.range n).map (fun q => fld p (16 + 2 * q) 2)) }))) ∧
  (∀ (i : Fin 2) (rx : Option Nat) (it : Nat) (s : State), let a := s.isle i; let a' := { a with it := max a.it it }
    let rx' := if hubLinkUp s = true then rx else none
    ((a.state ≠ .run ∨ a.table = none ∨ a.nextK = none ∨ a.anchor = none ∨ a.judge.isSome = true) →
      IsleBecomes (.islandFrameBoundary i rx it) s s i (fun b => b = a')) ∧
    ∀ t k d i0, a.state = .run → a.table = some t → a.nextK = some k → a.anchor = some (d, i0) → a.judge = none →
      let dte : Int := (d : Int) + it - i0; let fin : Int := (fld t 28 4 * 1000 + k * (fld t 24 4 * 1000) : Nat)
      (dte < fin → IsleBecomes (.islandFrameBoundary i rx it) s s i (fun b => b = a')) ∧
      (fin ≤ dte → a.nextTable = none → IsleBecomes (.islandFrameBoundary i rx it) s s i (fun b =>
        let near := ∃ r, rx' = some r ∧ ((r : Int) - dte).natAbs ≤ fld t 32 4
        b = { a' with
          dtDiff := b.dtDiff, anchor := b.anchor, nextK := some (k + 1), judge := b.judge
          streams := a.streams.map (fun (x : E2eStream) => { x with inFrame := false, err := false }) } ∧
        (rx' = none → b.dtDiff = a.dtDiff) ∧ (∀ r, rx' = some r → b.dtDiff = (r : Int) - dte) ∧
        (near → b.anchor = rx'.map (fun r => (r, it))) ∧ (¬ near → b.anchor = a.anchor) ∧
        ∃ bad, (bad = true ↔ ¬ near) ∧ b.judge = some { k := k, dte := dte, timeBad := bad, table := t, streams := a.streams, cams := a.cams, sensor := a.sensor, it := it })) ∧
      (∀ n, fin ≤ dte → a.nextTable = some n → IsleBecomes (.islandFrameBoundary i rx it) s s i (fun b => b.table = some n ∧ b.nextTable = none ∧ b.state = .run ∧
        ∃ j, b.judge = some j ∧ j.k = k ∧ j.dte = dte ∧ j.table = t ∧ j.streams = a.streams))) ∧
  (∀ (i : Fin 2) (it : Nat) (s : State), let a := s.isle i; let a' := { a with it := max a.it it }; let up := hubLinkUp s
    let u := { s with free := s.free + 1 }
    (a.judge = none → IsleBecomes (.islandJudgementDone i it) s u i (fun b => b = a')) ∧
    (∀ j, a.judge = some j → a.due = [] → a.deferred = false → IsleBecomes (.islandJudgementDone i it) s u i (fun b =>
      let outs := (tableRules j.table).map (ruleOutcome j); let lim := fld j.table 22 1
      let fail := j.timeBad = true ∨ ∃ o ∈ outs, o.1 = 2; let doubt := ¬ fail ∧ ∃ o ∈ outs, o.1 = 1
      let run := if doubt then a.doubtRun + 1 else 0
      let failed := fail ∨ a.overdue = true ∨ (doubt ∧ lim ≠ 0 ∧ lim ≤ run)
      let ap := if failed then none else approved j
      let fails := (decide failed :: a.fails).take 20
      let age := if ap.isSome = true then 0 else min (a.age + 1) 65535
      let frozen := (List.range 12).any (fun p => (frozenRule j.table p).isSome && (j.cams.get p).frozen)
      let bits := (if fails.take 2 = [true, true] then 2 else 0) + (if 3 ≤ (fails.filter id).length then 4 else 0) + (if frozen = true then 8 else 0) +
        (if ap = none ∧ fld j.table 23 1 ≤ age then 32 else 0) + if a.overdue = true then 16 else 0
      (∀ o ∈ outs, o.1 ≤ 2) →
      let first := indexOf? (fun (o : Nat × Nat) => o.1 == 2) outs
      ∃ m c, (failed → up = true → ∃ p1, m.notes = a.notes ++ [(0x0B01, j.k % 2 ^ 32, p1)] ∧ (∀ n, first = some n → p1 = n) ∧
          (first = none → j.timeBad = true → p1 = 0xFF) ∧ (first = none → j.timeBad = false → lim ≠ 0 → lim ≤ run → p1 = 0xFE)) ∧
        (¬ (failed ∧ up = true) → m.notes = a.notes) ∧
        m = { a' with
          judge := none, doubtRun := run, verdict := if failed then 2 else if doubt then 1 else 0, frame := j.k % 2 ^ 32, ruleOut := m.ruleOut
          age := age, hold := decide (ap = none), held := if ap.isSome = true then ap else a.held, fails := fails
          failCnt := if failed then cnt a.failCnt 1 else a.failCnt, doubtCnt := if ¬ failed ∧ doubt then cnt a.doubtCnt 1 else a.doubtCnt, notes := m.notes } ∧
        (∀ n, m.ruleOut.get n = (outs.getD n (0, 0)).2) ∧
        (bits = 0 → c = m) ∧ (bits ≠ 0 → Latched up bits m c) ∧
        let msg := outputMessage i c j.k j.dte (decide (¬ failed ∧ doubt ∧ ap.isSome = true))
        b = { c with canOut := a.canOut ++ (0, fld j.table 36 2, msg) :: if bit (fld j.table 40 1) 1 = true then [(1, fld j.table 36 2, msg)] else [] }))) ∧
  (∀ (i : Fin 2) (it : Nat) (s : State), let a := s.isle i; let a' := { a with it := max a.it it }
    let due := a.state = .run ∧ a.slice = none ∧ ∃ o, a.offer = some o ∧ o ≤ it
    let time := if a.pos < 12 then 4000 else if a.pos < 13 then 6000 else if a.pos < 21 then 25000 else 20000
    let fits := ∀ r, nextRelease a = some r → (it : Int) + time ≤ r - 50000
    IsleBecomes (.selftestSliceOffer i it) s s i (fun b => (¬ due → b = a') ∧
      (due → a.judge = none → fits → b = { a' with slice := some (a.pos, it), offer := some (it + 100000000), deferred := false }) ∧
      (due → ¬ (a.judge = none ∧ fits) → b = { a' with deferCnt := cnt a.deferCnt 1, deferred := true, offer := none }))) ∧
  (∀ (i : Fin 2) (fault : BitVec 8) (it : Nat) (s : State), let a := s.isle i; let a' := { a with it := max a.it it }; let up := hubLinkUp s
    let secs := (it - a.rotFrom) / 1000000000
    IsleBecomes (.selftestSliceDone i fault it) s s i (fun b => (a.slice = none → b = a') ∧
      ∀ n at_, a.slice = some (n, at_) →
        (fault ≠ 0 → Faulted up (if n < 12 then 3 else if n < 21 then 8 else 7) a' b) ∧
        (fault = 0 → n < 276 → b = { a' with slice := none, pos := n + 1 }) ∧
        (fault = 0 → 276 ≤ n → b = { a' with
          slice := none, pos := if isSplit a = true then 12 else 0, rotations := min (a.rotations + 1) 8191, lastS := min secs 1023, rotFrom := it
          overdue := false, notes := a.notes ++ if up = true then [(0x0B03, 0, secs % 2 ^ 32)] else [] }))) ∧
  (∀ (i : Fin 2) (it : Nat) (s : State), let a := s.isle i; let a' := { a with it := max a.it it }; let up := hubLinkUp s
    let late := a.state = .run ∧ a.overdue = false ∧ a.rotFrom + 600000000000 ≤ it
    IsleBecomes (.latentOverdue i it) s s i (fun b => (¬ late → b = a') ∧
      (late → b = { a' with overdue := true, notes := a.notes ++ if up = true then [(0x0B03, 1, (it - a.rotFrom) / 1000000000 % 2 ^ 32)] else [] }))) ∧
  ∀ (i : Fin 2) (clk : List Nat) (s : State), let a := s.isle i; let m := s.anv.mirror.get i
    ((a.state = .reset ∨ hubLinkUp s = false) → exec (.islandStatusUpdate i clk) s = .next s) ∧
    (a.state ≠ .reset → hubLinkUp s = true → Completes (.islandStatusUpdate i clk) s (fun t =>
      t = { s with host := t.host, anv := t.anv } ∧ (∀ k, k ≠ i.val → t.isle k = s.isle k ∧ t.anv.mirror.get k = s.anv.mirror.get k) ∧
      t.isle i = { a with notes := [], clk := (t.isle i).clk } ∧ (∀ n, (t.isle i).clk.get n = if n < 3 then clk.getD n 0 else a.clk.get n) ∧
      t.anv.mirror.get i = { regs := islandRegs (t.isle i), stat := anvStat a, cause := a.cause, dt := s.time.dt } ∧
      (a.notes = [] → m.stat = anvStat a → m.cause = a.cause → t.host = s.host) ∧
      (a.notes = [] → (m.stat ≠ anvStat a ∨ m.cause ≠ a.cause) → bit t.host.ints.stat.toNat 5 = true ∧ Raised s t 0x0B00 i [anvStat a, a.cause])))

/-- ANV_LOAD without in_ptr completes with BAD_FIELD; with it, each masked island takes, rejects or refuses the object by its own state, and the command completes with the worst status and each island's slot. ANV_QUERY answers the mirror words. ANV_KEY_PROGRAM programs blank slots and ANV_KEY_REVOKE revokes slots in MAINTENANCE only. ANV_SAFE_REQUEST sends a safe-state request to each masked island and does not change it. -/
def Obligations.IslandCommandsLoadProgramAndRequest : Prop :=
  (∀ (ch : Fin 4) (r : Request) (s : State), let bm := (s.host.mbx.get ch).bufOk; let d := decodeCmd s ch 0x0230 r bm 0; let p := d.1.pay; let m := fld p 0 1
    s.bu.service = 2 → r.flags = 1 → d.2 = true → d.1.clamps = 0 → 16 ≤ p.length → 1 ≤ m → m ≤ 3 → fld p 1 1 ≤ 2 → fld p 2 8 = 0 → fld p 10 6 = 0 →
    Completes (.anvLoad ch r) s (fun t => HostKept s t ch ∧ t = { s with host := t.host, anv := { s.anv with isl := t.anv.isl }, free := t.free } ∧
      ∃ (st : Nat → Half) (code : Nat → Nat),
        (∀ i, (i < 2 ∧ bit m i = true → Loaded s i (fld p 1 1) (p.drop 16) (st i) (code i) (t.isle i)) ∧ (¬ (i < 2 ∧ bit m i = true) → st i = 0 ∧ t.isle i = s.isle i)) ∧
        Answered s t ch 0x0230 r (if st 0 < st 1 then st 1 else st 0) 0
          (catMap 2 (fun i => if bit m i = true then leBytes 2 (st i).toNat ++ leBytes 4 (code i) ++ leBytes 4 (anvStat (t.isle i)) else List.replicate 10 0)))) ∧
  ∀ (ch : Fin 4) (r : Request) (s : State), Plain s r → let m := payField r 0 1; let k := payField r 1 1
    let slots := fun (st : Nat → Half) => catMap 2 (fun i => if bit m i = true then leBytes 2 (st i).toNat ++ leBytes 4 0 ++ leBytes 4 (anvStat (s.isle i)) else List.replicate 10 0)
    (r.length = 16 → 1 ≤ m → m ≤ 3 → k ≤ 2 → payField r 2 8 = 0 → payField r 10 6 = 0 → AnswersOnly (.anvLoad ch r) s ch 0x0230 r stBadField 0 []) ∧
    (r.length = 1 → m ≤ 1 → AnswersOnly (.anvQuery ch r) s ch 0x0231 r stOk 0 (catMap 51 (fun w => leBytes 4 (pageWord (pageAnv s) (0x800 * m + 4 * w))))) ∧
    (r.length = 64 → 1 ≤ m → m ≤ 3 → k ≤ 1 →
      let full := fun (i : Nat) => ((s.isle i).keys.get k).1.isSome; let takes := fun (i : Nat) => i < 2 ∧ bit m i = true ∧ full i = false
      (s.host.opMode = true → AnswersOnly (.anvKeyProgram ch r) s ch 0x0232 r stDeniedMode 0 (slots (fun _ => stDeniedMode))) ∧
      (s.host.opMode = false → let st := fun (i : Nat) => if full i = true then stBusy else stOk
        let worst := if (List.range 2).any (fun i => bit m i && full i) = true then stBusy else stOk
        Completes (.anvKeyProgram ch r) s (fun t => Answered s t ch 0x0232 r worst 0 (slots st) ∧ HostKept s t ch ∧
          t = { s with host := t.host, anv := { s.anv with isl := t.anv.isl } } ∧
          ∀ i, (takes i → t.isle i = { s.isle i with keys := (s.isle i).keys.set k (some (beNat (slice (payBytes r) 16 48)), ((s.isle i).keys.get k).2) }) ∧
            (¬ takes i → t.isle i = s.isle i)))) ∧
    (r.length = 2 → 1 ≤ m → m ≤ 3 → k ≤ 1 →
      (s.host.opMode = true → AnswersOnly (.anvKeyRevoke ch r) s ch 0x0233 r stDeniedMode 0 (slots (fun _ => stDeniedMode))) ∧
      (s.host.opMode = false → Accepts (.anvKeyRevoke ch r) s ch 0x0233 r 0 (slots (fun _ => stOk)) (fun t =>
        t = { s with host := t.host, anv := { s.anv with isl := t.anv.isl } } ∧
        ∀ i, (i < 2 ∧ bit m i = true → t.isle i = { s.isle i with keys := (s.isle i).keys.set k (((s.isle i).keys.get k).1, true) }) ∧
          (¬ (i < 2 ∧ bit m i = true) → t.isle i = s.isle i)))) ∧
    (r.length = 1 → 1 ≤ m → m ≤ 3 → Accepts (.anvSafeRequest ch r) s ch 0x0234 r 0 (slots (fun _ => stOk)) (fun t =>
      t = { s with host := t.host, toIslands := s.toIslands ++ ((List.range 2).filter (fun i => bit m i)).map (fun i => (i, .safeRequest)) }))

/-- DLF_PORT_TRAIN_DONE brings a port UP at x4 or x2 when its lanes and its peer are right, else keeps it DOWN or takes it DOWN; a disabled port ignores it. A lane loss retrains on the good pair or takes the port DOWN, as do 1,000 uncorrectable codewords in a second. A flit out of order or damaged is answered by a NAK, one in order is accepted, an ack frees the retry buffer, a NAK or 2 microseconds without an ack replays, and the sixteenth replay takes the port DOWN. A packet for another device goes on by the table or is discarded. RD_REQ answers with the bytes of DRAM, WR_REQ stores them or adds them in an accumulation region; a response completes its request, as does the time-out with NO_ROUTE. The end of a drain switches the destination. DLF_CTRL.cnt_clr and the five commands act as their rules say. -/
def Obligations.DelufPortsRequestsAndRoutes : Prop :=
  (∀ (p : Fin 8) (x : DlfTrain) (s : State), let q := s.so.ports.get p
    let good := Nat.land x.lanes.toNat (15 - (Nat.lor (defectDlf s p) q.bad.toNat))
    let w := if good = 15 then 2 else if good % 4 = 3 ∨ good / 4 = 3 then 1 else 0
    let right := expectedPeer s p = some x.peer.toNat
    let q' := { q with lanes := BitVec.ofNat 4 good, peer := x.peer, peerPort := x.peerPort, mismatch := s.so.dlf.valid && !decide right }
    (q.state = 3 → exec (.dlfPortTrainDone p x) s = .next s) ∧
    (q.state ≠ 3 → ¬ (w ≠ 0 ∧ right) → (q.state = 0 → Completes (.dlfPortTrainDone p x) s (fun t =>
        t = { s with so := { s.so with ports := t.so.ports } } ∧ LinkIs s t p { q' with width := 0 })) ∧
      (q.state ≠ 0 → Completes (.dlfPortTrainDone p x) s (fun t => PortFell s t p q' 2))) ∧
    (q.state ≠ 3 → w ≠ 0 → right → Completes (.dlfPortTrainDone p x) s (fun t => ∃ v, v = { s with host := v.host, so := { s.so with ports := v.so.ports } } ∧
      EventsOnly s v ∧ Raised s v 0x0700 p [w, x.peer.toNat] ∧ Rerouted v t ∧
      LinkIs s v p { q' with state := 2, width := w, replays := 0, rtyCnt := if q.retry.isEmpty = true then q.rtyCnt else cnt q.rtyCnt 1 }))) ∧
  (∀ (p : Fin 8) (lane : Fin 4) (s : State), let q := s.so.ports.get p; let left := q.lanes.toNat - 2 ^ lane.val; let pair := left % 4 = 3 ∨ left / 4 = 3
    let hit := q.state = 2 ∧ bit q.lanes.toNat lane = true
    (¬ hit → exec (.dlfLaneLoss p lane) s = .next s) ∧
    (hit → pair → Completes (.dlfLaneLoss p lane) s (fun t => t = { s with so := { s.so with ports := t.so.ports } } ∧
      LinkIs s t p { q with lanes := BitVec.ofNat 4 left, state := 1 })) ∧
    (hit → ¬ pair → Completes (.dlfLaneLoss p lane) s (fun t => PortFell s t p { q with lanes := BitVec.ofNat 4 left } 2))) ∧
  (∀ (p : Fin 8) (ce ue : Nat) (s : State), let q := s.so.ports.get p; let q' := { q with fecCe := cnt q.fecCe ce, fecUe := cnt q.fecUe ue, ueSec := ue }
    (¬ (1000 ≤ ue ∧ q.state = 2) → Completes (.dlfFecRateWindow p ce ue) s (fun t => t = { s with so := { s.so with ports := t.so.ports } } ∧ LinkIs s t p q')) ∧
    (1000 ≤ ue → q.state = 2 → Completes (.dlfFecRateWindow p ce ue) s (fun t => PortFell s t p q' 1))) ∧
  (∀ (p : Fin 8) (f : DlfFlit) (s : State), let q := s.so.ports.get p; let c := Instr.dlfFlitReceive p f
    let only := fun (q' : DlfPort) => Completes c s (fun t => t = { s with so := { s.so with ports := t.so.ports } } ∧ LinkIs s t p q')
    let acked := fun (q : DlfPort) (a : BitVec 12) => if q.retry.any (fun x => x.1 == a) = true then
      { q with retry := (q.retry.dropWhile (fun x => x.1 != a)).drop 1, replays := 0 } else q
    let q1 := acked { q with credits := q.credits.modify f.vc.toNat (· + f.credits.toNat) } f.ack; let q2 := acked q1 (f.seq - 1)
    (q.state ≠ 2 → exec c s = .next s) ∧
    (q.state = 2 → NoInjector s →
      (f.ok = false → only { q with nak := some q.expect }) ∧
      (f.ok = true → f.kind = 1 → f.seq = q.expect → only { q1 with expect := q.expect + 1, rxFlits := q.rxFlits + 1, nak := none }) ∧
      (f.ok = true → f.kind = 1 → f.seq ≠ q.expect → only { q1 with nak := some q.expect }) ∧
      (f.ok = true → f.kind = 2 → q2.retry = [] → only q2) ∧
      (f.ok = true → f.kind = 2 → q2.retry ≠ [] → Completes c s (fun t => Replayed s t p q2)) ∧
      (f.ok = true → f.kind ≠ 1 → f.kind ≠ 2 → only q1))) ∧
  (∀ (p : Fin 8) (s : State), let q := s.so.ports.get p
    ((q.state ≠ 2 ∨ q.retry = []) → exec (.dlfAckTimeout p) s = .next s) ∧
    (q.state = 2 → q.retry ≠ [] → Completes (.dlfAckTimeout p) s (fun t => Replayed s t p q))) ∧
  (∀ (p : Fin 8) (k : DlfPacket) (s : State) (x : Instr × Byte), x ∈ [(.rdReq p k, 0), (.rdRsp p k, 1), (.wrReq p k, 2), (.wrRsp p k, 3)] → NoInjector s →
    ¬ (s.so.dlf.valid = true ∧ k.dst.toNat = s.so.dlf.devnum) → let o := s.so.dlf.rt.get k.dst.toNat
    ((15 ≤ k.hops ∨ o = 0xF) → exec x.1 s = .next s) ∧
    (k.hops < 15 → o ≠ 0xF → Completes x.1 s (fun t => Sent s t o { k with kind := x.2, hops := k.hops + 1 }))) ∧
  (∀ (p : Fin 8) (k : DlfPacket) (s : State), NoInjector s → s.so.dlf.valid = true → k.dst.toNat = s.so.dlf.devnum →
    let a := k.addr.toNat; let src := 0x38 + p.val; let data := slice k.data 0 k.len
    let rsp := fun (kind : Byte) (st : Half) (d : List Byte) => ({ k with kind := kind, src := k.dst, dst := k.src, hops := 0, status := st, data := d } : DlfPacket)
    let charged := fun (u : State) => u.fab.qos = { s.fab.qos with mBytes := u.fab.qos.mBytes, used := u.fab.qos.used }
    let rejects := fun (c : Instr) (kind : Byte) (op : Nat) (d : List Byte) => Completes c s (fun t => ∃ u, Sent u t p (rsp kind stDecodeError d) ∧ charged u ∧
      EventsOnly s u ∧ Raised s u 0x0003 src [a, op] ∧ u = { s with host := u.host, fab := { s.fab with qos := u.fab.qos, net := { s.fab.net with decodeErrs := cnt s.fab.net.decodeErrs 1 } } })
    (4 * dieSpan < a + k.len → rejects (.rdReq p k) 1 0 (List.replicate k.len 0) ∧ rejects (.wrReq p k) 3 1 []) ∧
    (∀ d off, a + k.len ≤ 4 * dieSpan → target a = .dram d off → pathUsable s src d = true →
      (refusal s false a k.len = none → CleanDram s a k.len → Completes (.rdReq p k) s (fun t => ∃ u,
        Sent u t p (rsp 1 stOk (s.fab.mem.readN a k.len)) ∧ charged u ∧ u = { s with fab := { s.fab with qos := u.fab.qos } })) ∧
      (refusal s true a k.len = none → accRegionOf s a k.len = none → mirrorOf s 1 a k.len = none → (∀ b ∈ beatsOf a k.len, s.fab.symErr.get b = 0) →
        Completes (.wrReq p k) s (fun t => ∃ u, Sent u t p (rsp 3 stOk []) ∧ charged u ∧ StoresAt s u a data ∧
          u = { s with fab := { s.fab with qos := u.fab.qos, mem := u.fab.mem, poison := u.fab.poison, symErr := u.fab.symErr, lost := u.fab.lost } })) ∧
      (∀ g, accRegionOf s a k.len = some g → let w := if g.fmt = 2 then 2 else 4
        ((a % w ≠ 0 ∨ k.len % w ≠ 0) → rejects (.wrReq p k) 3 1 []) ∧
        (a % w = 0 → k.len % w = 0 → refusal s true a k.len = none → CleanDram s a k.len → Completes (.wrReq p k) s (fun t => ∃ u,
          Sent u t p (rsp 3 stOk []) ∧ charged u ∧
          StoresAt s u a (catMap (k.len / w) (fun i => leBytes w (accAdd g.fmt (fld (s.fab.mem.readN a k.len) (w * i) w) (fld data (w * i) w)))) ∧
          u = { s with
            fab := { s.fab with qos := u.fab.qos, mem := u.fab.mem, poison := u.fab.poison, symErr := u.fab.symErr, lost := u.fab.lost }
            so := { s.so with accAdds := (s.so.accAdds + k.len / w) % 2 ^ 64 } }))))) ∧
  (∀ (p : Fin 8) (k : DlfPacket) (s : State), s.so.dlf.valid = true → k.dst.toNat = s.so.dlf.devnum → s.so.dlf.draining = [] →
    let finds := fun (op : Nat) => s.so.dlf.remotes.find? (fun r => r.tag == k.tag.toNat && r.dst == k.src.toNat && (r.req.op == 0) == (op == 0))
    let ends := fun (c : Instr) (op : Nat) => (finds op = none → exec c s = .next s) ∧ ∀ r, finds op = some r → r.req.src ≠ 0x33 →
      Completes c s (fun t => Responds s t r.req k.status (if op = 0 then slice k.data 0 r.req.len else []) (decide (op = 0 ∧ k.status ≠ stOk)) ∧
        t = { s with fab := { s.fab with net := { s.fab.net with rsps := t.fab.net.rsps } }
                     so := { s.so with dlf := { s.so.dlf with remotes := s.so.dlf.remotes.filter (fun x => x.tag != r.tag) } } })
    ends (.rdRsp p k) 0 ∧ ends (.wrRsp p k) 1) ∧
  (∀ (tag : Half) (s : State), s.so.dlf.draining = [] →
    (s.so.dlf.remotes.find? (fun r => r.tag == tag.toNat) = none → exec (.remoteTimeout tag) s = .next s) ∧
    ∀ r, s.so.dlf.remotes.find? (fun r => r.tag == tag.toNat) = some r → r.req.src ≠ 0x33 → Completes (.remoteTimeout tag) s (fun t =>
      Responds s t r.req stNoRoute (if r.req.op = 0 then List.replicate r.req.len 0 else []) (decide (r.req.op = 0)) ∧
      t = { s with fab := { s.fab with net := { s.fab.net with rsps := t.fab.net.rsps } }
                   so := { s.so with dlf := { s.so.dlf with rmtTmo := cnt s.so.dlf.rmtTmo 1, remotes := s.so.dlf.remotes.filter (fun x => x.tag != r.tag) } } })) ∧
  (∀ (d : Fin 48) (s : State), (s.so.dlf.draining.contains d.val = false → exec (.dlfDrainTimeout d) s = .next s) ∧
    ∀ tbl, s.so.dlf.draining = [d.val] → hasRemote s d = false → s.so.dlf.newRt = some tbl → Completes (.dlfDrainTimeout d) s (fun t => ∃ u, Bellows u t ∧
      EventsOnly s u ∧ Raised s u 0x0702 0 [rtWord u.so.dlf.rt 0, rtWord u.so.dlf.rt 1] ∧
      u = { s with host := u.host, so := { s.so with dlf := { s.so.dlf with
        rt := s.so.dlf.rt.set d (tbl.getD d 0xF), draining := [], newRt := none, rrCnt := cnt s.so.dlf.rrCnt 1, reach := u.so.dlf.reach } } } ∧
      ∀ i, i < 48 → bit u.so.dlf.reach.toNat i = decide ((s.so.dlf.valid = true ∧ i = s.so.dlf.devnum) ∨ u.so.dlf.rt.get i ≠ 0xF))) ∧
  (∀ s : State, Completes .dlfCtrlCntClr s (fun t => t = { s with so := { s.so with
      ports := t.so.ports, accAdds := 0, dlf := { s.so.dlf with rrCnt := 0, rmtTmo := 0 }, pair := { s.so.pair with joinMism := 0 } } } ∧
    ∀ p, t.so.ports.get p = { s.so.ports.get p with rtyCnt := 0, fecCe := 0, fecUe := 0, txFlits := 0, rxFlits := 0, downCnt := 0 })) ∧
  ∀ (ch : Fin 4) (r : Request) (s : State), Plain s r → let f := fun (o : Nat) => payField r o 1
    let routes := fun (t : State) => t = { s with
      host := t.host, free := t.free, fab := { s.fab with qos := t.fab.qos }
      so := { s.so with ports := t.so.ports, dlf := { s.so.dlf with rt := t.so.dlf.rt, newRt := t.so.dlf.newRt, draining := t.so.dlf.draining,
                                                                    rrCnt := t.so.dlf.rrCnt, reach := t.so.dlf.reach } } }
    (r.length = 9 → f 0 ≤ 47 → 1 ≤ f 1 → f 1 ≤ 8 → 1 ≤ f 2 → f 2 ≤ 6 → (f 3 ≤ 47 ∨ f 3 = 0x3F) → f 4 ≤ 47 → f 5 ≤ 2 → f 6 ≤ 63 → f 7 ≤ 2 → f 8 ≤ 63 →
      (s.so.pair.role ≠ 0 → AnswersOnly (.dlfTopology ch r) s ch 0x0700 r stBusy 0 []) ∧
      (s.so.pair.role = 0 → (f 1 * f 2 ≤ f 0 ∨ f 1 * f 2 < 2) → AnswersOnly (.dlfTopology ch r) s ch 0x0700 r stBadField 0 []) ∧
      (s.so.pair.role = 0 → f 0 < f 1 * f 2 → 2 ≤ f 1 * f 2 → AcceptsEv (.dlfTopology ch r) s ch 0x0700 r 0 (payBytes r) (fun t =>
        t = { s with host := t.host, free := t.free, fab := { s.fab with qos := t.fab.qos }, so := { s.so with dlf := t.so.dlf } } ∧
        t.so.dlf = { s.so.dlf with
          valid := true, devnum := f 0, xM1 := f 1 - 1, yM1 := f 2 - 1, partner := f 3, barRoot := f 4, dl6 := (f 5, f 6), dl7 := (f 7, f 8), newRt := none
          draining := [], rt := t.so.dlf.rt, reach := t.so.dlf.reach } ∧
        (∀ d, d < 48 → bit t.so.dlf.reach.toNat d = decide (d = f 0 ∨ t.so.dlf.rt.get d ≠ 0xF)) ∧
        ((∀ q, q < 4 → portUp s q = true) → ∀ d, t.so.dlf.rt.get d =
          if f 1 * f 2 ≤ d ∨ d = f 0 then 0xF else if f 5 = 1 ∧ f 6 = d ∧ portUp s 6 = true then 6 else if f 7 = 1 ∧ f 8 = d ∧ portUp s 7 = true then 7
          else torusPort t d)))) ∧
    (r.length = 2 → f 0 ≤ 7 → f 1 ≤ 2 → let p := f 0; let q := s.so.ports.get p
      let moves := fun (q' : DlfPort) => Accepts (.dlfPortControl ch r) s ch 0x0701 r 0 (leBytes 4 (dlfStat q')) (fun t =>
        t = { s with host := t.host, so := { s.so with ports := t.so.ports } } ∧ LinkIs s t p q')
      (f 1 = 0 → moves (if q.state = 3 then q else { q with state := 1 })) ∧ (f 1 = 2 → moves (if q.state = 3 then { q with state := 1 } else q)) ∧
      (f 1 = 1 → q.state = 3 → moves q) ∧
      (f 1 = 1 → q.state ≠ 3 → lastPort s p = true → AnswersOnly (.dlfPortControl ch r) s ch 0x0701 r stBusy 0 (leBytes 4 (dlfStat q))) ∧
      (f 1 = 1 → q.state ≠ 3 → lastPort s p = false → let q' := { q with state := 3, width := 0, retry := [], replays := 0 }
        AcceptsEv (.dlfPortControl ch r) s ch 0x0701 r 0 (leBytes 4 (dlfStat q')) (fun t => routes t ∧ LinkIs s t p q'))) ∧
    (r.length = 24 → let tbl := fun (d : Nat) => field (leNat (slice (payBytes r) 0 24)) (4 * d + 3) (4 * d)
      let changed := (List.range 48).filter (fun d => tbl d != s.so.dlf.rt.get d)
      (s.so.dlf.draining ≠ [] → AnswersOnly (.dlfRoute ch r) s ch 0x0702 r stBusy 0 []) ∧
      (s.so.dlf.draining = [] → (∃ d, d < 48 ∧ tbl d ≠ 0xF ∧ portUp s (tbl d) = false) → AnswersOnly (.dlfRoute ch r) s ch 0x0702 r stNoRoute 0 []) ∧
      (s.so.dlf.draining = [] → (∀ d, d < 48 → tbl d = 0xF ∨ portUp s (tbl d) = true) → AcceptsEv (.dlfRoute ch r) s ch 0x0702 r 0 (leBytes 4 changed.length) (fun t =>
        routes t ∧ t.so.ports = s.so.ports ∧ ∀ d, t.so.dlf.rt.get d = if d < 48 ∧ hasRemote s d = false then tbl d else s.so.dlf.rt.get d))) ∧
    (r.length = 0 → AnswersOnly (.dlfQuery ch r) s ch 0x0703 r stOk 0 (regBytes (pageDlf s) ++ regBytes (pageDlfPorts s))) ∧
    (let n := f 0; let fmt := f 1; let size := payField r 2 2; let base := payField r 8 8; let stop := base + size * 65536
     let meets := fun (b e : Nat) => base < e ∧ b < stop
     let clash := ∃ i, i < 8 ∧ ((i ≠ n ∧ (s.so.acc.get i).fmt ≠ 0 ∧ meets (s.so.acc.get i).base ((s.so.acc.get i).base + (s.so.acc.get i).size * 65536)) ∨
       ((s.fab.mir.regions.get i).type ≠ 0 ∧ meets (s.fab.mir.regions.get i).range.1 (s.fab.mir.regions.get i).range.2))
     let within := stop ≤ 4 * dieSpan ∧ base / dieSpan = (stop - 1) / dieSpan
     let sets := fun (g : AccRegion) => Accepts (.accumConfig ch r) s ch 0x0710 r 0 (payBytes r) (fun t =>
       t = { s with host := t.host, so := { s.so with acc := s.so.acc.set n g } })
     r.length = 16 → n ≤ 7 → fmt ≤ 3 → 1 ≤ size → size ≤ 16383 → payField r 4 4 = 0 → base % 65536 = 0 →
     (fmt = 0 → sets { fmt := 0, size := 0, base := 0 }) ∧
     (fmt ≠ 0 → ¬ within → AnswersOnly (.accumConfig ch r) s ch 0x0710 r stDecodeError 0 []) ∧
     (fmt ≠ 0 → within → clash → AnswersOnly (.accumConfig ch r) s ch 0x0710 r stNoResource 0 []) ∧
     (fmt ≠ 0 → within → ¬ clash → sets { fmt := fmt, size := size, base := base }))

/-- DLF_BAR_ARRIVE counts a local arrival of its group and with the L-th tells the root, which is the same as BAR_ARRIVE where this device is the root. BAR_ARRIVE at the root records a member's first arrival of the epoch; with the last one the barrier completes: marks, BAR_RELEASE to every other member, epoch, local count and posts, and the root arrives again where its local arrivals beyond L make it; elsewhere, of no member, or twice, it does nothing. BAR_RELEASE posts to the group's tiles, advances the epoch and gives back L arrivals, and arrives again where that many are left. SUSPECT sets or clears one bit and reports it. BARRIER_STALL is raised once per epoch, 100 ms after the first arrival. BARRIER_CONFIG defines the group and completes it where its members have all arrived, BARRIER_QUERY reports it, SUSPECT_CLEAR at the root empties the history and clears the bit everywhere. Each changes only what is named. -/
def Obligations.BarriersArriveReleaseAndMark : Prop :=
  (∀ (g : Fin 16) (dev : Fin 48) (now : Nat) (s : State), let s' := s.advance now; let b := s.so.bars.get g; let c := Instr.barArrive g dev now
    let counts := isRoot s = true ∧ b.defined = true ∧ bit b.members dev = true ∧ ∀ x ∈ b.root, x.1 ≠ dev.val
    let u := { s' with so := { s.so with bars := s.so.bars.modify g (fun b => { b with root := b.root ++ [(dev.val, s'.dt)] }) } }
    let last := match (b.root.filter (fun x => (bitsOf b.members 48).contains x.1)).reverse with
      | (_, t0) :: _ => if b.margin * 1000 < s'.dt - t0 then some dev.val else none
      | [] => none
    let all := ∀ d, d < 48 → bit b.members d = true → d ≠ dev.val → ∃ x ∈ b.root, x.1 = d
    (¬ counts → exec c s = .next s') ∧ (counts → ¬ all → exec c s = .next u) ∧
    (counts → all → 1 ≤ b.local_ → NoInjector s → NoSuspectChange s g last → PostsLand s b.tmask → Completes c s (fun t => ∃ v, BarrierCompleted u v g last ∧ Rearrives v t b g now))) ∧
  (∀ (v : Word) (now : Nat) (s : State), let s' := s.advance now; let g := v.toNat % 16; let b := s.so.bars.get g; let c := Instr.dlfBarArrive v now
    let u := { s' with so := { s.so with bars := s.so.bars.modify g (fun b => { b with arrived := b.arrived + 1 }) } }
    let o := s.so.dlf.rt.get s.so.dlf.barRoot
    (b.defined = false → exec c s = .next s') ∧ (b.defined = true → b.arrived + 1 ≠ b.local_ → exec c s = .next u) ∧
    (b.defined = true → b.arrived + 1 = b.local_ →
      (isRoot s = false → (s.so.dlf.barRoot = s.so.dlf.devnum ∨ o = 0xF) → exec c s = .next u) ∧
      (isRoot s = false → s.so.dlf.barRoot ≠ s.so.dlf.devnum → o ≠ 0xF → NoInjector s → Completes c s (fun t =>
        Sent u t o (firmwarePacket s s.so.dlf.barRoot 8 [BitVec.ofNat 8 g]))) ∧
      (isRoot s = true → ∀ (d : Fin 48) (g' : Fin 16), d.val = s.so.dlf.devnum → g'.val = g → exec c s = exec (.barArrive g' d now) u))) ∧
  (∀ (g : Fin 16) (s : State), let b := s.so.bars.get g; let left := b.arrived - b.local_; let o := s.so.dlf.rt.get s.so.dlf.barRoot
    let released := fun (u : State) => TilesPosted s u b.tmask b.ctr ∧ u = { s with
      tiles := u.tiles, so := { s.so with bars := s.so.bars.modify g (fun b => { b with epoch := (b.epoch + 1) % 2 ^ 32, arrived := b.arrived - b.local_ }) } }
    (b.defined = false → exec (.barRelease g) s = .next s) ∧
    (b.defined = true → PostsLand s b.tmask → (left < b.local_ ∨ (isRoot s = false ∧ (s.so.dlf.barRoot = s.so.dlf.devnum ∨ o = 0xF))) →
      Completes (.barRelease g) s released) ∧
    (b.defined = true → PostsLand s b.tmask → b.local_ ≤ left → isRoot s = false → s.so.dlf.barRoot ≠ s.so.dlf.devnum → o ≠ 0xF → NoInjector s →
      Completes (.barRelease g) s (fun t => ∃ u, released u ∧ Sent u t o (firmwarePacket s s.so.dlf.barRoot 8 [BitVec.ofNat 8 g])))) ∧
  (∀ (dev : Fin 48) (set : Bool) (marks : Nat) (s : State), Completes (.suspect dev set marks) s (fun t => EventsOnly s t ∧
    Raised s t (if set = true then 0x0710 else 0x0711) dev [marks] ∧
    t = { s with host := t.host, so := { s.so with dlf := { s.so.dlf with suspect := t.so.dlf.suspect } } } ∧
    ∀ i, i < 64 → bit t.so.dlf.suspect.toNat i = if i = dev.val then set else bit s.so.dlf.suspect.toNat i)) ∧
  (∀ (g : Fin 16) (now : Nat) (s : State), let s' := s.advance now; let b := s.so.bars.get g
    let due := isRoot s = true ∧ b.stalled = false ∧ ∃ d t0, b.root.head? = some (d, t0) ∧ t0 + 100000000 ≤ s'.dt
    (¬ due → exec (.barrierStall g now) s = .next s') ∧
    (due → Completes (.barrierStall g now) s (fun t => EventsOnly s t ∧ Raised s' t 0x0712 g [b.epoch, barMissing b] ∧
      t = { s' with host := t.host, so := { s.so with bars := s.so.bars.modify g (fun b => { b with stalled := true }) } }))) ∧
  ∀ (ch : Fin 4) (r : Request) (s : State), Plain s r → let f := payField r
    (let g := f 0 1; let b := s.so.bars.get g
     let def_ : BarGroup := { b with defined := true, local_ := f 1 1, ctr := f 2 1, tmask := f 4 4, members := f 8 8, margin := f 16 4 }
     let u := { s with so := { s.so with bars := s.so.bars.modify g (fun _ => def_) } }
     let all := bitsOf (f 8 8) 48 ≠ [] ∧ ∀ d, d < 48 → bit (f 8 8) d = true → ∃ x ∈ b.root, x.1 = d
     let last := match (b.root.filter (fun x => (bitsOf (f 8 8) 48).contains x.1)).reverse with
       | (d, t1) :: (_, t0) :: _ => if f 16 4 * 1000 < t1 - t0 then some d else none
       | _ => none
     r.length = 20 → g ≤ 15 → 1 ≤ f 1 1 → f 1 1 ≤ 64 → f 2 1 ≤ 15 → f 3 1 = 0 → f 14 2 = 0 → 1 ≤ f 16 4 → f 16 4 ≤ 100000 →
     (¬ (isRoot s = true ∧ all) → Accepts (.barrierConfig ch r) s ch 0x0720 r 0 (payBytes r ++ leBytes 4 b.epoch) (fun t => t = { u with host := t.host })) ∧
     (isRoot s = true → all → NoInjector s → NoSuspectChange u g last → PostsLand s (f 4 4) →
       Completes (.barrierConfig ch r) s (fun t => Answered s t ch 0x0720 r stOk 0 (payBytes r ++ leBytes 4 (t.so.bars.get g).epoch) ∧ HostKept s t ch ∧
         ∃ v w, BarrierCompleted u v g last ∧ Rearrives v w def_ g 0 ∧ t = { w with host := t.host }))) ∧
    (r.length = 1 → f 0 1 ≤ 15 → let b := s.so.bars.get (f 0 1)
      (b.defined = false → AnswersOnly (.barrierQuery ch r) s ch 0x0721 r stNotDefined 0 []) ∧
      (b.defined = true → AnswersOnly (.barrierQuery ch r) s ch 0x0721 r stOk 0 (leBytes 4 b.epoch ++ leBytes 4 b.arrived ++
        leBytes 8 (maskOf 48 (fun d => b.root.any (fun a => a.1 == d)))))) ∧
    (r.length = 1 → f 0 1 ≤ 47 → let d := f 0 1
      (isRoot s = false → AnswersOnly (.suspectClear ch r) s ch 0x0722 r stBusy 0 []) ∧
      (isRoot s = true → NoInjector s → ∃ m : Quad, (∀ i, i < 64 → bit m.toNat i = if i = d then false else bit s.so.dlf.suspect.toNat i) ∧
        AcceptsEv (.suspectClear ch r) s ch 0x0722 r 0 (leBytes 8 m.toNat) (fun t => ∃ u v, SentAll u v (firmwarePackets s (List.range 48) 10 [BitVec.ofNat 8 d, 0, 0]) ∧
          u = { s with so := { s.so with late := s.so.late.set d { history := 0, marks := 0 } } } ∧
          t = { v with host := t.host, so := { v.so with dlf := { v.so.dlf with suspect := m } } })))

/-- MIR_WR stores a partner's write in a TARGET region and acknowledges it. MIR_ACK completes its copy, or fails it; MIRROR_ACK_TIMEOUT fails a copy unacknowledged for 100 microseconds: it is counted, the region's mirroring goes OFF, reported, and a PRIMARY sends STALE. COPY at a joiner is stored and acknowledged. CHUNK_CRC marks a chunk matched or mismatched; the last one makes the region VERIFIED, the last region makes the joiner STANDBY, the sixteenth mismatch fails the join. PARTNER_FAILING and an unanswered probe make a STANDBY take over and a JOINING or STALE device lose its pair; HANDOVER makes a STANDBY take over; STALE, PROBE, its answer, HEARTBEAT, its sending and its time-out act as their rules say. JOIN_CHUNK_COPY sends the next chunk at no more than the commanded rate. HANDOVER_READY hands over once nothing is pending. The four commands act as their rules say. -/
def Obligations.PairsCopySwitchAndJoin : Prop :=
  (∀ (k : DlfPacket) (s : State), NoInjector s → let a := k.addr.toNat; let data := slice k.data 0 k.len; let p := s.so.pair
    let ack := fun (st : Half) => ({ k with kind := 5, src := k.dst, dst := k.src, hops := 0, status := st, len := 0, data := [] } : DlfPacket)
    let stored := fun (u : State) => StoresAt s u a data ∧ u = { s with
      fab := { s.fab with mem := u.fab.mem, poison := u.fab.poison, symErr := u.fab.symErr, lost := u.fab.lost }, so := u.so }
    let free := (targetRegion s a k.len).isSome = true ∧ refusal s false a k.len = none ∧ ∀ b ∈ beatsOf a k.len, s.fab.symErr.get b = 0
    (targetRegion s a k.len = none → Completes (.mirWr k) s (fun t => Sent s t (mirrorPort s a) (ack stDecodeError))) ∧
    (free → Completes (.mirWr k) s (fun t => ∃ u, stored u ∧ u.so = s.so ∧ Sent u t (mirrorPort s a) (ack stOk))) ∧
    (p.role ≠ 3 → exec (.copy k) s = .next s) ∧
    (p.role = 3 → free → Completes (.copy k) s (fun t => ∃ u, stored u ∧ u.so = { s.so with pair := { p with join := true, joinPos := p.joinPos + k.len } } ∧
      Sent u t (mirrorPort s a) (ack stOk)))) ∧
  (∀ (k : DlfPacket) (s : State), NoInjector s →
    let done := fun (u : State) => { u with fab := { u.fab with mir := { u.fab.mir with pend := s.fab.mir.pend.filter (fun x => x.tag != k.tag.toNat) } } }
    (s.fab.mir.pend.find? (fun c => c.tag == k.tag.toNat) = none → exec (.mirAck k) s = .next { s with so := { s.so with pair := { s.so.pair with
      unacked := s.so.pair.unacked.filter (fun u => u.1 != k.tag.toNat) } } }) ∧
    ∀ c, s.fab.mir.pend.find? (fun c => c.tag == k.tag.toNat) = some c → k.status = stOk →
      (c.waiter = .nobody → exec (.mirAck k) s = .next (done s)) ∧
      (c.waiter = .network → (c.req.src ≠ 0x33 ∨ c.req.op ≠ 0) → Completes (.mirAck k) s (fun t => Responds s t c.req c.status [] false ∧
        t = { done s with fab := { (done s).fab with net := { s.fab.net with rsps := t.fab.net.rsps } } })) ∧
      (∀ p k', c.waiter = .deluf p k' → Completes (.mirAck k) s (fun t => Sent (done s) t p
        { k' with kind := k'.kind + 1, src := k'.dst, dst := k'.src, hops := 0, status := c.status, data := [] }))) ∧
  (∀ (n : Fin 8) (now : Nat) (s : State), let s' := s.advance now; let m := s.fab.mir; let reg := m.regions.get n
    let late := m.pend.filter (fun c => c.region == n.val && decide (c.sentAt + 100000 ≤ s'.dt)); let peer := s.so.dlf.partner; let o := s.so.dlf.rt.get peer
    (late = [] → exec (.mirrorAckTimeout n now) s = .next s') ∧
    (∀ c, late = [c] → c.waiter = .nobody → NoInjector s → Completes (.mirrorAckTimeout n now) s (fun t => ∃ u,
      u = { s' with host := u.host, fab := { s.fab with mir := { m with
        failCnt := cnt m.failCnt 1, pend := m.pend.filter (fun x => x.tag != c.tag), regions := if reg.on = true then m.regions.modify n (fun r => { r with on := false }) else m.regions } } } ∧
      EventsOnly s u ∧ (reg.on = false → u.host = s.host) ∧ (reg.on = true → Raised s' u 0x0102 n [1, c.req.addr.toNat]) ∧
      (reg.on = true ∧ s.so.pair.role = 1 ∧ o ≠ 0xF → Sent u t o { firmwarePacket s peer 11 [3] with len := 1 }) ∧
      (¬ (reg.on = true ∧ s.so.pair.role = 1 ∧ o ≠ 0xF) → t = u)))) ∧
  (∀ (k : DlfPacket) (s : State), NoInjector s → let a := k.addr.toNat; let p := s.so.pair
    let answer := fun (st : Half) (d : List Byte) => ({ k with kind := 7, src := k.dst, dst := k.src, hops := 0, status := st, len := d.length, data := d } : DlfPacket)
    (p.role ≠ 3 → ¬ (p.role = 1 ∧ p.join = true) → exec (.chunkCrc k) s = .next s) ∧
    (p.role = 3 → targetRegion s a 4096 = none → exec (.chunkCrc k) s = .next s) ∧
    (∀ n, p.role = 3 → targetRegion s a 4096 = some n → CleanDram s a 4096 →
      let reg := s.fab.mir.regions.get n; let chunk := (a - reg.base) / 4096; let crc := crc32c (s.fab.mem.readN a 4096)
      let m := assocSet chunk crc p.matched; let full := m.length = chunksIn reg
      let bad := { p with mism := p.mism + 1, joinMism := cnt p.joinMism 1, todo := [], matched := p.matched.filter (fun x => x.1 != chunk) }
      (crc.toNat = fld k.data 0 4 → ¬ full → allVerified s 2 = false → Completes (.chunkCrc k) s (fun t =>
        Sent { s with so := { s.so with pair := { p with matched := m } } } t (mirrorPort s a) (answer stOk (leBytes 4 crc.toNat)))) ∧
      (crc.toNat = fld k.data 0 4 → full → Completes (.chunkCrc k) s (fun t => ∃ u v,
        u = { s with fab := { s.fab with mir := { s.fab.mir with regions := s.fab.mir.regions.modify n (fun r => { r with diverged := false }) } }
                     so := { s.so with pair := { p with matched := [], mism := 0, verified := p.verified ||| 2 ^ n, sigs := p.sigs.set n (regionSig m (chunksIn reg)) } } } ∧
        Sent u v (mirrorPort s a) (answer stOk (leBytes 4 crc.toNat)) ∧
        let last := ∀ i, i < 8 → (s.fab.mir.regions.get i).type = 2 → i = n ∨ bit p.verified i = true
        (¬ last → t = v) ∧
        (last → EventsOnly v t ∧ Raised v t 0x0721 s.so.dlf.partner [p.joinPos, p.joinMism] ∧
          t = { v with host := t.host, so := { v.so with pair := { v.so.pair with role := 2, join := false, verify := false } } }))) ∧
      (crc.toNat ≠ fld k.data 0 4 → p.mism + 1 < 16 → Completes (.chunkCrc k) s (fun t =>
        Sent { s with so := { s.so with pair := bad } } t (mirrorPort s a) (answer stRetry []))) ∧
      (crc.toNat ≠ fld k.data 0 4 → 16 ≤ p.mism + 1 → Completes (.chunkCrc k) s (fun t => ∃ u v, Sent u v (mirrorPort s a) (answer stRetry []) ∧
        EventsOnly s u ∧ Raised s u 0x0722 n [p.mism + 1] ∧ u = { s with host := u.host, so := { s.so with pair := { bad with join := false, verify := false } } } ∧
        t = { v with so := { v.so with pair := { v.so.pair with role := 4 } } }))) ∧
    (p.role = 1 → p.join = true → let n := p.joinRegion; let reg := s.fab.mir.regions.get n; let chunk := (a - reg.base) / 4096
      let m := assocSet chunk (BitVec.ofNat 32 (fld k.data 0 4)) p.matched
      (k.status = stOk → m.length ≠ chunksIn reg → bit p.verified n = false → exec (.chunkCrc k) s = .next { s with so := { s.so with pair := { p with matched := m } } }) ∧
      (k.status ≠ stOk → p.mism + 1 < 16 → exec (.chunkCrc k) s = .next { s with so := { s.so with pair := { p with
        mism := p.mism + 1, joinMism := cnt p.joinMism 1, todo := p.todo ++ [chunk], matched := p.matched.filter (fun x => x.1 != chunk) } } }))) ∧
  (∀ (now : Nat) (s : State), let s' := s.advance now; let p := s.so.pair; let fails := fun (c : Instr) (u : State) =>
      (p.role ≤ 1 → exec c s = .next u) ∧ (p.role = 2 → Completes c s (fun t => TakenOver u t false)) ∧ (p.role = 3 ∨ p.role = 4 → Completes c s (fun t => PairLost u t))
    fails (.partnerFailing now) s' ∧
    (p.role ≠ 2 → exec (.handover now) s = .next s') ∧ (p.role = 2 → Completes (.handover now) s (fun t => TakenOver s' t true)) ∧
    (∀ t0, p.probe = some t0 → t0 + 50000 ≤ s'.dt → fails (.probeTimeout now) { s' with so := { s.so with pair := { p with probe := none } } }) ∧
    ((∀ t0, p.probe = some t0 → s'.dt < t0 + 50000) → exec (.probeTimeout now) s = .next s')) ∧
  (∀ s : State, let p := s.so.pair; let peer := s.so.dlf.partner
    (p.role = 2 ∨ p.role = 3 → exec .stale s = .next { s with so := { s.so with pair := { p with role := 4, join := false, verify := false } } }) ∧
    (p.role ≠ 2 → p.role ≠ 3 → exec .stale s = .next s) ∧
    (p.probe = none → exec .probeAnswer s = .next s) ∧
    (p.probe ≠ none → Completes .probeAnswer s (fun t => EventsOnly s t ∧ Raised s t 0x0724 peer [] ∧
      t = { s with host := t.host, so := { s.so with pair := { p with probe := none } } })) ∧
    ∀ src : Fin 48, (s.so.dlf.rt.get src = 0xF → exec (.probe src) s = .next s) ∧
      (s.so.dlf.rt.get src ≠ 0xF → NoInjector s → Completes (.probe src) s (fun t => Sent s t (s.so.dlf.rt.get src) (firmwarePacket s src 11 [5])))) ∧
  (∀ (m : HeartbeatMsg) (now : Nat) (s : State), let s' := s.advance now; let p := s.so.pair; let peer := s.so.dlf.partner; let o := s.so.dlf.rt.get peer
    (portUp s (4 + m.port.val) = false → exec (.heartbeat m now) s = .next s') ∧
    (portUp s (4 + m.port.val) = true → exec (.heartbeat m now) s = .next { s' with so := { s.so with pair := { p with
      hbRx := p.hbRx.set (4 + m.port.val) (some s'.dt), peerRole := m.role.toNat, peerState := m.state.toNat } } }) ∧
    (let due := (∀ t0, p.lastSend = some t0 → t0 + 10000 ≤ s'.dt) ∧ s.so.dlf.valid = true ∧ peer < 48
     (¬ due → exec (.heartbeatSend now) s = .next s') ∧
     (due → exec (.heartbeatSend now) s = .next { s' with so := { s.so with pair := { p with lastSend := some s'.dt }, dlf := { s.so.dlf with
       msgs := s.so.dlf.msgs ++ ([4, 5].filter (fun q => portUp s q)).map (fun q => (q, 3, s'.dt)) } } })) ∧
    (let lost := 2 ≤ p.role ∧ p.probe = none ∧ hbFresh s' 4 = false ∧ hbFresh s' 5 = false
     let u := { s' with so := { s.so with pair := { p with probe := some s'.dt } } }
     (¬ lost → exec (.heartbeatTimeout now) s = .next s') ∧ (lost → o = 0xF → exec (.heartbeatTimeout now) s = .next u) ∧
     (lost → o ≠ 0xF → NoInjector s → Completes (.heartbeatTimeout now) s (fun t => Sent u t o (firmwarePacket s peer 11 [4]))))) ∧
  (∀ (now : Nat) (s : State), let s' := s.advance now; let p := s.so.pair; let m := s.fab.mir; let reg := m.regions.get p.joinRegion; let c := Instr.joinChunkCopy now
    let a := reg.base + p.joinOff; let off := p.joinOff + 4096; let last := decide (reg.size * 0x4000000 ≤ off)
    let copies := fun (a : Nat) => (List.range 16).map (fun i => (mirrorPort s (a + 256 * i), ({
      kind := 6, src := BitVec.ofNat 8 s.so.dlf.devnum, dst := BitVec.ofNat 8 s.so.dlf.partner, label := 0, hops := 0, tag := BitVec.ofNat 16 (m.nextTag + i), status := 0
      addr := BitVec.ofNat 48 (a + 256 * i), len := 256, master := 0x30, data := slice (s.fab.mem.readN a 4096) (256 * i) 256 } : DlfPacket)))
    let crcs := fun (a : Nat) => [(mirrorPort s a, ({ firmwarePacket s s.so.dlf.partner 7 (leBytes 4 (crc32c (s.fab.mem.readN a 4096)).toNat) with addr := BitVec.ofNat 48 a } : DlfPacket))]
    let copying := fun (a : Nat) (q : Pair) => { s' with
      fab := { s.fab with mir := { m with nextTag := (m.nextTag + 16) % 65536 } }
      so := { s.so with pair := { q with unacked := p.unacked ++ (List.range 16).map (fun i => ((m.nextTag + i) % 65536, a)) } } }
    ((p.role ≠ 1 ∨ p.join = false) → exec c s = .next s') ∧
    (p.role = 1 → p.join = true → NoInjector s → m.nextTag < 65536 →
      (∀ x l, p.todo = x :: l → CleanDram s (reg.base + x * 4096) 4096 → Completes c s (fun t =>
        SentAll (copying (reg.base + x * 4096) { p with todo := l }) t (copies (reg.base + x * 4096) ++ crcs (reg.base + x * 4096)))) ∧
      (p.todo = [] → p.verify = true → reg.size * 0x4000000 ≤ p.joinOff → exec c s = .next s') ∧
      (p.todo = [] → p.verify = true → p.joinOff < reg.size * 0x4000000 → CleanDram s a 4096 → Completes c s (fun t =>
        SentAll { s' with so := { s.so with pair := { p with joinOff := off } } } t (crcs a))) ∧
      (p.todo = [] → p.verify = false → p.rate * (s'.dt - p.joinFrom) < (p.joinPos + 4096) * 1000 → exec c s = .next s') ∧
      (p.todo = [] → p.verify = false → (p.joinPos + 4096) * 1000 ≤ p.rate * (s'.dt - p.joinFrom) → CleanDram s a 4096 → Completes c s (fun t =>
        SentAll (copying a { p with joinPos := p.joinPos + 4096, joinOff := if last = true then 0 else off, verify := last }) t (copies a))))) ∧
  (∀ (now : Nat) (s : State), let s' := s.advance now; let p := s.so.pair; let peer := s.so.dlf.partner
    let sets := fun (u v : State) => u = { v with fab := { v.fab with mir := { v.fab.mir with regions := u.fab.mir.regions } }
                                                  so := { v.so with pair := { p with role := 2, handover := none } } } ∧
      ∀ i, u.fab.mir.regions.get i = if i < 8 ∧ (s.fab.mir.regions.get i).type = 1 then { s.fab.mir.regions.get i with type := 2, on := false } else s.fab.mir.regions.get i
    ((p.handover = none ∨ s.cal.made ≠ [] ∨ s.fab.mir.pend ≠ []) → exec (.handoverReady now) s = .next s') ∧
    (∀ ch r, p.handover = some (ch, r) → ch < 4 → r.flags = 0 → s.cal.made = [] → s.fab.mir.pend = [] → s.so.dlf.rt.get peer ≠ 0xF → NoInjector s →
      (let b := bufferedRequest (s.host.mbx.get ch); ¬ (b.1 = 0x0732 ∧ b.2.1 = r) ∨ b.2.2 = 0) → r.length.toNat ≤ 240 →
      Completes (.handoverReady now) s (fun t => ∃ u v, Sent s' v (s.so.dlf.rt.get peer) { firmwarePacket s peer 11 [2] with len := 1 } ∧ sets u v ∧
        t = { u with host := t.host } ∧ Answered s t ch 0x0732 r stOk 0 (leBytes 8 s'.dt) ∧ HostKept s t ch))) ∧
  ∀ (ch : Fin 4) (r : Request) (s : State), Plain s r → let p := s.so.pair
    (let role := payField r 0 1; let fresh := fun (n k : Nat) => if role = 3 then n else k
     r.length = 8 → (role = 0 ∨ role = 1 ∨ role = 3) → payField r 1 3 = 0 → 100 ≤ payField r 4 4 → payField r 4 4 ≤ 10000 →
     ((p.role = 2 ∨ p.join = true) → AnswersOnly (.pairConfig ch r) s ch 0x0730 r stBusy 0 []) ∧
     (p.role ≠ 2 → p.join = false → Accepts (.pairConfig ch r) s ch 0x0730 r 0 (payBytes r) (fun t => t = { s with host := t.host, so := { s.so with pair := { p with
       role := role, hbTimeout := payField r 4 4, probe := none, matched := [], mism := 0, verified := fresh 0 p.verified, joinPos := fresh 0 p.joinPos
       joinMism := fresh 0 p.joinMism } } }))) ∧
    (let src := regionsOf s 1
     r.length = 4 → 1000 ≤ payField r 0 4 → payField r 0 4 ≤ 100000 →
     ((p.role ≠ 1 ∨ p.join = true) → AnswersOnly (.pairJoin ch r) s ch 0x0731 r stBusy 0 []) ∧
     (p.role = 1 → p.join = false → (p.peerRole ≠ 3 ∨ src = []) → AnswersOnly (.pairJoin ch r) s ch 0x0731 r stNotDefined 0 []) ∧
     (∀ n l, p.role = 1 → p.join = false → p.peerRole = 3 → src = n :: l →
       Accepts (.pairJoin ch r) s ch 0x0731 r 0 (leBytes 8 (src.map (fun i => (s.fab.mir.regions.get i).size * 0x4000000)).sum) (fun t =>
         t = { s with
           host := t.host, fab := { s.fab with mir := { s.fab.mir with regions := t.fab.mir.regions } }
           so := { s.so with pair := { p with
             join := true, verify := false, verified := 0, joinPos := 0, joinMism := 0, joinRegion := n, joinOff := 0, todo := [], matched := []
             mism := 0, unacked := [], rate := payField r 0 4, joinFrom := s.time.dt } } } ∧
         ∀ i, t.fab.mir.regions.get i = if i < 8 ∧ (s.fab.mir.regions.get i).type = 1 then { s.fab.mir.regions.get i with on := true } else s.fab.mir.regions.get i))) ∧
    (let busy := p.role ≠ 1 ∨ p.peerRole ≠ 2 ∨ p.handover ≠ none
     r.length = 0 → (busy → AnswersOnly (.pairSwitchover ch r) s ch 0x0732 r stBusy 0 []) ∧
     (¬ busy → exec (.pairSwitchover ch r) s = .next ({ s with so := { s.so with pair := { p with handover := some (ch.val, r) } } }.modMbx ch (fun m =>
       { m with busy := true, done := false })))) ∧
    (r.length = 0 → AnswersOnly (.pairQuery ch r) s ch 0x0733 r stOk 0 (regBytes (pagePair s) ++
      catMap 8 (fun i => leBytes 4 (regionState s i) ++ leBytes 4 (s.so.pair.sigs.get i))))

/-- QUENCH_SAMPLE, where no pair is SUSPECT and each pair's readings differ by at most 6 °C, completes. The used reading of a hot spot is the higher of the two. A tile above 100 °C loses one point of its ceiling, and at 105 °C or more at point 0 its arithmetic is gated; at or below 100 °C its gate falls; at or below 97 °C its cool samples count up to the fortieth, which raises the ceiling by one point up to 6 unless the coolant is stopped. Each stack's refresh is doubled from 90 °C of its die to 87 °C, its cap holds from 98 °C to 95 °C. The package powers are those read. While the 1 ms power is within the budget and 580 W, no budget ceiling falls. Only this state, the hub's temperature record, Bellows and what events change may differ. For a plain request whose fields need no clamp. PWR_STATE_SET answers BUSY where R401 refuses (Sleep and Deep sleep while a chain is not IDLE, a pair role is held, the hub DMA engine runs or another channel is busy; Off of a PRIMARY or STANDBY), else it answers the state and keeps the request for the next entry. DVFS_SET gives every tile that serves a logical tile of the mask its host target, which takes effect at once where no transition runs, and answers the mask applied and the points in force. POWER_LIMIT sets the host limit and the budget. THERMAL_CONFIG sets its five values. THERMAL_QUERY answers pages 0x90 and 0x91. Nothing else changes but the answer. -/
def Obligations.QuenchSamplesAndPowerCommands : Prop :=
  ((
    ∀ (r : QuenchReadings) (now : Nat) (s : State), let s' := s.advance now
      let pair := fun (h : Nat) => (r.temps[h]?).getD (0, 0)
      let used := fun (h : Nat) => max (pair h).1.toInt (pair h).2.toInt
      (∀ h, h < 48 → bit s.qch.suspect.toNat h = false ∧ ((pair h).1.toInt - (pair h).2.toInt).natAbs ≤ 384) →
      Completes (.quenchSample r now) s (fun t => EventsOnly s' t ∧
        t = { s' with
          host := t.host, tiles := t.tiles, fab := { s.fab with clk := t.fab.clk, drm := t.fab.drm, qos := t.fab.qos }, qch := t.qch
          pwr := { s.pwr with avg1 := sat 16 r.avg1, avg10 := sat 16 r.avg10, cd := t.pwr.cd, tiles := t.pwr.tiles } } ∧
        t.qch.suspect = s.qch.suspect ∧ t.qch.coolant = s.qch.coolant ∧ t.qch.gateAll = s.qch.gateAll ∧
        (∀ d m, d < 4 → (∀ h ∈ (36 + d) :: (List.range 9).map (9 * d + ·), used h ≤ m) → (∃ h ∈ (36 + d) :: (List.range 9).map (9 * d + ·), used h = m) →
          t.qch.cdT.get d = (m, used (40 + d)) ∧
          t.fab.drm.get d = { s.fab.drm.get d with
            doubled := if 5760 ≤ m then true else if m ≤ 5568 then false else (s.fab.drm.get d).doubled
            cap50 := if 6272 ≤ m then true else if m ≤ 6080 then false else (s.fab.drm.get d).cap50 }) ∧
        (∀ p, 36 ≤ p → t.tiles.get p = s.tiles.get p ∧ t.pwr.tiles.get p = s.pwr.tiles.get p) ∧
        ∀ p, p < 36 → let D := s.pwr.tiles.get p; let T := t.pwr.tiles.get p
          T = { D with ceil := T.ceil, budget := T.budget, goal := T.goal, gated := T.gated, cool := T.cool
                       power := ((r.tiles[p]?).map BitVec.toNat).getD D.power } ∧
          t.tiles.get p = { s.tiles.get p with
            therm := pair p, arithGate := if T.gated = D.gated then (s.tiles.get p).arithGate else s.qch.gateAll || T.gated } ∧
          (6400 < used p → T.ceil = D.ceil - 1 ∧ T.cool = 0 ∧ T.gated = (D.gated || (decide (6720 ≤ used p) && D.clkOp == 0))) ∧
          (used p ≤ 6400 → T.gated = false) ∧
          (6208 < used p → used p ≤ 6400 → T.ceil = D.ceil ∧ T.cool = 0) ∧
          (used p ≤ 6208 → D.cool + 1 ≠ 40 → T.ceil = D.ceil ∧ T.cool = D.cool + 1) ∧
          (used p ≤ 6208 → D.cool + 1 = 40 → T.cool = 0 ∧ T.ceil = if s.qch.coolant = 3 then D.ceil else min 6 (D.ceil + 1)) ∧
          (sat 16 r.avg1 ≤ s.pwr.budget * 16 → sat 16 r.avg1 ≤ 580 * 16 →
            (T.budget = D.budget ∨ T.budget = min 6 (D.budget + 1)) ∧
            (6400 < used p → 0 < D.ceil → T.goal = if D.trans = true then D.goal else min D.host (min (D.ceil - 1) D.budget))))) ∧ (
    ∀ (ch : Fin 4) (r : Request) (s : State), Plain s r →
      (let n := payField r 0 1
       let others := (∃ c, c < 8 ∧ (s.cal.chains.get c).state ≠ .idle) ∨ s.so.pair.role ≠ 0 ∨ s.fab.hdma.busy = true ∨
         ∃ m, m < 4 ∧ m ≠ ch.val ∧ (s.host.mbx.get m).busy = true
       let st := if n = 1 then PwrState.idle else if n = 2 then .sleep else if n = 3 then .deep else .off
       r.length = 1 → 1 ≤ n → n ≤ 4 →
       (((n = 4 ∧ (s.so.pair.role = 1 ∨ s.so.pair.role = 2)) ∨ ((n = 2 ∨ n = 3) ∧ others)) →
         AnswersOnly (.pwrStateSet ch r) s ch 0x0900 r stBusy 0 []) ∧
       ((n = 1 ∨ (n = 4 ∧ s.so.pair.role ≠ 1 ∧ s.so.pair.role ≠ 2) ∨ ((n = 2 ∨ n = 3) ∧ ¬ others)) →
         Accepts (.pwrStateSet ch r) s ch 0x0900 r 0 (leBytes 1 n) (fun t => t = { s with host := t.host, pwr := { s.pwr with pendingReq := some st } }))) ∧
      (let k := payField r 4 1; let ls := (bitsOf (payField r 0 4) 32).filter (fun l => (physOf s l).isSome)
       r.length = 5 → k ≤ 6 →
       Accepts (.dvfsSet ch r) s ch 0x0901 r 0
         (leBytes 4 (maskOf 32 ls.contains) ++ catMap 32 (fun l => leBytes 4 (match physOf s l with
           | some p => if bit (payField r 0 4) l = true then (s.pwr.tiles.get p).clkOp else 0
           | none => 0))) (fun t =>
         t = { s with host := t.host, pwr := { s.pwr with tiles := t.pwr.tiles }, fab := { s.fab with clk := t.fab.clk } } ∧
         ∀ p, let d := s.pwr.tiles.get p
           ((∃ l ∈ ls, physOf s l = some p) →
             t.pwr.tiles.get p = { d with host := k, goal := if d.trans = true then d.goal else min k (min d.ceil d.budget) }) ∧
           ((∀ l ∈ ls, physOf s l ≠ some p) → t.pwr.tiles.get p = d ∧ t.fab.clk.get p = s.fab.clk.get p))) ∧
      (r.length = 2 → 150 ≤ payField r 0 2 → payField r 0 2 ≤ 480 →
        let u := { s with pwr := { s.pwr with hostLimit := payField r 0 2 } }
        Accepts (.powerLimit ch r) s ch 0x0902 r 0 (leBytes 4 (payField r 0 2) ++ leBytes 4 (budgetOf u)) (fun t =>
          t = { u with host := t.host, pwr := { u.pwr with budget := budgetOf u } })) ∧
      (r.length = 8 → 3000 ≤ payField r 0 2 → payField r 0 2 ≤ 4200 → 300 ≤ payField r 2 2 → payField r 2 2 ≤ 600 → 10 ≤ payField r 4 1 → payField r 4 1 ≤ 100 →
        payField r 5 1 ≤ 2 → 1000 ≤ payField r 6 2 → payField r 6 2 ≤ 60000 →
        Accepts (.thermalConfig ch r) s ch 0x0903 r 0 (payBytes r) (fun t =>
          t = { s with host := t.host, qch := { s.qch with c := payField r 0 2, tOutMax := payField r 2 2, stopRate := payField r 4 1, conf := payField r 5 1,
                                                           restoreMs := payField r 6 2 } })) ∧
      AnswersOnly (.thermalQuery ch r) s ch 0x0904 r stOk 0 (regBytes (pagePwr s) ++ regBytes (pageQch s))))

/-- POWER_STATE_ENTRY begins a pending request in Run, else changes nothing. ENTRY_WINDOW_END before its time changes nothing; with a held level wake event it abandons the entry; else it enters the state: Off leaves only the wake record, the islands and the host's memory; the others stop their domains, count the entry, raise POWER_STATE, and put the stacks in self-refresh in Sleep and Deep sleep, whose link is down and whose time stands. POWER_RETURN_STAGE goes on to the next stage, of which memory takes the stacks out of self-refresh, and after the last to Run with every stopped domain in WARM. DVFS_VOLTAGE_REACHED and DVFS_CLOCK_CHANGED complete their half of a step when it is its turn, and change nothing otherwise; a later target is taken once the step is complete. COOLANT_STOP_DRAIN with no copy pending puts the stacks in self-refresh, the hub on its reduced clock and a PRIMARY in STALE after PARTNER_FAILING; COOLANT_RESTORED reverses the response once its conditions have held restore_ms. THERMAL_TRIP puts a powered device in Off with its record. PWR_CTRL.cnt_clr zeroes the counters. -/
def Obligations.PowerStatesDvfsAndCooling : Prop :=
  (∀ (now : Nat) (s : State), let s' := s.advance now
    (∀ st, s.pwr.pendingReq = some st → s.pwr.state = .run → s.pwr.entering = none → exec (.powerStateEntry now) s =
      .next { s' with pwr := { s.pwr with pendingReq := none, entering := some st, entryDt := s'.dt, levelWake := none } }) ∧
    ((s.pwr.pendingReq = none ∨ s.pwr.state ≠ .run ∨ s.pwr.entering.isSome = true) → exec (.powerStateEntry now) s = .next s') ∧
    ((s.pwr.entering = none ∨ s'.dt < s.pwr.entryDt + entryWindow) → exec (.entryWindowEnd now) s = .next s') ∧
    (∀ st, s.pwr.entering = some st → s.pwr.entryDt + entryWindow ≤ s'.dt →
      (∀ c, s.pwr.levelWake = some c → exec (.entryWindowEnd now) s =
        .next { s' with pwr := { s.pwr with entering := none, levelWake := none, wake := c } }) ∧
      (s.pwr.levelWake = none → st = .off → Completes (.entryWindowEnd now) s (fun t => t.pwr.state = .off ∧ t.pwr.trip = false ∧ t.pins = s.pins ∧
        t.anv.isl = s.anv.isl ∧ HostMemKept s t [8] ∧ t.pending = s.pending ∧ ∀ a, t.fab.mem.read a = 0)) ∧
      (s.pwr.levelWake = none → st ≠ .off → Completes (.entryWindowEnd now) s (fun t => let deep := decide (st = .deep)
        EventsOnly { s' with host.pci.up := s.host.pci.up && !deep } t ∧ Raised s' t 0x0900 st.num [0] ∧
        t = { s' with
          host := t.host, fab := { s.fab with clk := t.fab.clk, drm := t.fab.drm }
          time := { s'.time with counting := s.time.counting && !deep }
          pwr := { s.pwr with entering := none, state := st, entryCnt := cnt s.pwr.entryCnt 1 } } ∧
        (∀ d, t.fab.drm.get d = { s.fab.drm.get d with selfref := (s.fab.drm.get d).selfref || (decide (d < 4) && (deep || decide (st = .sleep))) }) ∧
        ∀ k, k < 98 → (stoppedDomain st k = true → t.fab.clk.get k = { s.fab.clk.get k with state := 0, freq := 0 }) ∧
          (stoppedDomain st k = false → (s.fab.clk.get k).state ≠ 0 → t.fab.clk.get k = s.fab.clk.get k)))) ∧
    (s.pwr.stage = 0 → exec (.powerReturnStage now) s = .next s') ∧
    (0 < s.pwr.stage → s.pwr.stage < 4 → Completes (.powerReturnStage now) s (fun t =>
      t = { s' with pwr := { s.pwr with stage := s.pwr.stage + 1 }, fab := { s.fab with drm := t.fab.drm } } ∧
      ∀ d, t.fab.drm.get d = if s.pwr.stage = 2 ∧ s.qch.stacksOff = false ∧ d < 4 then { s.fab.drm.get d with selfref := false } else s.fab.drm.get d)) ∧
    (4 ≤ s.pwr.stage → s.pwr.state = .sleep → Completes (.powerReturnStage now) s (fun t =>
      EventsOnly s' t ∧ Raised s' t 0x0900 0 [s.pwr.wake] ∧
      t = { s' with
        host := t.host, fab := { s.fab with clk := t.fab.clk, drm := t.fab.drm }, pwr := { s.pwr with state := .run, stage := 0, levelWake := none } } ∧
      (∀ d, d < 4 → (t.fab.drm.get d).selfref = ((s.fab.drm.get d).selfref && s.qch.stacksOff)) ∧
      ∀ k, k < 98 → t.fab.clk.get k = if (s.fab.clk.get k).state = 0 then { s.fab.clk.get k with state := 2, changed := true } else s.fab.clk.get k)) ∧
    (4 ≤ s.pwr.stage → s.pwr.state = .deep → Completes (.powerReturnStage now) s (fun t => t.pwr.state = .run ∧ t.pwr.stage = 0 ∧ t.host.pci.up = true ∧
      t.time = { s'.time with counting := true, state := if s.time.src = 0 then 0 else 1, good := 0, bad := 0 }))) ∧
  (∀ (p : Fin 36) (s : State), let d := s.pwr.tiles.get p
    let done := fun (x : Dvfs) => if x.clkOp = d.goal ∧ x.voltOp = d.goal then { x with goal := x.target } else x
    (d.voltOp ≠ d.goal → (d.voltOp < d.goal ∨ d.clkOp ≤ d.goal) → exec (.dvfsVoltageReached p) s =
      .next { s with pwr.tiles := s.pwr.tiles.set p (done { d with voltOp := d.goal }) }) ∧
    ((d.voltOp = d.goal ∨ (d.goal < d.voltOp ∧ d.goal < d.clkOp)) → exec (.dvfsVoltageReached p) s = .next s) ∧
    (d.clkOp ≠ d.goal → (d.goal < d.clkOp ∨ d.goal ≤ d.voltOp) → exec (.dvfsClockChanged p) s =
      .next { s with pwr.tiles := s.pwr.tiles.set p (done { d with clkOp := d.goal })
                     fab.clk := s.fab.clk.modify p (fun c => { c with changed := true }) }) ∧
    ((d.clkOp = d.goal ∨ (d.clkOp < d.goal ∧ d.voltOp < d.goal)) → exec (.dvfsClockChanged p) s = .next s)) ∧
  (∀ (now : Nat) (s : State), let s' := s.advance now
    ((s.qch.coolant ≠ 3 ∨ s.qch.drained = true ∨ (s.fab.mir.pend ≠ [] ∧ s'.dt < s.qch.stopDt + 10000000)) →
      exec (.coolantStopDrain now) s = .next s') ∧
    (s.qch.coolant = 3 → s.qch.drained = false → s.fab.mir.pend = [] → Completes (.coolantStopDrain now) s (fun t =>
      (∀ d, t.fab.drm.get d = { s.fab.drm.get d with selfref := (s.fab.drm.get d).selfref || decide (d < 4) }) ∧
      t.qch = { s.qch with drained := true, stacksOff := true, plnClk := 3 } ∧
      (s.so.pair.role ≠ 1 → t = { s' with qch := t.qch, fab := { s.fab with drm := t.fab.drm } }) ∧
      (s.so.pair.role = 1 → t.so.pair = { s.so.pair with role := 4 } ∧
        ∃ k : DlfPacket, t.so.dlf.sent = s.so.dlf.sent ++ [(4, k)] ∧ k.kind = 11 ∧ k.dst = BitVec.ofNat 8 s.so.dlf.partner))) ∧
    ((s.qch.okSince = none ∨ s.qch.coolant ≠ 3 ∨ s.qch.drained = false ∨ ∃ t0, s.qch.okSince = some t0 ∧ s'.dt < t0 + s.qch.restoreMs * 1000000) →
      exec (.coolantRestored now) s = .next s') ∧
    (∀ t0, s.qch.okSince = some t0 → s.qch.coolant = 3 → s.qch.drained = true → t0 + s.qch.restoreMs * 1000000 ≤ s'.dt →
      Completes (.coolantRestored now) s (fun t =>
        EventsOnly s' t ∧ Raised s' t 0x0913 0 [(s'.dt - s.qch.stopDt) / 1000000] ∧
        t = { s' with
          host := t.host, tiles := t.tiles, fab := { s.fab with drm := t.fab.drm }, pwr := { s.pwr with budget := budgetOf t }
          qch := { s.qch with stacksOff := false, plnClk := 0, gateAll := false, drained := false, okSince := none
                              coolant := coolantState 0 s.qch.flow, demand := quenchDemand t } } ∧
        (∀ d, t.fab.drm.get d = if d < 4 ∧ s.pwr.state ≠ .sleep then { s.fab.drm.get d with selfref := false } else s.fab.drm.get d) ∧
        ∀ p, t.tiles.get p = if p < 36 then { s.tiles.get p with arithGate := (s.pwr.tiles.get p).gated } else s.tiles.get p))) ∧
  (∀ (spot : Fin 48) (s : State),
    ((s.pins.porN = false ∨ s.pins.aonGood = false ∨ s.pwr.state = .off) → exec (.thermalTrip spot) s = .next s) ∧
    (s.pins.porN = true → s.pins.aonGood = true → s.pwr.state ≠ .off → Completes (.thermalTrip spot) s (fun t =>
      t.pwr = { State.reset.pwr with state := .off, trip := true, spot := spot, boot := s.pwr.boot } ∧ t.pins = s.pins ∧ t.anv.isl = s.anv.isl ∧
      t.host.mem = s.host.mem ∧ t.pending = s.pending ∧ ∀ a, t.fab.mem.read a = 0))) ∧
  ∀ s : State, exec .pwrCtrlCntClr s = .next { s with
    pwr := { s.pwr with lostWake := 0, entryCnt := 0 }, qch := { s.qch with throtCnt := 0, fcCnt := 0, budCnt := 0, stopCnt := 0 } }

/-- FIRMWARE_SCAN without a service or off a boundary of 10 µs changes nothing; with a warm reset queued it resets with DRAM kept, with a wider one everything but the islands; with nothing sent, waiting or failed it changes nothing; with one channel's plain SYS_ECHO, POWER_LIMIT or THERMAL_CONFIG sent it is that command's own step. Of two POWER_LIMIT orders with different limits sent in one scan the lower takes effect and the other is completed with OVERRIDDEN, the limit and budget in force, its count, event and interrupt bit. PCIE_FLR leaves no channel busy, the event ring disabled, every interrupt masked, the vector table at reset, nothing pending and the window at 0; with nothing sent, the running commands run on without a channel and nothing else changes. MBX_SEND in D3hot changes nothing. DEBUG_TRANSACTION in OPERATIONAL or of a session not attached changes nothing; on a tile that takes requests it writes one SRAM byte, a register, or the halt bit; on an island out of RESET it writes a register or a byte of its cores, halts, resumes or steps them, the checker core with the main unless split. -/
def Obligations.FirmwareScanFunctionResetAndDebugger : Prop :=
  (∀ (now : Nat) (s : State), let s' := s.advance now
    ((s.bu.service = 0 ∨ s'.dt % 10000 ≠ 0) → exec (.firmwareScan now) s = .next s') ∧
    (s.bu.service ≠ 0 → s'.dt % 10000 = 0 →
      (∀ i, s.bu.rstQueued = some (4, i) → Completes (.firmwareScan now) s (fun t => t.bu.service = 0 ∧ t.bu.phase = 0 ∧ t.bu.warm = true ∧
        t.anv.isl = s.anv.isl ∧ t.pending = s.pending ∧ t.pins = s.pins ∧ ∀ a, t.fab.mem.read a = if a < 4 * dieSpan then s.fab.mem.read a else 0)) ∧
      (∀ k i, s.bu.rstQueued = some (k, i) → k ≠ 4 → Completes (.firmwareScan now) s (fun t => t.bu = State.reset.bu ∧
        t.anv.isl = s.anv.isl ∧ t.pending = s.pending ∧ t.pins = s.pins ∧ ∀ a, t.fab.mem.read a = 0)) ∧
      (s.bu.rstQueued = none → s.host.memWaits = [] → s.bu.fails = [] → (∀ p, p < 36 → (s.tiles.get p).ueTimes.length < 4) →
        ((∀ n, n < 4 → (s.host.mbx.get n).sent = false) → exec (.firmwareScan now) s = .next s') ∧
        (∀ (ch : Fin 4) (r : Request), let m := s.host.mbx.get ch; let u := s'.modMbx ch (fun m => { m with sent := false })
          m.sent = true → (∀ n, n < 4 → n ≠ ch.val → (s.host.mbx.get n).sent = false) → Plain s r → (bufferedRequest m).2 = (r, 0) →
          ((bufferedRequest m).1 = 0x0000 → exec (.firmwareScan now) s = exec (.sysEcho ch r) u) ∧
          ((bufferedRequest m).1 = 0x0902 → exec (.firmwareScan now) s = exec (.powerLimit ch r) u) ∧
          ((bufferedRequest m).1 = 0x0903 → exec (.firmwareScan now) s = exec (.thermalConfig ch r) u)) ∧
        (∀ (w l : Fin 4) (a b : Request), w ≠ l → (∀ n, n < 4 → (s.host.mbx.get n).sent = (n == w.val || n == l.val)) → Plain s a → Plain s b →
          bufferedRequest (s.host.mbx.get w) = (0x0902, a, 0) → bufferedRequest (s.host.mbx.get l) = (0x0902, b, 0) → a.length = 2 → b.length = 2 →
          150 ≤ payField a 0 2 → payField a 0 2 < payField b 0 2 → payField b 0 2 ≤ 480 → Completes (.firmwareScan now) s (fun t =>
            t.pwr.hostLimit = payField a 0 2 ∧ (t.host.mbx.get w).busy = false ∧ (t.host.mbx.get l).busy = false ∧
            (t.host.mbx.get w).rsp = responseBytes 0x0902 a.seq stOk 0 (leBytes 4 (payField a 0 2) ++ leBytes 4 t.pwr.budget) ∧
            (t.host.mbx.get l).rsp = responseBytes 0x0902 b.seq stOverridden 0 (leBytes 4 (payField a 0 2) ++ leBytes 4 t.pwr.budget) ∧
            t.host.arb.ordOvr = cnt s.host.arb.ordOvr 1 ∧ bit t.host.ints.stat.toNat 7 = true ∧
            Raised s' t 0x0006 (8 + w.val) [0x0902 + (8 + l.val) * 2 ^ 16] ∧
            t = { s' with host := t.host, pwr := { s.pwr with hostLimit := payField a 0 2, budget := t.pwr.budget } }))))) ∧
  (∀ s : State,
    Completes .pcieFlr s (fun t => (∀ n, (t.host.mbx.get n).busy = false) ∧ t.host.evt.enable = false ∧ t.host.ints.mask = 0x1FF ∧
      t.host.ints.msix = State.reset.host.ints.msix ∧ t.host.ints.pba = 0 ∧ t.host.pci.winBase = 0) ∧
    ((∀ n, n < 4 → (s.host.mbx.get n).sent = false) → Completes .pcieFlr s (fun t =>
      (∀ n, t.host.mbx.get n = if (s.host.mbx.get n).busy = true then { s.host.mbx.get n with busy := false, done := false, sent := false } else s.host.mbx.get n) ∧
      t = { s with
        host := { s.host with
          mbx := t.host.mbx, evt := { s.host.evt with enable := false }, memWaits := s.host.memWaits.map (fun w => { w with ch := 4 })
          ints := { s.host.ints with mask := 0x1FF, msix := t.host.ints.msix, pba := 0 }, pci := { s.host.pci with winBase := 0 } }
        bu := { s.bu with startReq := s.bu.startReq.map (fun x => (4, x.2)), rst := t.bu.rst }
        so := { s.so with pair := { s.so.pair with handover := s.so.pair.handover.map (fun x => (4, x.2)) } } }))) ∧
  (∀ (ch : Fin 4) (writes : List (Nat × List Byte)) (ok : Bool) (s : State), s.host.pci.d3hot = true → exec (.mbxSend ch writes ok) s = .next s) ∧
  (∀ (id : Byte) (op : DebugOp) (s : State), (s.host.opMode = true ∨ id.toNat ∉ s.host.sessions) → exec (.debugTransaction id op) s = .next s) ∧
  (∀ (id : Byte) (s : State), s.host.opMode = false → id.toNat ∈ s.host.sessions →
    (id.toNat < 36 → let p := id.toNat
      (tileAbsorbed s p = true → ∀ op, exec (.debugTransaction id op) s = .next s) ∧
      (tileAbsorbed s p = false →
        exec (.debugTransaction id .step) s = .next s ∧
        (∀ a v, Completes (.debugTransaction id (.writeMem a v)) s (fun t => StoresAt s t (tileWindow p + a % 2 ^ 24) [v] ∧
          t = { s with fab := { s.fab with mem := t.fab.mem, poison := t.fab.poison }, tiles := t.tiles } ∧
          (∀ q, q ≠ p → t.tiles.get q = s.tiles.get q) ∧
          t.tiles.get p = { s.tiles.get p with symErr := (t.tiles.get p).symErr, lbs := (t.tiles.get p).lbs })) ∧
        (∀ v : Quad, Completes (.debugTransaction id (.writeReg 0x18 v)) s (fun t => TileOnly s t p ∧
          t.tiles.get p = { s.tiles.get p with pdirCnt := min 4096 (v.toNat % 8192) })) ∧
        Completes (.debugTransaction id .halt) s (fun t => TileOnly s t p ∧ t.tiles.get p = { s.tiles.get p with dbgHalt := true }) ∧
        Completes (.debugTransaction id .resume) s (fun t => TileOnly s t p ∧ t.tiles.get p = { s.tiles.get p with dbgHalt := false }))) ∧
    (∀ (i : Fin 2) (op : DebugOp), id.toNat = 0x40 + i.val →
      let core : DebugCore → DebugCore := fun c => match op with
        | .writeReg r v => { c with regs := c.regs.set r v }
        | .writeMem a v => { c with mem := c.mem.set a v }
        | .halt => { c with halted := true }
        | .resume => { c with halted := false }
        | .step => if c.halted then { c with steps := c.steps + 1 } else c
      let a := s.isle i
      IsleBecomes (.debugTransaction id op) s s i (fun b =>
        (a.state = .reset → b = a) ∧ (a.state ≠ .reset → b = { a with main := core a.main, chk := if isSplit a = true then a.chk else core a.chk }))))
end

