-- ==== Sys2Proof/Laws/Memory.lean ====
section
/-! SUPPORT. Memory: what a read gives after a write, and that every operation keeps the canonical form. -/

namespace Sys2Proof.Machine

theorem Memory.wf_iff (m : Memory) : m.wf = true ↔ m.Pairwise (fun a b => a.1 < b.1) ∧ ∀ c ∈ m, c.2 ≠ 0 := by
  simp [Memory.wf]

theorem Memory.wf_nil : Memory.wf [] = true := by decide

theorem cellsOf_bounds (a : Nat) (bs : List Byte) : ∀ c ∈ cellsOf a bs, a ≤ c.1 ∧ c.1 < a + bs.length ∧ c.2 ≠ 0 := by
  induction bs generalizing a with
  | nil => simp [cellsOf]
  | cons b r ih =>
    intro c hc
    have step : ∀ d ∈ cellsOf (a + 1) r, a ≤ d.1 ∧ d.1 < a + (b :: r).length ∧ d.2 ≠ 0 := by
      intro d hd
      obtain ⟨h1, h2, h3⟩ := ih (a + 1) d hd
      exact ⟨by omega, by simp only [List.length_cons]; omega, h3⟩
    unfold cellsOf at hc
    split at hc
    · exact step c hc
    · rename_i hb
      rcases List.mem_cons.mp hc with rfl | h
      · exact ⟨Nat.le_refl _, by simp, hb⟩
      · exact step c h

theorem cellsOf_rising (a : Nat) (bs : List Byte) : (cellsOf a bs).Pairwise (fun x y => x.1 < y.1) := by
  induction bs generalizing a with
  | nil => simp [cellsOf]
  | cons b r ih =>
    unfold cellsOf
    split
    · exact ih (a + 1)
    · refine List.pairwise_cons.mpr ⟨fun d hd => ?_, ih (a + 1)⟩
      have := (cellsOf_bounds (a + 1) r d hd).1
      simpa using this

theorem filter_rising {m : Memory} (p : Host.Cell → Bool) (h : m.Pairwise (fun a b => a.1 < b.1)) :
    (m.filter p).Pairwise (fun a b => a.1 < b.1) := h.filter p

/-- A write keeps the canonical form. -/
theorem Memory.wf_write (m : Memory) (a : Nat) (bs : List Byte) (h : m.wf = true) : (m.write a bs).wf = true := by
  obtain ⟨hp, hz⟩ := m.wf_iff.mp h
  refine (Memory.wf_iff _).mpr ⟨?_, ?_⟩
  · unfold Memory.write
    refine List.pairwise_append.mpr ⟨filter_rising _ hp, List.pairwise_append.mpr ⟨cellsOf_rising a bs, filter_rising _ hp, ?_⟩, ?_⟩
    · intro x hx y hy
      have h1 := (cellsOf_bounds a bs x hx).2.1
      have h2 := (List.mem_filter.mp hy).2
      simp only [decide_eq_true_eq] at h2
      omega
    · intro x hx y hy
      have h1 := (List.mem_filter.mp hx).2
      simp only [decide_eq_true_eq] at h1
      rcases List.mem_append.mp hy with h2 | h2
      · have := (cellsOf_bounds a bs y h2).1; omega
      · have := (List.mem_filter.mp h2).2
        simp only [decide_eq_true_eq] at this
        omega
  · intro c hc
    unfold Memory.write at hc
    rcases List.mem_append.mp hc with h1 | h1
    · exact hz c (List.mem_filter.mp h1).1
    · rcases List.mem_append.mp h1 with h2 | h2
      · exact (cellsOf_bounds a bs c h2).2.2
      · exact hz c (List.mem_filter.mp h2).1

/-- A filtered memory keeps the canonical form. -/
theorem Memory.wf_filter (m : Memory) (p : Host.Cell → Bool) (h : m.wf = true) : Memory.wf (m.filter p) = true := by
  obtain ⟨hp, hz⟩ := m.wf_iff.mp h
  exact (Memory.wf_iff _).mpr ⟨filter_rising p hp, fun c hc => hz c (List.mem_filter.mp hc).1⟩

/-- Clearing a range keeps the canonical form. -/
theorem Memory.wf_clear (m : Memory) (a n : Nat) (h : m.wf = true) : (m.clear a n).wf = true := by
  obtain ⟨hp, hz⟩ := m.wf_iff.mp h
  refine (Memory.wf_iff _).mpr ⟨?_, ?_⟩
  · unfold Memory.clear
    refine List.pairwise_append.mpr ⟨filter_rising _ hp, filter_rising _ hp, ?_⟩
    intro x hx y hy
    have h1 := (List.mem_filter.mp hx).2
    have h2 := (List.mem_filter.mp hy).2
    simp only [decide_eq_true_eq] at h1 h2
    omega
  · intro c hc
    unfold Memory.clear at hc
    rcases List.mem_append.mp hc with h1 | h1 <;> exact hz c (List.mem_filter.mp h1).1

theorem Memory.read_append (m n : Memory) (a : Nat) :
    Memory.read (m ++ n) a = if m.any (fun c => c.1 == a) then Memory.read m a else Memory.read n a := by
  induction m with
  | nil => simp [Memory.read]
  | cons c r ih =>
    obtain ⟨k, v⟩ := c
    by_cases hk : k = a
    · simp [Memory.read, hk]
    · simp [Memory.read, hk, ih]

theorem Memory.read_none (m : Memory) (a : Nat) (h : m.any (fun c => c.1 == a) = false) : Memory.read m a = 0 := by
  induction m with
  | nil => rfl
  | cons c r ih =>
    obtain ⟨k, v⟩ := c
    simp only [List.any_cons, Bool.or_eq_false_iff, beq_eq_false_iff_ne, ne_eq] at h
    simp [Memory.read, h.1, ih h.2]

theorem Memory.read_filter (m : Memory) (p : Host.Cell → Bool) (a : Nat) (h : ∀ c ∈ m, c.1 = a → p c = true) :
    Memory.read (m.filter p) a = Memory.read m a := by
  induction m with
  | nil => rfl
  | cons c r ih =>
    have ih := ih (fun d hd => h d (List.mem_cons_of_mem _ hd))
    obtain ⟨k, v⟩ := c
    by_cases hk : k = a
    · have := h (k, v) (by simp) hk
      rw [List.filter_cons_of_pos this]
      simp [Memory.read, hk]
    · by_cases hp : p (k, v) = true
      · rw [List.filter_cons_of_pos hp]; simp [Memory.read, hk, ih]
      · rw [List.filter_cons_of_neg hp]; simp [Memory.read, hk, ih]

theorem any_filter_none (m : Memory) (p : Host.Cell → Bool) (a : Nat) (h : ∀ c, c.1 = a → p c = false) :
    (m.filter p).any (fun c => c.1 == a) = false := by
  rw [List.any_eq_false]
  intro c hc hk
  have := (List.mem_filter.mp hc).2
  rw [h c (by simpa using hk)] at this
  exact absurd this (by decide)

theorem any_cellsOf_none (a b : Nat) (bs : List Byte) (h : b < a ∨ a + bs.length ≤ b) :
    (cellsOf a bs).any (fun c => c.1 == b) = false := by
  rw [List.any_eq_false]
  intro c hc hk
  have := cellsOf_bounds a bs c hc
  simp only [beq_iff_eq] at hk
  omega

theorem cellsOf_read (a i : Nat) (bs : List Byte) (h : i < bs.length) : Memory.read (cellsOf a bs) (a + i) = bs.getD i 0 := by
  induction bs generalizing a i with
  | nil => simp at h
  | cons b r ih =>
    unfold cellsOf
    split
    · rename_i hb
      cases i with
      | zero =>
        rw [Memory.read_none _ _ (any_cellsOf_none _ _ _ (Or.inl (by omega)))]
        simp [hb]
      | succ j =>
        have := ih (a + 1) j (by simpa using h)
        rw [show a + (j + 1) = a + 1 + j by omega, this]
        simp
    · cases i with
      | zero => simp [Memory.read]
      | succ j =>
        have := ih (a + 1) j (by simpa using h)
        rw [show a + (j + 1) = a + 1 + j by omega]
        simp only [Memory.read, if_neg (show ¬ a = a + 1 + j by omega), this]
        simp

/-- A byte outside the bytes written reads as before. -/
theorem Memory.read_write_outside (m : Memory) (a b : Nat) (bs : List Byte) (h : b < a ∨ a + bs.length ≤ b) :
    (m.write a bs).read b = m.read b := by
  unfold Memory.write
  rcases h with h | h
  · rw [Memory.read_append]
    by_cases hx : (m.filter (fun c => c.1 < a)).any (fun c => c.1 == b) = true
    · rw [if_pos hx]
      exact Memory.read_filter m _ b (fun c _ hc => by simpa [hc] using h)
    · have hz := Bool.eq_false_iff.mpr hx
      rw [if_neg hx, Memory.read_append, any_cellsOf_none a b bs (Or.inl h)]
      rw [← Memory.read_filter m (fun c => c.1 < a) b (fun c _ hc => by simpa [hc] using h), Memory.read_none _ b hz]
      exact Memory.read_none _ b (any_filter_none m _ b (fun c hc => by simp [hc]; omega))
  · rw [Memory.read_append, any_filter_none m _ b (fun c hc => by simp [hc]; omega), Memory.read_append,
      any_cellsOf_none a b bs (Or.inr h)]
    exact Memory.read_filter m _ b (fun c _ hc => by simpa [hc] using h)

/-- A byte written reads as written. -/
theorem Memory.read_write_inside (m : Memory) (a i : Nat) (bs : List Byte) (h : i < bs.length) :
    (m.write a bs).read (a + i) = bs.getD i 0 := by
  unfold Memory.write
  rw [Memory.read_append, any_filter_none m _ (a + i) (fun c hc => by simp [hc]), Memory.read_append]
  by_cases hx : (cellsOf a bs).any (fun c => c.1 == a + i) = true
  · rw [if_neg (by simp), if_pos hx, cellsOf_read a i bs h]
  · have hr := cellsOf_read a i bs h
    rw [Memory.read_none _ _ (Bool.eq_false_iff.mpr hx)] at hr
    rw [if_neg (by simp), if_neg hx, ← hr]
    exact Memory.read_none _ _ (any_filter_none m _ _ (fun c hc => by simp [hc]; omega))

theorem Memory.readN_eq (m : Memory) (a n : Nat) : m.readN a n = (List.range n).map (fun i => m.read (a + i)) := by
  unfold Memory.readN
  refine List.map_congr_left (fun i hi => Memory.read_filter m _ (a + i) (fun c _ hc => ?_))
  have := List.mem_range.mp hi
  simp [hc]; omega

/-- Reading back what was written. -/
theorem Memory.readN_write (m : Memory) (a : Nat) (bs : List Byte) : (m.write a bs).readN a bs.length = bs := by
  rw [Memory.readN_eq]
  refine List.ext_getElem (by simp) (fun i h1 h2 => ?_)
  simp [Memory.read_write_inside m a i bs h2, List.getElem?_eq_getElem h2]

/-! ### Poison marks stay strictly rising -/

theorem Poison.rising_unmark (p : Poison) (lo k : Nat) (h : p.Pairwise (· < ·)) : (p.unmark lo k).Pairwise (· < ·) := h.filter _

theorem Poison.rising_mark (p : Poison) (lo k : Nat) (h : p.Pairwise (· < ·)) : (p.mark lo k).Pairwise (· < ·) := by
  unfold Poison.mark
  refine List.pairwise_append.mpr ⟨h.filter _, List.pairwise_append.mpr ⟨?_, h.filter _, ?_⟩, ?_⟩
  · exact List.pairwise_map.mpr (List.pairwise_lt_range.imp (by intro a b hab; omega))
  · intro x hx y hy
    obtain ⟨i, hi, rfl⟩ := List.mem_map.mp hx
    have h1 := List.mem_range.mp hi
    have h2 := (List.mem_filter.mp hy).2
    simp only [decide_eq_true_eq] at h2
    omega
  · intro x hx y hy
    have h1 := (List.mem_filter.mp hx).2
    simp only [decide_eq_true_eq] at h1
    rcases List.mem_append.mp hy with h2 | h2
    · obtain ⟨i, hi, rfl⟩ := List.mem_map.mp h2; omega
    · have := (List.mem_filter.mp h2).2
      simp only [decide_eq_true_eq] at this
      omega

end Sys2Proof.Machine
end

