-- ==== Sys2Proof/Laws/Tab.lean ====
section
/-! SUPPORT. What reading a table gives after it is set, changed at one entry, or changed everywhere. -/

namespace Sys2Proof.Machine

theorem assocGet_assocSet {α : Type} (d v : α) (i j : Nat) (l : List (Nat × α)) :
    assocGet d (assocSet i v l) j = if i = j then v else assocGet d l j := by
  induction l with
  | nil => simp [assocSet, assocGet]
  | cons c r ih =>
    obtain ⟨k, w⟩ := c
    by_cases hk : k = i
    · subst hk; by_cases hj : k = j <;> simp [assocSet, assocGet, hj]
    · by_cases hj : k = j
      · subst hj; simp [assocSet, assocGet, hk, Ne.symm hk]
      · simp [assocSet, assocGet, hk, hj, ih]

theorem assocGet_map {α : Type} (f : α → α) (d : α) (l : List (Nat × α)) (i : Nat) :
    assocGet (f d) (l.map (fun c => (c.1, f c.2))) i = f (assocGet d l i) := by
  induction l with
  | nil => rfl
  | cons c r ih =>
    obtain ⟨k, w⟩ := c
    by_cases hk : k = i <;> simp [assocGet, hk, ih]

theorem assocSet_assocSet {α : Type} (i : Nat) (v w : α) (l : List (Nat × α)) : assocSet i v (assocSet i w l) = assocSet i v l := by
  induction l with
  | nil => simp [assocSet]
  | cons c r ih => by_cases h : c.1 = i <;> simp [assocSet, h, ih]

@[simp] theorem Tab.set_set {α : Type} (t : Tab α) (i : Nat) (v w : α) : (t.set i w).set i v = t.set i v := by
  simp [Tab.set, assocSet_assocSet]

theorem Tab.get_set {α : Type} (t : Tab α) (i j : Nat) (v : α) : (t.set i v).get j = if i = j then v else t.get j :=
  assocGet_assocSet t.dflt v i j t.cells

@[simp] theorem Tab.get_set_self {α : Type} (t : Tab α) (i : Nat) (v : α) : (t.set i v).get i = v := by simp [Tab.get_set]

@[simp] theorem Tab.get_set_other {α : Type} (t : Tab α) {i j : Nat} (v : α) (h : i ≠ j) : (t.set i v).get j = t.get j := by
  simp [Tab.get_set, h]

theorem Tab.get_modify {α : Type} (t : Tab α) (i j : Nat) (f : α → α) :
    (t.modify i f).get j = if i = j then f (t.get i) else t.get j := Tab.get_set t i j _

@[simp] theorem Tab.get_modify_self {α : Type} (t : Tab α) (i : Nat) (f : α → α) : (t.modify i f).get i = f (t.get i) := by
  simp [Tab.get_modify]

@[simp] theorem Tab.get_modify_other {α : Type} (t : Tab α) {i j : Nat} (f : α → α) (h : i ≠ j) : (t.modify i f).get j = t.get j := by
  simp [Tab.get_modify, h]

@[simp] theorem Tab.modify_modify {α : Type} (t : Tab α) (i : Nat) (f g : α → α) : (t.modify i f).modify i g = t.modify i (fun x => g (f x)) := by
  simp [Tab.modify]

@[simp] theorem Tab.get_const {α : Type} (d : α) (i : Nat) : (Tab.const d).get i = d := rfl

@[simp] theorem Tab.get_map {α : Type} (t : Tab α) (f : α → α) (i : Nat) : (t.map f).get i = f (t.get i) :=
  assocGet_map f t.dflt t.cells i

end Sys2Proof.Machine
end

