-- ==== Sys2Proof/Laws/Host.lean ====
section
/-! SUPPORT. What the operations of the host side do: interrupt messages, events, and the completion of a Cerfosil command. -/

namespace Sys2Proof.Machine

@[simp] theorem length_leBytes (n v : Nat) : (leBytes n v).length = n := by
  induction n generalizing v with
  | zero => rfl
  | succ n ih => simp [leBytes, ih]

/-- `bit` is the bit test of natural numbers. -/
theorem bit_eq_testBit (v n : Nat) : bit v n = v.testBit n := by
  rw [Nat.testBit_eq_decide_div_mod_eq]; rfl

/-- Setting bit `i` of a 32-bit register. -/
theorem bit_setBit (w : Word) (i j : Nat) (h : i < 32) :
    bit (w ||| BitVec.ofNat 32 (2 ^ i)).toNat j = (bit w.toNat j || decide (i = j)) := by
  have h2 : 2 ^ i < 2 ^ 32 := Nat.pow_lt_pow_right (by omega) h
  rw [bit_eq_testBit, bit_eq_testBit, BitVec.toNat_or, BitVec.toNat_ofNat, Nat.mod_eq_of_lt h2, Nat.testBit_or, Nat.testBit_two_pow]

/-- The change an interrupt message makes: the pending bits, the message counts, and host memory at the vector's address only. -/
def MessageOnly (s t : State) (v : Nat) : Prop :=
  t = { s with host := { s.host with
    ints := { s.host.ints with pba := t.host.ints.pba, sent := t.host.ints.sent }, mem := t.host.mem, poison := t.host.poison } } ∧
  HostMemKept s t [v] ∧ (s.host.mem.wf = true → t.host.mem.wf = true)

theorem sendMsix_spec (s : State) (v : Nat) : MessageOnly s (sendMsix s v) v := by
  unfold sendMsix
  simp only
  split
  · exact ⟨rfl, fun _ _ => rfl, id⟩
  · split
    · refine ⟨rfl, fun a ha => ?_, fun h => Memory.wf_write _ _ _ h⟩
      have ha : ¬ InMessage s v a := ha v (by simp)
      refine Memory.read_write_outside _ _ _ _ ?_
      simp only [InMessage, not_and_or, Nat.not_le, Nat.not_lt] at ha
      simpa using ha
    · exact ⟨rfl, fun _ _ => rfl, id⟩

/-- The change that setting interrupt bit `i` makes (R313). -/
def InterruptOnly (s t : State) (i : Nat) : Prop :=
  t = { s with host := { s.host with
    ints := { s.host.ints with stat := t.host.ints.stat, pba := t.host.ints.pba, sent := t.host.ints.sent },
    mem := t.host.mem, poison := t.host.poison } } ∧
  (∀ j, bit t.host.ints.stat.toNat j = (bit s.host.ints.stat.toNat j || decide (i = j))) ∧
  HostMemKept s t [i] ∧ (s.host.mem.wf = true → t.host.mem.wf = true)

theorem setInt_spec (s : State) (i : Nat) (hi : i < 32) : InterruptOnly s (setInt s i) i := by
  unfold setInt
  simp only
  split
  · obtain ⟨h1, h2, h3⟩ := sendMsix_spec { s with host.ints.stat := s.host.ints.stat ||| BitVec.ofNat 32 (2 ^ i) } i
    refine ⟨?_, fun j => ?_, h2, h3⟩
    · rw [h1]
    · rw [h1]; exact bit_setBit _ _ _ hi
  · exact ⟨rfl, fun j => bit_setBit _ _ _ hi, fun _ _ => rfl, id⟩

/-- The completion of a command without a bulk result (R289, R291): the channel answers, its interrupt bit is set, and nothing else changes. -/
theorem completeCmd_spec (s : State) (c : Cmd) (b : Bool) (r : Reply) (ho : c.outPtr = false) (hc : c.ch < 32) :
    let t := completeCmd s c b r
    let m := s.host.mbx.get c.ch
    t = { s with host := t.host } ∧
    t.host.mbx.get c.ch = { m with rsp := responseBytes c.op c.seq r.status (c.clamps + r.clamps) r.data, seq := c.seq, done := true, busy := false,
                                   cmdCnt := (m.cmdCnt + 1) % 4294967296, clampCnt := cnt m.clampCnt (c.clamps + r.clamps) } ∧
    bit t.host.ints.stat.toNat c.ch = true ∧ HostKept s t c.ch ∧ (s.host.mem.wf = true → t.host.mem.wf = true) := by
  simp only [completeCmd, ho, Bool.false_and, Bool.false_eq_true, if_false]
  obtain ⟨h1, h2, h3, h4⟩ := setInt_spec (s.modMbx c.ch (fun m =>
    { m with rsp := responseBytes c.op c.seq r.status (c.clamps + r.clamps) r.data, seq := c.seq, done := true, busy := false,
             cmdCnt := (m.cmdCnt + 1) % 4294967296, clampCnt := cnt m.clampCnt (c.clamps + r.clamps) })) c.ch hc
  refine ⟨?_, ?_, ?_, ⟨?_, ?_, ?_, ?_, ?_, h3⟩, h4⟩
  · rw [h1]; rfl
  · rw [h1]; simp [State.modMbx]
  · rw [h2]; simp
  · rw [h1]; rfl
  · intro n hn; rw [h1]; simp [State.modMbx, Ne.symm hn]
  · intro i hi; rw [h2]; simp [State.modMbx, Ne.symm hi]
  · rw [h1]; rfl
  · rw [h1]; rfl

/-- A plain request of a defined command is decoded, run and completed (R291–R294). -/
theorem runCmd_plain (s : State) (ch op : Nat) (r : Request) (f : State → Cmd → State × Reply) (h : Plain s r)
    (hop : definedOpcodes.contains op = true) :
    runCmd s ch op r 0 f =
      completeCmd (f s (plainCmd ch op r)).1 (plainCmd ch op r) (s.host.mbx.get ch).bufOk (f s (plainCmd ch op r)).2 := by
  obtain ⟨h1, h2, h3, h4⟩ := h
  have hd : decodeCmd s ch op r (s.host.mbx.get ch).bufOk 0 = (plainCmd ch op r, true) := by
    have : ¬ 240 < r.length.toNat := by omega
    simp [decodeCmd, plainCmd, h3, bit, this, Nat.min_eq_left h4, payBytes]
  have ha : accepts s op = true := by simp [accepts, h1, h2]
  have hop : op ∈ definedOpcodes := by simpa using hop
  simp [runCmd, h1, hd, ha, hop]

end Sys2Proof.Machine
end

