-- ==== Sys2Proof/Laws/State.lean ====
section
/-! SUPPORT. What each update of one part of the state leaves alone: one equation per update and field. -/

namespace Sys2Proof.Machine

/-! ### `State.modTile` -/

@[simp] theorem State.modTile_pins (s : State) (p : Nat) (f : Tile → Tile) : (s.modTile p f).pins = s.pins := rfl
@[simp] theorem State.modTile_host (s : State) (p : Nat) (f : Tile → Tile) : (s.modTile p f).host = s.host := rfl
@[simp] theorem State.modTile_fab (s : State) (p : Nat) (f : Tile → Tile) : (s.modTile p f).fab = s.fab := rfl
@[simp] theorem State.modTile_time (s : State) (p : Nat) (f : Tile → Tile) : (s.modTile p f).time = s.time := rfl
@[simp] theorem State.modTile_cal (s : State) (p : Nat) (f : Tile → Tile) : (s.modTile p f).cal = s.cal := rfl
@[simp] theorem State.modTile_kvt (s : State) (p : Nat) (f : Tile → Tile) : (s.modTile p f).kvt = s.kvt := rfl
@[simp] theorem State.modTile_pwr (s : State) (p : Nat) (f : Tile → Tile) : (s.modTile p f).pwr = s.pwr := rfl
@[simp] theorem State.modTile_qch (s : State) (p : Nat) (f : Tile → Tile) : (s.modTile p f).qch = s.qch := rfl
@[simp] theorem State.modTile_bu (s : State) (p : Nat) (f : Tile → Tile) : (s.modTile p f).bu = s.bu := rfl
@[simp] theorem State.modTile_so (s : State) (p : Nat) (f : Tile → Tile) : (s.modTile p f).so = s.so := rfl
@[simp] theorem State.modTile_sen (s : State) (p : Nat) (f : Tile → Tile) : (s.modTile p f).sen = s.sen := rfl
@[simp] theorem State.modTile_anv (s : State) (p : Nat) (f : Tile → Tile) : (s.modTile p f).anv = s.anv := rfl
@[simp] theorem State.modTile_pln (s : State) (p : Nat) (f : Tile → Tile) : (s.modTile p f).pln = s.pln := rfl
@[simp] theorem State.modTile_sie (s : State) (p : Nat) (f : Tile → Tile) : (s.modTile p f).sie = s.sie := rfl
@[simp] theorem State.modTile_toIslands (s : State) (p : Nat) (f : Tile → Tile) : (s.modTile p f).toIslands = s.toIslands := rfl
@[simp] theorem State.modTile_free (s : State) (p : Nat) (f : Tile → Tile) : (s.modTile p f).free = s.free := rfl
@[simp] theorem State.modTile_pending (s : State) (p : Nat) (f : Tile → Tile) : (s.modTile p f).pending = s.pending := rfl

/-! ### `State.modMbx` -/

@[simp] theorem State.modMbx_pins (s : State) (n : Nat) (f : Mbox → Mbox) : (s.modMbx n f).pins = s.pins := rfl
@[simp] theorem State.modMbx_fab (s : State) (n : Nat) (f : Mbox → Mbox) : (s.modMbx n f).fab = s.fab := rfl
@[simp] theorem State.modMbx_time (s : State) (n : Nat) (f : Mbox → Mbox) : (s.modMbx n f).time = s.time := rfl
@[simp] theorem State.modMbx_cal (s : State) (n : Nat) (f : Mbox → Mbox) : (s.modMbx n f).cal = s.cal := rfl
@[simp] theorem State.modMbx_tiles (s : State) (n : Nat) (f : Mbox → Mbox) : (s.modMbx n f).tiles = s.tiles := rfl
@[simp] theorem State.modMbx_kvt (s : State) (n : Nat) (f : Mbox → Mbox) : (s.modMbx n f).kvt = s.kvt := rfl
@[simp] theorem State.modMbx_pwr (s : State) (n : Nat) (f : Mbox → Mbox) : (s.modMbx n f).pwr = s.pwr := rfl
@[simp] theorem State.modMbx_qch (s : State) (n : Nat) (f : Mbox → Mbox) : (s.modMbx n f).qch = s.qch := rfl
@[simp] theorem State.modMbx_bu (s : State) (n : Nat) (f : Mbox → Mbox) : (s.modMbx n f).bu = s.bu := rfl
@[simp] theorem State.modMbx_so (s : State) (n : Nat) (f : Mbox → Mbox) : (s.modMbx n f).so = s.so := rfl
@[simp] theorem State.modMbx_sen (s : State) (n : Nat) (f : Mbox → Mbox) : (s.modMbx n f).sen = s.sen := rfl
@[simp] theorem State.modMbx_anv (s : State) (n : Nat) (f : Mbox → Mbox) : (s.modMbx n f).anv = s.anv := rfl
@[simp] theorem State.modMbx_pln (s : State) (n : Nat) (f : Mbox → Mbox) : (s.modMbx n f).pln = s.pln := rfl
@[simp] theorem State.modMbx_sie (s : State) (n : Nat) (f : Mbox → Mbox) : (s.modMbx n f).sie = s.sie := rfl
@[simp] theorem State.modMbx_toIslands (s : State) (n : Nat) (f : Mbox → Mbox) : (s.modMbx n f).toIslands = s.toIslands := rfl
@[simp] theorem State.modMbx_free (s : State) (n : Nat) (f : Mbox → Mbox) : (s.modMbx n f).free = s.free := rfl
@[simp] theorem State.modMbx_pending (s : State) (n : Nat) (f : Mbox → Mbox) : (s.modMbx n f).pending = s.pending := rfl
@[simp] theorem State.modMbx_host_opMode (s : State) (n : Nat) (f : Mbox → Mbox) : (s.modMbx n f).host.opMode = s.host.opMode := rfl
@[simp] theorem State.modMbx_host_evt (s : State) (n : Nat) (f : Mbox → Mbox) : (s.modMbx n f).host.evt = s.host.evt := rfl
@[simp] theorem State.modMbx_host_ints (s : State) (n : Nat) (f : Mbox → Mbox) : (s.modMbx n f).host.ints = s.host.ints := rfl
@[simp] theorem State.modMbx_host_pci (s : State) (n : Nat) (f : Mbox → Mbox) : (s.modMbx n f).host.pci = s.host.pci := rfl
@[simp] theorem State.modMbx_host_arb (s : State) (n : Nat) (f : Mbox → Mbox) : (s.modMbx n f).host.arb = s.host.arb := rfl
@[simp] theorem State.modMbx_host_trc (s : State) (n : Nat) (f : Mbox → Mbox) : (s.modMbx n f).host.trc = s.host.trc := rfl
@[simp] theorem State.modMbx_host_sessions (s : State) (n : Nat) (f : Mbox → Mbox) : (s.modMbx n f).host.sessions = s.host.sessions := rfl
@[simp] theorem State.modMbx_host_mem (s : State) (n : Nat) (f : Mbox → Mbox) : (s.modMbx n f).host.mem = s.host.mem := rfl
@[simp] theorem State.modMbx_host_poison (s : State) (n : Nat) (f : Mbox → Mbox) : (s.modMbx n f).host.poison = s.host.poison := rfl
@[simp] theorem State.modMbx_host_reads (s : State) (n : Nat) (f : Mbox → Mbox) : (s.modMbx n f).host.reads = s.host.reads := rfl
@[simp] theorem State.modMbx_host_memWaits (s : State) (n : Nat) (f : Mbox → Mbox) : (s.modMbx n f).host.memWaits = s.host.memWaits := rfl

/-! ### `State.modDrm` -/

@[simp] theorem State.modDrm_pins (s : State) (d : Nat) (f : Dram → Dram) : (s.modDrm d f).pins = s.pins := rfl
@[simp] theorem State.modDrm_host (s : State) (d : Nat) (f : Dram → Dram) : (s.modDrm d f).host = s.host := rfl
@[simp] theorem State.modDrm_time (s : State) (d : Nat) (f : Dram → Dram) : (s.modDrm d f).time = s.time := rfl
@[simp] theorem State.modDrm_cal (s : State) (d : Nat) (f : Dram → Dram) : (s.modDrm d f).cal = s.cal := rfl
@[simp] theorem State.modDrm_tiles (s : State) (d : Nat) (f : Dram → Dram) : (s.modDrm d f).tiles = s.tiles := rfl
@[simp] theorem State.modDrm_kvt (s : State) (d : Nat) (f : Dram → Dram) : (s.modDrm d f).kvt = s.kvt := rfl
@[simp] theorem State.modDrm_pwr (s : State) (d : Nat) (f : Dram → Dram) : (s.modDrm d f).pwr = s.pwr := rfl
@[simp] theorem State.modDrm_qch (s : State) (d : Nat) (f : Dram → Dram) : (s.modDrm d f).qch = s.qch := rfl
@[simp] theorem State.modDrm_bu (s : State) (d : Nat) (f : Dram → Dram) : (s.modDrm d f).bu = s.bu := rfl
@[simp] theorem State.modDrm_so (s : State) (d : Nat) (f : Dram → Dram) : (s.modDrm d f).so = s.so := rfl
@[simp] theorem State.modDrm_sen (s : State) (d : Nat) (f : Dram → Dram) : (s.modDrm d f).sen = s.sen := rfl
@[simp] theorem State.modDrm_anv (s : State) (d : Nat) (f : Dram → Dram) : (s.modDrm d f).anv = s.anv := rfl
@[simp] theorem State.modDrm_pln (s : State) (d : Nat) (f : Dram → Dram) : (s.modDrm d f).pln = s.pln := rfl
@[simp] theorem State.modDrm_sie (s : State) (d : Nat) (f : Dram → Dram) : (s.modDrm d f).sie = s.sie := rfl
@[simp] theorem State.modDrm_toIslands (s : State) (d : Nat) (f : Dram → Dram) : (s.modDrm d f).toIslands = s.toIslands := rfl
@[simp] theorem State.modDrm_free (s : State) (d : Nat) (f : Dram → Dram) : (s.modDrm d f).free = s.free := rfl
@[simp] theorem State.modDrm_pending (s : State) (d : Nat) (f : Dram → Dram) : (s.modDrm d f).pending = s.pending := rfl
@[simp] theorem State.modDrm_fab_mem (s : State) (d : Nat) (f : Dram → Dram) : (s.modDrm d f).fab.mem = s.fab.mem := rfl
@[simp] theorem State.modDrm_fab_lost (s : State) (d : Nat) (f : Dram → Dram) : (s.modDrm d f).fab.lost = s.fab.lost := rfl
@[simp] theorem State.modDrm_fab_poison (s : State) (d : Nat) (f : Dram → Dram) : (s.modDrm d f).fab.poison = s.fab.poison := rfl
@[simp] theorem State.modDrm_fab_symErr (s : State) (d : Nat) (f : Dram → Dram) : (s.modDrm d f).fab.symErr = s.fab.symErr := rfl
@[simp] theorem State.modDrm_fab_net (s : State) (d : Nat) (f : Dram → Dram) : (s.modDrm d f).fab.net = s.fab.net := rfl
@[simp] theorem State.modDrm_fab_mir (s : State) (d : Nat) (f : Dram → Dram) : (s.modDrm d f).fab.mir = s.fab.mir := rfl
@[simp] theorem State.modDrm_fab_edges (s : State) (d : Nat) (f : Dram → Dram) : (s.modDrm d f).fab.edges = s.fab.edges := rfl
@[simp] theorem State.modDrm_fab_groups (s : State) (d : Nat) (f : Dram → Dram) : (s.modDrm d f).fab.groups = s.fab.groups := rfl
@[simp] theorem State.modDrm_fab_routes (s : State) (d : Nat) (f : Dram → Dram) : (s.modDrm d f).fab.routes = s.fab.routes := rfl
@[simp] theorem State.modDrm_fab_qos (s : State) (d : Nat) (f : Dram → Dram) : (s.modDrm d f).fab.qos = s.fab.qos := rfl
@[simp] theorem State.modDrm_fab_inj (s : State) (d : Nat) (f : Dram → Dram) : (s.modDrm d f).fab.inj = s.fab.inj := rfl
@[simp] theorem State.modDrm_fab_hdma (s : State) (d : Nat) (f : Dram → Dram) : (s.modDrm d f).fab.hdma = s.fab.hdma := rfl
@[simp] theorem State.modDrm_fab_clk (s : State) (d : Nat) (f : Dram → Dram) : (s.modDrm d f).fab.clk = s.fab.clk := rfl
@[simp] theorem State.modDrm_fab_clkFaults (s : State) (d : Nat) (f : Dram → Dram) : (s.modDrm d f).fab.clkFaults = s.fab.clkFaults := rfl
@[simp] theorem State.modDrm_fab_ldl (s : State) (d : Nat) (f : Dram → Dram) : (s.modDrm d f).fab.ldl = s.fab.ldl := rfl
@[simp] theorem State.modDrm_fab_dieReset (s : State) (d : Nat) (f : Dram → Dram) : (s.modDrm d f).fab.dieReset = s.fab.dieReset := rfl
@[simp] theorem State.modDrm_fab_transitDown (s : State) (d : Nat) (f : Dram → Dram) : (s.modDrm d f).fab.transitDown = s.fab.transitDown := rfl
@[simp] theorem State.modDrm_fab_absorbs (s : State) (d : Nat) (f : Dram → Dram) : (s.modDrm d f).fab.absorbs = s.fab.absorbs := rfl

/-! ### `State.modEdge` -/

@[simp] theorem State.modEdge_pins (s : State) (k : Nat) (f : Edge → Edge) : (s.modEdge k f).pins = s.pins := rfl
@[simp] theorem State.modEdge_host (s : State) (k : Nat) (f : Edge → Edge) : (s.modEdge k f).host = s.host := rfl
@[simp] theorem State.modEdge_time (s : State) (k : Nat) (f : Edge → Edge) : (s.modEdge k f).time = s.time := rfl
@[simp] theorem State.modEdge_cal (s : State) (k : Nat) (f : Edge → Edge) : (s.modEdge k f).cal = s.cal := rfl
@[simp] theorem State.modEdge_tiles (s : State) (k : Nat) (f : Edge → Edge) : (s.modEdge k f).tiles = s.tiles := rfl
@[simp] theorem State.modEdge_kvt (s : State) (k : Nat) (f : Edge → Edge) : (s.modEdge k f).kvt = s.kvt := rfl
@[simp] theorem State.modEdge_pwr (s : State) (k : Nat) (f : Edge → Edge) : (s.modEdge k f).pwr = s.pwr := rfl
@[simp] theorem State.modEdge_qch (s : State) (k : Nat) (f : Edge → Edge) : (s.modEdge k f).qch = s.qch := rfl
@[simp] theorem State.modEdge_bu (s : State) (k : Nat) (f : Edge → Edge) : (s.modEdge k f).bu = s.bu := rfl
@[simp] theorem State.modEdge_so (s : State) (k : Nat) (f : Edge → Edge) : (s.modEdge k f).so = s.so := rfl
@[simp] theorem State.modEdge_sen (s : State) (k : Nat) (f : Edge → Edge) : (s.modEdge k f).sen = s.sen := rfl
@[simp] theorem State.modEdge_anv (s : State) (k : Nat) (f : Edge → Edge) : (s.modEdge k f).anv = s.anv := rfl
@[simp] theorem State.modEdge_pln (s : State) (k : Nat) (f : Edge → Edge) : (s.modEdge k f).pln = s.pln := rfl
@[simp] theorem State.modEdge_sie (s : State) (k : Nat) (f : Edge → Edge) : (s.modEdge k f).sie = s.sie := rfl
@[simp] theorem State.modEdge_toIslands (s : State) (k : Nat) (f : Edge → Edge) : (s.modEdge k f).toIslands = s.toIslands := rfl
@[simp] theorem State.modEdge_free (s : State) (k : Nat) (f : Edge → Edge) : (s.modEdge k f).free = s.free := rfl
@[simp] theorem State.modEdge_pending (s : State) (k : Nat) (f : Edge → Edge) : (s.modEdge k f).pending = s.pending := rfl
@[simp] theorem State.modEdge_fab_mem (s : State) (k : Nat) (f : Edge → Edge) : (s.modEdge k f).fab.mem = s.fab.mem := rfl
@[simp] theorem State.modEdge_fab_lost (s : State) (k : Nat) (f : Edge → Edge) : (s.modEdge k f).fab.lost = s.fab.lost := rfl
@[simp] theorem State.modEdge_fab_poison (s : State) (k : Nat) (f : Edge → Edge) : (s.modEdge k f).fab.poison = s.fab.poison := rfl
@[simp] theorem State.modEdge_fab_symErr (s : State) (k : Nat) (f : Edge → Edge) : (s.modEdge k f).fab.symErr = s.fab.symErr := rfl
@[simp] theorem State.modEdge_fab_net (s : State) (k : Nat) (f : Edge → Edge) : (s.modEdge k f).fab.net = s.fab.net := rfl
@[simp] theorem State.modEdge_fab_drm (s : State) (k : Nat) (f : Edge → Edge) : (s.modEdge k f).fab.drm = s.fab.drm := rfl
@[simp] theorem State.modEdge_fab_mir (s : State) (k : Nat) (f : Edge → Edge) : (s.modEdge k f).fab.mir = s.fab.mir := rfl
@[simp] theorem State.modEdge_fab_groups (s : State) (k : Nat) (f : Edge → Edge) : (s.modEdge k f).fab.groups = s.fab.groups := rfl
@[simp] theorem State.modEdge_fab_routes (s : State) (k : Nat) (f : Edge → Edge) : (s.modEdge k f).fab.routes = s.fab.routes := rfl
@[simp] theorem State.modEdge_fab_qos (s : State) (k : Nat) (f : Edge → Edge) : (s.modEdge k f).fab.qos = s.fab.qos := rfl
@[simp] theorem State.modEdge_fab_inj (s : State) (k : Nat) (f : Edge → Edge) : (s.modEdge k f).fab.inj = s.fab.inj := rfl
@[simp] theorem State.modEdge_fab_hdma (s : State) (k : Nat) (f : Edge → Edge) : (s.modEdge k f).fab.hdma = s.fab.hdma := rfl
@[simp] theorem State.modEdge_fab_clk (s : State) (k : Nat) (f : Edge → Edge) : (s.modEdge k f).fab.clk = s.fab.clk := rfl
@[simp] theorem State.modEdge_fab_clkFaults (s : State) (k : Nat) (f : Edge → Edge) : (s.modEdge k f).fab.clkFaults = s.fab.clkFaults := rfl
@[simp] theorem State.modEdge_fab_ldl (s : State) (k : Nat) (f : Edge → Edge) : (s.modEdge k f).fab.ldl = s.fab.ldl := rfl
@[simp] theorem State.modEdge_fab_dieReset (s : State) (k : Nat) (f : Edge → Edge) : (s.modEdge k f).fab.dieReset = s.fab.dieReset := rfl
@[simp] theorem State.modEdge_fab_transitDown (s : State) (k : Nat) (f : Edge → Edge) : (s.modEdge k f).fab.transitDown = s.fab.transitDown := rfl
@[simp] theorem State.modEdge_fab_absorbs (s : State) (k : Nat) (f : Edge → Edge) : (s.modEdge k f).fab.absorbs = s.fab.absorbs := rfl

/-! ### `State.modGroup` -/

@[simp] theorem State.modGroup_pins (s : State) (n : Nat) (f : EGroup → EGroup) : (s.modGroup n f).pins = s.pins := rfl
@[simp] theorem State.modGroup_host (s : State) (n : Nat) (f : EGroup → EGroup) : (s.modGroup n f).host = s.host := rfl
@[simp] theorem State.modGroup_time (s : State) (n : Nat) (f : EGroup → EGroup) : (s.modGroup n f).time = s.time := rfl
@[simp] theorem State.modGroup_cal (s : State) (n : Nat) (f : EGroup → EGroup) : (s.modGroup n f).cal = s.cal := rfl
@[simp] theorem State.modGroup_tiles (s : State) (n : Nat) (f : EGroup → EGroup) : (s.modGroup n f).tiles = s.tiles := rfl
@[simp] theorem State.modGroup_kvt (s : State) (n : Nat) (f : EGroup → EGroup) : (s.modGroup n f).kvt = s.kvt := rfl
@[simp] theorem State.modGroup_pwr (s : State) (n : Nat) (f : EGroup → EGroup) : (s.modGroup n f).pwr = s.pwr := rfl
@[simp] theorem State.modGroup_qch (s : State) (n : Nat) (f : EGroup → EGroup) : (s.modGroup n f).qch = s.qch := rfl
@[simp] theorem State.modGroup_bu (s : State) (n : Nat) (f : EGroup → EGroup) : (s.modGroup n f).bu = s.bu := rfl
@[simp] theorem State.modGroup_so (s : State) (n : Nat) (f : EGroup → EGroup) : (s.modGroup n f).so = s.so := rfl
@[simp] theorem State.modGroup_sen (s : State) (n : Nat) (f : EGroup → EGroup) : (s.modGroup n f).sen = s.sen := rfl
@[simp] theorem State.modGroup_anv (s : State) (n : Nat) (f : EGroup → EGroup) : (s.modGroup n f).anv = s.anv := rfl
@[simp] theorem State.modGroup_pln (s : State) (n : Nat) (f : EGroup → EGroup) : (s.modGroup n f).pln = s.pln := rfl
@[simp] theorem State.modGroup_sie (s : State) (n : Nat) (f : EGroup → EGroup) : (s.modGroup n f).sie = s.sie := rfl
@[simp] theorem State.modGroup_toIslands (s : State) (n : Nat) (f : EGroup → EGroup) : (s.modGroup n f).toIslands = s.toIslands := rfl
@[simp] theorem State.modGroup_free (s : State) (n : Nat) (f : EGroup → EGroup) : (s.modGroup n f).free = s.free := rfl
@[simp] theorem State.modGroup_pending (s : State) (n : Nat) (f : EGroup → EGroup) : (s.modGroup n f).pending = s.pending := rfl
@[simp] theorem State.modGroup_fab_mem (s : State) (n : Nat) (f : EGroup → EGroup) : (s.modGroup n f).fab.mem = s.fab.mem := rfl
@[simp] theorem State.modGroup_fab_lost (s : State) (n : Nat) (f : EGroup → EGroup) : (s.modGroup n f).fab.lost = s.fab.lost := rfl
@[simp] theorem State.modGroup_fab_poison (s : State) (n : Nat) (f : EGroup → EGroup) : (s.modGroup n f).fab.poison = s.fab.poison := rfl
@[simp] theorem State.modGroup_fab_symErr (s : State) (n : Nat) (f : EGroup → EGroup) : (s.modGroup n f).fab.symErr = s.fab.symErr := rfl
@[simp] theorem State.modGroup_fab_net (s : State) (n : Nat) (f : EGroup → EGroup) : (s.modGroup n f).fab.net = s.fab.net := rfl
@[simp] theorem State.modGroup_fab_drm (s : State) (n : Nat) (f : EGroup → EGroup) : (s.modGroup n f).fab.drm = s.fab.drm := rfl
@[simp] theorem State.modGroup_fab_mir (s : State) (n : Nat) (f : EGroup → EGroup) : (s.modGroup n f).fab.mir = s.fab.mir := rfl
@[simp] theorem State.modGroup_fab_edges (s : State) (n : Nat) (f : EGroup → EGroup) : (s.modGroup n f).fab.edges = s.fab.edges := rfl
@[simp] theorem State.modGroup_fab_routes (s : State) (n : Nat) (f : EGroup → EGroup) : (s.modGroup n f).fab.routes = s.fab.routes := rfl
@[simp] theorem State.modGroup_fab_qos (s : State) (n : Nat) (f : EGroup → EGroup) : (s.modGroup n f).fab.qos = s.fab.qos := rfl
@[simp] theorem State.modGroup_fab_inj (s : State) (n : Nat) (f : EGroup → EGroup) : (s.modGroup n f).fab.inj = s.fab.inj := rfl
@[simp] theorem State.modGroup_fab_hdma (s : State) (n : Nat) (f : EGroup → EGroup) : (s.modGroup n f).fab.hdma = s.fab.hdma := rfl
@[simp] theorem State.modGroup_fab_clk (s : State) (n : Nat) (f : EGroup → EGroup) : (s.modGroup n f).fab.clk = s.fab.clk := rfl
@[simp] theorem State.modGroup_fab_clkFaults (s : State) (n : Nat) (f : EGroup → EGroup) : (s.modGroup n f).fab.clkFaults = s.fab.clkFaults := rfl
@[simp] theorem State.modGroup_fab_ldl (s : State) (n : Nat) (f : EGroup → EGroup) : (s.modGroup n f).fab.ldl = s.fab.ldl := rfl
@[simp] theorem State.modGroup_fab_dieReset (s : State) (n : Nat) (f : EGroup → EGroup) : (s.modGroup n f).fab.dieReset = s.fab.dieReset := rfl
@[simp] theorem State.modGroup_fab_transitDown (s : State) (n : Nat) (f : EGroup → EGroup) : (s.modGroup n f).fab.transitDown = s.fab.transitDown := rfl
@[simp] theorem State.modGroup_fab_absorbs (s : State) (n : Nat) (f : EGroup → EGroup) : (s.modGroup n f).fab.absorbs = s.fab.absorbs := rfl

/-! ### `State.modLdl` -/

@[simp] theorem State.modLdl_pins (s : State) (n : Nat) (f : Ladle → Ladle) : (s.modLdl n f).pins = s.pins := rfl
@[simp] theorem State.modLdl_host (s : State) (n : Nat) (f : Ladle → Ladle) : (s.modLdl n f).host = s.host := rfl
@[simp] theorem State.modLdl_time (s : State) (n : Nat) (f : Ladle → Ladle) : (s.modLdl n f).time = s.time := rfl
@[simp] theorem State.modLdl_cal (s : State) (n : Nat) (f : Ladle → Ladle) : (s.modLdl n f).cal = s.cal := rfl
@[simp] theorem State.modLdl_tiles (s : State) (n : Nat) (f : Ladle → Ladle) : (s.modLdl n f).tiles = s.tiles := rfl
@[simp] theorem State.modLdl_kvt (s : State) (n : Nat) (f : Ladle → Ladle) : (s.modLdl n f).kvt = s.kvt := rfl
@[simp] theorem State.modLdl_pwr (s : State) (n : Nat) (f : Ladle → Ladle) : (s.modLdl n f).pwr = s.pwr := rfl
@[simp] theorem State.modLdl_qch (s : State) (n : Nat) (f : Ladle → Ladle) : (s.modLdl n f).qch = s.qch := rfl
@[simp] theorem State.modLdl_bu (s : State) (n : Nat) (f : Ladle → Ladle) : (s.modLdl n f).bu = s.bu := rfl
@[simp] theorem State.modLdl_so (s : State) (n : Nat) (f : Ladle → Ladle) : (s.modLdl n f).so = s.so := rfl
@[simp] theorem State.modLdl_sen (s : State) (n : Nat) (f : Ladle → Ladle) : (s.modLdl n f).sen = s.sen := rfl
@[simp] theorem State.modLdl_anv (s : State) (n : Nat) (f : Ladle → Ladle) : (s.modLdl n f).anv = s.anv := rfl
@[simp] theorem State.modLdl_pln (s : State) (n : Nat) (f : Ladle → Ladle) : (s.modLdl n f).pln = s.pln := rfl
@[simp] theorem State.modLdl_sie (s : State) (n : Nat) (f : Ladle → Ladle) : (s.modLdl n f).sie = s.sie := rfl
@[simp] theorem State.modLdl_toIslands (s : State) (n : Nat) (f : Ladle → Ladle) : (s.modLdl n f).toIslands = s.toIslands := rfl
@[simp] theorem State.modLdl_free (s : State) (n : Nat) (f : Ladle → Ladle) : (s.modLdl n f).free = s.free := rfl
@[simp] theorem State.modLdl_pending (s : State) (n : Nat) (f : Ladle → Ladle) : (s.modLdl n f).pending = s.pending := rfl
@[simp] theorem State.modLdl_fab_mem (s : State) (n : Nat) (f : Ladle → Ladle) : (s.modLdl n f).fab.mem = s.fab.mem := rfl
@[simp] theorem State.modLdl_fab_lost (s : State) (n : Nat) (f : Ladle → Ladle) : (s.modLdl n f).fab.lost = s.fab.lost := rfl
@[simp] theorem State.modLdl_fab_poison (s : State) (n : Nat) (f : Ladle → Ladle) : (s.modLdl n f).fab.poison = s.fab.poison := rfl
@[simp] theorem State.modLdl_fab_symErr (s : State) (n : Nat) (f : Ladle → Ladle) : (s.modLdl n f).fab.symErr = s.fab.symErr := rfl
@[simp] theorem State.modLdl_fab_net (s : State) (n : Nat) (f : Ladle → Ladle) : (s.modLdl n f).fab.net = s.fab.net := rfl
@[simp] theorem State.modLdl_fab_drm (s : State) (n : Nat) (f : Ladle → Ladle) : (s.modLdl n f).fab.drm = s.fab.drm := rfl
@[simp] theorem State.modLdl_fab_mir (s : State) (n : Nat) (f : Ladle → Ladle) : (s.modLdl n f).fab.mir = s.fab.mir := rfl
@[simp] theorem State.modLdl_fab_edges (s : State) (n : Nat) (f : Ladle → Ladle) : (s.modLdl n f).fab.edges = s.fab.edges := rfl
@[simp] theorem State.modLdl_fab_groups (s : State) (n : Nat) (f : Ladle → Ladle) : (s.modLdl n f).fab.groups = s.fab.groups := rfl
@[simp] theorem State.modLdl_fab_routes (s : State) (n : Nat) (f : Ladle → Ladle) : (s.modLdl n f).fab.routes = s.fab.routes := rfl
@[simp] theorem State.modLdl_fab_qos (s : State) (n : Nat) (f : Ladle → Ladle) : (s.modLdl n f).fab.qos = s.fab.qos := rfl
@[simp] theorem State.modLdl_fab_inj (s : State) (n : Nat) (f : Ladle → Ladle) : (s.modLdl n f).fab.inj = s.fab.inj := rfl
@[simp] theorem State.modLdl_fab_hdma (s : State) (n : Nat) (f : Ladle → Ladle) : (s.modLdl n f).fab.hdma = s.fab.hdma := rfl
@[simp] theorem State.modLdl_fab_clk (s : State) (n : Nat) (f : Ladle → Ladle) : (s.modLdl n f).fab.clk = s.fab.clk := rfl
@[simp] theorem State.modLdl_fab_clkFaults (s : State) (n : Nat) (f : Ladle → Ladle) : (s.modLdl n f).fab.clkFaults = s.fab.clkFaults := rfl
@[simp] theorem State.modLdl_fab_dieReset (s : State) (n : Nat) (f : Ladle → Ladle) : (s.modLdl n f).fab.dieReset = s.fab.dieReset := rfl
@[simp] theorem State.modLdl_fab_transitDown (s : State) (n : Nat) (f : Ladle → Ladle) : (s.modLdl n f).fab.transitDown = s.fab.transitDown := rfl
@[simp] theorem State.modLdl_fab_absorbs (s : State) (n : Nat) (f : Ladle → Ladle) : (s.modLdl n f).fab.absorbs = s.fab.absorbs := rfl

/-! ### `State.modChain` -/

@[simp] theorem State.modChain_pins (s : State) (c : Nat) (f : Chain → Chain) : (s.modChain c f).pins = s.pins := rfl
@[simp] theorem State.modChain_host (s : State) (c : Nat) (f : Chain → Chain) : (s.modChain c f).host = s.host := rfl
@[simp] theorem State.modChain_fab (s : State) (c : Nat) (f : Chain → Chain) : (s.modChain c f).fab = s.fab := rfl
@[simp] theorem State.modChain_time (s : State) (c : Nat) (f : Chain → Chain) : (s.modChain c f).time = s.time := rfl
@[simp] theorem State.modChain_tiles (s : State) (c : Nat) (f : Chain → Chain) : (s.modChain c f).tiles = s.tiles := rfl
@[simp] theorem State.modChain_kvt (s : State) (c : Nat) (f : Chain → Chain) : (s.modChain c f).kvt = s.kvt := rfl
@[simp] theorem State.modChain_pwr (s : State) (c : Nat) (f : Chain → Chain) : (s.modChain c f).pwr = s.pwr := rfl
@[simp] theorem State.modChain_qch (s : State) (c : Nat) (f : Chain → Chain) : (s.modChain c f).qch = s.qch := rfl
@[simp] theorem State.modChain_bu (s : State) (c : Nat) (f : Chain → Chain) : (s.modChain c f).bu = s.bu := rfl
@[simp] theorem State.modChain_so (s : State) (c : Nat) (f : Chain → Chain) : (s.modChain c f).so = s.so := rfl
@[simp] theorem State.modChain_sen (s : State) (c : Nat) (f : Chain → Chain) : (s.modChain c f).sen = s.sen := rfl
@[simp] theorem State.modChain_anv (s : State) (c : Nat) (f : Chain → Chain) : (s.modChain c f).anv = s.anv := rfl
@[simp] theorem State.modChain_pln (s : State) (c : Nat) (f : Chain → Chain) : (s.modChain c f).pln = s.pln := rfl
@[simp] theorem State.modChain_sie (s : State) (c : Nat) (f : Chain → Chain) : (s.modChain c f).sie = s.sie := rfl
@[simp] theorem State.modChain_toIslands (s : State) (c : Nat) (f : Chain → Chain) : (s.modChain c f).toIslands = s.toIslands := rfl
@[simp] theorem State.modChain_free (s : State) (c : Nat) (f : Chain → Chain) : (s.modChain c f).free = s.free := rfl
@[simp] theorem State.modChain_pending (s : State) (c : Nat) (f : Chain → Chain) : (s.modChain c f).pending = s.pending := rfl

/-! ### `State.modTable` -/

@[simp] theorem State.modTable_pins (s : State) (n : Nat) (f : KvTable → KvTable) : (s.modTable n f).pins = s.pins := rfl
@[simp] theorem State.modTable_host (s : State) (n : Nat) (f : KvTable → KvTable) : (s.modTable n f).host = s.host := rfl
@[simp] theorem State.modTable_fab (s : State) (n : Nat) (f : KvTable → KvTable) : (s.modTable n f).fab = s.fab := rfl
@[simp] theorem State.modTable_time (s : State) (n : Nat) (f : KvTable → KvTable) : (s.modTable n f).time = s.time := rfl
@[simp] theorem State.modTable_cal (s : State) (n : Nat) (f : KvTable → KvTable) : (s.modTable n f).cal = s.cal := rfl
@[simp] theorem State.modTable_tiles (s : State) (n : Nat) (f : KvTable → KvTable) : (s.modTable n f).tiles = s.tiles := rfl
@[simp] theorem State.modTable_pwr (s : State) (n : Nat) (f : KvTable → KvTable) : (s.modTable n f).pwr = s.pwr := rfl
@[simp] theorem State.modTable_qch (s : State) (n : Nat) (f : KvTable → KvTable) : (s.modTable n f).qch = s.qch := rfl
@[simp] theorem State.modTable_bu (s : State) (n : Nat) (f : KvTable → KvTable) : (s.modTable n f).bu = s.bu := rfl
@[simp] theorem State.modTable_so (s : State) (n : Nat) (f : KvTable → KvTable) : (s.modTable n f).so = s.so := rfl
@[simp] theorem State.modTable_sen (s : State) (n : Nat) (f : KvTable → KvTable) : (s.modTable n f).sen = s.sen := rfl
@[simp] theorem State.modTable_anv (s : State) (n : Nat) (f : KvTable → KvTable) : (s.modTable n f).anv = s.anv := rfl
@[simp] theorem State.modTable_pln (s : State) (n : Nat) (f : KvTable → KvTable) : (s.modTable n f).pln = s.pln := rfl
@[simp] theorem State.modTable_sie (s : State) (n : Nat) (f : KvTable → KvTable) : (s.modTable n f).sie = s.sie := rfl
@[simp] theorem State.modTable_toIslands (s : State) (n : Nat) (f : KvTable → KvTable) : (s.modTable n f).toIslands = s.toIslands := rfl
@[simp] theorem State.modTable_free (s : State) (n : Nat) (f : KvTable → KvTable) : (s.modTable n f).free = s.free := rfl
@[simp] theorem State.modTable_pending (s : State) (n : Nat) (f : KvTable → KvTable) : (s.modTable n f).pending = s.pending := rfl

/-! ### `State.modDvfs` -/

@[simp] theorem State.modDvfs_pins (s : State) (p : Nat) (f : Dvfs → Dvfs) : (s.modDvfs p f).pins = s.pins := rfl
@[simp] theorem State.modDvfs_host (s : State) (p : Nat) (f : Dvfs → Dvfs) : (s.modDvfs p f).host = s.host := rfl
@[simp] theorem State.modDvfs_fab (s : State) (p : Nat) (f : Dvfs → Dvfs) : (s.modDvfs p f).fab = s.fab := rfl
@[simp] theorem State.modDvfs_time (s : State) (p : Nat) (f : Dvfs → Dvfs) : (s.modDvfs p f).time = s.time := rfl
@[simp] theorem State.modDvfs_cal (s : State) (p : Nat) (f : Dvfs → Dvfs) : (s.modDvfs p f).cal = s.cal := rfl
@[simp] theorem State.modDvfs_tiles (s : State) (p : Nat) (f : Dvfs → Dvfs) : (s.modDvfs p f).tiles = s.tiles := rfl
@[simp] theorem State.modDvfs_kvt (s : State) (p : Nat) (f : Dvfs → Dvfs) : (s.modDvfs p f).kvt = s.kvt := rfl
@[simp] theorem State.modDvfs_qch (s : State) (p : Nat) (f : Dvfs → Dvfs) : (s.modDvfs p f).qch = s.qch := rfl
@[simp] theorem State.modDvfs_bu (s : State) (p : Nat) (f : Dvfs → Dvfs) : (s.modDvfs p f).bu = s.bu := rfl
@[simp] theorem State.modDvfs_so (s : State) (p : Nat) (f : Dvfs → Dvfs) : (s.modDvfs p f).so = s.so := rfl
@[simp] theorem State.modDvfs_sen (s : State) (p : Nat) (f : Dvfs → Dvfs) : (s.modDvfs p f).sen = s.sen := rfl
@[simp] theorem State.modDvfs_anv (s : State) (p : Nat) (f : Dvfs → Dvfs) : (s.modDvfs p f).anv = s.anv := rfl
@[simp] theorem State.modDvfs_pln (s : State) (p : Nat) (f : Dvfs → Dvfs) : (s.modDvfs p f).pln = s.pln := rfl
@[simp] theorem State.modDvfs_sie (s : State) (p : Nat) (f : Dvfs → Dvfs) : (s.modDvfs p f).sie = s.sie := rfl
@[simp] theorem State.modDvfs_toIslands (s : State) (p : Nat) (f : Dvfs → Dvfs) : (s.modDvfs p f).toIslands = s.toIslands := rfl
@[simp] theorem State.modDvfs_free (s : State) (p : Nat) (f : Dvfs → Dvfs) : (s.modDvfs p f).free = s.free := rfl
@[simp] theorem State.modDvfs_pending (s : State) (p : Nat) (f : Dvfs → Dvfs) : (s.modDvfs p f).pending = s.pending := rfl

/-! ### `State.modPort` -/

@[simp] theorem State.modPort_pins (s : State) (p : Nat) (f : DlfPort → DlfPort) : (s.modPort p f).pins = s.pins := rfl
@[simp] theorem State.modPort_host (s : State) (p : Nat) (f : DlfPort → DlfPort) : (s.modPort p f).host = s.host := rfl
@[simp] theorem State.modPort_fab (s : State) (p : Nat) (f : DlfPort → DlfPort) : (s.modPort p f).fab = s.fab := rfl
@[simp] theorem State.modPort_time (s : State) (p : Nat) (f : DlfPort → DlfPort) : (s.modPort p f).time = s.time := rfl
@[simp] theorem State.modPort_cal (s : State) (p : Nat) (f : DlfPort → DlfPort) : (s.modPort p f).cal = s.cal := rfl
@[simp] theorem State.modPort_tiles (s : State) (p : Nat) (f : DlfPort → DlfPort) : (s.modPort p f).tiles = s.tiles := rfl
@[simp] theorem State.modPort_kvt (s : State) (p : Nat) (f : DlfPort → DlfPort) : (s.modPort p f).kvt = s.kvt := rfl
@[simp] theorem State.modPort_pwr (s : State) (p : Nat) (f : DlfPort → DlfPort) : (s.modPort p f).pwr = s.pwr := rfl
@[simp] theorem State.modPort_qch (s : State) (p : Nat) (f : DlfPort → DlfPort) : (s.modPort p f).qch = s.qch := rfl
@[simp] theorem State.modPort_bu (s : State) (p : Nat) (f : DlfPort → DlfPort) : (s.modPort p f).bu = s.bu := rfl
@[simp] theorem State.modPort_sen (s : State) (p : Nat) (f : DlfPort → DlfPort) : (s.modPort p f).sen = s.sen := rfl
@[simp] theorem State.modPort_anv (s : State) (p : Nat) (f : DlfPort → DlfPort) : (s.modPort p f).anv = s.anv := rfl
@[simp] theorem State.modPort_pln (s : State) (p : Nat) (f : DlfPort → DlfPort) : (s.modPort p f).pln = s.pln := rfl
@[simp] theorem State.modPort_sie (s : State) (p : Nat) (f : DlfPort → DlfPort) : (s.modPort p f).sie = s.sie := rfl
@[simp] theorem State.modPort_toIslands (s : State) (p : Nat) (f : DlfPort → DlfPort) : (s.modPort p f).toIslands = s.toIslands := rfl
@[simp] theorem State.modPort_free (s : State) (p : Nat) (f : DlfPort → DlfPort) : (s.modPort p f).free = s.free := rfl
@[simp] theorem State.modPort_pending (s : State) (p : Nat) (f : DlfPort → DlfPort) : (s.modPort p f).pending = s.pending := rfl

/-! ### `State.modInj` -/

@[simp] theorem State.modInj_pins (s : State) (i : Nat) (f : Injector → Injector) : (s.modInj i f).pins = s.pins := rfl
@[simp] theorem State.modInj_host (s : State) (i : Nat) (f : Injector → Injector) : (s.modInj i f).host = s.host := rfl
@[simp] theorem State.modInj_time (s : State) (i : Nat) (f : Injector → Injector) : (s.modInj i f).time = s.time := rfl
@[simp] theorem State.modInj_cal (s : State) (i : Nat) (f : Injector → Injector) : (s.modInj i f).cal = s.cal := rfl
@[simp] theorem State.modInj_tiles (s : State) (i : Nat) (f : Injector → Injector) : (s.modInj i f).tiles = s.tiles := rfl
@[simp] theorem State.modInj_kvt (s : State) (i : Nat) (f : Injector → Injector) : (s.modInj i f).kvt = s.kvt := rfl
@[simp] theorem State.modInj_pwr (s : State) (i : Nat) (f : Injector → Injector) : (s.modInj i f).pwr = s.pwr := rfl
@[simp] theorem State.modInj_qch (s : State) (i : Nat) (f : Injector → Injector) : (s.modInj i f).qch = s.qch := rfl
@[simp] theorem State.modInj_bu (s : State) (i : Nat) (f : Injector → Injector) : (s.modInj i f).bu = s.bu := rfl
@[simp] theorem State.modInj_so (s : State) (i : Nat) (f : Injector → Injector) : (s.modInj i f).so = s.so := rfl
@[simp] theorem State.modInj_sen (s : State) (i : Nat) (f : Injector → Injector) : (s.modInj i f).sen = s.sen := rfl
@[simp] theorem State.modInj_anv (s : State) (i : Nat) (f : Injector → Injector) : (s.modInj i f).anv = s.anv := rfl
@[simp] theorem State.modInj_pln (s : State) (i : Nat) (f : Injector → Injector) : (s.modInj i f).pln = s.pln := rfl
@[simp] theorem State.modInj_sie (s : State) (i : Nat) (f : Injector → Injector) : (s.modInj i f).sie = s.sie := rfl
@[simp] theorem State.modInj_toIslands (s : State) (i : Nat) (f : Injector → Injector) : (s.modInj i f).toIslands = s.toIslands := rfl
@[simp] theorem State.modInj_free (s : State) (i : Nat) (f : Injector → Injector) : (s.modInj i f).free = s.free := rfl
@[simp] theorem State.modInj_pending (s : State) (i : Nat) (f : Injector → Injector) : (s.modInj i f).pending = s.pending := rfl
@[simp] theorem State.modInj_fab_mem (s : State) (i : Nat) (f : Injector → Injector) : (s.modInj i f).fab.mem = s.fab.mem := rfl
@[simp] theorem State.modInj_fab_lost (s : State) (i : Nat) (f : Injector → Injector) : (s.modInj i f).fab.lost = s.fab.lost := rfl
@[simp] theorem State.modInj_fab_poison (s : State) (i : Nat) (f : Injector → Injector) : (s.modInj i f).fab.poison = s.fab.poison := rfl
@[simp] theorem State.modInj_fab_symErr (s : State) (i : Nat) (f : Injector → Injector) : (s.modInj i f).fab.symErr = s.fab.symErr := rfl
@[simp] theorem State.modInj_fab_net (s : State) (i : Nat) (f : Injector → Injector) : (s.modInj i f).fab.net = s.fab.net := rfl
@[simp] theorem State.modInj_fab_drm (s : State) (i : Nat) (f : Injector → Injector) : (s.modInj i f).fab.drm = s.fab.drm := rfl
@[simp] theorem State.modInj_fab_mir (s : State) (i : Nat) (f : Injector → Injector) : (s.modInj i f).fab.mir = s.fab.mir := rfl
@[simp] theorem State.modInj_fab_edges (s : State) (i : Nat) (f : Injector → Injector) : (s.modInj i f).fab.edges = s.fab.edges := rfl
@[simp] theorem State.modInj_fab_groups (s : State) (i : Nat) (f : Injector → Injector) : (s.modInj i f).fab.groups = s.fab.groups := rfl
@[simp] theorem State.modInj_fab_routes (s : State) (i : Nat) (f : Injector → Injector) : (s.modInj i f).fab.routes = s.fab.routes := rfl
@[simp] theorem State.modInj_fab_qos (s : State) (i : Nat) (f : Injector → Injector) : (s.modInj i f).fab.qos = s.fab.qos := rfl
@[simp] theorem State.modInj_fab_hdma (s : State) (i : Nat) (f : Injector → Injector) : (s.modInj i f).fab.hdma = s.fab.hdma := rfl
@[simp] theorem State.modInj_fab_clk (s : State) (i : Nat) (f : Injector → Injector) : (s.modInj i f).fab.clk = s.fab.clk := rfl
@[simp] theorem State.modInj_fab_clkFaults (s : State) (i : Nat) (f : Injector → Injector) : (s.modInj i f).fab.clkFaults = s.fab.clkFaults := rfl
@[simp] theorem State.modInj_fab_ldl (s : State) (i : Nat) (f : Injector → Injector) : (s.modInj i f).fab.ldl = s.fab.ldl := rfl
@[simp] theorem State.modInj_fab_dieReset (s : State) (i : Nat) (f : Injector → Injector) : (s.modInj i f).fab.dieReset = s.fab.dieReset := rfl
@[simp] theorem State.modInj_fab_transitDown (s : State) (i : Nat) (f : Injector → Injector) : (s.modInj i f).fab.transitDown = s.fab.transitDown := rfl
@[simp] theorem State.modInj_fab_absorbs (s : State) (i : Nat) (f : Injector → Injector) : (s.modInj i f).fab.absorbs = s.fab.absorbs := rfl

/-! ### `State.modRegion` -/

@[simp] theorem State.modRegion_pins (s : State) (i : Nat) (f : MirRegion → MirRegion) : (s.modRegion i f).pins = s.pins := rfl
@[simp] theorem State.modRegion_host (s : State) (i : Nat) (f : MirRegion → MirRegion) : (s.modRegion i f).host = s.host := rfl
@[simp] theorem State.modRegion_time (s : State) (i : Nat) (f : MirRegion → MirRegion) : (s.modRegion i f).time = s.time := rfl
@[simp] theorem State.modRegion_cal (s : State) (i : Nat) (f : MirRegion → MirRegion) : (s.modRegion i f).cal = s.cal := rfl
@[simp] theorem State.modRegion_tiles (s : State) (i : Nat) (f : MirRegion → MirRegion) : (s.modRegion i f).tiles = s.tiles := rfl
@[simp] theorem State.modRegion_kvt (s : State) (i : Nat) (f : MirRegion → MirRegion) : (s.modRegion i f).kvt = s.kvt := rfl
@[simp] theorem State.modRegion_pwr (s : State) (i : Nat) (f : MirRegion → MirRegion) : (s.modRegion i f).pwr = s.pwr := rfl
@[simp] theorem State.modRegion_qch (s : State) (i : Nat) (f : MirRegion → MirRegion) : (s.modRegion i f).qch = s.qch := rfl
@[simp] theorem State.modRegion_bu (s : State) (i : Nat) (f : MirRegion → MirRegion) : (s.modRegion i f).bu = s.bu := rfl
@[simp] theorem State.modRegion_so (s : State) (i : Nat) (f : MirRegion → MirRegion) : (s.modRegion i f).so = s.so := rfl
@[simp] theorem State.modRegion_sen (s : State) (i : Nat) (f : MirRegion → MirRegion) : (s.modRegion i f).sen = s.sen := rfl
@[simp] theorem State.modRegion_anv (s : State) (i : Nat) (f : MirRegion → MirRegion) : (s.modRegion i f).anv = s.anv := rfl
@[simp] theorem State.modRegion_pln (s : State) (i : Nat) (f : MirRegion → MirRegion) : (s.modRegion i f).pln = s.pln := rfl
@[simp] theorem State.modRegion_sie (s : State) (i : Nat) (f : MirRegion → MirRegion) : (s.modRegion i f).sie = s.sie := rfl
@[simp] theorem State.modRegion_toIslands (s : State) (i : Nat) (f : MirRegion → MirRegion) : (s.modRegion i f).toIslands = s.toIslands := rfl
@[simp] theorem State.modRegion_free (s : State) (i : Nat) (f : MirRegion → MirRegion) : (s.modRegion i f).free = s.free := rfl
@[simp] theorem State.modRegion_pending (s : State) (i : Nat) (f : MirRegion → MirRegion) : (s.modRegion i f).pending = s.pending := rfl
@[simp] theorem State.modRegion_fab_mem (s : State) (i : Nat) (f : MirRegion → MirRegion) : (s.modRegion i f).fab.mem = s.fab.mem := rfl
@[simp] theorem State.modRegion_fab_lost (s : State) (i : Nat) (f : MirRegion → MirRegion) : (s.modRegion i f).fab.lost = s.fab.lost := rfl
@[simp] theorem State.modRegion_fab_poison (s : State) (i : Nat) (f : MirRegion → MirRegion) : (s.modRegion i f).fab.poison = s.fab.poison := rfl
@[simp] theorem State.modRegion_fab_symErr (s : State) (i : Nat) (f : MirRegion → MirRegion) : (s.modRegion i f).fab.symErr = s.fab.symErr := rfl
@[simp] theorem State.modRegion_fab_net (s : State) (i : Nat) (f : MirRegion → MirRegion) : (s.modRegion i f).fab.net = s.fab.net := rfl
@[simp] theorem State.modRegion_fab_drm (s : State) (i : Nat) (f : MirRegion → MirRegion) : (s.modRegion i f).fab.drm = s.fab.drm := rfl
@[simp] theorem State.modRegion_fab_edges (s : State) (i : Nat) (f : MirRegion → MirRegion) : (s.modRegion i f).fab.edges = s.fab.edges := rfl
@[simp] theorem State.modRegion_fab_groups (s : State) (i : Nat) (f : MirRegion → MirRegion) : (s.modRegion i f).fab.groups = s.fab.groups := rfl
@[simp] theorem State.modRegion_fab_routes (s : State) (i : Nat) (f : MirRegion → MirRegion) : (s.modRegion i f).fab.routes = s.fab.routes := rfl
@[simp] theorem State.modRegion_fab_qos (s : State) (i : Nat) (f : MirRegion → MirRegion) : (s.modRegion i f).fab.qos = s.fab.qos := rfl
@[simp] theorem State.modRegion_fab_inj (s : State) (i : Nat) (f : MirRegion → MirRegion) : (s.modRegion i f).fab.inj = s.fab.inj := rfl
@[simp] theorem State.modRegion_fab_hdma (s : State) (i : Nat) (f : MirRegion → MirRegion) : (s.modRegion i f).fab.hdma = s.fab.hdma := rfl
@[simp] theorem State.modRegion_fab_clk (s : State) (i : Nat) (f : MirRegion → MirRegion) : (s.modRegion i f).fab.clk = s.fab.clk := rfl
@[simp] theorem State.modRegion_fab_clkFaults (s : State) (i : Nat) (f : MirRegion → MirRegion) : (s.modRegion i f).fab.clkFaults = s.fab.clkFaults := rfl
@[simp] theorem State.modRegion_fab_ldl (s : State) (i : Nat) (f : MirRegion → MirRegion) : (s.modRegion i f).fab.ldl = s.fab.ldl := rfl
@[simp] theorem State.modRegion_fab_dieReset (s : State) (i : Nat) (f : MirRegion → MirRegion) : (s.modRegion i f).fab.dieReset = s.fab.dieReset := rfl
@[simp] theorem State.modRegion_fab_transitDown (s : State) (i : Nat) (f : MirRegion → MirRegion) : (s.modRegion i f).fab.transitDown = s.fab.transitDown := rfl
@[simp] theorem State.modRegion_fab_absorbs (s : State) (i : Nat) (f : MirRegion → MirRegion) : (s.modRegion i f).fab.absorbs = s.fab.absorbs := rfl

/-! ### `State.modBar` -/

@[simp] theorem State.modBar_pins (s : State) (g : Nat) (f : BarGroup → BarGroup) : (s.modBar g f).pins = s.pins := rfl
@[simp] theorem State.modBar_host (s : State) (g : Nat) (f : BarGroup → BarGroup) : (s.modBar g f).host = s.host := rfl
@[simp] theorem State.modBar_fab (s : State) (g : Nat) (f : BarGroup → BarGroup) : (s.modBar g f).fab = s.fab := rfl
@[simp] theorem State.modBar_time (s : State) (g : Nat) (f : BarGroup → BarGroup) : (s.modBar g f).time = s.time := rfl
@[simp] theorem State.modBar_cal (s : State) (g : Nat) (f : BarGroup → BarGroup) : (s.modBar g f).cal = s.cal := rfl
@[simp] theorem State.modBar_tiles (s : State) (g : Nat) (f : BarGroup → BarGroup) : (s.modBar g f).tiles = s.tiles := rfl
@[simp] theorem State.modBar_kvt (s : State) (g : Nat) (f : BarGroup → BarGroup) : (s.modBar g f).kvt = s.kvt := rfl
@[simp] theorem State.modBar_pwr (s : State) (g : Nat) (f : BarGroup → BarGroup) : (s.modBar g f).pwr = s.pwr := rfl
@[simp] theorem State.modBar_qch (s : State) (g : Nat) (f : BarGroup → BarGroup) : (s.modBar g f).qch = s.qch := rfl
@[simp] theorem State.modBar_bu (s : State) (g : Nat) (f : BarGroup → BarGroup) : (s.modBar g f).bu = s.bu := rfl
@[simp] theorem State.modBar_sen (s : State) (g : Nat) (f : BarGroup → BarGroup) : (s.modBar g f).sen = s.sen := rfl
@[simp] theorem State.modBar_anv (s : State) (g : Nat) (f : BarGroup → BarGroup) : (s.modBar g f).anv = s.anv := rfl
@[simp] theorem State.modBar_pln (s : State) (g : Nat) (f : BarGroup → BarGroup) : (s.modBar g f).pln = s.pln := rfl
@[simp] theorem State.modBar_sie (s : State) (g : Nat) (f : BarGroup → BarGroup) : (s.modBar g f).sie = s.sie := rfl
@[simp] theorem State.modBar_toIslands (s : State) (g : Nat) (f : BarGroup → BarGroup) : (s.modBar g f).toIslands = s.toIslands := rfl
@[simp] theorem State.modBar_free (s : State) (g : Nat) (f : BarGroup → BarGroup) : (s.modBar g f).free = s.free := rfl
@[simp] theorem State.modBar_pending (s : State) (g : Nat) (f : BarGroup → BarGroup) : (s.modBar g f).pending = s.pending := rfl

/-! ### `State.modIsl` -/

@[simp] theorem State.modIsl_pins (s : State) (i : Nat) (f : Island → Island) : (s.modIsl i f).pins = s.pins := rfl
@[simp] theorem State.modIsl_host (s : State) (i : Nat) (f : Island → Island) : (s.modIsl i f).host = s.host := rfl
@[simp] theorem State.modIsl_fab (s : State) (i : Nat) (f : Island → Island) : (s.modIsl i f).fab = s.fab := rfl
@[simp] theorem State.modIsl_time (s : State) (i : Nat) (f : Island → Island) : (s.modIsl i f).time = s.time := rfl
@[simp] theorem State.modIsl_cal (s : State) (i : Nat) (f : Island → Island) : (s.modIsl i f).cal = s.cal := rfl
@[simp] theorem State.modIsl_tiles (s : State) (i : Nat) (f : Island → Island) : (s.modIsl i f).tiles = s.tiles := rfl
@[simp] theorem State.modIsl_kvt (s : State) (i : Nat) (f : Island → Island) : (s.modIsl i f).kvt = s.kvt := rfl
@[simp] theorem State.modIsl_pwr (s : State) (i : Nat) (f : Island → Island) : (s.modIsl i f).pwr = s.pwr := rfl
@[simp] theorem State.modIsl_qch (s : State) (i : Nat) (f : Island → Island) : (s.modIsl i f).qch = s.qch := rfl
@[simp] theorem State.modIsl_bu (s : State) (i : Nat) (f : Island → Island) : (s.modIsl i f).bu = s.bu := rfl
@[simp] theorem State.modIsl_so (s : State) (i : Nat) (f : Island → Island) : (s.modIsl i f).so = s.so := rfl
@[simp] theorem State.modIsl_sen (s : State) (i : Nat) (f : Island → Island) : (s.modIsl i f).sen = s.sen := rfl
@[simp] theorem State.modIsl_pln (s : State) (i : Nat) (f : Island → Island) : (s.modIsl i f).pln = s.pln := rfl
@[simp] theorem State.modIsl_sie (s : State) (i : Nat) (f : Island → Island) : (s.modIsl i f).sie = s.sie := rfl
@[simp] theorem State.modIsl_toIslands (s : State) (i : Nat) (f : Island → Island) : (s.modIsl i f).toIslands = s.toIslands := rfl
@[simp] theorem State.modIsl_free (s : State) (i : Nat) (f : Island → Island) : (s.modIsl i f).free = s.free := rfl
@[simp] theorem State.modIsl_pending (s : State) (i : Nat) (f : Island → Island) : (s.modIsl i f).pending = s.pending := rfl

/-! ### `State.modCsi` -/

@[simp] theorem State.modCsi_pins (s : State) (n : Nat) (f : CsiPort → CsiPort) : (s.modCsi n f).pins = s.pins := rfl
@[simp] theorem State.modCsi_host (s : State) (n : Nat) (f : CsiPort → CsiPort) : (s.modCsi n f).host = s.host := rfl
@[simp] theorem State.modCsi_fab (s : State) (n : Nat) (f : CsiPort → CsiPort) : (s.modCsi n f).fab = s.fab := rfl
@[simp] theorem State.modCsi_time (s : State) (n : Nat) (f : CsiPort → CsiPort) : (s.modCsi n f).time = s.time := rfl
@[simp] theorem State.modCsi_cal (s : State) (n : Nat) (f : CsiPort → CsiPort) : (s.modCsi n f).cal = s.cal := rfl
@[simp] theorem State.modCsi_tiles (s : State) (n : Nat) (f : CsiPort → CsiPort) : (s.modCsi n f).tiles = s.tiles := rfl
@[simp] theorem State.modCsi_kvt (s : State) (n : Nat) (f : CsiPort → CsiPort) : (s.modCsi n f).kvt = s.kvt := rfl
@[simp] theorem State.modCsi_pwr (s : State) (n : Nat) (f : CsiPort → CsiPort) : (s.modCsi n f).pwr = s.pwr := rfl
@[simp] theorem State.modCsi_qch (s : State) (n : Nat) (f : CsiPort → CsiPort) : (s.modCsi n f).qch = s.qch := rfl
@[simp] theorem State.modCsi_bu (s : State) (n : Nat) (f : CsiPort → CsiPort) : (s.modCsi n f).bu = s.bu := rfl
@[simp] theorem State.modCsi_so (s : State) (n : Nat) (f : CsiPort → CsiPort) : (s.modCsi n f).so = s.so := rfl
@[simp] theorem State.modCsi_anv (s : State) (n : Nat) (f : CsiPort → CsiPort) : (s.modCsi n f).anv = s.anv := rfl
@[simp] theorem State.modCsi_pln (s : State) (n : Nat) (f : CsiPort → CsiPort) : (s.modCsi n f).pln = s.pln := rfl
@[simp] theorem State.modCsi_sie (s : State) (n : Nat) (f : CsiPort → CsiPort) : (s.modCsi n f).sie = s.sie := rfl
@[simp] theorem State.modCsi_toIslands (s : State) (n : Nat) (f : CsiPort → CsiPort) : (s.modCsi n f).toIslands = s.toIslands := rfl
@[simp] theorem State.modCsi_free (s : State) (n : Nat) (f : CsiPort → CsiPort) : (s.modCsi n f).free = s.free := rfl
@[simp] theorem State.modCsi_pending (s : State) (n : Nat) (f : CsiPort → CsiPort) : (s.modCsi n f).pending = s.pending := rfl

/-! ### `State.modEth` -/

@[simp] theorem State.modEth_pins (s : State) (m : Nat) (f : EthMac → EthMac) : (s.modEth m f).pins = s.pins := rfl
@[simp] theorem State.modEth_host (s : State) (m : Nat) (f : EthMac → EthMac) : (s.modEth m f).host = s.host := rfl
@[simp] theorem State.modEth_fab (s : State) (m : Nat) (f : EthMac → EthMac) : (s.modEth m f).fab = s.fab := rfl
@[simp] theorem State.modEth_time (s : State) (m : Nat) (f : EthMac → EthMac) : (s.modEth m f).time = s.time := rfl
@[simp] theorem State.modEth_cal (s : State) (m : Nat) (f : EthMac → EthMac) : (s.modEth m f).cal = s.cal := rfl
@[simp] theorem State.modEth_tiles (s : State) (m : Nat) (f : EthMac → EthMac) : (s.modEth m f).tiles = s.tiles := rfl
@[simp] theorem State.modEth_kvt (s : State) (m : Nat) (f : EthMac → EthMac) : (s.modEth m f).kvt = s.kvt := rfl
@[simp] theorem State.modEth_pwr (s : State) (m : Nat) (f : EthMac → EthMac) : (s.modEth m f).pwr = s.pwr := rfl
@[simp] theorem State.modEth_qch (s : State) (m : Nat) (f : EthMac → EthMac) : (s.modEth m f).qch = s.qch := rfl
@[simp] theorem State.modEth_bu (s : State) (m : Nat) (f : EthMac → EthMac) : (s.modEth m f).bu = s.bu := rfl
@[simp] theorem State.modEth_so (s : State) (m : Nat) (f : EthMac → EthMac) : (s.modEth m f).so = s.so := rfl
@[simp] theorem State.modEth_anv (s : State) (m : Nat) (f : EthMac → EthMac) : (s.modEth m f).anv = s.anv := rfl
@[simp] theorem State.modEth_pln (s : State) (m : Nat) (f : EthMac → EthMac) : (s.modEth m f).pln = s.pln := rfl
@[simp] theorem State.modEth_sie (s : State) (m : Nat) (f : EthMac → EthMac) : (s.modEth m f).sie = s.sie := rfl
@[simp] theorem State.modEth_toIslands (s : State) (m : Nat) (f : EthMac → EthMac) : (s.modEth m f).toIslands = s.toIslands := rfl
@[simp] theorem State.modEth_free (s : State) (m : Nat) (f : EthMac → EthMac) : (s.modEth m f).free = s.free := rfl
@[simp] theorem State.modEth_pending (s : State) (m : Nat) (f : EthMac → EthMac) : (s.modEth m f).pending = s.pending := rfl

/-! ### `State.modSlot` -/

@[simp] theorem State.modSlot_pins (s : State) (k : Nat) (f : TraySlot → TraySlot) : (s.modSlot k f).pins = s.pins := rfl
@[simp] theorem State.modSlot_host (s : State) (k : Nat) (f : TraySlot → TraySlot) : (s.modSlot k f).host = s.host := rfl
@[simp] theorem State.modSlot_fab (s : State) (k : Nat) (f : TraySlot → TraySlot) : (s.modSlot k f).fab = s.fab := rfl
@[simp] theorem State.modSlot_time (s : State) (k : Nat) (f : TraySlot → TraySlot) : (s.modSlot k f).time = s.time := rfl
@[simp] theorem State.modSlot_cal (s : State) (k : Nat) (f : TraySlot → TraySlot) : (s.modSlot k f).cal = s.cal := rfl
@[simp] theorem State.modSlot_tiles (s : State) (k : Nat) (f : TraySlot → TraySlot) : (s.modSlot k f).tiles = s.tiles := rfl
@[simp] theorem State.modSlot_kvt (s : State) (k : Nat) (f : TraySlot → TraySlot) : (s.modSlot k f).kvt = s.kvt := rfl
@[simp] theorem State.modSlot_pwr (s : State) (k : Nat) (f : TraySlot → TraySlot) : (s.modSlot k f).pwr = s.pwr := rfl
@[simp] theorem State.modSlot_qch (s : State) (k : Nat) (f : TraySlot → TraySlot) : (s.modSlot k f).qch = s.qch := rfl
@[simp] theorem State.modSlot_bu (s : State) (k : Nat) (f : TraySlot → TraySlot) : (s.modSlot k f).bu = s.bu := rfl
@[simp] theorem State.modSlot_so (s : State) (k : Nat) (f : TraySlot → TraySlot) : (s.modSlot k f).so = s.so := rfl
@[simp] theorem State.modSlot_anv (s : State) (k : Nat) (f : TraySlot → TraySlot) : (s.modSlot k f).anv = s.anv := rfl
@[simp] theorem State.modSlot_pln (s : State) (k : Nat) (f : TraySlot → TraySlot) : (s.modSlot k f).pln = s.pln := rfl
@[simp] theorem State.modSlot_sie (s : State) (k : Nat) (f : TraySlot → TraySlot) : (s.modSlot k f).sie = s.sie := rfl
@[simp] theorem State.modSlot_toIslands (s : State) (k : Nat) (f : TraySlot → TraySlot) : (s.modSlot k f).toIslands = s.toIslands := rfl
@[simp] theorem State.modSlot_free (s : State) (k : Nat) (f : TraySlot → TraySlot) : (s.modSlot k f).free = s.free := rfl
@[simp] theorem State.modSlot_pending (s : State) (k : Nat) (f : TraySlot → TraySlot) : (s.modSlot k f).pending = s.pending := rfl

/-! ### `State.took` -/

@[simp] theorem State.took_pins (s : State) : (s.took).pins = s.pins := rfl
@[simp] theorem State.took_host (s : State) : (s.took).host = s.host := rfl
@[simp] theorem State.took_fab (s : State) : (s.took).fab = s.fab := rfl
@[simp] theorem State.took_time (s : State) : (s.took).time = s.time := rfl
@[simp] theorem State.took_cal (s : State) : (s.took).cal = s.cal := rfl
@[simp] theorem State.took_tiles (s : State) : (s.took).tiles = s.tiles := rfl
@[simp] theorem State.took_kvt (s : State) : (s.took).kvt = s.kvt := rfl
@[simp] theorem State.took_pwr (s : State) : (s.took).pwr = s.pwr := rfl
@[simp] theorem State.took_qch (s : State) : (s.took).qch = s.qch := rfl
@[simp] theorem State.took_bu (s : State) : (s.took).bu = s.bu := rfl
@[simp] theorem State.took_so (s : State) : (s.took).so = s.so := rfl
@[simp] theorem State.took_sen (s : State) : (s.took).sen = s.sen := rfl
@[simp] theorem State.took_anv (s : State) : (s.took).anv = s.anv := rfl
@[simp] theorem State.took_pln (s : State) : (s.took).pln = s.pln := rfl
@[simp] theorem State.took_sie (s : State) : (s.took).sie = s.sie := rfl
@[simp] theorem State.took_toIslands (s : State) : (s.took).toIslands = s.toIslands := rfl
@[simp] theorem State.took_pending (s : State) : (s.took).pending = s.pending := rfl

/-! ### `State.advance` -/

@[simp] theorem State.advance_pins (s : State) (now : Nat) : (s.advance now).pins = s.pins := by unfold State.advance; split <;> rfl
@[simp] theorem State.advance_host (s : State) (now : Nat) : (s.advance now).host = s.host := by unfold State.advance; split <;> rfl
@[simp] theorem State.advance_fab (s : State) (now : Nat) : (s.advance now).fab = s.fab := by unfold State.advance; split <;> rfl
@[simp] theorem State.advance_cal (s : State) (now : Nat) : (s.advance now).cal = s.cal := by unfold State.advance; split <;> rfl
@[simp] theorem State.advance_tiles (s : State) (now : Nat) : (s.advance now).tiles = s.tiles := by unfold State.advance; split <;> rfl
@[simp] theorem State.advance_kvt (s : State) (now : Nat) : (s.advance now).kvt = s.kvt := by unfold State.advance; split <;> rfl
@[simp] theorem State.advance_pwr (s : State) (now : Nat) : (s.advance now).pwr = s.pwr := by unfold State.advance; split <;> rfl
@[simp] theorem State.advance_qch (s : State) (now : Nat) : (s.advance now).qch = s.qch := by unfold State.advance; split <;> rfl
@[simp] theorem State.advance_bu (s : State) (now : Nat) : (s.advance now).bu = s.bu := by unfold State.advance; split <;> rfl
@[simp] theorem State.advance_so (s : State) (now : Nat) : (s.advance now).so = s.so := by unfold State.advance; split <;> rfl
@[simp] theorem State.advance_sen (s : State) (now : Nat) : (s.advance now).sen = s.sen := by unfold State.advance; split <;> rfl
@[simp] theorem State.advance_anv (s : State) (now : Nat) : (s.advance now).anv = s.anv := by unfold State.advance; split <;> rfl
@[simp] theorem State.advance_pln (s : State) (now : Nat) : (s.advance now).pln = s.pln := by unfold State.advance; split <;> rfl
@[simp] theorem State.advance_sie (s : State) (now : Nat) : (s.advance now).sie = s.sie := by unfold State.advance; split <;> rfl
@[simp] theorem State.advance_toIslands (s : State) (now : Nat) : (s.advance now).toIslands = s.toIslands := by unfold State.advance; split <;> rfl
@[simp] theorem State.advance_free (s : State) (now : Nat) : (s.advance now).free = s.free := by unfold State.advance; split <;> rfl
@[simp] theorem State.advance_pending (s : State) (now : Nat) : (s.advance now).pending = s.pending := by unfold State.advance; split <;> rfl

/-! ### The register read in each update -/

theorem State.modMbx_get (s : State) (n m : Nat) (f : Mbox → Mbox) :
    (s.modMbx n f).host.mbx.get m = if n = m then f (s.host.mbx.get n) else s.host.mbx.get m := Tab.get_modify _ _ _ _
theorem State.modDrm_get (s : State) (n m : Nat) (f : Dram → Dram) :
    (s.modDrm n f).fab.drm.get m = if n = m then f (s.fab.drm.get n) else s.fab.drm.get m := Tab.get_modify _ _ _ _
theorem State.modEdge_get (s : State) (n m : Nat) (f : Edge → Edge) :
    (s.modEdge n f).fab.edges.get m = if n = m then f (s.fab.edges.get n) else s.fab.edges.get m := Tab.get_modify _ _ _ _
theorem State.modGroup_get (s : State) (n m : Nat) (f : EGroup → EGroup) :
    (s.modGroup n f).fab.groups.get m = if n = m then f (s.fab.groups.get n) else s.fab.groups.get m := Tab.get_modify _ _ _ _
theorem State.modLdl_get (s : State) (n m : Nat) (f : Ladle → Ladle) :
    (s.modLdl n f).fab.ldl.get m = if n = m then f (s.fab.ldl.get n) else s.fab.ldl.get m := Tab.get_modify _ _ _ _
theorem State.modChain_get (s : State) (n m : Nat) (f : Chain → Chain) :
    (s.modChain n f).cal.chains.get m = if n = m then f (s.cal.chains.get n) else s.cal.chains.get m := Tab.get_modify _ _ _ _
theorem State.modTable_get (s : State) (n m : Nat) (f : KvTable → KvTable) :
    (s.modTable n f).kvt.tables.get m = if n = m then f (s.kvt.tables.get n) else s.kvt.tables.get m := Tab.get_modify _ _ _ _
theorem State.modDvfs_get (s : State) (n m : Nat) (f : Dvfs → Dvfs) :
    (s.modDvfs n f).pwr.tiles.get m = if n = m then f (s.pwr.tiles.get n) else s.pwr.tiles.get m := Tab.get_modify _ _ _ _
theorem State.modPort_get (s : State) (n m : Nat) (f : DlfPort → DlfPort) :
    (s.modPort n f).so.ports.get m = if n = m then f (s.so.ports.get n) else s.so.ports.get m := Tab.get_modify _ _ _ _
theorem State.modInj_get (s : State) (n m : Nat) (f : Injector → Injector) :
    (s.modInj n f).fab.inj.get m = if n = m then f (s.fab.inj.get n) else s.fab.inj.get m := Tab.get_modify _ _ _ _
theorem State.modRegion_get (s : State) (n m : Nat) (f : MirRegion → MirRegion) :
    (s.modRegion n f).fab.mir.regions.get m = if n = m then f (s.fab.mir.regions.get n) else s.fab.mir.regions.get m := Tab.get_modify _ _ _ _
theorem State.modBar_get (s : State) (n m : Nat) (f : BarGroup → BarGroup) :
    (s.modBar n f).so.bars.get m = if n = m then f (s.so.bars.get n) else s.so.bars.get m := Tab.get_modify _ _ _ _
theorem State.modIsl_get (s : State) (n m : Nat) (f : Island → Island) :
    (s.modIsl n f).anv.isl.get m = if n = m then f (s.anv.isl.get n) else s.anv.isl.get m := Tab.get_modify _ _ _ _
theorem State.modCsi_get (s : State) (n m : Nat) (f : CsiPort → CsiPort) :
    (s.modCsi n f).sen.csi.get m = if n = m then f (s.sen.csi.get n) else s.sen.csi.get m := Tab.get_modify _ _ _ _
theorem State.modEth_get (s : State) (n m : Nat) (f : EthMac → EthMac) :
    (s.modEth n f).sen.eth.get m = if n = m then f (s.sen.eth.get n) else s.sen.eth.get m := Tab.get_modify _ _ _ _
theorem State.modSlot_get (s : State) (n m : Nat) (f : TraySlot → TraySlot) :
    (s.modSlot n f).sen.tray.slots.get m = if n = m then f (s.sen.tray.slots.get n) else s.sen.tray.slots.get m := Tab.get_modify _ _ _ _

end Sys2Proof.Machine
end

