-- ==== Sys2Proof/Laws/Ops.lean ====
section
/-! SUPPORT. What the shared operations over memory and events do: the canonical form is kept, and an event changes the event state only. -/

namespace Sys2Proof.Machine

/-- Raising an event changes only what events change, gives the event the next number, and keeps the memories and the buffer's bound. -/
theorem raiseEvent_spec (s : State) (code aux : Nat) (pay : List Nat) :
    let t := raiseEvent s code aux pay
    t = { s with host := t.host } ∧ EventsOnly s t ∧ Raised s t code aux pay ∧
    (MemoryOk s → MemoryOk t) ∧ (EventsOk s → EventsOk t) := by
  simp only [raiseEvent]
  split
  · rename_i h
    refine ⟨rfl, ⟨rfl, fun _ _ => rfl, rfl, rfl, fun _ _ => rfl⟩, ⟨rfl, fun _ => rfl⟩, id, fun _ => ?_⟩
    simp [EventsOk]; omega
  · rename_i h
    obtain ⟨h1, h2, h3, h4⟩ := setInt_spec
      { s with host.evt := { s.host.evt with eseq := s.host.evt.eseq + 1, dropCnt := cnt s.host.evt.dropCnt 1, lost := s.host.evt.lost + 1 } } 8 (by omega)
    refine ⟨by rw [h1], ⟨by rw [h1], fun i hi => ?_, by rw [h1], by rw [h1], h3⟩, ⟨by rw [h1], fun hb => absurd hb h⟩, fun hm => ?_, fun he => ?_⟩
    · rw [h2]; simp [Ne.symm hi]
    · exact ⟨h4 hm.1, by rw [h1]; exact hm.2⟩
    · rw [h1]; exact he

theorem hostPut_memoryOk (s : State) (a : Nat) (bs : List Byte) (b : Bool) (h : MemoryOk s) : MemoryOk (hostPut s a bs b) :=
  ⟨Memory.wf_write _ _ _ h.1, h.2⟩

theorem markPoison_memoryOk (s : State) (a n g : Nat) (h : MemoryOk s) : MemoryOk (markPoison s a n g) := h

theorem hubWrite_memoryOk (s : State) (a : Nat) (bs : List Byte) (b : Bool) (h : MemoryOk s) : MemoryOk (hubWrite s a bs b) := by
  unfold hubWrite
  simp only
  split <;> exact ⟨h.1, Memory.wf_write _ _ _ h.2⟩

theorem sramWrite_memoryOk (s : State) (p off : Nat) (bs : List Byte) (b : Bool) (h : MemoryOk s) : MemoryOk (sramWrite s p off bs b) := by
  unfold sramWrite
  simp only
  split <;> exact ⟨h.1, Memory.wf_write _ _ _ h.2⟩

theorem dramUncorrectable_memoryOk (s : State) (d a c k src : Nat) (h : MemoryOk s) : MemoryOk (dramUncorrectable s d a c k src) :=
  (raiseEvent_spec _ _ _ _).2.2.2.1 h

theorem dramBeat_memoryOk (s : State) (d src b : Nat) (h : MemoryOk s) : MemoryOk (dramBeat s d src b).1 := by
  unfold dramBeat
  simp only
  split
  · exact h
  · split
    · exact h
    · exact h
    · exact dramUncorrectable_memoryOk _ _ _ _ _ _ h
    · split
      · exact dramUncorrectable_memoryOk _ _ _ _ _ _ h
      · exact ⟨h.1, Memory.wf_write _ _ _ h.2⟩

/-- A fold over states keeps what each of its steps keeps. -/
theorem foldl_keeps {α β : Type} (P : β → Prop) (f : β → α → β) (hf : ∀ b a, P b → P (f b a)) (l : List α) (b : β) (h : P b) : P (l.foldl f b) := by
  induction l generalizing b with
  | nil => exact h
  | cons a l ih => exact ih _ (hf b a h)

theorem dramRead_memoryOk (s : State) (src a n : Nat) (h : MemoryOk s) : MemoryOk (dramRead s src a n).1 := by
  unfold dramRead
  refine foldl_keeps (fun x : State × Bool => MemoryOk x.1) _ (fun x y hx => ?_) (beatsOf a n) (s, false) h
  exact dramBeat_memoryOk x.1 _ _ y hx

theorem dramWrite_memoryOk (s : State) (src a : Nat) (bs : List Byte) (b : Bool) (h : MemoryOk s) : MemoryOk (dramWrite s src a bs b).1 := by
  unfold dramWrite
  simp only
  generalize hr : List.foldl _ (s, ([] : List Nat)) _ = r
  have h1 : MemoryOk r.1 := by
    subst hr
    refine foldl_keeps (fun x : State × List Nat => MemoryOk x.1) _ (fun x y hx => ?_) _ _ h
    split
    · exact hx
    · exact dramBeat_memoryOk _ _ _ _ hx
  have h2 : MemoryOk { r.1 with fab.mem := r.1.fab.mem.write a bs, fab.lost := carve r.1.fab.lost a (a + bs.length) } :=
    ⟨h1.1, Memory.wf_write _ _ _ h1.2⟩
  have h3 : ∀ l : List Nat, ∀ u : State, MemoryOk u → MemoryOk (l.foldl (fun s b => clearSymbols (markPoison s (b * 32) 32 32) b 1) u) :=
    by
    intro l u hu
    refine foldl_keeps MemoryOk _ (fun v b hv => ?_) l u hu
    exact hv
  split <;> exact h3 _ _ h2

/-- Poison is undisturbed and words without errors are read as they are (R49). -/
theorem sramRead_clean (s : State) (p off n : Nat) (h : CleanSram s p off n) :
    sramRead s p off n = (s, s.fab.mem.readN (tileWindow p + off) n, false, false) := by
  obtain ⟨h1, h2⟩ := h
  have hz : ∀ x ∈ (wordsOf off n).map (s.tiles.get p).symErr.get, x = 0 := by
    intro x hx
    obtain ⟨w, hw, rfl⟩ := List.mem_map.1 hx
    exact h2 w hw
  have hce : ((wordsOf off n).map (s.tiles.get p).symErr.get).filter (· == 1) = [] := by
    rw [List.filter_eq_nil_iff]; intro x hx; rw [hz x hx]; decide
  have hue : ((wordsOf off n).map (s.tiles.get p).symErr.get).filter (fun x => decide (2 ≤ x)) = [] := by
    rw [List.filter_eq_nil_iff]; intro x hx; rw [hz x hx]; decide
  simp [sramRead, hce, hue, h1]

end Sys2Proof.Machine
end

