-- ==== Sys2Proof/Laws/Tile.lean ====
section
/-! SUPPORT. What the sequencer's shared operations do: the head leaves its stream, signals are applied, a descriptor completes. -/

namespace Sys2Proof.Machine

@[simp] theorem modTile_get (s : State) (p : Nat) (f : Tile → Tile) : (s.modTile p f).tiles.get p = f (s.tiles.get p) := by
  simp [State.modTile]

theorem modTile_get_other (s : State) {p q : Nat} (f : Tile → Tile) (h : q ≠ p) : (s.modTile p f).tiles.get q = s.tiles.get q := by
  simp [State.modTile, Ne.symm h]

theorem modTile_tileOnly (s : State) (p : Nat) (f : Tile → Tile) : TileOnly s (s.modTile p f) p :=
  ⟨rfl, fun _ h => modTile_get_other s f h⟩

@[simp] theorem modTile_modTile (s : State) (p : Nat) (f g : Tile → Tile) : (s.modTile p f).modTile p g = s.modTile p (fun t => g (f t)) := by
  simp [State.modTile]

theorem TileOnly.refl (s : State) (p : Nat) : TileOnly s s p := ⟨rfl, fun _ _ => rfl⟩

theorem TileOnly.trans {s t u : State} {p : Nat} (h : TileOnly s t p) (k : TileOnly t u p) : TileOnly s u p := by
  refine ⟨?_, fun q hq => (k.2 q hq).trans (h.2 q hq)⟩
  rw [k.1, h.1]

/-! ### Masks -/

theorem maskOf_succ (n : Nat) (f : Nat → Bool) : maskOf (n + 1) f = maskOf n f + (if f n then 2 ^ n else 0) := by
  simp [maskOf, List.range_succ]

theorem maskOf_lt (n : Nat) (f : Nat → Bool) : maskOf n f < 2 ^ n := by
  induction n with
  | zero => simp [maskOf]
  | succ n ih => rw [maskOf_succ, Nat.pow_succ]; split <;> omega

theorem bit_maskOf (n : Nat) (f : Nat → Bool) (i : Nat) : bit (maskOf n f) i = (decide (i < n) && f i) := by
  induction n with
  | zero => simp [maskOf, bit]
  | succ n ih =>
    rw [maskOf_succ, bit_eq_testBit]
    rw [bit_eq_testBit] at ih
    have hl := maskOf_lt n f
    rcases Nat.lt_trichotomy i n with h | h | h
    · split
      · rw [Nat.add_comm, Nat.testBit_two_pow_add_gt h, ih]; simp [h, Nat.lt_succ_of_lt h]
      · rw [Nat.add_zero, ih]; simp [h, Nat.lt_succ_of_lt h]
    · subst h
      split
      · next hf => rw [Nat.add_comm, Nat.testBit_two_pow_add_eq, Nat.testBit_lt_two_pow hl]; simp [hf]
      · next hf => rw [Nat.add_zero, Nat.testBit_lt_two_pow hl]; simp [hf]
    · have : maskOf n f + (if f n then 2 ^ n else 0) < 2 ^ i := by
        have := Nat.pow_le_pow_right (n := 2) (by omega) h
        rw [Nat.pow_succ] at this
        split <;> omega
      rw [Nat.testBit_lt_two_pow this]; simp; omega

theorem bitsOf_maskOf (n : Nat) (f : Nat → Bool) : bitsOf (maskOf n f) n = (List.range n).filter f := by
  unfold bitsOf
  apply List.filter_congr
  intro i hi
  rw [bit_maskOf]
  simp [List.mem_range.mp hi]

theorem mem_bitsOf {m n i : Nat} : i ∈ bitsOf m n ↔ i < n ∧ bit m i = true := by simp [bitsOf]

/-! ### The head leaves its stream -/

theorem foldl_modify_sub_one (l : List Nat) (m : Tab Nat) (i : Nat) :
    (l.foldl (fun m i => m.modify i (· - 1)) m).get i = m.get i - l.count i := by
  induction l generalizing m with
  | nil => simp
  | cons a r ih =>
    rw [List.foldl_cons, ih, Tab.get_modify, List.count_cons]
    by_cases h : a = i
    · subst h; simp; omega
    · simp [h]

theorem popHead_eq {s : State} {p st : Nat} {d : Desc} (h : Untraced s d) : popHead s p st d =
    s.modTile p (fun t => { t with
      sem := d.waits.foldl (fun m i => m.modify i (· - 1)) t.sem,
      run := t.run.map (fun r => { r with streams := r.streams.modify st (fun x => { x with pre := x.pre.drop 1 }) }) }) := by
  have hw : (d.words.headD 0).toNat = d.w 0 := by cases hd : d.words <;> simp [Desc.w, hd]
  have : ∀ u : State, u.host = s.host → traceRecord u p (runSeq u p) d st false 0 = u := by
    intro u hu
    unfold traceRecord
    rw [hw, hu]
    rcases h with h | h <;> simp [h]
  unfold popHead
  rw [this _ (by rfl)]
  simp [tileStream, modRun, modTile_modTile]

/-! ### Signals -/

/-- Only the semaphores of tile `p` change, to `sem`. -/
def SemOnly (s t : State) (p : Nat) (sem : Nat → Nat) : Prop :=
  TileOnly s t p ∧ t.tiles.get p = { s.tiles.get p with sem := (t.tiles.get p).sem } ∧ ∀ i, (t.tiles.get p).sem.get i = sem i

/-- Additions made one semaphore after another, none of which passes 255. -/
theorem foldl_signal_fits {p st : Nat} {d : Desc} (a : Nat → Nat) (l : List Nat) (hl : l.Nodup) (s : State)
    (h : ∀ i ∈ l, (s.tiles.get p).sem.get i + a i ≤ 255) :
    SemOnly s (l.foldl (fun s i =>
        if 255 < (s.tiles.get p).sem.get i + a i then
          softError (s.modTile p (fun t => { t with sem := t.sem.set i (min ((s.tiles.get p).sem.get i + a i) 255) })) p st d teOverflow
        else s.modTile p (fun t => { t with sem := t.sem.set i (min ((s.tiles.get p).sem.get i + a i) 255) })) s) p
      (fun i => (s.tiles.get p).sem.get i + if i ∈ l then a i else 0) := by
  induction l generalizing s with
  | nil => exact ⟨TileOnly.refl s p, rfl, fun i => by simp⟩
  | cons k r ih =>
    have hk := h k (by simp)
    rw [List.nodup_cons] at hl
    have hne : ∀ i ∈ r, k ≠ i := fun i hi e => hl.1 (e ▸ hi)
    rw [List.foldl_cons, if_neg (Nat.not_lt.mpr hk), Nat.min_eq_left hk]
    obtain ⟨h1, h2, h3⟩ := ih hl.2 (s.modTile p (fun t => { t with sem := t.sem.set k ((s.tiles.get p).sem.get k + a k) })) (fun i hi => by
      simpa [Tab.get_set, hne i hi] using h i (by simp [hi]))
    refine ⟨(modTile_tileOnly s p _).trans h1, ?_, fun i => ?_⟩
    · rw [h2]; simp
    · rw [h3 i]
      simp only [modTile_get, Tab.get_set, List.mem_cons]
      by_cases e : k = i
      · subst e; simp [hl.1]
      · simp [e, Ne.symm e]

/-- What signals change that pass no semaphore's 255 (R56). -/
theorem applySignals_fits {s : State} {p st : Nat} {d : Desc} {adds : List (Nat × Nat)} (hi : ∀ x ∈ adds, x.1 < 64)
    (h : ∀ i, (s.tiles.get p).sem.get i + ((adds.filter (·.1 == i)).map (·.2)).sum ≤ 255) :
    SemOnly s (applySignals s p st d adds) p (fun i => (s.tiles.get p).sem.get i + ((adds.filter (·.1 == i)).map (·.2)).sum) := by
  have k := foldl_signal_fits (p := p) (st := st) (d := d) (fun i => ((adds.filter (·.1 == i)).map (·.2)).sum)
    (bitsOf (maskOf 64 (fun i => adds.any (·.1 == i))) 64) (List.Nodup.filter _ List.nodup_range) s (fun i _ => h i)
  obtain ⟨h1, h2, h3⟩ := k
  refine ⟨h1, h2, fun i => (h3 i).trans ?_⟩
  rw [bitsOf_maskOf]
  by_cases e : i ∈ (List.range 64).filter (fun i => adds.any (·.1 == i))
  · simp [e]
  · have : adds.filter (·.1 == i) = [] := by
      rw [List.filter_eq_nil_iff]
      intro x hx hxi
      apply e
      have hxi : x.1 = i := by simpa using hxi
      subst hxi
      rw [List.mem_filter, List.mem_range]
      exact ⟨hi x hx, List.any_eq_true.mpr ⟨x, hx, by simp⟩⟩
    simp [e, this]

theorem sigs_lt {d : Desc} {i : Nat} (h : i ∈ d.sigs) : i < 64 := by
  simp only [Desc.sigs, List.mem_filterMap, slotSem] at h
  obtain ⟨b, -, hb⟩ := h
  split at hb
  · cases hb; omega
  · cases hb

/-- What the signal slots of a descriptor add to semaphore `i`. -/
theorem sum_sigs (l : List Nat) (i : Nat) : (((l.map (fun i => (i, 1))).filter (·.1 == i)).map (·.2)).sum = l.count i := by
  induction l with
  | nil => rfl
  | cons a r ih =>
    by_cases e : a = i
    · subst e; simp [ih, Nat.add_comm]
    · simp [e, ih]

/-! ### Completion -/

theorem traceRecord_untraced {s : State} {p st err : Nat} {q : Word} {d : Desc} {c : Bool} (h : Untraced s d) : traceRecord s p q d st c err = s := by
  have hw : (d.words.headD 0).toNat = d.w 0 := by cases hd : d.words <;> simp [Desc.w, hd]
  unfold traceRecord
  rw [hw]
  rcases h with h | h <;> simp [h]

theorem settleRun_live {s : State} {p : Nat} (h : liveRun s p = true) : settleRun s p = s := by
  unfold liveRun at h
  unfold settleRun
  split at h
  · next r hr => 
    have : r.ended = none := by simpa using h
    simp [hr, this]
  · cases h

/-- A descriptor other than COMPLETE that releases no row completes in a live launch, untraced: its signals are added. -/
theorem completeDesc_live {s : State} {p : Nat} {x : Issued} (hl : liveRun s p = true) (ht : Untraced s x.desc) (hr : releasesOf x.desc = [])
    (ho : x.desc.op ≠ 0x01)
    (h : ∀ i, (s.tiles.get p).sem.get i + (((semAdds x.desc x.signals).filter (·.1 == i)).map (·.2)).sum ≤ 255) :
    SemOnly s (completeDesc s p x) p (fun i => (s.tiles.get p).sem.get i + (((semAdds x.desc x.signals).filter (·.1 == i)).map (·.2)).sum) := by
  have hs : ∀ y ∈ semAdds x.desc x.signals, y.1 < 64 := by
    intro y hy
    simp only [semAdds, List.mem_append] at hy
    rcases hy with hy | hy
    · split at hy
      · simp only [List.mem_map] at hy; obtain ⟨i, hi, rfl⟩ := hy; exact sigs_lt hi
      · cases hy
    · split at hy
      · simp only [List.mem_map] at hy; obtain ⟨i, hi, rfl⟩ := hy; exact (mem_bitsOf.mp hi).1
      · cases hy
  have k := applySignals_fits (s := s) (p := p) (st := x.stream) (d := x.desc) hs h
  have hl' : liveRun (applySignals s p x.stream x.desc (semAdds x.desc x.signals)) p = true := by
    have := k.2.1
    unfold liveRun at hl ⊢
    rw [this]; exact hl
  unfold completeDesc
  simp only [hr, releaseAll, List.foldl_nil, ite_self, traceRecord_untraced ht, hl, if_true, ho, false_and, if_false]
  rw [settleRun_live hl']
  exact k

/-- The record of stream `st` of tile `p` changed. -/
theorem tileStream_get (s : State) (p st : Nat) (f : StreamSt → StreamSt) : (tileStream s p st f).tiles.get p =
    { s.tiles.get p with run := (s.tiles.get p).run.map (fun r => { r with streams := r.streams.modify st f }) } := by
  simp [tileStream, modRun]

theorem headOf_live {t : Tile} {st : Nat} {d : Desc} (h : headOf t st = some d) :
    ∃ r, t.run = some r ∧ r.ended = none ∧ (r.streams.get st).waiting = none ∧ (r.streams.get st).pre.head? = some d := by
  unfold headOf at h
  split at h
  · cases h
  · next r hr =>
    dsimp only at h
    split at h
    · cases h
    · next hc =>
      simp only [Bool.or_eq_true, not_or, Bool.not_eq_true] at hc
      refine ⟨r, hr, by simpa using hc.1.1.1.1, by simpa using hc.2, h⟩

/-- A row of the sequencer runs the body of a descriptor that may issue. -/
theorem issueOp_issues {s : State} {p st : Nat} {d : Desc} {ops : Nat → Bool} {ready : State → Desc → Bool} {body : State → Desc → State}
    (h : IssuesNow s p st d) (ho : ops d.op = true) (hr : ready s d = true) : issueOp s p st ops ready body = body (popHead s p st d) d := by
  obtain ⟨h1, h2, h3, h4, h5, h6, -⟩ := h
  simp [issueOp, h1, h2, h3, h4, h5, h6, ho, hr]

/-- A control descriptor that completes with its issue, from the state its body made of the popped one. -/
theorem finish_step {s : State} {p st : Nat} {d : Desc} {f : StreamSt → StreamSt} {T : Tile}
    (hc : CompletesNow s p st d) (ho : d.op ≠ 1) (h5 : d.op ≠ 5) (hr : releasesOf d = []) (u : State)
    (hu : TileOnly s u p)
    (hT : u.tiles.get p = { T with
      sem := d.waits.foldl (fun m i => m.modify i (· - 1)) (s.tiles.get p).sem
      run := (s.tiles.get p).run.map (fun r => { r with streams := r.streams.modify st f }) })
    (hI : T.issued = (s.tiles.get p).issued) :
    StreamStep s (finishIssue u p st d none 0) p st T (semSignalled (s.tiles.get p) d) (f (streamOf (s.tiles.get p) st)) := by
  obtain ⟨⟨h1, h2, h3, h4, h5', h6, h7⟩, h8, h9⟩ := hc
  obtain ⟨r, hr1, hr2, hr3, hr4⟩ := headOf_live h1
  have hord : ordered (u.tiles.get p) st d = false := by
    rw [hT]; simpa [ordered, hI] using h8
  have hadd : semAdds d true = d.sigs.map (fun i => (i, 1)) := by simp [semAdds, h5]
  have hut : Untraced u d := by rw [hu.1]; exact h7
  have hlive : liveRun u p = true := by simp [liveRun, hT, hr1, hr2]
  have key := completeDesc_live (x := { desc := d, stream := st, err := none, work := none, acc := 0, signals := true }) hlive hut hr ho
    (fun i => by
      have := h9 i
      simp only [hadd, sum_sigs, hT, foldl_modify_sub_one]
      simpa [semSignalled, semTaken] using this)
  unfold finishIssue
  simp only [hord, if_false, Bool.false_eq_true]
  obtain ⟨k1, k2, k3⟩ := key
  refine ⟨hu.trans k1, ?_, ?_, r, { r with streams := r.streams.modify st f }, hr1, ?_, rfl, ?_, ?_⟩
  · rw [k2, hT]
  · intro i
    rw [k3 i, hadd]
    simp only [sum_sigs, hT, foldl_modify_sub_one]
    rfl
  · rw [k2, hT]; simp [hr1]
  · simp [streamOf, hr1]
  · intro m hm; simp [Ne.symm hm]

end Sys2Proof.Machine
end

section
/-! PROOFS. Writes of a tile's control registers, and the end of a launch (R33, R49, R52, R53, R63, R65). -/

namespace Sys2Proof.Machine

/-! ### Writes that reach a tile's registers -/

/-- The address of a register names its unit, page and offset (R29). -/
theorem target_regAddr {u pg off : Nat} (hu : u < 256) (hp : pg < 256) (ho : off < 0x10000) :
    target (regAddr u pg off) = .reg u pg off := by
  have hb : regAddr u pg off = regBase + (u * 0x1000000 + pg * 0x10000 + off) := by simp only [regAddr]; omega
  unfold target
  rw [if_neg, if_neg, if_neg, if_neg, if_neg, if_pos] <;> simp only [hb, regBase, hubBase, tileBase, dieSpan, Target.reg.injEq] <;> omega

theorem atTile_present {s : State} {p : Nat} (f : State → State) (h : tileAbsorbed s p = false) : atTile s p f = f s := by
  simp [atTile, h]

theorem countAbsorb_reg {s : State} {a u pg off : Nat} (h : target a = .reg u pg off) :
    countAbsorb s a = { s with fab.absorbs := s.fab.absorbs.modify (nodeOf (.reg u 0 0)) (cnt · 1) } := by
  simp [countAbsorb, h]

/-- A write to a tile that absorbs requests is counted by its die and has no other effect (R33). -/
theorem atTile_absorbed {s : State} {p : Nat} (f : State → State) (hp : p < 36) (h : tileAbsorbed s p = true) :
    atTile s p f = { s with fab.absorbs := s.fab.absorbs.modify (dieOf p) (cnt · 1) } := by
  have ht : target (regAddr (0x40 + p) 0 0) = .reg (0x40 + p) 0 0 := target_regAddr (by omega) (by omega) (by omega)
  have hn : nodeOf (.reg (0x40 + p) 0 0) = dieOf p := by
    simp only [nodeOf]
    rw [if_neg (by omega), if_pos (by omega), Nat.add_sub_cancel_left]
  rw [atTile, if_pos h, countAbsorb_reg ht, hn]

/-! ### Ending a launch -/

/-- A launch without descriptors or a walk under way ends at once: the tile runs none and the target reports it (R53). -/
theorem endRun_quiet {s : State} {p : Nat} {r : Running} (st : Half) (hr : (s.tiles.get p).run = some r) (he : r.ended = none)
    (hq : TileQuiet (s.tiles.get p)) :
    endRun s p st = reportDone { s with tiles := s.tiles.set p { s.tiles.get p with run := none } } p r.launch st := by
  obtain ⟨hi, hw⟩ := hq
  simp [endRun, settleRun, hr, he, hi, hw, State.modTile, Tab.modify]

/-- A quiet tile's launch that ends leaves only what `LaunchEnded` names, and the tile without a launch. -/
theorem launchEnded_endRun {s : State} {p : Nat} {r : Running} (st : Half) (hr : (s.tiles.get p).run = some r) (he : r.ended = none)
    (hq : TileQuiet (s.tiles.get p)) :
    LaunchEnded s (endRun s p st) p st ∧ (endRun s p st).tiles.get p = { s.tiles.get p with run := none } := by
  rw [endRun_quiet st hr he hq]
  have hev : EventsOnly s (reportDone { s with tiles := s.tiles.set p { s.tiles.get p with run := none } } p r.launch st) :=
    ⟨rfl, fun _ _ => rfl, rfl, rfl, fun _ _ => rfl⟩
  refine ⟨⟨rfl, hev, fun q hq => ?_, ?_, ⟨r, hr, ?_⟩, fun q hq => ?_⟩, ?_⟩
  · simp [reportDone, Ne.symm hq]
  · simp [reportDone]
  · simp [reportDone]
  · simp [reportDone, Ne.symm hq]
  · simp [reportDone]

/-- A launch with descriptors under way is ended but stays until they complete: its waits are given up, nothing more is requested (R53). -/
theorem endRun_busy {s : State} {p : Nat} {r : Running} (st : Half) (hr : (s.tiles.get p).run = some r) (he : r.ended = none)
    (hi : (s.tiles.get p).issued ≠ []) :
    endRun s p st = s.modTile p (fun t => { t with
      run := some { r with ended := some st, streams := r.streams.map (fun x => { x with waiting := none }) },
      issued := t.issued.map Issued.stopped }) := by
  simp [endRun, settleRun, hr, he, hi]

/-! ### The registers of a tile -/

theorem tileSemClr_idle {s : State} {p : Nat} (h : (s.tiles.get p).run = none) :
    tileSemClr s p = s.modTile p (fun t => { t with sem := Tab.const 0, ev := Tab.const 0 }) := by
  simp [tileSemClr, State.modTile, Tab.modify, h]

theorem tileSemClr_running {s : State} {p : Nat} (h : (s.tiles.get p).run.isSome = true) : (tileSemClr s p).tiles.get p = s.tiles.get p := by
  simp [tileSemClr, h]

theorem tileErrRearm_get (s : State) (p : Nat) :
    (tileErrRearm s p).tiles.get p = { s.tiles.get p with errFirst := (s.tiles.get p).errFirst &&& 0x7FFFFFFF#32 } := modTile_get s p _

theorem tileDbgHalt_attached {s : State} {p : Nat} (on : Bool) (hm : s.host.opMode = false) (hs : s.host.sessions.contains p = true) :
    tileDbgHalt s p on = s.modTile p (fun t => { t with dbgHalt := on }) := by
  simp only [tileDbgHalt, hm, hs]; rfl

theorem tileDbgHalt_refused {s : State} {p : Nat} (on : Bool) (h : s.host.opMode = true ∨ s.host.sessions.contains p = false) :
    tileDbgHalt s p on = s := by
  unfold tileDbgHalt
  rcases h with h | h <;> simp only [h, Bool.true_or, Bool.not_false, Bool.or_true, if_true]

/-- Clearing the capture's valid bit leaves the other bits of TIL_ERR_FIRST. -/
theorem bit_and_rearm (w : Word) (i : Nat) : bit (w &&& 0x7FFFFFFF#32).toNat i = (bit w.toNat i && decide (i ≠ 31)) := by
  have hm : (0x7FFFFFFF#32).toNat = 2 ^ 31 - 1 := by decide
  rw [bit_eq_testBit, bit_eq_testBit, BitVec.toNat_and, Nat.testBit_and, hm, Nat.testBit_two_pow_sub_one]
  rcases Nat.lt_trichotomy i 31 with h | h | h
  · simp [h, Nat.ne_of_lt h]
  · simp [h]
  · have : w.toNat.testBit i = false := Nat.testBit_lt_two_pow (lt_of_lt_of_le w.isLt (Nat.pow_le_pow_right (by omega) (by omega)))
    simp [this]

/-- A corrected SRAM word written back has no error left, and every other word is as it was (R49). -/
theorem sramWriteback_get {s : State} {p w : Nat} (h : (s.tiles.get p).symErr.get w = 1) :
    (sramWriteback s p w).tiles.get p = { s.tiles.get p with symErr := (s.tiles.get p).symErr.set w 0 } := by
  simp [sramWriteback, h]

/-- Settles O28: each register write is its own equation at a tile that takes requests and one count at a tile that does not; the abort
splits on whether descriptors are under way. -/
theorem tileControlRegistersAndInputs : Obligations.TileControlRegistersAndInputs := by
  unfold Obligations.TileControlRegistersAndInputs
  intro p s t0
  refine ⟨fun hpres => ?_, fun habs on v m c hc => ?_, rfl, rfl, fun w hw => ?_⟩
  · have present : ∀ (c : Instr) (f : State → State), exec c s = .next (atTile s p f) → exec c s = .next (f s) :=
      fun c f h => h.trans (congrArg _ (atTile_present f hpres))
    refine ⟨present _ (tileCntClr · p) rfl, fun hrun => ?_, fun hrun => ?_, fun on => present _ (tileLaunchEn · p on) rfl,
      fun on hm hs => ?_, fun on h => ?_, fun v => ?_, fun m => present _ (tileErrClear · p m) rfl, ?_,
      fun r hr he => ⟨fun hq => ?_, fun hi => ?_⟩⟩
    · rw [← tileSemClr_idle hrun]; exact present _ (tileSemClr · p) rfl
    · exact ⟨_, present _ (tileSemClr · p) rfl, modTile_tileOnly s p _, tileSemClr_running hrun⟩
    · rw [← tileDbgHalt_attached on hm hs]; exact present _ (tileDbgHalt · p on) rfl
    · exact (present _ (tileDbgHalt · p on) rfl).trans (congrArg _ (tileDbgHalt_refused on h))
    · have h := present (.tilEvtAdd p v) (tileEvtAdd · p v.toNat) rfl
      rwa [tileEvtAdd, evtAdd, Nat.mod_mod] at h
    · exact ⟨_, present _ (tileErrRearm · p) rfl, modTile_tileOnly s p _, by rw [tileErrRearm_get],
        fun i => by rw [tileErrRearm_get]; exact bit_and_rearm _ i⟩
    · exact ⟨_, present _ (tileAbort · p) rfl, launchEnded_endRun stAborted hr he hq⟩
    · refine ⟨_, (present _ (tileAbort · p) rfl).trans (congrArg _ (endRun_busy stAborted hr he hi)), modTile_tileOnly s p _, _,
        modTile_get s p _, fun i => ?_⟩
      rw [Tab.get_map]
  · have absorbed : ∀ f : State → State, Host.Outcome.next (atTile s p f) =
        (.next { s with fab.absorbs := s.fab.absorbs.modify (dieOf p) (cnt · 1) } : Out) :=
      fun f => congrArg _ (atTile_absorbed f p.isLt habs)
    simp only [List.mem_cons, List.not_mem_nil, or_false] at hc
    rcases hc with rfl | rfl | rfl | rfl | rfl | rfl | rfl | rfl <;> exact absorbed _
  · refine ⟨_, rfl, modTile_tileOnly s p _, ?_, fun i => ?_⟩
    · rw [sramWriteback_get hw]
    · rw [sramWriteback_get hw]; simp [Tab.get_set, eq_comm, t0]

end Sys2Proof.Machine
end

section
/-! PROOFS. Requests on the network that are served at once, and tile SRAM as their target (R37, R42, R49, R133, R253). -/

namespace Sys2Proof.Machine

/-! ### A request served at once -/

theorem malformedReq_wf {r : NetReq} (h : r.wf = true) : malformedReq r = none := by
  simp only [NetReq.wf, Bool.and_eq_true, decide_eq_true_eq, Bool.or_eq_true, bne_iff_ne, ne_eq, beq_iff_eq] at h
  obtain ⟨⟨h1, h2, h3⟩, h4⟩ := h
  unfold malformedReq
  rw [if_neg (by omega), if_neg (by omega), if_neg (by rintro ⟨ho, hl⟩; exact h4.elim (fun h => h ho) hl)]

/-- A well-formed write brings its bytes (R37). -/
theorem data_length_of_wf {r : NetReq} (h : r.wf = true) (ho : r.op = 1) : r.data.length = r.len := by
  simp only [NetReq.wf, ho, Bool.and_eq_true] at h
  simpa using h.2

/-- Charging a request changes Bellows only (R253). -/
theorem qosCharge_eq (s : State) (r : NetReq) : ∃ q, qosCharge s r = { s with fab.qos := q } := by
  unfold qosCharge
  dsimp only
  split
  · exact ⟨_, rfl⟩
  · split <;> exact ⟨_, rfl⟩

/-- A request that reaches its target has left those under way and those held, and is charged. -/
theorem qosCharge_netTake_eq (s : State) (r : NetReq) : ∃ l q h, qosCharge (netTake s r) r =
    { s with fab := { s.fab with net := { s.fab.net with inflight := l }, qos := q, routes := { s.fab.routes with heldReqs := h } } } := by
  obtain ⟨q, hq⟩ := qosCharge_eq (netTake s r) r
  exact ⟨_, q, _, hq⟩

/-- A request that nothing keeps waiting is performed and answered. -/
theorem netServe_answers {s u : State} {r : NetReq} {st : Half} {bs : List Byte} {poison : Bool} (h : Served s r)
    (hd : netDo (qosCharge (netTake s r) r) r = (u, some (st, bs, poison))) : netServe s r = netAnswer u r st bs poison := by
  obtain ⟨-, hstop, hbusy, hblock, helig, -⟩ := h
  simp [netServe, hstop, hbusy, hblock, helig, hd]

theorem netAnswer_ok (s : State) (r : NetReq) (bs : List Byte) (poison : Bool) : netAnswer s r stOk bs poison =
    { s with fab.net.rsps := s.fab.net.rsps ++
      [{ src := r.src, tag := r.tag, op := r.op, addr := r.addr, len := r.len, status := stOk, data := bs, poison := poison }] } := by
  have hn : ¬ (stOk = stDecodeError ∨ stOk = stNoRoute ∨ stOk = stTargetReset) := by decide
  simp [netAnswer, hn]

/-! ### Tile SRAM as a target -/

/-- An address outside the device's own remote window is reached as it is (R31). -/
theorem localAddr_local (s : State) {a : Nat} (h : ∀ n off, target a ≠ .remote n off) : localAddr s a = a := by
  unfold localAddr
  split
  · next n off ht => exact absurd ht (h n off)
  · rfl

theorem readAt_sram {s : State} {src a n p off : Nat} (ht : target a = .tileSram p off) (hp : pathUsable s src (dieOf p) = true)
    (hr : refusal s false a n = none) (hc : CleanSram s p off n) :
    readAt s src a n = (s, stOk, s.fab.mem.readN (tileWindow p + off) n, false) := by
  have hl : localAddr s a = a := localAddr_local s (by simp [ht])
  simp [readAt, hl, ht, nodeOf, hp, hr, sramRead_clean s p off n hc]

theorem writeFor_sram {s : State} {w : Waiter} {tag : BitVec 9} {src label a p off : Nat} {bs : List Byte} {poison : Bool}
    (ht : target a = .tileSram p off) (hp : pathUsable s src (dieOf p) = true) (hr : refusal s true a bs.length = none) :
    writeFor w tag s src label a bs poison = (sramWrite s p off bs poison, stOk) := by
  have hl : localAddr s a = a := localAddr_local s (by simp [ht])
  simp [writeFor, hl, ht, nodeOf, hp, hr]

theorem netDo_sram_read {s : State} {r : NetReq} {p off : Nat} (ht : reqTarget s r = .tileSram p off) (ho : r.op = 0)
    (hp : pathUsable s r.src.toNat (dieOf p) = true) (hr : refusal s false (reqAddr s r) r.len = none) (hc : CleanSram s p off r.len) :
    netDo s r = (s, some (stOk, s.fab.mem.readN (tileWindow p + off) r.len, false)) := by
  have hx := readAt_sram (src := r.src.toNat) ht hp hr hc
  simp [netDo, ht, ho, nodeOf, hp, hx]

theorem sramWrite_mir (s : State) (p off : Nat) (bs : List Byte) (poison : Bool) : (sramWrite s p off bs poison).fab.mir = s.fab.mir := by
  cases poison <;> rfl

theorem netDo_sram_write {s : State} {r : NetReq} {p off : Nat} (ht : reqTarget s r = .tileSram p off) (ho : r.op = 1)
    (hp : pathUsable s r.src.toNat (dieOf p) = true) (hr : refusal s true (reqAddr s r) r.data.length = none) :
    netDo s r = (sramWrite s p off r.data r.poison, some (stOk, [], false)) := by
  have hx := writeFor_sram (w := .network) (tag := r.tag) (src := r.src.toNat) (label := r.label.toNat) (poison := r.poison) ht hp hr
  simp [netDo, ht, ho, nodeOf, hp, hx, sramWrite_mir]

/-- A write of a tile's SRAM stores the bytes, and changes beside them poison and that tile's line-buffer counts and word errors (R49, R133). -/
theorem sramWrite_eq (s : State) (p off : Nat) (bs : List Byte) (poison : Bool) : ∃ x f l,
    sramWrite s p off bs poison = { s with
      fab := { s.fab with mem := s.fab.mem.write (tileWindow p + off) bs, poison := x }
      tiles := s.tiles.set p { s.tiles.get p with symErr := f, lbs := l } } := by
  cases poison <;> exact ⟨_, _, _, rfl⟩

theorem storesAt_write {s t : State} {a : Nat} {bs : List Byte} (h : t.fab.mem = s.fab.mem.write a bs) : StoresAt s t a bs :=
  ⟨by rw [h, Memory.readN_write], fun b hb => by rw [h, Memory.read_write_outside _ _ _ _ hb]⟩

theorem iqRequest_served {s : State} {p : Fin 36} {r : NetReq} {off : Nat} (h : Served s r) (ht : reqTarget s r = .tileSram p off) :
    exec (.iqRequest p r) s = .next (netServe s r) := by
  have hm : malformedReq r = none := malformedReq_wf h.1
  change iqRequest s p r = _
  simp [iqRequest, hm, ht, atTileOf]

/-- Settles O8: the request is charged, which no condition of the target sees, and then read or written at the tile's SRAM. -/
theorem tileRequestsReadAndWriteSram : Obligations.TileRequestsReadAndWriteSram := by
  unfold Obligations.TileRequestsReadAndWriteSram
  intro p r s off hs ht
  obtain ⟨l, q, h, hu⟩ := qosCharge_netTake_eq s r
  have hpath : pathUsable s r.src.toNat (dieOf p) = true := by
    obtain ⟨-, -, -, -, -, hp⟩ := hs
    rwa [ht] at hp
  refine ⟨fun ho hr hc => ?_, fun ho hr => ?_⟩
  · have hd := netDo_sram_read (s := qosCharge (netTake s r) r) (r := r) (by rw [hu]; exact ht) ho (by rw [hu]; exact hpath)
      (by rw [hu]; exact hr) (by rw [hu]; exact hc)
    refine ⟨_, iqRequest_served hs ht, ?_⟩
    rw [netServe_answers hs hd, netAnswer_ok, hu]
    exact ⟨rfl, rfl⟩
  · have hlen : r.data.length = r.len := data_length_of_wf hs.1 ho
    have hd := netDo_sram_write (s := qosCharge (netTake s r) r) (r := r) (by rw [hu]; exact ht) ho (by rw [hu]; exact hpath)
      (by rw [hu, hlen]; exact hr)
    obtain ⟨x, f, b, hw⟩ := sramWrite_eq (qosCharge (netTake s r) r) p off r.data r.poison
    refine ⟨_, iqRequest_served hs ht, ?_⟩
    rw [netServe_answers hs hd, netAnswer_ok, hw, hu]
    refine ⟨rfl, storesAt_write rfl, rfl, fun n hn => Tab.get_set_other _ _ (Ne.symm hn), ?_⟩
    simp only [Tab.get_set_self]

end Sys2Proof.Machine
end

section
/-! PROOFS. How a Cerfosil command is decoded, run and answered (R288–R295). -/

namespace Sys2Proof.Machine

/-! ### Fields of a payload -/

theorem slice_eq (bs : List Byte) (off n : Nat) : slice bs off n = (List.range n).map (fun i => bs.getD (off + i) 0) := by
  refine List.ext_getElem (by simp [slice]) (fun i h1 h2 => ?_)
  have hi : i < n := by simpa using h2
  by_cases hb : off + i < bs.length
  · have : i < ((bs.drop off).take n).length := by simp; omega
    simp [slice, List.getElem_append_left this, List.getElem?_eq_getElem hb]
  · have : ((bs.drop off).take n).length ≤ i := by simp; omega
    simp [slice, List.getElem_append_right this, List.getElem?_eq_none (by omega : bs.length ≤ off + i)]

/-- A range within the first bytes is that range of the whole. -/
theorem slice_slice (bs : List Byte) {k off n : Nat} (h : off + n ≤ k) : slice (slice bs 0 k) off n = slice bs off n := by
  rw [slice_eq _ off n, slice_eq bs off n]
  refine List.map_congr_left (fun i hi => ?_)
  have : off + i < k := by have := List.mem_range.mp hi; omega
  simp [slice_eq, this]

theorem fld_slice (bs : List Byte) {k off n : Nat} (h : off + n ≤ k) : fld (slice bs 0 k) off n = fld bs off n := by
  rw [fld, slice_slice bs h, fld]

theorem leNat_lt (bs : List Byte) : leNat bs < 256 ^ bs.length := by
  induction bs with
  | nil => simp [leNat]
  | cons b r ih =>
    have hb := b.isLt
    simp only [leNat, List.length_cons, Nat.pow_succ]
    omega

@[simp] theorem length_slice (bs : List Byte) (off n : Nat) : (slice bs off n).length = n := by simp [slice_eq]

theorem fld_lt (bs : List Byte) (off n : Nat) : fld bs off n < 256 ^ n := by
  have := leNat_lt (slice bs off n)
  rwa [length_slice] at this

/-- Fields that hold legal values are applied as sent, without a clamp (R295). -/
theorem clampFields_legal {pay : List Byte} {size : Nat} {fs : List FieldSpec}
    (h : ∀ f ∈ fs, f.apply (fld (slice pay 0 size) f.off f.size) = fld (slice pay 0 size) f.off f.size) :
    clampFields pay size fs = (slice pay 0 size, 0) := by
  induction fs with
  | nil => rfl
  | cons f r ih =>
    have ih := ih (fun g hg => h g (by simp [hg]))
    unfold clampFields at ih ⊢
    simp only [List.foldl_cons, h f (by simp), if_true]
    exact ih

/-! ### The decoded header -/

@[simp] theorem decodeCmd_ch (s : State) (ch op : Nat) (r : Request) (b : Bool) (x : Nat) : (decodeCmd s ch op r b x).1.ch = ch := by
  unfold decodeCmd; dsimp only; split <;> rfl

@[simp] theorem decodeCmd_op (s : State) (ch op : Nat) (r : Request) (b : Bool) (x : Nat) : (decodeCmd s ch op r b x).1.op = op := by
  unfold decodeCmd; dsimp only; split <;> rfl

@[simp] theorem decodeCmd_seq (s : State) (ch op : Nat) (r : Request) (b : Bool) (x : Nat) : (decodeCmd s ch op r b x).1.seq = r.seq := by
  unfold decodeCmd; dsimp only; split <;> rfl

theorem decodeCmd_inPtr (s : State) (ch op : Nat) (r : Request) (b : Bool) (x : Nat) :
    (decodeCmd s ch op r b x).1.inPtr = bit r.flags.toNat 0 := by
  unfold decodeCmd
  dsimp only
  split
  · rfl
  · next h => simp only [Bool.or_eq_true, not_or, Bool.not_eq_true] at h; exact h.1.symm

theorem decodeCmd_outPtr (s : State) (ch op : Nat) (r : Request) (b : Bool) (x : Nat) :
    (decodeCmd s ch op r b x).1.outPtr = bit r.flags.toNat 1 := by
  unfold decodeCmd
  dsimp only
  split
  · rfl
  · next h => simp only [Bool.or_eq_true, not_or, Bool.not_eq_true] at h; exact h.2.symm

/-- An inline request of at most 240 bytes decodes without a clamp (R288, R292). -/
theorem decodeCmd_inline {s : State} {ch op : Nat} {r : Request} {b : Bool} (hf : r.flags = 0) (hl : r.length.toNat ≤ 240) :
    decodeCmd s ch op r b 0 = (plainCmd ch op r, true) := by
  have : ¬ 240 < r.length.toNat := by omega
  simp [decodeCmd, plainCmd, hf, bit, this, Nat.min_eq_left hl, payBytes]

/-! ### Commands taken by the running service -/

/-- A command that the running service accepts and whose payload can be read runs and completes (R291, R294). -/
theorem runCmd_runs {s : State} {ch op : Nat} {r : Request} {f : State → Cmd → State × Reply} (hs : s.bu.service ≠ 0)
    (ha : accepts s op = true) (hop : definedOpcodes.contains op = true) (hd : (decodeCmd s ch op r (s.host.mbx.get ch).bufOk 0).2 = true) :
    let c := (decodeCmd s ch op r (s.host.mbx.get ch).bufOk 0).1
    runCmd s ch op r 0 f = completeCmd (f s c).1 c (s.host.mbx.get ch).bufOk (f s c).2 := by
  simp [runCmd, hs, ha, List.contains_iff_mem.mp hop, hd]

/-- What a command without a bulk result answers whose own effect has left the host side alone (R289, R291). -/
theorem completeCmd_answers {s u : State} {c : Cmd} {r : Request} {ch op : Nat} (y : Reply) (b : Bool) (hu : u.host = s.host) (hc : c.ch = ch)
    (ho : c.op = op) (hq : c.seq = r.seq) (hp : c.outPtr = false) (h4 : ch < 4) :
    let t := completeCmd u c b y
    t = { u with host := t.host } ∧ Answered s t ch op r y.status (c.clamps + y.clamps) y.data ∧ HostKept s t ch := by
  subst hc ho
  obtain ⟨h1, h2, h3, h4, -⟩ := completeCmd_spec u c b y hp (by omega)
  refine ⟨h1, ⟨?_, h3⟩, ?_⟩
  · rw [h2, hu, hq]
  · rw [HostKept, HostMemKept] at h4 ⊢
    simpa only [InMessage, hu] using h4

/-- A completion changes the host side only. -/
theorem completeCmd_hostOnly (s : State) (c : Cmd) (b : Bool) (y : Reply) (hc : c.ch < 32) : ∃ h, completeCmd s c b y = { s with host := h } := by
  have hset : ∀ (u : State) (g : HostSide), u = { s with host := g } → ∃ h, setInt u c.ch = { s with host := h } := by
    rintro u g rfl
    exact ⟨_, (setInt_spec _ c.ch hc).1⟩
  unfold completeCmd
  dsimp only
  split
  · split <;> exact hset _ _ rfl
  · exact hset _ _ rfl

theorem finishCmd_hostOnly (s : State) (ch op : Nat) (r : Request) (y : Reply) : ∃ h, finishCmd s ch op r y = { s with host := h } := by
  unfold finishCmd
  split
  · exact completeCmd_hostOnly _ _ _ _ (by rw [runningCmd, decodeCmd_ch]; omega)
  · exact ⟨_, rfl⟩

/-! ### Commands answered at once -/

/-- What a command answers that the running service accepts and that asks for no bulk result; its own effect leaves the host side alone. -/
theorem runCmd_answers {s u : State} {ch op : Nat} {r : Request} {f : State → Cmd → State × Reply} {y : Reply} (hs : s.bu.service ≠ 0)
    (ha : accepts s op = true) (hop : definedOpcodes.contains op = true) (hd : (decodeCmd s ch op r (s.host.mbx.get ch).bufOk 0).2 = true)
    (hp : bit r.flags.toNat 1 = false) (h4 : ch < 4) (hx : f s (decodeCmd s ch op r (s.host.mbx.get ch).bufOk 0).1 = (u, y))
    (hu : u.host = s.host) :
    let t := runCmd s ch op r 0 f
    t = { u with host := t.host } ∧
    Answered s t ch op r y.status ((decodeCmd s ch op r (s.host.mbx.get ch).bufOk 0).1.clamps + y.clamps) y.data ∧ HostKept s t ch := by
  have hrun := runCmd_runs (f := f) hs ha hop hd
  simp only [hx] at hrun
  rw [hrun]
  exact completeCmd_answers y _ hu (decodeCmd_ch ..) (decodeCmd_op ..) (decodeCmd_seq ..) ((decodeCmd_outPtr ..).trans hp) h4

/-- The same of an inline request, which the header does not clamp. -/
theorem runCmd_answers_inline {s u : State} {ch op : Nat} {r : Request} {f : State → Cmd → State × Reply} {y : Reply} (hs : s.bu.service ≠ 0)
    (ha : accepts s op = true) (hop : definedOpcodes.contains op = true) (hf : r.flags = 0) (hl : r.length.toNat ≤ 240) (h4 : ch < 4)
    (hx : f s (plainCmd ch op r) = (u, y)) (hu : u.host = s.host) :
    let t := runCmd s ch op r 0 f
    t = { u with host := t.host } ∧ Answered s t ch op r y.status y.clamps y.data ∧ HostKept s t ch := by
  have hd : decodeCmd s ch op r (s.host.mbx.get ch).bufOk 0 = (plainCmd ch op r, true) := decodeCmd_inline hf hl
  have h := runCmd_answers (f := f) (y := y) hs ha hop (by rw [hd]) (by rw [hf]; rfl) h4 (by rw [hd]; exact hx) hu
  rw [hd] at h
  simpa only [plainCmd, Nat.zero_add] using h

/-- Opcodes of the system group are accepted under the management firmware whatever the phase (R294, R428). -/
theorem accepts_system {s : State} {op : Nat} (hs : s.bu.service = 2) (ho : op / 256 = 0) : accepts s op = true := by
  unfold accepts
  rw [if_neg (by simp [hs])]
  split
  · rfl
  · simp [ho]

/-- An inline command that does not answer yet leaves its channel busy (R290). -/
theorem runCmdLater_waits {s u : State} {ch op : Nat} {r : Request} {f : State → Cmd → State × Option Reply} (hs : s.bu.service ≠ 0)
    (ha : accepts s op = true) (hf : r.flags = 0) (hl : r.length.toNat ≤ 240) (hx : f s (plainCmd ch op r) = (u, none)) :
    runCmdLater s ch op r 0 f = u.modMbx ch (fun m => { m with busy := true, done := false }) := by
  simp [runCmdLater, hs, ha, decodeCmd_inline hf hl, hx]

end Sys2Proof.Machine
end

section
/-! PROOFS. What recomputing Bellows, training the edges and changing every tile leave alone (R65, R247, R248, R256). -/

namespace Sys2Proof.Machine

/-! ### Bellows and the edges -/

/-- Only the host side and Bellows change. -/
def QosOnly (s t : State) : Prop := t = { s with host := t.host, fab := { s.fab with qos := t.fab.qos } }

theorem QosOnly.refl (s : State) : QosOnly s s := rfl

theorem QosOnly.bu {s t : State} (h : QosOnly s t) : t.bu = s.bu := by rw [h]

theorem QosOnly.setQos {s t : State} (h : QosOnly s t) (q : Qos) : QosOnly s { t with fab.qos := q } := by
  unfold QosOnly at h ⊢
  rw [h]

theorem QosOnly.trans {s t u : State} (h : QosOnly s t) (k : QosOnly t u) : QosOnly s u := by
  unfold QosOnly at h k ⊢
  rw [k, h]

theorem raiseEvent_hostOnly (s : State) (code aux : Nat) (pay : List Nat) : raiseEvent s code aux pay = { s with host := (raiseEvent s code aux pay).host } :=
  (raiseEvent_spec s code aux pay).1

theorem raiseEvent_qosOnly {s u : State} (h : QosOnly s u) (code aux : Nat) (pay : List Nat) : QosOnly s (raiseEvent u code aux pay) :=
  h.trans (by unfold QosOnly; rw [raiseEvent_hostOnly])

/-- Recomputing the loads changes Bellows, and the host side by the events it raises (R256). -/
theorem qosRecompute_qosOnly (s : State) : QosOnly s (qosRecompute s) := by
  unfold qosRecompute
  dsimp only
  refine foldl_keeps (QosOnly s) _ (fun u p hu => ?_) _ _ ((QosOnly.refl s).setQos _)
  split
  · exact hu
  · split
    · exact raiseEvent_qosOnly (hu.setQos _) _ _ _
    · split
      · exact raiseEvent_qosOnly (hu.setQos _) _ _ _
      · exact hu

theorem edgeDown_bu (s : State) (k : Nat) : (edgeDown s k).bu = s.bu :=
  ((raiseEvent_qosOnly (QosOnly.refl _) _ _ _).trans (qosRecompute_qosOnly _)).bu

/-- Steps that each leave the bring-up record leave it together. -/
theorem foldl_bu {α : Type} {f : State → α → State} (l : List α) (s : State) (h : ∀ u a, (f u a).bu = u.bu) : (l.foldl f s).bu = s.bu :=
  foldl_keeps (fun u : State => u.bu = s.bu) f (fun u a hu => (h u a).trans hu) l s rfl

theorem modEdge_or_edgeDown_bu (s : State) (k : Nat) (c : Prop) [Decidable c] (f g : Edge → Edge) :
    (if c then s.modEdge k f else edgeDown (s.modEdge k g) k).bu = s.bu := by
  split
  · rfl
  · exact edgeDown_bu _ k

/-- Training the edges leaves the bring-up record (R247, R248). -/
theorem trainEdges_bu (s : State) (ups : List (Fin 8)) : (trainEdges s ups).bu = s.bu := by
  unfold trainEdges
  exact foldl_bu _ s (fun u k => (modEdge_or_edgeDown_bu _ k _ _ _).trans (foldl_bu _ u (fun _ _ => rfl)))

/-! ### Every tile changed -/

/-- Tiles changed one after another, each by a change that depends on the bring-up record only. -/
theorem foldl_modTile {g : State → Nat → Tile → Tile} {s : State} (hg : ∀ u, u.bu = s.bu → g u = g s) (n : Nat) :
    ∃ m, (List.range n).foldl (fun u p => u.modTile p (g u p)) s = { s with tiles := m } ∧
      ∀ p, m.get p = if p < n then g s p (s.tiles.get p) else s.tiles.get p := by
  induction n with
  | zero => exact ⟨s.tiles, rfl, fun p => rfl⟩
  | succ n ih =>
    obtain ⟨m, h1, h2⟩ := ih
    refine ⟨m.modify n (g s n), ?_, fun p => ?_⟩
    · rw [List.range_succ, List.foldl_append, h1, List.foldl_cons, List.foldl_nil, hg { s with tiles := m } rfl]
      rfl
    · rw [Tab.get_modify]
      by_cases hp : n = p
      · subst hp; simp [h2]
      · simp [hp, h2, show p < n + 1 ↔ p < n by omega]

theorem writeMaps_eq (s : State) : ∃ m, writeMaps s = { s with tiles := m } ∧ ∀ p, p < 36 → m.get p = mapTile s.bu.map (s.tiles.get p) := by
  obtain ⟨m, h1, h2⟩ := foldl_modTile (g := fun u _ => mapTile u.bu.map) (s := s) (fun u hu => by rw [hu]) 36
  exact ⟨m, h1, fun p hp => (h2 p).trans (if_pos hp)⟩

end Sys2Proof.Machine
end

section
/-! PROOFS. The commands of bring-up and the end of start-up (R17, R430, R431, R433, R434, R446). -/

namespace Sys2Proof.Machine

/-! ### Commands of bring-up -/

theorem cmdFwLoad_unsigned {s : State} {c : Cmd} (hs : s.bu.service = 1) (hi : c.inPtr = true) (hh : fwHeaderOk c = true)
    (hk : ¬ (sigKeyHash c.pay = Config.vendorKeyHash ∧ sigOk c.pay = true)) : cmdFwLoad s c = (s, reply stBadSignature 0 []) := by
  have hk : sigKeyHash c.pay ≠ Config.vendorKeyHash ∨ !sigOk c.pay := by
    rcases not_and_or.mp hk with h | h
    · exact .inl h
    · exact .inr (by simpa using h)
  unfold cmdFwLoad
  rw [if_neg (by simp [hs]), if_neg (by simp [hi, hh]), if_pos hk]

/-- A signed image runs with its version, where no other channel waits for the firmware (R430). -/
theorem cmdFwLoad_signed {s : State} {c : Cmd} (hs : s.bu.service = 1) (hi : c.inPtr = true) (hh : fwHeaderOk c = true)
    (hk : sigKeyHash c.pay = Config.vendorKeyHash) (ho : sigOk c.pay = true) (hn : ∀ n, n < 4 → n ≠ c.ch → (s.host.mbx.get n).sent = false) :
    cmdFwLoad s c = ({ s with bu := { s.bu with service := 2, fwver := BitVec.ofNat 32 (fld c.pay 16 4) } },
      reply stOk 0 (leBytes 4 (fld c.pay 16 4))) := by
  have hothers : (List.range 4).filter (fun n => n != c.ch && (s.host.mbx.get n).sent) = [] := by
    refine List.filter_eq_nil_iff.mpr (fun n hn' => ?_)
    by_cases h : n = c.ch
    · simp [h]
    · simp [hn n (List.mem_range.mp hn') h]
  have hver : (BitVec.ofNat 32 (fld c.pay 16 4)).toNat = fld c.pay 16 4 := by
    rw [BitVec.toNat_ofNat, Nat.mod_eq_of_lt (by simpa using fld_lt c.pay 16 4)]
  unfold cmdFwLoad
  rw [if_neg (by simp [hs]), if_neg (by simp [hi, hh]), if_neg (by simp [hk, ho])]
  simp only [hothers, List.foldl_nil, hver]

/-- One legal preloaded entry takes the place of the preloaded ones (R433). -/
theorem cmdDefectLoad_one {s : State} {c : Cmd} {e : Quad} (hp : c.inPtr = false) (hr : s.bu.ran = false) (hw : s.bu.warm = false)
    (h1 : fld c.pay 0 2 = 1) (h2 : fld c.pay 2 6 = 0) (he : preloadEntry (fld c.pay 8 8) = (some e, 0))
    (hkey : ∀ x ∈ s.bu.defects.filter (fun x => field x.toNat 59 58 != 0), defectKey x.toNat ≠ defectKey e.toNat)
    (hlen : (s.bu.defects.filter (fun x => field x.toNat 59 58 != 0)).length < 512) :
    let t := { s with bu := { s.bu with defects := insertDefect e (s.bu.defects.filter (fun x => field x.toNat 59 58 != 0)) } }
    cmdDefectLoad s c = (t, reply stOk 0 (leBytes 4 (originCount t (· == 0)) ++ leBytes 4 c.clamps)) := by
  have hc : clampFields c.pay 8 [fr 0 2 0 29, fz 2 6] = (slice c.pay 0 8, 0) := by
    refine clampFields_legal (fun f hf => ?_)
    rcases List.mem_pair.mp hf with rfl | rfl
    · simp [fr, FieldSpec.apply, clampN, fld_slice, h1]
    · simp [fz, FieldSpec.apply, clampN, fld_slice, h2]
  have hadd : ∀ u : State, u.bu.defects = s.bu.defects.filter (fun x => field x.toNat 59 58 != 0) →
      addDefect u e = { u with bu.defects := insertDefect e u.bu.defects } := by
    intro u hu
    unfold addDefect
    rw [if_neg (by rw [hu]; simpa using hkey), if_neg (by rw [hu]; omega)]
  unfold cmdDefectLoad
  simp only [hp, Bool.false_eq_true, if_false, hc, hr, hw, false_and, or_self, fld_slice _ (by omega : 0 + 2 ≤ 8), h1, List.range_one, List.map_cons,
    List.map_nil, Nat.mul_zero, Nat.add_zero, he, List.filterMap_cons, List.filterMap_nil, List.foldl_cons, List.foldl_nil, List.sum_cons,
    List.sum_nil]
  rw [hadd _ rfl]

theorem cmdStartUp_begins {s : State} {r : Request} {c : Cmd} (hp : s.bu.phase = 0) : ∃ full, cmdStartUp r s c =
    ({ s with bu := { s.bu with phase := 1, fast := s.bu.warm && s.bu.retained, full := full, step := 1, ran := true, failUnit := 0,
                                startReq := some (c.ch, r) } }, none) := by
  unfold cmdStartUp
  rw [if_neg (by simp [hp])]
  exact ⟨_, rfl⟩

/-! ### The end of start-up -/

/-- A failed start-up ends in FAILED and changes beside the bring-up record the host side only (R434). -/
theorem startUpAnswer_failed {s : State} (us : Nat) (hf : s.bu.failUnit ≠ 0) : ∃ h, startUpAnswer s us = { s with
    host := h, bu := { s.bu with phase := 3, step := 9, dur := us % 2 ^ 32, startReq := none } } := by
  simp only [startUpAnswer, hf, ne_eq, not_false_eq_true, decide_true, Bool.not_true, Bool.or_false, if_true]
  split
  · exact finishCmd_hostOnly _ _ _ _ _
  · next hn => exact ⟨s.host, by rw [← hn]⟩

/-- A start-up that has found nothing ends in DONE with device time 0 (R431 step 9). -/
theorem startUpAnswer_done {s : State} (us : Nat) (hf : s.bu.failUnit = 0) : ∃ h, startUpAnswer s us = { s with
    host := h, time := { s.time with dt := 0, frac := 0 }
    bu := { s.bu with phase := 2, step := 9, dur := us % 2 ^ 32, retained := true, startReq := none } } := by
  simp only [startUpAnswer, hf, ne_eq, not_true_eq_false, decide_false, Bool.not_false, Bool.or_true, if_false]
  rw [raiseEvent_hostOnly]
  split
  · next ch r hr =>
    obtain ⟨h, hh⟩ := finishCmd_hostOnly _ _ _ _ _
    exact ⟨h, hh⟩
  · next hn => exact ⟨_, by rw [← hn]⟩

/-- A failing unit ends start-up whatever else the tests found. -/
theorem startUpDone_failing {s : State} {q : StartUpResult} (hp : s.bu.phase = 1) (hq : q.failUnit ≠ 0) :
    ∃ u : State, startUpDone s q = startUpAnswer { u with bu.failUnit := q.failUnit.toNat } q.us := by
  have hn : q.failUnit.toNat ≠ 0 := fun h => hq (BitVec.eq_of_toNat_eq h)
  unfold startUpDone
  simp only [hp, hn, ne_eq, not_true_eq_false, not_false_eq_true, if_true, if_false]
  exact ⟨_, rfl⟩

/-! ### A cold start -/

/-- A tile as the defect list and the numbering of R17 leave it. -/
def numberTile (s : State) (p : Nat) (t : Tile) : Tile :=
  { t with defective := listedTile s p, failed := false, logical := logicalOf s p
           role := if listedTile s p then 2 else if (logicalOf s p).isSome then 0 else 1 }

/-- A tile let out of reset unless it is out of service. -/
def releaseTile (t : Tile) : Tile := if t.defective || t.failed then t else { t with isoEn := false, inReset := false, initBusy := false }

/-- The map and the spares as R17 gives them over the tiles that are not listed. -/
def numbered (s : State) : State :=
  { s with bu := { s.bu with map := (numbering (fun p => !listedTile s p)).1, spares := (numbering (fun p => !listedTile s p)).2 } }

/-- The tiles numbered and let out of reset by a cold start (R17, R431). -/
def coldTiles (s : State) : State :=
  (List.range 36).foldl (fun s p => s.modTile p releaseTile) ((List.range 36).foldl (fun s p => s.modTile p (numberTile s p)) (numbered s))

theorem listedTile_congr {s u : State} (h : u.bu = s.bu) : listedTile u = listedTile s := by
  funext p
  rw [listedTile, h, listedTile]

theorem logicalOf_congr {s u : State} (h : u.bu = s.bu) : logicalOf u = logicalOf s := by
  funext p
  simp only [logicalOf, physOf, h]

theorem numberTile_congr {s u : State} (h : u.bu = s.bu) : numberTile u = numberTile s := by
  funext p t
  rw [numberTile, listedTile_congr h, logicalOf_congr h, numberTile]

/-- A cold start's tiles: each is numbered and let out of reset. -/
theorem coldTiles_eq (s : State) : ∃ m, coldTiles s = { numbered s with tiles := m } ∧
    ∀ p, p < 36 → m.get p = releaseTile (numberTile (numbered s) p (s.tiles.get p)) := by
  obtain ⟨m, h1, h2⟩ := foldl_modTile (g := numberTile) (s := numbered s) (fun _ h => numberTile_congr h) 36
  obtain ⟨m', h3, h4⟩ := foldl_modTile (g := fun _ _ => releaseTile) (s := { numbered s with tiles := m }) (fun _ _ => rfl) 36
  refine ⟨m', ?_, fun p hp => ?_⟩
  · rw [coldTiles, h1, h3]
  · rw [h4, if_pos hp, h2, if_pos hp]
    rfl

/-- A cold start whose tests found nothing: what is done before the tiles leaves the bring-up record. -/
theorem startUpDone_cold {s : State} {q : StartUpResult} (hp : s.bu.phase = 1) (hfast : s.bu.fast = false) (hq : q.failUnit = 0) (hl : q.lanes = [])
    (ht : q.tileFaults = []) (hg : q.guards = []) (hs : strandedDie (trainEdges s q.edgesUp) = 0) :
    ∃ u : State, u.bu = s.bu ∧ startUpDone s q = startUpAnswer (setClocks (qosRecompute (writeMaps (coldTiles u))) .run) q.us := by
  generalize hX : startUpDone s q = X
  unfold startUpDone at hX
  rw [if_neg (by simp [hp])] at hX
  extract_lets fast tested guardOf faults s1 s2 s3 unit _ inDram _ _ s4 s5 s6 m _ s7 s8 s9 s10 _ s11 at hX
  have hfaults : faults = [] := by simp [faults, guardOf, ht, hg, assocGet]
  have h1 : s1 = s := by simp [s1, hl]
  have h2 : s2 = s := by simp [s2, hfaults, h1]
  have h3 : s3 = trainEdges s q.edgesUp := by rw [← h2]
  have hunit : unit = 0 := by simp [unit, hq, h3, hs]
  have h6 : s6.bu = s.bu := by
    have h4 : s4.bu = s.bu := by rw [← trainEdges_bu s q.edgesUp, ← h3]
    have h5 : s5.bu = s.bu := by
      rw [← h4]
      exact foldl_bu _ s4 (fun _ _ => rfl)
    have hs6 : s6.bu = s5.bu := by
      simp only [s6]
      split
      · exact foldl_bu _ s5 (fun _ _ => rfl)
      · rfl
    exact hs6.trans h5
  have h8 : s8 = (List.range 36).foldl (fun s p => s.modTile p (numberTile s p)) s7 := if_neg (by simp [fast, hfast])
  have h11 : s11 = s10 := if_neg (by simp [fast, hfast])
  rw [if_neg (by simp [hunit]), h11] at hX
  refine ⟨s6, h6, hX.symm.trans ?_⟩
  have h9 : s9 = coldTiles s6 := by
    simp only [s9, h8]
    rfl
  simp only [s10, h9]

theorem releaseTile_numberTile (s : State) (p : Nat) (t : Tile) :
    (releaseTile (numberTile s p t)).defective = listedTile s p ∧
    (listedTile s p = false → (releaseTile (numberTile s p t)).inReset = false ∧ (releaseTile (numberTile s p t)).isoEn = false) := by
  cases h : listedTile s p <;> simp [releaseTile, numberTile, h]

/-- What a cold start makes of the state before its tiles: the numbering of R17, and every tile that is not listed out of reset. -/
theorem coldStart_eq (s : State) : ∃ h f m,
    setClocks (qosRecompute (writeMaps (coldTiles s))) .run = { numbered s with host := h, fab := f, tiles := m } ∧
    ∀ p, p < 36 → (m.get p).defective = listedTile s p ∧ (listedTile s p = false → (m.get p).inReset = false ∧ (m.get p).isoEn = false) := by
  obtain ⟨m, h1, h2⟩ := coldTiles_eq s
  obtain ⟨m', h3, h4⟩ := writeMaps_eq (coldTiles s)
  have h5 := qosRecompute_qosOnly (writeMaps (coldTiles s))
  generalize qosRecompute (writeMaps (coldTiles s)) = u at h5
  rw [h3, h1] at h5
  refine ⟨u.host, (setClocks u .run).fab, m', ?_, fun p hp => ?_⟩
  · have h6 : setClocks u .run = { u with fab := (setClocks u .run).fab } := rfl
    rw [h6, h5]
  · rw [h4 p hp, h1, h2 p hp]
    exact releaseTile_numberTile (numbered s) p _

/-- Settles O18: the commands by what each does to the bring-up record and how the running service answers; the end of start-up by the
stages of a cold start. -/
theorem bringUpCommandsAndStartUp : Obligations.BringUpCommandsAndStartUp := by
  unfold Obligations.BringUpCommandsAndStartUp
  refine ⟨?_, ?_, ?_, ?_, ?_, ?_⟩
  · intro ch r s d hs hf hd hh hn signed
    have hs0 : s.bu.service ≠ 0 := by omega
    have ha : accepts s 0x0003 = true := by simp [accepts, hs]
    have hi : d.1.inPtr = true := (decodeCmd_inPtr ..).trans (by rw [hf]; rfl)
    have hp : bit r.flags.toNat 1 = false := by rw [hf]; rfl
    have hn : ∀ n, n < 4 → n ≠ d.1.ch → (s.host.mbx.get n).sent = false := by simpa only [d, decodeCmd_ch] using hn
    by_cases hk : signed
    · obtain ⟨h1, h2, h3⟩ := runCmd_answers hs0 ha (by decide) hd hp ch.isLt (cmdFwLoad_signed hs hi hh hk.1 hk.2 hn) rfl
      exact ⟨_, rfl, h3, fun _ => ⟨h2, h1⟩, fun h => absurd hk h⟩
    · obtain ⟨h1, h2, h3⟩ := runCmd_answers hs0 ha (by decide) hd hp ch.isLt (cmdFwLoad_unsigned hs hi hh hk) rfl
      exact ⟨_, rfl, h3, fun h => absurd h hk, fun _ => ⟨h2, h1⟩⟩
  · intro ch r s e hs hf hl hran hwarm hcount hzero he old hkey hlen
    obtain ⟨h1, h2, h3⟩ := runCmd_answers_inline (op := 0x0010) (by omega) (accepts_system hs (by decide)) (by decide) hf hl ch.isLt
      (cmdDefectLoad_one (c := plainCmd ch 0x0010 r) rfl hran hwarm hcount hzero he hkey hlen) rfl
    exact ⟨_, _, rfl, h2, h3, h1⟩
  · intro ch r s hs hf hl hp
    obtain ⟨full, hx⟩ := cmdStartUp_begins (r := r) (c := plainCmd ch 0x0011 r) hp
    have h := runCmdLater_waits (op := 0x0011) (by omega) (accepts_system hs (by decide)) hf hl hx
    refine ⟨_, rfl, ?_⟩
    rw [h]
    exact ⟨rfl, rfl, rfl, rfl, rfl, rfl⟩
  · intro q s hp hq
    obtain ⟨u, hu⟩ := startUpDone_failing hp hq
    have hf : q.failUnit.toNat ≠ 0 := fun h => hq (BitVec.eq_of_toNat_eq h)
    obtain ⟨h, ha⟩ := startUpAnswer_failed (s := { u with bu.failUnit := q.failUnit.toNat }) q.us hf
    refine ⟨_, rfl, ?_⟩
    rw [hu, ha]
    exact ⟨rfl, rfl, rfl⟩
  · intro q s hp hfast hunit hq hl ht hg hs
    obtain ⟨u, hbu, hu⟩ := startUpDone_cold hp hfast hq hl ht hg hs
    obtain ⟨h, f, m, hc, hm⟩ := coldStart_eq u
    rw [hc] at hu
    obtain ⟨h', ha⟩ := startUpAnswer_done (s := { numbered u with host := h, fab := f, tiles := m }) q.us ((congrArg (·.failUnit) hbu).trans hunit)
    refine ⟨_, rfl, ?_⟩
    rw [hu, ha, ← listedTile_congr hbu]
    exact ⟨rfl, rfl, rfl, rfl, rfl, congrArg (·.defects) hbu, rfl, rfl, hm⟩
  · intro ch r s ⟨hs, hp, hf, hl⟩
    obtain ⟨h1, h2, h3⟩ := runCmd_answers_inline (f := cmdDefectQuery) (op := 0x0012) (by omega) (accepts_system hs (by decide)) (by decide) hf hl
      ch.isLt rfl rfl
    exact ⟨_, rfl, h1, h2, h3⟩

end Sys2Proof.Machine
end

section
/-! PROOFS. Which commands stop (R37, R42). -/

namespace Sys2Proof.Machine

/-- A request that a network refuses to carry is not well formed (R37). -/
theorem wf_false_of_malformedReq {r : NetReq} {e : String} (h : malformedReq r = some e) : r.wf = false := by
  by_contra hw
  rw [malformedReq_wf (Bool.eq_true_of_not_eq_false hw)] at h
  cases h

theorem networkRequest_stops_malformed (r : NetReq) (s : State) :
    (∃ t, networkRequest s r = .next t) ∨ ∃ e, r.wf = false ∧ networkRequest s r = .fault (.malformed e) := by
  unfold networkRequest
  split
  · next e h => exact .inr ⟨e, wf_false_of_malformedReq h, rfl⟩
  · exact .inl ⟨_, rfl⟩

theorem iqRequest_stops_malformed (p : Nat) (r : NetReq) (s : State) :
    (∃ t, iqRequest s p r = .next t) ∨ ∃ e, r.wf = false ∧ iqRequest s p r = .fault (.malformed e) := by
  unfold iqRequest
  split
  · next e h => exact .inr ⟨e, wf_false_of_malformedReq h, rfl⟩
  · exact .inl ⟨_, rfl⟩

/-- Settles O3: the two commands that carry a request look at its form first; the meaning of every other command is a next state. -/
theorem onlyMalformedRequestsStop : Obligations.OnlyMalformedRequestsStop := by
  unfold Obligations.OnlyMalformedRequestsStop
  intro c s
  cases c
  case networkRequest r =>
    exact (networkRequest_stops_malformed r s).imp_right (fun ⟨e, hw, he⟩ => ⟨r, e, .inl rfl, hw, he⟩)
  case iqRequest p r =>
    exact (iqRequest_stops_malformed p r s).imp_right (fun ⟨e, hw, he⟩ => ⟨r, e, .inr ⟨p, rfl⟩, hw, he⟩)
  all_goals exact .inl ⟨_, rfl⟩

end Sys2Proof.Machine
end

section
/-! PROOFS. DRAM as the target of a request (R37, R42, R236, R253). -/

namespace Sys2Proof.Machine

/-! ### Clean DRAM -/

/-- A beat without poison and symbol errors is read as it is (R236). -/
theorem dramBeat_clean {s : State} {b : Nat} (d src : Nat) (hp : s.fab.poison.hit (b * 32) 32 = false) (he : s.fab.symErr.get b = 0) :
    dramBeat s d src b = (s, false) := by
  simp [dramBeat, hp, he]

theorem dramBytes_defined {s : State} {a n : Nat} (h : ∀ x ∈ s.fab.lost, ¬ (x.1 < a + n ∧ a < x.2.1)) :
    dramBytes s a n = s.fab.mem.readN a n := by
  have hl : ¬ s.fab.lost.any (fun x => decide (x.1 < a + n ∧ a < x.2.1)) = true := by simpa using h
  exact if_neg hl

/-- A fold whose every step leaves the accumulator leaves it. -/
theorem foldl_fixed_of_mem {α β : Type} {f : β → α → β} {b : β} {l : List α} (h : ∀ a ∈ l, f b a = b) : l.foldl f b = b := by
  induction l with
  | nil => rfl
  | cons a l ih => rw [List.foldl_cons, h a (by simp), ih (fun c hc => h c (by simp [hc]))]

/-- Clean DRAM is read without a correction: the bytes at the address (R236). -/
theorem dramRead_clean {s : State} {a n : Nat} (src : Nat) (h : CleanDram s a n) : dramRead s src a n = (s, s.fab.mem.readN a n, false) := by
  obtain ⟨hb, hl⟩ := h
  simp only [dramRead]
  rw [foldl_fixed_of_mem (b := (s, false)) fun b hm => by rw [dramBeat_clean _ _ (hb b hm).1 (hb b hm).2]; rfl]
  simp only [dramBytes_defined hl]

/-- A write over beats without symbol errors stores the bytes; beside them poison, symbol errors and undefined ranges change (R236). -/
theorem dramWrite_eq {s : State} {a : Nat} {bs : List Byte} (src : Nat) (poison : Bool) (h : ∀ b ∈ beatsOf a bs.length, s.fab.symErr.get b = 0) :
    ∃ x e l, dramWrite s src a bs poison =
      ({ s with fab := { s.fab with mem := s.fab.mem.write a bs, poison := x, symErr := e, lost := l } }, stOk) := by
  simp only [dramWrite]
  rw [foldl_fixed_of_mem (b := (s, ([] : List Nat))) fun b hm => ?_]
  · cases poison <;> exact ⟨_, _, _, rfl⟩
  · cases hp : s.fab.poison.hit (b * 32) 32
    · simp [dramBeat_clean (s := s) _ _ hp (h b (List.mem_filter.mp hm).1)]
    · simp

/-! ### Requests to DRAM -/

theorem readAt_dram {s : State} {src a n d off : Nat} (ht : target a = .dram d off) (hp : pathUsable s src d = true)
    (hr : refusal s false a n = none) (hc : CleanDram s a n) : readAt s src a n = (s, stOk, s.fab.mem.readN a n, false) := by
  have hl : localAddr s a = a := localAddr_local s (by simp [ht])
  simp [readAt, hl, ht, nodeOf, hp, hr, dramRead_clean src hc]

/-- A write outside the mirrored regions is the DRAM's own (R239). -/
theorem writeFor_dram {s : State} {w : Waiter} {tag : BitVec 9} {src label a d off : Nat} {bs : List Byte} {poison : Bool}
    (ht : target a = .dram d off) (hp : pathUsable s src d = true) (hr : refusal s true a bs.length = none)
    (hm : mirrorOf s 1 a bs.length = none) : writeFor w tag s src label a bs poison = dramWrite s src a bs poison := by
  have hl : localAddr s a = a := localAddr_local s (by simp [ht])
  simp [writeFor, hl, ht, nodeOf, hp, hr, hm]

theorem netDo_dram_read {s : State} {r : NetReq} {d off : Nat} (ht : reqTarget s r = .dram d off) (ho : r.op = 0)
    (hp : pathUsable s r.src.toNat d = true) (hr : refusal s false (reqAddr s r) r.len = none) (hc : CleanDram s (reqAddr s r) r.len) :
    netDo s r = (s, some (stOk, s.fab.mem.readN (reqAddr s r) r.len, false)) := by
  have hx := readAt_dram (src := r.src.toNat) ht hp hr hc
  simp [netDo, ht, ho, nodeOf, hp, hx]
  rfl

theorem netDo_dram_write {s u : State} {r : NetReq} {d off : Nat} (ht : reqTarget s r = .dram d off) (ho : r.op = 1)
    (hp : pathUsable s r.src.toNat d = true) (hr : refusal s true (reqAddr s r) r.data.length = none)
    (hm : mirrorOf s 1 (reqAddr s r) r.data.length = none) (hw : dramWrite s r.src.toNat (reqAddr s r) r.data r.poison = (u, stOk))
    (hu : u.fab.mir = s.fab.mir) : netDo s r = (u, some (stOk, [], false)) := by
  have hx := writeFor_dram (w := .network) (tag := r.tag) (src := r.src.toNat) (label := r.label.toNat) (poison := r.poison) ht hp hr hm
  have hx := hx.trans hw
  simp [netDo, ht, ho, nodeOf, hp, hx, hu]

theorem networkRequest_served {s : State} {r : NetReq} (h : Served s r) : exec (.networkRequest r) s = .next (netServe s r) := by
  have hm : malformedReq r = none := malformedReq_wf h.1
  change networkRequest s r = _
  simp [networkRequest, hm]

/-- Settles O7: the request is charged, which no condition of the target sees, and then read or written in DRAM. -/
theorem networkRequestsReadAndWriteDram : Obligations.NetworkRequestsReadAndWriteDram := by
  unfold Obligations.NetworkRequestsReadAndWriteDram
  intro r s d off hs ht
  obtain ⟨l, q, h, hu⟩ := qosCharge_netTake_eq s r
  have hpath : pathUsable s r.src.toNat d = true := by
    obtain ⟨-, -, -, -, -, hp⟩ := hs
    rwa [ht] at hp
  refine ⟨fun ho hr hc => ?_, fun ho hr hm he => ?_⟩
  · have hd := netDo_dram_read (s := qosCharge (netTake s r) r) (r := r) (by rw [hu]; exact ht) ho (by rw [hu]; exact hpath)
      (by rw [hu]; exact hr) (by rw [hu]; exact hc)
    refine ⟨_, networkRequest_served hs, ?_⟩
    rw [netServe_answers hs hd, netAnswer_ok, hu]
    exact ⟨rfl, rfl⟩
  · have hlen : r.data.length = r.len := data_length_of_wf hs.1 ho
    obtain ⟨x, e, m, hw⟩ := dramWrite_eq (s := qosCharge (netTake s r) r) (a := reqAddr (qosCharge (netTake s r) r) r) (bs := r.data)
      r.src.toNat r.poison
      (by rw [hu, hlen]; exact he)
    have hd := netDo_dram_write (s := qosCharge (netTake s r) r) (r := r) (by rw [hu]; exact ht) ho (by rw [hu]; exact hpath)
      (by rw [hu, hlen]; exact hr) (by rw [hu, hlen]; exact hm) hw rfl
    refine ⟨_, networkRequest_served hs, ?_⟩
    rw [netServe_answers hs hd, netAnswer_ok, hu]
    exact ⟨rfl, storesAt_write rfl, rfl⟩

end Sys2Proof.Machine
end

section
/-! PROOFS. The end of a partition's drain and BAR2 accesses (R34, R282, R286). -/

namespace Sys2Proof.Machine

/-! ### The end of a drain -/

/-- A read that is cut off has changed nothing at its target. -/
theorem cutWrite_read {s : State} {r : NetReq} (h : r.op = 0) : cutWrite s r = s := by
  simp [cutWrite, h]

/-- An answer to a master other than BAR2 is the response alone. -/
theorem netAnswer_notBar2 {s : State} {r : NetReq} (st : Half) (bs : List Byte) (poison : Bool) (h : r.src ≠ 0x33) :
    netAnswer s r st bs poison = { s with fab.net.rsps := s.fab.net.rsps ++
      [{ src := r.src, tag := r.tag, op := r.op, addr := r.addr, len := r.len, status := st, data := bs, poison := poison }] } := by
  have hn : r.src.toNat ≠ 0x33 := fun e => h (BitVec.eq_of_toNat_eq e)
  simp [netAnswer, hn]

theorem netTake_only {s : State} {r : NetReq} (h : s.fab.net.inflight = [r]) : (netTake s r).fab.net.inflight = [] := by
  simp [netTake, h, eraseFirst]

/-- The end of the drain of a partition in reset cuts off the one request under way, a read at the partition (R34). -/
theorem partitionTimeout_read {s : State} {d : Nat} {tile : Option Nat} {r : NetReq} (hd : partitionDown s d tile = true)
    (hi : s.fab.net.inflight = [r]) (ha : atPartition s d tile r = true) (ho : r.op = 0) :
    partitionTimeout s d tile = netAnswer (netTake s r) r stTargetReset (List.replicate r.len 0) true := by
  simp [partitionTimeout, hd, hi, ha, cutWrite_read ho, ho]

/-! ### BAR2 -/

/-- In Run with no entry under way an access wakes nothing (R402). -/
theorem wakeBar2_run {s : State} (hr : s.pwr.state = .run) (he : s.pwr.entering = none) : wakeBar2 s = s := by
  simp [wakeBar2, wakeEvent, hr, he]

/-- A range within one 256-byte block is one piece (R37). -/
theorem pieces_within {a n : Nat} (hn : 0 < n) (h : a % 256 + n ≤ 256) : pieces a n = [(a, 0, n)] := by
  have hk : (a + n + 255) / 256 - a / 256 = 1 := by omega
  have hlo : max a (a / 256 * 256) = a := by omega
  have hhi : min (a + n) ((a / 256 + 1) * 256) = a + n := by omega
  simp [pieces, hk, hlo, hhi]

theorem bar2Piece_run {s : State} {r : NetReq} (hr : s.pwr.state = .run) (hl : bar2Illegal r.addr.toNat = false) :
    bar2Piece s r = { s with fab.net.inflight := s.fab.net.inflight ++ [r] } := by
  simp [bar2Piece, hl, targetStopped, stoppedDomain, hr]

/-- Settles O9: the one request that the time-out cuts off is answered, the one piece of a BAR2 access joins the network, and D3hot lets
none through. -/
theorem drainTimeoutAndBar2EnterNetwork : Obligations.DrainTimeoutAndBar2EnterNetwork := by
  unfold Obligations.DrainTimeoutAndBar2EnterNetwork
  refine ⟨fun d p r s hd hi ha ho hsrc => ?_, fun write off len data s hd3 hup hlen hoff hrun hent hblock htop hlegal => ?_,
    fun write off len data s hd3 => ?_⟩
  · refine ⟨_, rfl, ?_⟩
    rw [partitionTimeout_read hd hi ha ho, netAnswer_notBar2 _ _ _ hsrc]
    exact ⟨rfl, netTake_only hi, rfl⟩
  · change (.next (bar2Access s write off len data) : Out) = _
    have haddr : (BitVec.ofNat 48 (s.host.pci.winBase + off)).toNat = s.host.pci.winBase + off := by
      rw [BitVec.toNat_ofNat, Nat.mod_eq_of_lt (by omega)]
    rw [bar2Access, if_neg (by simp [hd3, hup]; omega), pieces_within hlen hblock, wakeBar2_run hrun hent]
    simp only [List.zipIdx_cons, List.zipIdx_nil, List.foldl_cons, List.foldl_nil]
    rw [bar2Piece_run hrun (by rw [haddr]; exact hlegal)]
    rfl
  · change (.next (bar2Access s write off len data) : Out) = _
    rw [bar2Access, if_pos (by simp [hd3])]

end Sys2Proof.Machine
end

section
/-! PROOFS. What a command makes of one island: its frame, its pins, the latch and FAULT (R335–R337, R341, R362, R371). -/

namespace Sys2Proof.Machine

/-! ### One island changed -/

@[simp] theorem State.isle_modIsl (s : State) (i : Nat) (f : Island → Island) : (s.modIsl i f).isle i = f (s.isle i) :=
  Tab.get_modify_self _ _ _

/-- A command that applies `f` to island `i`. -/
theorem isleBecomes_modIsl {c : Instr} {s u : State} {i : Nat} {f : Island → Island} {P : Island → Prop}
    (h : exec c s = .next (u.modIsl i f)) (hp : P (f (u.isle i))) : IsleBecomes c s u i P := by
  refine ⟨_, h, ?_, ?_⟩
  · rw [State.isle_modIsl]; rfl
  · rw [State.isle_modIsl]; exact hp

/-- A command that applies `f` to island `i`, which makes it `b`. -/
theorem isleBecomes_eq {c : Instr} {s u : State} {i : Nat} {f : Island → Island} {b : Island} {P : Island → Prop}
    (h : exec c s = .next (u.modIsl i f)) (he : f (u.isle i) = b) (hp : P b) : IsleBecomes c s u i P :=
  isleBecomes_modIsl h (he ▸ hp)

/-- What the island reports joins its notes while the hub segment is up (R370). -/
theorem note_eq (up : Bool) (code p0 p1 : Nat) (a : Island) :
    note up code p0 p1 a = { a with notes := a.notes ++ if up = true then [(code, p0, p1)] else [] } := by
  cases up <;> simp [note]

/-! ### Pins -/

theorem outHigh_iff (a : Island) : outHigh a = true ↔ Releasing a := by
  simp [outHigh, Releasing]

/-- A change after which the island releases no outputs, and that leaves pins and notes, makes the pins fall (R335, R371). -/
theorem drive_falls {up : Bool} {a b : Island} (hb : ¬ Releasing b) (h0 : b.pin0 = a.pin0) (h1 : b.pin1 = a.pin1) (hn : b.notes = a.notes) :
    PinsFall up a (drive up a b) ∧
    drive up a b = { b with pin0 := (drive up a b).pin0, pin1 := (drive up a b).pin1, notes := (drive up a b).notes } := by
  have hb : outHigh b = false := by rw [← outHigh_iff] at hb; simpa using hb
  by_cases ha : Releasing a
  · have ho : outHigh a = true := (outHigh_iff a).mpr ha
    have hd : drive up a b = setPins up false false b := by simp [drive, ho, hb]
    have hs : setPins up false false b = { b with
        pin0 := false, pin1 := false
        notes := b.notes ++ if up = true ∧ a.pin0 = true ∧ a.pin1 = true then [(0x0B05, 1, 0)] else [] } := by
      cases hp : a.pin0 <;> cases hq : a.pin1 <;> simp [setPins, outAsserted, note_eq, h0, h1, hp, hq, b2n]
    rw [hd, hs, hn]
    exact ⟨⟨fun _ => ⟨rfl, rfl, rfl⟩, fun h => absurd ha h⟩, rfl⟩
  · have ho : outHigh a = false := by rw [← outHigh_iff] at ha; simpa using ha
    have hd : drive up a b = b := by simp [drive, ho, hb]
    rw [hd]
    exact ⟨⟨fun h => absurd h ha, fun _ => ⟨h0, h1, hn⟩⟩, rfl⟩

/-! ### The latch and FAULT -/

theorem latch_latched (up : Bool) (bits : Nat) (a : Island) : Latched up bits a (latch up bits a) := by
  refine ⟨fun h1 h2 => by simp [latch, h1, h2], fun h => ⟨fun hd => ?_, fun hd => ?_⟩⟩
  · simp [latch, h, hd, driven, drive, outHigh]
  · have hl : latch up bits a = drive up a (newNonce { a with cause := a.cause ||| bits, degraded := true, latchCnt := cnt a.latchCnt 1 }) := by
      simp [latch, h, hd, driven]
    rw [hl]
    exact drive_falls (by simp [Releasing, newNonce]) rfl rfl rfl

theorem islFault_faulted (up : Bool) (code : Nat) (a : Island) : Faulted up code a (islFault up code a) := by
  refine ⟨fun h => by simp [islFault, h], fun h1 h2 => ?_⟩
  have hf : islFault up code a = drive up a
      { a with state := .fault, fault := code, judge := none, slice := none, offer := none, deferred := false } := by
    simp [islFault, h1, h2, driven]
  rw [hf]
  exact drive_falls (by simp [Releasing]) rfl rfl rfl

/-- What latching may change. -/
theorem Latched.frame {up : Bool} {bits : Nat} {a b : Island} (h : Latched up bits a b) :
    b = { a with cause := b.cause, degraded := b.degraded, latchCnt := b.latchCnt, rng := b.rng, nonce := b.nonce,
                 pin0 := b.pin0, pin1 := b.pin1, notes := b.notes } := by
  obtain ⟨h1, h2⟩ := h
  by_cases hs : a.state = .run ∨ a.state = .config
  · obtain ⟨h3, h4⟩ := h2 hs
    cases hd : a.degraded
    · rw [(h4 hd).2]
    · rw [h3 hd]
  · rw [not_or] at hs
    rw [h1 hs.1 hs.2]

end Sys2Proof.Machine
end

section
/-! PROOFS. Safety-link frames, DT and E2E records as an island receives them (R25, R258, R350–R354). -/

namespace Sys2Proof.Machine

/-! ### Safety-link frames -/

theorem inject_none {s : State} (h : NoInjector s) (cls idx grp dir : Nat) : inject s cls idx grp dir = (s, none) := by
  unfold inject
  dsimp only
  split
  · rfl
  · next i hi =>
    have hmem : i ∈ List.range 8 := List.mem_of_find?_eq_some hi
    have harm := List.find?_some hi
    simp [h i (List.mem_range.mp hmem)] at harm

/-- Every segment ends at the hub or crosses it: it is up only while the hub's are (R26). -/
theorem hubLinkUp_of_segUp {s : State} {g : Segment} (h : segUp s g = true) : hubLinkUp s = true := by
  cases g <;> simp_all [segUp, dieLinkUp]

theorem safetyFrame_down {s : State} {g : Segment} (ok : Bool) (b : SafetyPayload) (it : Nat) (h : segUp s g = false) :
    safetyFrame s g ok b it = takeFrame s (segIsland g) b := by
  have h : segUp (takeFrame s (segIsland g) b) g = false := h
  simp [safetyFrame, h]

theorem safetyFrame_damaged {s : State} {g : Segment} (b : SafetyPayload) (it : Nat) (h : segUp s g = true) (hn : NoInjector s) :
    safetyFrame s g false b it = if (s.isle (segIsland g)).state = .reset then takeFrame s (segIsland g) b
      else (takeFrame s (segIsland g) b).modIsl (segIsland g) (fun a => { a with linkErr := cnt a.linkErr 1 }) := by
  have h : segUp (takeFrame s (segIsland g) b) g = true := h
  have hn : NoInjector (takeFrame s (segIsland g) b) := hn
  have hi : (takeFrame s (segIsland g) b).isle (segIsland g) = s.isle (segIsland g) := rfl
  by_cases hr : (s.isle (segIsland g)).state = .reset <;> simp [safetyFrame, h, inject_none hn, hi, hr]

theorem safetyFrame_intact {s : State} {g : Segment} (b : SafetyPayload) (it : Nat) (h : segUp s g = true) (hn : NoInjector s) :
    safetyFrame s g true b it = framePayload (takeFrame s (segIsland g) b) (segIsland g) it b := by
  have h : segUp (takeFrame s (segIsland g) b) g = true := h
  have hn : NoInjector (takeFrame s (segIsland g) b) := hn
  simp [safetyFrame, h, inject_none hn]

/-! ### Device time -/

/-- The first frame is the one whose end is the first after an instant (R351). -/
theorem firstK_first {t : List Byte} (now : Nat) (h : 0 < tblFrame t) :
    now < tblPhase t + firstK t now * tblFrame t ∧ (firstK t now = 0 ∨ tblPhase t + (firstK t now - 1) * tblFrame t ≤ now) := by
  unfold firstK
  dsimp only
  split
  · exact ⟨by omega, .inl rfl⟩
  · have hx : (now : Int) - tblPhase t = ((now - tblPhase t : Nat) : Int) := by omega
    have hq : (((now : Int) - tblPhase t) / tblFrame t).toNat = (now - tblPhase t) / tblFrame t := by
      rw [hx, ← Int.natCast_ediv, Int.toNat_natCast]
    rw [hq]
    have hlt := Nat.lt_mul_div_succ (now - tblPhase t) h
    have hle := Nat.div_mul_le_self (now - tblPhase t) (tblFrame t)
    rw [Nat.mul_comm] at hlt
    exact ⟨by omega, .inr (by rw [Nat.add_sub_cancel]; omega)⟩

/-- A DT that anchors DTe sets the first frame of a table in force (R350, R351). -/
theorem dtReceive_anchors {a : Island} (dt it : Nat) (h : ¬ (a.state = .reset ∨ a.state = .fault ∨ a.anchor.isSome = true)) :
    dtReceive dt it a = { a with it := max a.it it, anchor := some (dt, it),
                                 nextK := match a.table with
                                   | some t => some (firstK t (dt + (max a.it it - it) : Nat))
                                   | none => a.nextK } := by
  have hd : ((dt : Int) + (max a.it it : Nat) - it) = ((dt + (max a.it it - it) : Nat) : Int) := by omega
  cases ht : a.table <;> simp only [dtReceive, if_neg h, setFirst, tickIt, ht, dteAt, hd]

/-! ### Records -/

/-- A field within the first bytes is that field of the whole. -/
theorem fld_take {bs : List Byte} {k off n : Nat} (hk : off + n ≤ k) (hl : k ≤ bs.length) : fld (bs.take k) off n = fld bs off n := by
  have ht : bs.take k = slice bs 0 k := by simp [slice, hl]
  rw [ht, fld_slice bs hk]

theorem e2eReject_discarded (up : Bool) (src st kind : Nat) (mark : Option Nat) (a : Island) :
    Discarded up src st kind mark a (e2eReject up src st kind mark a) := by
  cases mark <;> simp [Discarded, e2eReject, note_eq, modStream]

/-- The lane after one write of a whole record from its first byte on (R353). -/
def filledLane (data : List Byte) : Lane :=
  { active := true, bytes := (List.range data.length).foldl (fun b i => assocSet i (data.getD i 0) b) [], dup := false }

theorem any_assocSet {α : Type} (i j : Nat) (v : α) (l : List (Nat × α)) :
    (assocSet i v l).any (fun c => c.1 == j) = (decide (i = j) || l.any (fun c => c.1 == j)) := by
  induction l with
  | nil => simp [assocSet, beq_eq_decide]
  | cons c r ih =>
    by_cases hc : c.1 = i
    · by_cases hj : i = j <;> simp [assocSet, hc, hj]
    · simp only [assocSet, hc, if_false, List.any_cons, ih]
      exact Bool.or_left_comm _ _ _

theorem assocGet_foldl_assocSet {α : Type} (d : α) (f : Nat → α) (n j : Nat) :
    assocGet d ((List.range n).foldl (fun b i => assocSet i (f i) b) []) j = if j < n then f j else d := by
  induction n with
  | zero => simp [assocGet]
  | succ n ih =>
    rw [List.range_succ, List.foldl_append, List.foldl_cons, List.foldl_nil, assocGet_assocSet, ih]
    rcases Nat.lt_trichotomy j n with h | rfl | h
    · simp [h, Nat.lt_succ_of_lt h, (Nat.ne_of_lt h).symm]
    · simp
    · simp [Nat.ne_of_lt h, Nat.not_lt_of_lt h, show ¬ j < n + 1 by omega]

theorem any_foldl_assocSet {α : Type} (f : Nat → α) (n j : Nat) :
    ((List.range n).foldl (fun b i => assocSet i (f i) b) []).any (fun c => c.1 == j) = decide (j < n) := by
  induction n with
  | zero => simp
  | succ n ih =>
    rw [List.range_succ, List.foldl_append, List.foldl_cons, List.foldl_nil, any_assocSet, ih, ← Bool.decide_or]
    exact decide_eq_decide.mpr (by omega)

theorem laneBytes_filled {data : List Byte} {off n : Nat} (h : off + n ≤ data.length) :
    laneBytes (filledLane data) off n = (data.drop off).take n := by
  refine List.ext_getElem (by simp [laneBytes]; omega) (fun i h1 h2 => ?_)
  have hi : i < n := by simpa [laneBytes] using h1
  have hl : off + i < data.length := by omega
  simp [laneBytes, filledLane, assocGet_foldl_assocSet, hl]

theorem laneHas_filled {data : List Byte} {n : Nat} (h : n ≤ data.length) : laneHas (filledLane data) n = true := by
  rw [laneHas, List.all_eq_true]
  intro i hi
  have : i < data.length := lt_of_lt_of_le (List.mem_range.mp hi) h
  rw [filledLane, any_foldl_assocSet]
  exact decide_eq_true this

theorem e2eWrite_notRunning {up : Bool} {src off unknown : Nat} {data : List Byte} {a : Island} (hs : a.state ≠ .run) :
    e2eWrite up src off data unknown a = a := by
  simp [e2eWrite, hs]

/-- A record starts with its first byte (R353). -/
theorem e2eWrite_notStarted {up : Bool} {ln off unknown : Nat} {data : List Byte} {a : Island} (hl : ln = off / 1024)
    (ha : (a.lanes.get ln).active = false) (ho : off % 1024 ≠ 0) : e2eWrite up ln off data unknown a = a := by
  subst hl
  simp [e2eWrite, ha, ho]

/-- A write by another source than the lane's discards the record in progress, whose stream byte has been written (check 1 of R354). -/
theorem e2eWrite_masquerade {up : Bool} {src off unknown : Nat} {data t : List Byte} {a : Island} (hs : a.state = .run) (ht : a.table = some t)
    (hsrc : src ≠ off / 1024) (hb : (a.lanes.get (off / 1024)).bytes.any (fun c => c.1 == 2) = true) :
    let st := (assocGet 0 (a.lanes.get (off / 1024)).bytes 2).toNat
    Discarded up (off / 1024) st 1 (streamIndex t (off / 1024) st) { a with lanes := a.lanes.set (off / 1024) laneEmpty }
      (e2eWrite up src off data unknown a) := by
  intro st
  have he : e2eWrite up src off data unknown a =
      e2eReject up (off / 1024) st 1 (streamIndex t (off / 1024) st) { a with lanes := a.lanes.set (off / 1024) laneEmpty } := by
    simp [e2eWrite, hs, ht, hsrc, hb, st]
  rw [he]
  exact e2eReject_discarded ..

/-- A whole record written at once into an empty lane by the lane's own source is validated (R353, R354). -/
theorem e2eWrite_record {up : Bool} {ln unknown : Nat} {data : List Byte} {a : Island} (hs : a.state = .run) (hl : a.lanes.get ln = laneEmpty)
    (hd : data.length = 24 + fld data 16 2) (h1 : data.length ≤ 1024) :
    e2eWrite up ln (ln * 1024) data unknown a =
      e2eRecord up ln false (data.take 24) (data.drop 24) false { a with lanes := a.lanes.set ln laneEmpty } := by
  rw [← fld_take (k := 24) (by omega) (by omega)] at hd
  have hq : ln * 1024 / 1024 = ln := Nat.mul_div_cancel _ (by omega)
  have hr : ln * 1024 % 1024 = 0 := Nat.mul_mod_left _ _
  have hws : (List.range (min data.length (1024 - 0))).map (fun i => (0 + i, data.getD i 0)) =
      (List.range data.length).map (fun i => (i, data.getD i 0)) := by simp [Nat.min_eq_left h1]
  have hdup : (laneEmpty.dup || ((List.range data.length).map (fun i => (i, data.getD i 0))).any
      (fun w => laneEmpty.bytes.any (fun c => c.1 == w.1))) = false := by simp [laneEmpty]
  have hbytes : ((List.range data.length).map (fun i => (i, data.getD i 0))).foldl (fun b w => assocSet w.1 w.2 b) laneEmpty.bytes =
      (filledLane data).bytes := by simp [laneEmpty, filledLane, List.foldl_map]
  have hfill : ({ active := true, dup := false, bytes := (filledLane data).bytes } : Lane) = filledLane data := rfl
  have hh : laneBytes (filledLane data) 0 24 = data.take 24 := laneBytes_filled (by omega)
  have hp : laneBytes (filledLane data) 24 (fld (data.take 24) 16 2) = data.drop 24 := by
    rw [laneBytes_filled (by omega), List.take_of_length_le (by rw [List.length_drop]; omega)]
  unfold e2eWrite
  simp only [hq, hr, hl, hws, hdup, hbytes, hfill, hh, hp, hs, laneHas_filled (data := data) (n := 24) (by omega),
    laneHas_filled (data := data) (n := 24 + fld (data.take 24) 16 2) (by omega)]
  rw [if_neg (by simp), if_neg (by simp), if_neg (by simp), if_neg (by simp), if_neg (by omega), if_neg (by simp)]

/-- The number of a received record does not follow the stream's last by 1 to the stream's limit (check 6 of R354). -/
def SeqBad (x : E2eStream) (e data : List Byte) : Prop :=
  ∃ q, x.seq = some q ∧ ¬ (1 ≤ (fld data 4 4 + 2 ^ 32 - q) % 2 ^ 32 ∧ (fld data 4 4 + 2 ^ 32 - q) % 2 ^ 32 ≤ fld e 6 1)

section
variable {a : Island} {t data pay : List Byte} {src : Nat} (hl : 24 ≤ data.length)
include hl

theorem fld_header {off n : Nat} (hn : off + n ≤ 24) : fld (data.take 24) off n = fld data off n := fld_take hn hl

/-- A record that fails check `k` of R354 is discarded; one of no stream in the table marks none. -/
theorem e2eRecord_discarded {up : Bool} {k : Nat} (ht : a.table = some t) (hk : e2eCheck a t src false (data.take 24) pay = k) (h0 : k ≠ 0) :
    Discarded up src (fld data 2 1) k (if k = 4 then none else streamIndex t src (fld data 2 1)) a
      (e2eRecord up src false (data.take 24) pay false a) := by
  have he : e2eRecord up src false (data.take 24) pay false a =
      e2eReject up src (fld data 2 1) k (if k = 4 then none else streamIndex t src (fld data 2 1)) a := by
    simp [e2eRecord, ht, hk, h0, fld_header hl]
  rw [he]
  exact e2eReject_discarded ..

/-- A record that passes every check becomes its stream's last (R351, R354). -/
theorem e2eRecord_taken {up : Bool} (ht : a.table = some t) (hk : e2eCheck a t src false (data.take 24) pay = 0) :
    e2eRecord up src false (data.take 24) pay false a = modStream ((streamIndex t src (fld data 2 1)).getD 0) (fun x => { x with
      seq := some (fld data 4 4), prev := x.last, inFrame := true
      last := some { seq := fld data 4 4, dt := fld data 8 8, crc := fld data 20 4, pay := pay, gen := a.gen } }) a := by
  simp [e2eRecord, ht, hk, fld_header hl]

theorem e2eCheck_header (h3 : fld data 0 1 ≠ 1 ∨ fld data 3 1 ≠ 0 ∨ fld data 18 2 ≠ 0 ∨ fld data 1 1 ≠ src) :
    e2eCheck a t src false (data.take 24) pay = 3 := by
  simp (disch := omega) only [e2eCheck, fld_header hl, if_pos h3]
  rfl

variable (h3 : ¬ (fld data 0 1 ≠ 1 ∨ fld data 3 1 ≠ 0 ∨ fld data 18 2 ≠ 0 ∨ fld data 1 1 ≠ src))
include h3

theorem e2eCheck_stream
    (h4 : let e := tblStream t ((streamIndex t src (fld data 2 1)).getD 0)
      streamIndex t src (fld data 2 1) = none ∨ pay.length < fld e 2 2 ∨ fld e 4 2 < pay.length) :
    e2eCheck a t src false (data.take 24) pay = 4 := by
  rw [← Option.isNone_iff_eq_none] at h4
  simp (disch := omega) only [e2eCheck, fld_header hl, if_neg h3, if_pos h4]
  rfl

variable (h4 : let e := tblStream t ((streamIndex t src (fld data 2 1)).getD 0)
  ¬ (streamIndex t src (fld data 2 1) = none ∨ pay.length < fld e 2 2 ∨ fld e 4 2 < pay.length))
include h4

theorem e2eCheck_crc (h5 : recordCrc (data.take 24) pay ≠ fld data 20 4) : e2eCheck a t src false (data.take 24) pay = 5 := by
  rw [← Option.isNone_iff_eq_none] at h4
  simp (disch := omega) only [e2eCheck, fld_header hl, if_neg h3, if_neg h4, if_pos h5]
  rfl

theorem e2eCheck_seq (h5 : ¬ recordCrc (data.take 24) pay ≠ fld data 20 4) :
    let n := (streamIndex t src (fld data 2 1)).getD 0
    (SeqBad (a.streams.getD n streamFresh) (tblStream t n) data → e2eCheck a t src false (data.take 24) pay = 6) ∧
    (¬ SeqBad (a.streams.getD n streamFresh) (tblStream t n) data → e2eCheck a t src false (data.take 24) pay = 0) := by
  rw [← Option.isNone_iff_eq_none] at h4
  simp (disch := omega) only [e2eCheck, fld_header hl, if_neg h3, if_neg h4, if_neg h5, SeqBad]
  cases (a.streams.getD ((streamIndex t src (fld data 2 1)).getD 0) streamFresh).seq with
  | none => simp
  | some q => simp; omega
end

end Sys2Proof.Machine
end

section
/-! PROOFS. Cameras, the safety sensor, frame boundaries, judgements, self-tests and the mirror of an island (R323, R351, R360–R371). -/

namespace Sys2Proof.Machine

/-! ### Cameras and the safety sensor -/

theorem tapArrive_unwatched {m : TapMessage} {a : Island} (it : Nat)
    (h : a.state = .run → a.table.bind (fun t => frozenRule t m.port) = none) : tapArrive m it a = a := by
  unfold tapArrive
  split
  · next hs hr => rw [h hs] at hr; cases hr
  · rfl

/-- A tap's message for a camera under a rule: its signature, what holds now, and what is latched (R323). -/
theorem tapArrive_watched {m : TapMessage} {a : Island} {r : List Byte} (it : Nat) (hs : a.state = .run)
    (hr : a.table.bind (fun t => frozenRule t m.port) = some r) : tapArrive m it a =
      let x := a.cams.get m.port
      let sig := crc32c (m.samples ++ if bit (fld r 7 1) 0 = true then slice m.embedded 0 64 else [])
      let same := if x.sig = some sig then x.same + 1 else 1
      let now := (if frozenN r ≤ same then 1 else 0) + if x.seen = true ∧ m.fnum ≠ 0 ∧ m.fnum = x.fnum then 2 else 0
      let why := now + if frozenGap r < ((it : Int) - x.lastIt : Int) then 4 else 0
      { a with cams := a.cams.set m.port { x with
        sig := some sig, same := same, fnum := m.fnum, seen := true, lastIt := it, now := now, trunc := m.trunc
        cause := x.cause ||| why, frozen := x.frozen || decide (why ≠ 0) } } := by
  have hb : ∀ n : Nat, (n != 0) = decide (n ≠ 0) := fun n => by cases n <;> rfl
  simp only [tapArrive, hs, hr, b2n, decide_eq_true_eq, mul_ite, mul_one, mul_zero, hb]

theorem frozenGapOut_unwatched {port : Nat} {a : Island} (it : Nat)
    (h : a.state ≠ .run ∨ a.table.bind (fun t => frozenRule t port) = none) : frozenGapOut port it a = a := by
  unfold frozenGapOut
  split
  · next hs hr => exact absurd (h.resolve_left (not_not_intro hs)) (by rw [hr]; exact Option.some_ne_none _)
  · rfl

theorem frozenGapOut_watched {port : Nat} {a : Island} {r : List Byte} (it : Nat) (hs : a.state = .run)
    (hr : a.table.bind (fun t => frozenRule t port) = some r) :
    frozenGapOut port it a = if frozenGap r ≤ ((it : Int) - (a.cams.get port).lastIt : Int) then
      { a with cams := a.cams.set port { a.cams.get port with
        now := (a.cams.get port).now ||| 4, cause := (a.cams.get port).cause ||| 4, frozen := true } } else a := by
  simp only [frozenGapOut, hs, hr]

theorem sensorArrive_unused {ty it : Nat} {p : List Byte} {a : Island} (h : a.state ≠ .run ∨ a.table = none ∨ a.cfg = none) :
    sensorArrive ty p it a = a := by
  unfold sensorArrive
  split
  · next hs ht hc => simp [hs, ht, hc] at h
  · rfl

theorem sensorArrive_used {ty : Nat} {p t c : List Byte} {a : Island} (it : Nat) (hs : a.state = .run) (ht : a.table = some t)
    (hc : a.cfg = some c) : sensorArrive ty p it a =
      let n := fld t 41 1
      let e := 16 + 2 * n
      if fld c 24 1 = 0 ∨ n = 0 ∨ ty ≠ fld t 42 2 then a
      else if p.length < e + 4 ∨ fld p 0 1 ≠ 1 ∨ fld p 1 1 ≠ n ∨ (crc32c (p.take e)).toNat ≠ fld p e 4 ∨ a.sensSeq = some (fld p 4 4) then
        { a with sensErr := cnt a.sensErr 1 }
      else { a with sensSeq := some (fld p 4 4), sensor := some (it, (List.range n).map (fun q => fld p (16 + 2 * q) 2)) } := by
  simp only [sensorArrive, hs, ht, hc]

/-! ### Frame boundaries -/

theorem frameBoundary_waits {dt : Option Nat} {it : Nat} {a : Island}
    (h : a.state ≠ .run ∨ a.table = none ∨ a.nextK = none ∨ a.anchor = none ∨ a.judge.isSome = true) : frameBoundary dt it a = a := by
  unfold frameBoundary
  split
  · next hs ht hk ha =>
    simp only [hs, ht, hk, ha, ne_eq, not_true_eq_false, reduceCtorEq, false_or] at h
    simp [h]
  · rfl

/-- A DT was received and lies within the table's tolerance of DTe (R350). -/
def dtGood (t : List Byte) (rx : Option Nat) (dte : Int) : Bool :=
  match rx.map (fun d => (d : Int) - dte) with
  | some x => decide (x.natAbs ≤ fld t 32 4)
  | none => false

theorem dtGood_iff {t : List Byte} {rx : Option Nat} {dte : Int} :
    dtGood t rx dte = true ↔ ∃ r, rx = some r ∧ ((r : Int) - dte).natAbs ≤ fld t 32 4 := by
  cases rx <;> simp [dtGood]

/-- The island after a boundary, before a replacement table is applied (R350, R351, R365). -/
def bounded (rx : Option Nat) (it k : Nat) (t : List Byte) (dte : Int) (a : Island) : Island :=
  { a with
    dtDiff := (rx.map (fun d => (d : Int) - dte)).getD a.dtDiff
    anchor := if dtGood t rx dte = true then rx.map (fun d => (d, it)) else a.anchor
    nextK := some (k + 1)
    judge := some { k := k, dte := dte, timeBad := !dtGood t rx dte, table := t, streams := a.streams, cams := a.cams, sensor := a.sensor, it := it }
    streams := a.streams.map (fun (x : E2eStream) => { x with inFrame := false, err := false }) }

section
variable {rx : Option Nat} {it k d i0 : Nat} {t : List Byte} {a : Island} (hs : a.state = .run) (ht : a.table = some t) (hk : a.nextK = some k)
  (ha : a.anchor = some (d, i0))
include hs ht hk ha

theorem frameBoundary_at : frameBoundary rx it a =
    if dteAt a it < (tblPhase t + k * tblFrame t : Nat) ∨ a.judge.isSome = true then a
    else match a.nextTable with
      | some n =>
        let b := applyTable n (bounded rx it k t (dteAt a it) a)
        { b with nextK := some (firstK n (dteAt b it)) }
      | none => bounded rx it k t (dteAt a it) a := by
  unfold frameBoundary
  split
  · next t' k' x hs' ht' hk' ha' =>
    obtain rfl : t = t' := Option.some.inj (ht.symm.trans ht')
    obtain rfl : k = k' := Option.some.inj (hk.symm.trans hk')
    cases rx <;> rfl
  · next h => exact absurd ha (h t k _ hs ht hk)

theorem frameBoundary_early (h : (d : Int) + it - i0 < (tblPhase t + k * tblFrame t : Nat)) : frameBoundary rx it a = a := by
  have hd : dteAt a it = (d : Int) + it - i0 := by simp [dteAt, ha]
  rw [frameBoundary_at hs ht hk ha, hd, if_pos (.inl h)]

theorem frameBoundary_ends (h : ((tblPhase t + k * tblFrame t : Nat) : Int) ≤ (d : Int) + it - i0) (hj : a.judge = none) :
    frameBoundary rx it a = match a.nextTable with
      | some n =>
        let b := applyTable n (bounded rx it k t ((d : Int) + it - i0) a)
        { b with nextK := some (firstK n (dteAt b it)) }
      | none => bounded rx it k t ((d : Int) + it - i0) a := by
  have hd : dteAt a it = (d : Int) + it - i0 := by simp [dteAt, ha]
  have hn : ¬ ((d : Int) + it - i0 < (tblPhase t + k * tblFrame t : Nat) ∨ a.judge.isSome = true) := by simpa [hj] using h
  rw [frameBoundary_at hs ht hk ha, hd, if_neg hn]
end

/-! ### Judgements -/

theorem foldl_max_le {l : List (Nat × Nat)} {m k : Nat} : l.foldl (fun m o => max m o.1) m ≤ k ↔ m ≤ k ∧ ∀ o ∈ l, o.1 ≤ k := by
  induction l generalizing m with
  | nil => simp
  | cons o l ih => rw [List.foldl_cons, ih, Nat.max_le, and_assoc, List.forall_mem_cons]

/-- The worst outcome of a frame: of the rules, and FAIL where the TIME check failed (R361). -/
def worstOf (bad : Bool) (outs : List (Nat × Nat)) : Nat := outs.foldl (fun m o => max m o.1) (if bad then 2 else 0)

theorem worstOf_le {bad : Bool} {outs : List (Nat × Nat)} {k : Nat} : worstOf bad outs ≤ k ↔ (bad = true → 2 ≤ k) ∧ ∀ o ∈ outs, o.1 ≤ k := by
  rw [worstOf, foldl_max_le]
  cases bad <;> simp

section
variable {bad : Bool} {outs : List (Nat × Nat)} (ho : ∀ o ∈ outs, o.1 ≤ 2)
include ho

theorem worstOf_le_two : worstOf bad outs ≤ 2 := worstOf_le.mpr ⟨fun _ => Nat.le_refl _, ho⟩

theorem worstOf_fail : worstOf bad outs = 2 ↔ bad = true ∨ ∃ o ∈ outs, o.1 = 2 := by
  have h1 : worstOf bad outs = 2 ↔ ¬ worstOf bad outs ≤ 1 := by have := worstOf_le_two (bad := bad) ho; omega
  have h2 : (∃ o ∈ outs, o.1 = 2) ↔ ∃ o ∈ outs, ¬ o.1 ≤ 1 :=
    exists_congr fun o => and_congr_right fun hm => by have := ho o hm; omega
  rw [h1, worstOf_le, h2]
  cases bad <;> simp

theorem worstOf_doubt : worstOf bad outs = 1 ↔ ¬ (bad = true ∨ ∃ o ∈ outs, o.1 = 2) ∧ ∃ o ∈ outs, o.1 = 1 := by
  rw [← worstOf_fail ho]
  have h1 : worstOf bad outs = 1 ↔ worstOf bad outs ≠ 2 ∧ ¬ worstOf bad outs ≤ 0 := by have := worstOf_le_two (bad := bad) ho; omega
  rw [h1, worstOf_le]
  refine and_congr_right fun hne => ?_
  obtain ⟨hb, hn⟩ := not_or.mp ((worstOf_fail ho).not.mp hne)
  have h2 : (∃ o ∈ outs, o.1 = 1) ↔ ∃ o ∈ outs, ¬ o.1 ≤ 0 :=
    exists_congr fun o => and_congr_right fun hm => by have := ho o hm; have : o.1 ≠ 2 := fun e => hn ⟨o, hm, e⟩; omega
  rw [h2]
  simp [hb]
end

theorem assocGet_graph {α : Type} (d : α) (f : Nat → α) (l : List Nat) (i : Nat) :
    assocGet d (l.map (fun k => (k, f k))) i = if i ∈ l then f i else d := by
  induction l with
  | nil => simp [assocGet]
  | cons k l ih =>
    by_cases h : k = i
    · simp [assocGet, h]
    · simp [assocGet, h, Ne.symm h, ih]

/-! #### The stages of a judgement -/

/-- The outcomes of a table's rules (R361). -/
def outcomes (j : Judging) : List (Nat × Nat) := (tableRules j.table).map (ruleOutcome j)

/-- The worst outcome of the frame under judgement. -/
def worst (j : Judging) : Nat := worstOf j.timeBad (outcomes j)

/-- The run of DOUBT frames that the frame makes (R361). -/
def doubtRunOf (a : Island) (j : Judging) : Nat := if worst j = 1 then a.doubtRun + 1 else 0

/-- The run of DOUBT frames has reached the table's limit (R361). -/
def runFails (a : Island) (j : Judging) : Bool := worst j == 1 && fld j.table 22 1 != 0 && decide (fld j.table 22 1 ≤ doubtRunOf a j)

/-- The verdict (R361, R369). -/
def verdictOf (a : Island) (j : Judging) : Nat := if runFails a j || a.overdue then 2 else worst j

/-- The record that the frame approves; a FAIL approves none (R361). -/
def approvalOf (a : Island) (j : Judging) : Option HeldRec := if verdictOf a j = 2 then none else approved j

/-- What ANV_FAIL names as the first to fail (R371). -/
def firstFailing (unknown : Nat) (a : Island) (j : Judging) : Nat :=
  match indexOf? (fun o => o.1 == 2) (outcomes j) with
  | some n => n
  | none => if j.timeBad then 0xFF else if runFails a j then 0xFE else unknown

/-- The island with a frame's verdict, approval, counts and report (R361, R371). -/
def judged (up : Bool) (unknown : Nat) (j : Judging) (a : Island) : Island :=
  let b := { a with
    judge := none, doubtRun := doubtRunOf a j, verdict := verdictOf a j, frame := j.k % 2 ^ 32
    ruleOut := { dflt := 0, cells := (List.range (outcomes j).length).map (fun n => (n, ((outcomes j).getD n (0, 0)).2)) }
    age := if (approvalOf a j).isSome then 0 else min (a.age + 1) 65535
    hold := (approvalOf a j).isNone
    held := if (approvalOf a j).isSome then approvalOf a j else a.held
    fails := ((verdictOf a j == 2) :: a.fails).take 20
    failCnt := if verdictOf a j = 2 then cnt a.failCnt 1 else a.failCnt
    doubtCnt := if verdictOf a j = 1 then cnt a.doubtCnt 1 else a.doubtCnt }
  if verdictOf a j = 2 then note up 0x0B01 (j.k % 2 ^ 32) (firstFailing unknown a j) b else b

/-- The causes that a judged island latches (R362). -/
def judgedCauses (j : Judging) (a : Island) : Nat :=
  (if a.fails.take 2 = [true, true] then 2 else 0) + (if 3 ≤ failsIn a.fails then 4 else 0) +
    (if (List.range 12).any (fun p => (frozenRule j.table p).isSome && (j.cams.get p).frozen) then 8 else 0) +
    (if a.hold ∧ fld j.table 23 1 ≤ a.age then 32 else 0) + (if a.overdue then 16 else 0)

/-- The causes latched, where there are any. -/
def causesLatched (up : Bool) (bits : Nat) (a : Island) : Island := if bits = 0 then a else latch up bits a

theorem causesLatched_latched (up : Bool) (bits : Nat) (a : Island) :
    (bits = 0 → causesLatched up bits a = a) ∧ (bits ≠ 0 → Latched up bits a (causesLatched up bits a)) := by
  refine ⟨fun h => by simp [causesLatched, h], fun h => ?_⟩
  rw [causesLatched, if_neg h]
  exact latch_latched ..

theorem causesLatched_frame (up : Bool) (bits : Nat) (a : Island) : let b := causesLatched up bits a
    b = { a with cause := b.cause, degraded := b.degraded, latchCnt := b.latchCnt, rng := b.rng, nonce := b.nonce,
                 pin0 := b.pin0, pin1 := b.pin1, notes := b.notes } := by
  by_cases h : bits = 0
  · rw [(causesLatched_latched up bits a).1 h]
  · exact ((causesLatched_latched up bits a).2 h).frame

theorem causesLatched_canOut (up : Bool) (bits : Nat) (a : Island) : (causesLatched up bits a).canOut = a.canOut :=
  (congrArg Island.canOut (causesLatched_frame up bits a) :)

theorem causesLatched_hold (up : Bool) (bits : Nat) (a : Island) : (causesLatched up bits a).hold = a.hold :=
  (congrArg Island.hold (causesLatched_frame up bits a) :)

/-- The output message of a judged island is sent on controller 0, and on controller 1 where the table asks for it (R364). -/
def messageSent (i : Nat) (j : Judging) (doubt : Bool) (a : Island) : Island :=
  let m := outputMessage i a j.k j.dte doubt
  { a with canOut := a.canOut ++ (0, fld j.table 36 2, m) :: if bit (fld j.table 40 1) 1 then [(1, fld j.table 36 2, m)] else [] }

/-- A judgement by its stages: the verdict, the causes, the output message. -/
theorem judgeFrame_eq (up : Bool) (i unknown : Nat) (j : Judging) (a : Island) :
    let m := judged up unknown j a
    let c := causesLatched up (judgedCauses j m) m
    judgeFrame up i j unknown a = messageSent i j (verdictOf a j == 1 && !c.hold) c := rfl

/-! #### What the stages give -/

theorem judgeFrame_keeps {α : Type} (f : Island → α) (up : Bool) (i unknown : Nat) (j : Judging) (a : Island)
    (hm : f (judged up unknown j a) = f a) (hc : ∀ (b : Island) c d l r n p q x, f { b with
      cause := c, degraded := d, latchCnt := l, rng := r, nonce := n, pin0 := p, pin1 := q, notes := x } = f b)
    (hs : ∀ (b : Island) x, f { b with canOut := x } = f b) : f (judgeFrame up i j unknown a) = f a := by
  rw [judgeFrame_eq]
  refine (hs _ _).trans (Eq.trans ?_ hm)
  rw [causesLatched_frame]
  exact hc ..

theorem judged_eq (up : Bool) (unknown : Nat) (j : Judging) (a : Island) : judged up unknown j a = { a with
    judge := none, doubtRun := doubtRunOf a j, verdict := verdictOf a j, frame := j.k % 2 ^ 32
    ruleOut := { dflt := 0, cells := (List.range (outcomes j).length).map (fun n => (n, ((outcomes j).getD n (0, 0)).2)) }
    age := if (approvalOf a j).isSome then 0 else min (a.age + 1) 65535
    hold := (approvalOf a j).isNone
    held := if (approvalOf a j).isSome then approvalOf a j else a.held
    fails := ((verdictOf a j == 2) :: a.fails).take 20
    failCnt := if verdictOf a j = 2 then cnt a.failCnt 1 else a.failCnt
    doubtCnt := if verdictOf a j = 1 then cnt a.doubtCnt 1 else a.doubtCnt
    notes := a.notes ++ if verdictOf a j = 2 ∧ up = true then [(0x0B01, j.k % 2 ^ 32, firstFailing unknown a j)] else [] } := by
  unfold judged
  by_cases h : verdictOf a j = 2
  · simp [h, note_eq]
  · simp [h]

/-- With no clear waiting and no slice deferred the end of a judgement is the judgement (R361). -/
theorem judgementDone_quiet {up : Bool} {i it unknown : Nat} {a : Island} {j : Judging} (hj : a.judge = some j) (hd : a.due = [])
    (hf : a.deferred = false) : judgementDone up i it unknown a = judgeFrame up i j unknown a := by
  have hdue : (judgeFrame up i j unknown a).due = [] := by
    rw [← hd]
    exact judgeFrame_keeps Island.due up i unknown j a (by rw [judged_eq]) (fun _ _ _ _ _ _ _ _ _ => rfl) (fun _ _ => rfl)
  have hdef : (judgeFrame up i j unknown a).deferred = false := by
    rw [← hf]
    exact judgeFrame_keeps Island.deferred up i unknown j a (by rw [judged_eq]) (fun _ _ _ _ _ _ _ _ _ => rfl) (fun _ _ => rfl)
  have he : ∀ b : Island, b.due = [] → { b with due := [] } = b := fun b h => by rw [← h]
  simp only [judgementDone, hj, hdue, List.foldl_nil]
  rw [he _ hdue, hdef]
  rfl

theorem runFails_iff {a : Island} {j : Judging} :
    runFails a j = true ↔ worst j = 1 ∧ fld j.table 22 1 ≠ 0 ∧ fld j.table 22 1 ≤ doubtRunOf a j := by
  simp [runFails, and_assoc]

theorem verdictOf_two {a : Island} {j : Judging} : verdictOf a j = 2 ↔ worst j = 2 ∨ a.overdue = true ∨ runFails a j = true := by
  unfold verdictOf
  cases runFails a j <;> cases a.overdue <;> simp

theorem verdictOf_one {a : Island} {j : Judging} : verdictOf a j = 1 ↔ verdictOf a j ≠ 2 ∧ worst j = 1 := by
  unfold verdictOf
  split
  · simp
  · exact ⟨fun h => ⟨by omega, h⟩, And.right⟩

theorem verdictOf_le {a : Island} {j : Judging} (ho : ∀ o ∈ outcomes j, o.1 ≤ 2) : verdictOf a j ≤ 2 := by
  unfold verdictOf
  split
  · exact Nat.le_refl _
  · exact worstOf_le_two ho

/-- Where a rule has failed its number is named, else the TIME check, else the run of DOUBT frames (R371). -/
theorem firstFailing_names {unknown : Nat} {a : Island} {j : Judging} : let first := indexOf? (fun (o : Nat × Nat) => o.1 == 2) (outcomes j)
    (∀ n, first = some n → firstFailing unknown a j = n) ∧ (first = none → j.timeBad = true → firstFailing unknown a j = 0xFF) ∧
    (first = none → j.timeBad = false → runFails a j = true → firstFailing unknown a j = 0xFE) := by
  refine ⟨fun n h => ?_, fun h ht => ?_, fun h ht hr => ?_⟩
  · simp [firstFailing, h]
  · simp [firstFailing, h, ht]
  · simp [firstFailing, h, ht, hr]

theorem judged_notes (up : Bool) (unknown : Nat) (j : Judging) (a : Island) : (judged up unknown j a).notes =
    a.notes ++ if verdictOf a j = 2 ∧ up = true then [(0x0B01, j.k % 2 ^ 32, firstFailing unknown a j)] else [] :=
  (congrArg Island.notes (judged_eq up unknown j a) :)

section
variable {up : Bool} {unknown : Nat} {a : Island} {j : Judging} {failed doubt : Prop} (hv2 : verdictOf a j = 2 ↔ failed)
include hv2

/-- A frame that has failed is reported while the hub segment is up (R371). -/
theorem judged_notes_fail (hf : failed) (hu : up = true) :
    (judged up unknown j a).notes = a.notes ++ [(0x0B01, j.k % 2 ^ 32, firstFailing unknown a j)] := by
  rw [judged_notes, if_pos ⟨hv2.mpr hf, hu⟩]

theorem judged_notes_kept (h : ¬ (failed ∧ up = true)) : (judged up unknown j a).notes = a.notes := by
  rw [judged_notes, if_neg fun ⟨h1, h2⟩ => h ⟨hv2.mp h1, h2⟩, List.append_nil]

variable [Decidable failed] [Decidable doubt]
variable (hv1 : verdictOf a j = 1 ↔ ¬ failed ∧ doubt)
include hv1

/-- The judged island by whether the frame has failed and whether it is in doubt (R361, R362). -/
theorem judged_given (ho : ∀ o ∈ outcomes j, o.1 ≤ 2) {ap : Option HeldRec} (hap : approvalOf a j = ap) : judged up unknown j a = { a with
    judge := none, doubtRun := doubtRunOf a j, verdict := if failed then 2 else if doubt then 1 else 0, frame := j.k % 2 ^ 32
    ruleOut := (judged up unknown j a).ruleOut, age := if ap.isSome = true then 0 else min (a.age + 1) 65535, hold := decide (ap = none)
    held := if ap.isSome = true then ap else a.held, fails := (decide failed :: a.fails).take 20
    failCnt := if failed then cnt a.failCnt 1 else a.failCnt, doubtCnt := if ¬ failed ∧ doubt then cnt a.doubtCnt 1 else a.doubtCnt
    notes := (judged up unknown j a).notes } := by
  have hverd : verdictOf a j = if failed then 2 else if doubt then 1 else 0 := by
    have hle := verdictOf_le (a := a) ho
    by_cases hf : failed
    · rw [if_pos hf, hv2.mpr hf]
    · by_cases hd : doubt
      · rw [if_neg hf, if_pos hd, hv1.mpr ⟨hf, hd⟩]
      · have h2 := mt hv2.mp hf
        have h1 := mt hv1.mp (fun h => hd h.2)
        rw [if_neg hf, if_neg hd]
        omega
  have hbeq : (verdictOf a j == 2) = decide failed := by rw [beq_eq_decide]; exact decide_eq_decide.mpr hv2
  have hnone : (approvalOf a j).isNone = decide (approvalOf a j = none) := by cases approvalOf a j <;> rfl
  have hfail : (if verdictOf a j = 2 then cnt a.failCnt 1 else a.failCnt) = if failed then cnt a.failCnt 1 else a.failCnt :=
    if_congr hv2 rfl rfl
  have hdoubt : (if verdictOf a j = 1 then cnt a.doubtCnt 1 else a.doubtCnt) = if ¬ failed ∧ doubt then cnt a.doubtCnt 1 else a.doubtCnt :=
    if_congr hv1 rfl rfl
  subst hap
  rw [← hnone, ← hverd, ← hbeq, ← hfail, ← hdoubt, judged_eq]
end

/-- The outcome of each rule is shown, and nothing beyond the rules (R370). -/
theorem judged_ruleOut (up : Bool) (unknown : Nat) (j : Judging) (a : Island) (n : Nat) :
    (judged up unknown j a).ruleOut.get n = ((outcomes j).getD n (0, 0)).2 := by
  rw [judged_eq]
  refine (assocGet_graph 0 (fun n => ((outcomes j).getD n (0, 0)).2) _ n).trans ?_
  by_cases h : n < (outcomes j).length
  · rw [if_pos (List.mem_range.mpr h)]
  · rw [if_neg (mt List.mem_range.mp h), List.getD_eq_default _ _ (Nat.le_of_not_lt h)]

/-- A frame's judgement: the verdict from the outcomes, the TIME check and the run of DOUBT frames, then the causes, then the message
(R361, R362, R364, R371). -/
theorem judgeFrame_judges (up : Bool) (i unknown : Nat) (j : Judging) (a : Island) :
    let outs := outcomes j; let lim := fld j.table 22 1
    let fail := j.timeBad = true ∨ ∃ o ∈ outs, o.1 = 2; let doubt := ¬ fail ∧ ∃ o ∈ outs, o.1 = 1
    let run := if doubt then a.doubtRun + 1 else 0
    let failed := fail ∨ a.overdue = true ∨ (doubt ∧ lim ≠ 0 ∧ lim ≤ run)
    let ap := if failed then none else approved j
    let fails := (decide failed :: a.fails).take 20
    let age := if ap.isSome = true then 0 else min (a.age + 1) 65535
    let frozen := (List.range 12).any (fun p => (frozenRule j.table p).isSome && (j.cams.get p).frozen)
    let bits := (if fails.take 2 = [true, true] then 2 else 0) + (if 3 ≤ (fails.filter id).length then 4 else 0) + (if frozen = true then 8 else 0) +
      (if ap = none ∧ fld j.table 23 1 ≤ age then 32 else 0) + if a.overdue = true then 16 else 0
    (∀ o ∈ outs, o.1 ≤ 2) →
    let first := indexOf? (fun (o : Nat × Nat) => o.1 == 2) outs
    ∃ m c, (failed → up = true → ∃ p1, m.notes = a.notes ++ [(0x0B01, j.k % 2 ^ 32, p1)] ∧ (∀ n, first = some n → p1 = n) ∧
        (first = none → j.timeBad = true → p1 = 0xFF) ∧ (first = none → j.timeBad = false → lim ≠ 0 → lim ≤ run → p1 = 0xFE)) ∧
      (¬ (failed ∧ up = true) → m.notes = a.notes) ∧
      m = { a with
        judge := none, doubtRun := run, verdict := if failed then 2 else if doubt then 1 else 0, frame := j.k % 2 ^ 32, ruleOut := m.ruleOut
        age := age, hold := decide (ap = none), held := if ap.isSome = true then ap else a.held, fails := fails
        failCnt := if failed then cnt a.failCnt 1 else a.failCnt, doubtCnt := if ¬ failed ∧ doubt then cnt a.doubtCnt 1 else a.doubtCnt
        notes := m.notes } ∧
      (∀ n, m.ruleOut.get n = (outs.getD n (0, 0)).2) ∧
      (bits = 0 → c = m) ∧ (bits ≠ 0 → Latched up bits m c) ∧
      let msg := outputMessage i c j.k j.dte (decide (¬ failed ∧ doubt ∧ ap.isSome = true))
      judgeFrame up i j unknown a = { c with
        canOut := a.canOut ++ (0, fld j.table 36 2, msg) :: if bit (fld j.table 40 1) 1 = true then [(1, fld j.table 36 2, msg)] else [] } := by
  intro outs lim fail doubt run failed ap fails age frozen bits ho first
  let m := judged up unknown j a
  let c := causesLatched up (judgedCauses j m) m
  have hw2 : worst j = 2 ↔ fail := worstOf_fail ho
  have hw1 : worst j = 1 ↔ doubt := worstOf_doubt ho
  have hrun : doubtRunOf a j = run := if_congr hw1 rfl rfl
  have hv2 : verdictOf a j = 2 ↔ failed := by rw [verdictOf_two, runFails_iff, hw2, hw1, hrun]
  have hv1 : verdictOf a j = 1 ↔ ¬ failed ∧ doubt := by rw [verdictOf_one, ← hv2, hw1]
  have hm := judged_given (up := up) (unknown := unknown) hv2 hv1 ho (ap := ap) (if_congr hv2 rfl rfl)
  rw [hrun] at hm
  have hbits : judgedCauses j m = bits := by
    rw [show m = _ from hm]
    simp only [judgedCauses, decide_eq_true_eq]
    rfl
  have hlatch : (bits = 0 → c = m) ∧ (bits ≠ 0 → Latched up bits m c) := by
    rw [← hbits]
    exact causesLatched_latched ..
  have hcan : c.canOut = a.canOut := (causesLatched_canOut ..).trans (congrArg Island.canOut hm :)
  have hhold : c.hold = decide (ap = none) := (causesLatched_hold ..).trans (congrArg Island.hold hm :)
  have hdoubt : (verdictOf a j == 1 && !c.hold) = decide (¬ failed ∧ doubt ∧ ap.isSome = true) := by
    rw [hhold, Bool.eq_iff_iff]
    simp [hv1, and_assoc, Option.isSome_iff_ne_none]
  refine ⟨m, c, fun h1 h2 => ⟨_, judged_notes_fail hv2 h1 h2, ?_⟩, judged_notes_kept hv2, hm, judged_ruleOut up unknown j a,
    hlatch.1, hlatch.2, ?_⟩
  · obtain ⟨hrule, htime, hlim⟩ := firstFailing_names (unknown := unknown) (a := a) (j := j)
    refine ⟨hrule, htime, fun h3 h4 h5 h6 => hlim h3 h4 (runFails_iff.mpr ⟨hw1.mpr ?_, h5, by rwa [hrun]⟩)⟩
    by_contra hd
    have h0 : run = 0 := if_neg hd
    omega
  · rw [judgeFrame_eq, hdoubt, messageSent, hcan]

/-! ### Self-tests -/

theorem sliceOffer_due {it : Nat} {a : Island} (h : a.state = .run ∧ a.slice = none ∧ ∃ o, a.offer = some o ∧ o ≤ it) :
    sliceOffer it a = offerSlice it a := by
  obtain ⟨hs, hn, o, ho, hle⟩ := h
  simp [sliceOffer, hs, hn, ho, hle]

theorem sliceOffer_notDue {it : Nat} {a : Island} (h : ¬ (a.state = .run ∧ a.slice = none ∧ ∃ o, a.offer = some o ∧ o ≤ it)) :
    sliceOffer it a = a := by
  unfold sliceOffer
  split
  · next t hs ho => exact if_neg fun ⟨hle, hn⟩ => h ⟨hs, by simpa using hn, t, ho, hle⟩
  · rfl

/-- A slice runs where no judgement does and it ends 50 µs before the next release, and is deferred otherwise (R366, R367). -/
theorem offerSlice_eq (it : Nat) (a : Island) : offerSlice it a =
    let time : Int := if a.pos < 12 then 4000 else if a.pos < 13 then 6000 else if a.pos < 21 then 25000 else 20000
    if a.judge = none ∧ ∀ r, nextRelease a = some r → (it : Int) + time ≤ r - 50000 then
      { a with slice := some (a.pos, it), offer := some (it + 100000000), deferred := false }
    else { a with deferCnt := cnt a.deferCnt 1, deferred := true, offer := none } := by
  cases hr : nextRelease a <;> simp [offerSlice, hr, sliceTime]

section
variable {up : Bool} {fault it n at_ : Nat} {a : Island} (hn : a.slice = some (n, at_))
include hn

theorem sliceDone_fault (hf : fault ≠ 0) :
    Faulted up (if n < 12 then 3 else if n < 21 then 8 else 7) a (sliceDone up fault it a) := by
  have he : sliceDone up fault it a = islFault up (sliceFault n) a := by simp [sliceDone, hn, hf]
  rw [he]
  exact islFault_faulted ..

theorem sliceDone_next (h : n < 276) : sliceDone up 0 it a = { a with slice := none, pos := n + 1 } := by
  simp [sliceDone, hn, h]

/-- The last slice completes a rotation (R368, R369). -/
theorem sliceDone_rotation (h : 276 ≤ n) : sliceDone up 0 it a =
    let secs := (it - a.rotFrom) / 1000000000
    { a with
      slice := none, pos := if isSplit a = true then 12 else 0, rotations := min (a.rotations + 1) 8191, lastS := min secs 1023, rotFrom := it
      overdue := false, notes := a.notes ++ if up = true then [(0x0B03, 0, secs % 2 ^ 32)] else [] } := by
  simp [sliceDone, hn, Nat.not_lt_of_le h, note_eq, firstSlice]
end

theorem latentOut_eq (up : Bool) (it : Nat) (a : Island) : latentOut up it a =
    if a.state = .run ∧ a.overdue = false ∧ a.rotFrom + 600000000000 ≤ it then
      { a with overdue := true, notes := a.notes ++ if up = true then [(0x0B03, 1, (it - a.rotFrom) / 1000000000 % 2 ^ 32)] else [] }
    else a := by
  simp [latentOut, note_eq]

/-! ### The mirror -/

theorem foldl_set_get {α : Type} (f : Nat → α) (t : Tab α) (k n : Nat) :
    ((List.range k).foldl (fun t c => t.set c (f c)) t).get n = if n < k then f n else t.get n := by
  induction k with
  | zero => simp
  | succ k ih =>
    rw [List.range_succ, List.foldl_append, List.foldl_cons, List.foldl_nil, Tab.get_set, ih]
    rcases Nat.lt_trichotomy n k with h | rfl | h
    · simp [h, Nat.lt_succ_of_lt h, (Nat.ne_of_lt h).symm]
    · simp
    · simp [Nat.ne_of_lt h, Nat.not_lt_of_lt h, show ¬ n < k + 1 by omega]

/-- The island's registers stored in the hub's mirror, and its reports taken (R370). -/
def mirrorStored (s : State) (i : Nat) (clk : List Nat) : State :=
  let a := { s.isle i with clk := (List.range 3).foldl (fun t c => t.set c (clk.getD c 0)) (s.isle i).clk }
  { s with anv := {
      isl := s.anv.isl.modify i (fun _ => { a with notes := [] })
      mirror := s.anv.mirror.set i { regs := islandRegs a, stat := anvStat a, cause := a.cause, dt := s.dt } } }

section
variable (s : State) (i : Nat) (clk : List Nat)

theorem mirrorStored_isle : (mirrorStored s i clk).isle i =
    { s.isle i with notes := [], clk := (List.range 3).foldl (fun t c => t.set c (clk.getD c 0)) (s.isle i).clk } :=
  Tab.get_modify_self _ _ _

theorem mirrorStored_mirror : (mirrorStored s i clk).anv.mirror.get i =
    { regs := islandRegs ((mirrorStored s i clk).isle i), stat := anvStat (s.isle i), cause := (s.isle i).cause, dt := s.time.dt } := by
  rw [mirrorStored_isle]
  exact Tab.get_set_self _ _ _

theorem mirrorStored_other {k : Nat} (h : k ≠ i) :
    (mirrorStored s i clk).isle k = s.isle k ∧ (mirrorStored s i clk).anv.mirror.get k = s.anv.mirror.get k :=
  ⟨Tab.get_modify_other _ _ (Ne.symm h), Tab.get_set_other _ _ (Ne.symm h)⟩
end

/-- The island's reports raised as events (R371). -/
def notesRaised (i : Nat) (notes : List (Nat × Nat × Nat)) (s : State) : State :=
  notes.foldl (fun s n => raiseEvent s n.1 i [n.2.1, n.2.2]) s

theorem notesRaised_hostOnly (i : Nat) (notes : List (Nat × Nat × Nat)) (s : State) :
    notesRaised i notes s = { s with host := (notesRaised i notes s).host } := by
  refine foldl_keeps (fun t : State => t = { s with host := t.host }) _ (fun t n ht => ?_) notes s rfl
  obtain ⟨hr, -⟩ := raiseEvent_spec t n.1 i [n.2.1, n.2.2]
  rw [ht] at hr ⊢
  exact hr

/-- A status update stores the mirror, raises the reports, and reports a change of status or cause (R370, R371). -/
theorem statusUpdate_eq {s : State} {i : Nat} (clk : List Nat) (hr : (s.isle i).state ≠ .reset) (hu : hubLinkUp s = true) :
    statusUpdate s i clk =
      let a := s.isle i
      let u := notesRaised i a.notes (mirrorStored s i clk)
      if (s.anv.mirror.get i).stat = anvStat a ∧ (s.anv.mirror.get i).cause = a.cause then u
      else raiseEvent (setInt u 5) 0x0B00 i [anvStat a, a.cause] := by
  unfold statusUpdate
  rw [if_neg (by simp [hr, hu])]
  rfl

/-- A status update changes the host side beside what it stores. -/
theorem statusUpdate_hostOnly {s : State} {i : Nat} (clk : List Nat) (hr : (s.isle i).state ≠ .reset) (hu : hubLinkUp s = true) :
    statusUpdate s i clk = { mirrorStored s i clk with host := (statusUpdate s i clk).host } := by
  have hn := notesRaised_hostOnly i (s.isle i).notes (mirrorStored s i clk)
  have he := (raiseEvent_spec (setInt (notesRaised i (s.isle i).notes (mirrorStored s i clk)) 5) 0x0B00 i
    [anvStat (s.isle i), (s.isle i).cause]).1
  have hi := (setInt_spec (notesRaised i (s.isle i).notes (mirrorStored s i clk)) 5 (by omega)).1
  rw [statusUpdate_eq clk hr hu]
  dsimp only
  split
  · exact hn
  · rw [hi, hn] at he
    rw [hi, hn]
    exact he

/-- The report of a changed status: HUB_INT_STAT bit 5 and ANV_STATUS (R313, R371). -/
theorem statusReported {s : State} (i stat cause : Nat) : let t := raiseEvent (setInt s 5) 0x0B00 i [stat, cause]
    bit t.host.ints.stat.toNat 5 = true ∧ Raised s t 0x0B00 i [stat, cause] := by
  obtain ⟨-, ⟨-, hbits, -⟩, hraised, -⟩ := raiseEvent_spec (setInt s 5) 0x0B00 i [stat, cause]
  obtain ⟨hset, hstat, -⟩ := setInt_spec s 5 (by omega)
  refine ⟨?_, ?_⟩
  · rw [hbits 5 (by omega), hstat]; simp
  · have hev : (setInt s 5).host.evt = s.host.evt := by rw [hset]
    have hdt : (setInt s 5).dt = s.dt := by rw [hset]; rfl
    rwa [Raised, hev, hdt] at hraised

end Sys2Proof.Machine
end

section
/-! PROOFS. Safety-link frames, records, taps, sensor frames, frames of judgement, self-tests and the mirror (R323–R371). -/

namespace Sys2Proof.Machine

/-- A write to an ingress lane takes no free value where the report's stream is known (R353, R354). -/
theorem recordReceive_eq {s : State} {i src off : Nat} (data : List Byte)
    (h : (s.isle i).state ≠ .run ∨ src = off / 1024 ∨ ((s.isle i).lanes.get (off / 1024)).bytes.any (fun c => c.1 == 2) = true) :
    recordReceive s i src off data = s.modIsl i (e2eWrite (hubLinkUp s) src off data (s.freeVal.toNat % 256)) := by
  have hm : ((s.isle i).state == .run && src != off / 1024 &&
      !((s.isle i).lanes.get (off / 1024)).bytes.any (fun c => c.1 == 2)) = false := by
    rcases h with h | h | h
    · simp [h]
    · simp [h]
    · simp [h]
  simp [recordReceive, hm, atIsland]

/-- Settles O53: a frame has the effect of its payload, every other input is one function of one island, whose cases the lemmas above
give; a judgement goes by its stages, and a status update by what it stores and what it reports. -/
theorem islandsJudgeTheirInputs : Obligations.IslandsJudgeTheirInputs := by
  unfold Obligations.IslandsJudgeTheirInputs
  refine ⟨?_, ?_, ?_, ?_, ?_, ?_, ?_, ?_, ?_, ?_, ?_, ?_, ?_⟩
  -- Frames that are lost or damaged (R25).
  · intro g ok b it s i u
    refine ⟨fun h => congrArg _ (safetyFrame_down ok b it h), fun h hn hok => ?_⟩
    subst hok
    have hf := safetyFrame_damaged b it h hn
    refine ⟨fun hs => ?_, fun hs => ?_⟩
    · exact isleBecomes_modIsl (congrArg _ (hf.trans (if_neg hs))) rfl
    · exact congrArg _ (hf.trans (if_pos hs))
  -- Frames by their payload (R25, R26).
  · intro g i it s hi hs hn via
    have hu : hubLinkUp s = true := hubLinkUp_of_segUp hs
    have hf : ∀ b, exec (.safetyLinkFrame g true b it) s = .next (framePayload (takeFrame s i b) i it b) := by
      intro b
      rw [← hi]
      exact congrArg _ (safetyFrame_intact b it hs hn)
    refine ⟨(hf _).trans ?_, fun op => (hf _).trans ?_, fun m => (hf _).trans ?_, fun src off data => hf _, fun dt => (hf _).trans ?_⟩
    · exact congrArg _ (if_pos hu).symm
    · exact congrArg _ (if_pos hu).symm
    · exact congrArg _ (if_pos hu).symm
    · exact congrArg _ (if_pos (c := hubLinkUp (takeFrame s i (.deviceTime dt)) = true) hu).symm
  -- DT (R350, R351).
  · intro i dt it s a
    refine ⟨fun hu => congrArg _ (if_neg (by simp [hu])), fun hu => ?_⟩
    refine isleBecomes_modIsl (congrArg _ (if_pos hu)) ⟨fun h => if_pos h, fun h1 h2 h3 => ?_⟩
    have hd := dtReceive_anchors (a := a) dt it (by simp [h1, h2, h3])
    refine ⟨?_, fun ht => ?_, fun t ht hp => ?_⟩
    · rw [show s.isle i = a from rfl, hd]
    · rw [show s.isle i = a from rfl, hd, ht]
    · refine ⟨_, by rw [show s.isle i = a from rfl, hd, ht], ?_⟩
      exact firstK_first _ (by unfold tblFrame; omega)
  -- Records (R353, R354).
  · intro i src off data s a ln l u up c clear
    have hw : ∀ (P : Island → Prop), (a.state ≠ .run ∨ src.toNat = ln ∨ l.bytes.any (fun x => x.1 == 2) = true) →
        P (e2eWrite up src.toNat off.toNat data (u.freeVal.toNat % 256) a) → IsleBecomes c s u i P :=
      fun P h hp => isleBecomes_modIsl (congrArg _ (recordReceive_eq (s := u) data h)) hp
    refine ⟨fun hs => hw _ (.inl hs) (e2eWrite_notRunning hs), fun hs hsrc hl ho => hw _ (.inr (.inl hsrc)) ?_,
      fun t hs ht hsrc hb => ?_, fun t hs ht hsrc hoff hl hd h1 => ?_⟩
    · rw [hsrc]; exact e2eWrite_notStarted rfl hl ho
    · intro st
      refine hw (Discarded up ln st 1 _ clear) (.inr (.inr hb)) ?_
      exact e2eWrite_masquerade hs ht hsrc hb
    · intro h pay st n e x gap bad3 bad4 bad5 bad6
      have hrec : e2eWrite up src.toNat off.toNat data (u.freeVal.toNat % 256) a = e2eRecord up ln false h pay false clear := by
        rw [hsrc, hoff]; exact e2eWrite_record hs hl hd h1
      have h24 : 24 ≤ data.length := by omega
      have hdisc : ∀ k m, e2eCheck clear t ln false h pay = k → k ≠ 0 → (if k = 4 then none else n) = m →
          IsleBecomes c s u i (Discarded up ln st k m clear) := by
        rintro k m hk h0 rfl
        refine hw _ (.inr (.inl hsrc)) ?_
        rw [hrec]
        exact e2eRecord_discarded h24 ht hk h0
      refine ⟨fun h3 => hdisc 3 _ (e2eCheck_header h24 h3) (by omega) rfl,
        fun h3 h4 => hdisc 4 _ (e2eCheck_stream h24 h3 h4) (by omega) rfl,
        fun h3 h4 h5 => hdisc 5 _ (e2eCheck_crc h24 h3 h4 h5) (by omega) rfl,
        fun h3 h4 h5 h6 => hdisc 6 _ ((e2eCheck_seq h24 h3 h4 h5).1 h6) (by omega) rfl,
        fun h3 h4 h5 h6 => hw _ (.inr (.inl hsrc)) ?_⟩
      rw [hrec]
      exact e2eRecord_taken h24 ht ((e2eCheck_seq h24 h3 h4 h5).2 h6)
  -- Taps (R323).
  · intro i m it s a x a' rule
    refine ⟨fun hu => congrArg _ (if_neg (by simp [hu])), fun hu => ?_⟩
    refine isleBecomes_modIsl (congrArg _ (if_pos hu)) ⟨fun hr => ?_, fun r hr => ?_⟩
    · exact tapArrive_unwatched it fun hs => (if_pos hs).symm.trans hr
    · have hs : a.state = .run := by
        by_contra hs
        exact Option.some_ne_none _ (hr.symm.trans (if_neg hs))
      exact tapArrive_watched (a := a') it hs ((if_pos hs).symm.trans hr)
  -- Gaps (R323).
  · intro i port it s a x a'
    refine isleBecomes_modIsl rfl ⟨fun h => frozenGapOut_unwatched it h, fun r hs hr => ?_⟩
    have hf : frozenGapOut port it a' = _ := frozenGapOut_watched it hs hr
    exact ⟨fun h => hf.trans (if_pos h), fun h => hf.trans (if_neg (not_le.mpr h))⟩
  -- Sensor frames (R360).
  · intro i ty p it s a a'
    refine isleBecomes_modIsl rfl ⟨fun h => sensorArrive_unused h, fun t c hs ht hc => ?_⟩
    intro n e mine bad
    have hm : ¬ mine ↔ fld c 24 1 = 0 ∨ n = 0 ∨ ty.toNat ≠ fld t 42 2 := by simp only [mine]; tauto
    have hu := sensorArrive_used (p := p) (ty := ty.toNat) (a := a') it hs ht hc
    exact ⟨fun h => hu.trans (if_pos (hm.mp h)), fun h hb => hu.trans ((if_neg (fun h' => hm.mpr h' h)).trans (if_pos hb)),
      fun h hb => hu.trans ((if_neg (fun h' => hm.mpr h' h)).trans (if_neg hb))⟩
  -- Frame boundaries (R350, R351, R365).
  · intro i rx it s a a' rx'
    refine ⟨fun h => isleBecomes_modIsl rfl (frameBoundary_waits h), fun t k d i0 hs ht hk ha hj => ?_⟩
    intro dte fin
    refine ⟨fun h => isleBecomes_modIsl rfl (frameBoundary_early (a := a') hs ht hk ha h), fun h hn => ?_, fun n h hn => ?_⟩
    · have hb : frameBoundary rx' it a' = bounded rx' it k t dte a' := by
        rw [frameBoundary_ends (a := a') hs ht hk ha h hj, show a'.nextTable = none from hn]
      refine isleBecomes_eq rfl hb ?_
      intro near
      have hg : dtGood t rx' dte = true ↔ near := dtGood_iff
      refine ⟨rfl, fun hr => ?_, fun r hr => ?_, fun h => if_pos (hg.mpr h), fun h => if_neg (fun h' => h (hg.mp h')), _, ?_, rfl⟩
      · simp [bounded, hr, a']
      · simp [bounded, hr]
      · simp [← hg]
    · have hb := frameBoundary_ends (rx := rx') (a := a') hs ht hk ha h hj
      rw [show a'.nextTable = some n from hn] at hb
      exact isleBecomes_eq rfl hb ⟨rfl, rfl, hs, _, rfl, rfl, rfl, rfl, rfl⟩
  -- Judgements (R361, R362).
  · intro i it s a a' up u
    refine ⟨fun hj => isleBecomes_modIsl rfl ?_, fun j hj hd hf => ?_⟩
    · simp only [judgementDone, show (tickIt it (u.isle i)).judge = none from hj]
      rfl
    · exact isleBecomes_eq (u := u) rfl (judgementDone_quiet (a := a') hj hd hf) (judgeFrame_judges up i _ j a')
  -- Slices offered (R367).
  · intro i it s a a' due time fits
    refine isleBecomes_modIsl rfl ⟨fun h => sliceOffer_notDue h, fun h hj hf => ?_, fun h hn => ?_⟩
    · exact (sliceOffer_due (a := a') h).trans ((offerSlice_eq it a').trans (if_pos ⟨hj, hf⟩))
    · exact (sliceOffer_due (a := a') h).trans ((offerSlice_eq it a').trans (if_neg hn))
  -- Slices that end (R366–R369).
  · intro i fault it s a a' up secs
    refine isleBecomes_modIsl rfl ⟨fun h => by simp only [sliceDone, show (tickIt it (s.isle i)).slice = none from h]; rfl,
      fun n at_ h => ⟨fun hf => ?_, fun hf hn => ?_, fun hf hn => ?_⟩⟩
    · exact sliceDone_fault (a := a') h fun h0 => hf (BitVec.eq_of_toNat_eq h0)
    · subst hf; exact sliceDone_next (a := a') h hn
    · subst hf; exact sliceDone_rotation (a := a') h hn
  -- The overdue rotation (R369).
  · intro i it s a a' up late
    have hl := latentOut_eq up it a'
    exact isleBecomes_modIsl rfl ⟨fun h => hl.trans (if_neg h), fun h => hl.trans (if_pos h)⟩
  -- The mirror (R370, R371).
  · intro i clk s a m
    refine ⟨fun h => congrArg _ (if_pos (h.imp_right (by simp))), fun hr hu => ?_⟩
    have ht := statusUpdate_hostOnly clk hr hu
    have he := statusUpdate_eq clk hr hu
    have hisl : ∀ k, (statusUpdate s i clk).isle k = (mirrorStored s i clk).isle k := fun k => (congrArg (State.isle · k) ht :)
    have hmir : ∀ k, (statusUpdate s i clk).anv.mirror.get k = (mirrorStored s i clk).anv.mirror.get k :=
      fun k => (congrArg (·.anv.mirror.get k) ht :)
    have hi := mirrorStored_isle s i clk
    refine ⟨_, rfl, ?_, fun k hk => ?_, ?_, fun n => ?_, ?_, fun hn hst hc => ?_, fun hn hd => ?_⟩
    · rw [ht]; rfl
    · rw [hisl, hmir]; exact mirrorStored_other s i clk hk
    · rw [hisl, hi]
    · rw [hisl, hi]; exact foldl_set_get ..
    · rw [hisl, hmir]; exact mirrorStored_mirror s i clk
    · rw [he, if_pos ⟨hst, hc⟩, hn]; rfl
    · rw [he, if_neg (by rwa [not_and_or]), hn]; exact statusReported ..

end Sys2Proof.Machine
end

section
/-! PROOFS. Searches in a list and fields of a number. -/

namespace Sys2Proof.Machine

theorem indexOf?_eq_findIdx? {α : Type} (p : α → Bool) (l : List α) : indexOf? p l = l.findIdx? p := by
  induction l with
  | nil => rfl
  | cons x r ih => rw [indexOf?, ih, List.findIdx?_cons]

end Sys2Proof.Machine
end

section
/-! PROOFS. Steps of a stream: the head leaves, waits begin and end, errors are recorded, a launch ends (R53, R55–R57). -/

namespace Sys2Proof.Machine

/-! ### Steps of a stream -/

theorem IssuesNow.untraced {s : State} {p st : Nat} {d : Desc} (h : IssuesNow s p st d) : Untraced s d := by
  obtain ⟨-, -, -, -, -, -, ht⟩ := h
  exact ht

/-- A descriptor that may issue is at the head of its stream in a launch that has not ended. -/
theorem IssuesNow.live {s : State} {p st : Nat} {d : Desc} (h : IssuesNow s p st d) :
    ∃ r, (s.tiles.get p).run = some r ∧ r.ended = none ∧ (streamOf (s.tiles.get p) st).waiting = none := by
  obtain ⟨r, hr, he, hw, -⟩ := headOf_live h.1
  exact ⟨r, hr, he, by rw [streamOf, hr]; exact hw⟩

/-- Nothing has changed yet in a running tile. -/
theorem StreamStep.refl {s : State} {p : Nat} {r : Running} (st : Nat) (hr : (s.tiles.get p).run = some r) :
    StreamStep s s p st (s.tiles.get p) (s.tiles.get p).sem.get (streamOf (s.tiles.get p) st) :=
  ⟨TileOnly.refl s p, rfl, fun _ => rfl, r, r, hr, hr, rfl, by rw [streamOf, hr], fun _ _ => rfl⟩

section
variable {s u : State} {p st : Nat} {T : Tile} {m : Nat → Nat} {x : StreamSt} {r : Running}

/-- The launch that runs is the same launch, ended or not as before. -/
theorem StreamStep.run (h : StreamStep s u p st T m x) (hr : (s.tiles.get p).run = some r) :
    ∃ r', (u.tiles.get p).run = some r' ∧ r'.launch = r.launch ∧ r'.ended = r.ended := by
  obtain ⟨-, -, -, r0, r', hr0, hr', hs, -, -⟩ := h
  obtain rfl : r0 = r := Option.some_injective _ (hr0.symm.trans hr)
  exact ⟨r', hr', by rw [hs], by rw [hs]⟩

theorem StreamStep.sem (h : StreamStep s u p st T m x) (i : Nat) : (u.tiles.get p).sem.get i = m i := h.2.2.1 i

theorem StreamStep.host (h : StreamStep s u p st T m x) : u.host = s.host := by rw [h.1.1]

theorem StreamStep.dt (h : StreamStep s u p st T m x) : u.dt = s.dt := by rw [h.1.1]; rfl

/-- Of the tile the step leaves all that is said of `T` but semaphores and launch. -/
theorem StreamStep.tile (h : StreamStep s u p st T m x) :
    u.tiles.get p = { T with sem := (u.tiles.get p).sem, run := (u.tiles.get p).run } := h.2.1

theorem StreamStep.streamOf (h : StreamStep s u p st T m x) : streamOf (u.tiles.get p) st = x := by
  obtain ⟨-, -, -, r0, r', -, hr', -, hx, -⟩ := h
  rw [Machine.streamOf, hr']; exact hx

/-- The record of the stream changed further. -/
theorem StreamStep.tileStream (h : StreamStep s u p st T m x) (f : StreamSt → StreamSt) :
    StreamStep s (Machine.tileStream u p st f) p st T m (f x) := by
  obtain ⟨hu, hT, hm, r0, r', hr, hr', hs, hx, ho⟩ := h
  have hg := tileStream_get u p st f
  refine ⟨hu.trans (modTile_tileOnly _ _ _), by rw [hg, hT], fun i => by rw [hg]; exact hm i, r0,
    { r' with streams := r'.streams.modify st f }, hr, by rw [hg, hr']; rfl, by rw [hs], ?_, fun n hn => ?_⟩
  · simp [hx]
  · simp [Ne.symm hn, ho n hn]

/-- A change of the tile beside its semaphores and its launch. -/
theorem StreamStep.modTile (h : StreamStep s u p st T m x) {g : Tile → Tile}
    (hg : ∀ t e r, g { t with sem := e, run := r } = { g t with sem := e, run := r }) :
    StreamStep s (u.modTile p g) p st (g T) m x := by
  obtain ⟨hu, hT, hm, r0, r', hr, hr', hs, hx, ho⟩ := h
  have h1 : (u.modTile p g).tiles.get p = { g T with sem := (u.tiles.get p).sem, run := (u.tiles.get p).run } := by
    rw [modTile_get]
    conv_lhs => rw [hT, hg]
  exact ⟨hu.trans (modTile_tileOnly _ _ _), by rw [h1], fun i => by rw [h1]; exact hm i, r0, r', hr, by rw [h1]; exact hr', hs, hx, ho⟩

/-- Semaphores alone changed. -/
theorem StreamStep.semOnly {t : State} {sem : Nat → Nat} (h : StreamStep s u p st T m x) (k : SemOnly u t p sem) : StreamStep s t p st T sem x := by
  obtain ⟨hu, hT, -, r0, r', hr, hr', hs, hx, ho⟩ := h
  obtain ⟨ku, kT, ks⟩ := k
  exact ⟨hu.trans ku, by rw [kT, hT], ks, r0, r', hr, by rw [kT]; exact hr', hs, hx, ho⟩

theorem StreamStep.startWait (h : StreamStep s u p st T m x) (d : Desc) :
    StreamStep s (Machine.startWait u p st d) p st T m { x with waiting := some (s.dt, d) } := by
  rw [Machine.startWait, h.dt]
  exact h.tileStream _
end

/-! ### The head leaves its stream (R56) -/

/-- The semaphores of a tile whose head has taken its wait slots. -/
def semAfterWaits (t : Tile) (d : Desc) : Tab Nat := d.waits.foldl (fun m i => m.modify i (· - 1)) t.sem

@[simp] theorem semAfterWaits_get (t : Tile) (d : Desc) (i : Nat) : (semAfterWaits t d).get i = semTaken t d i :=
  foldl_modify_sub_one d.waits t.sem i

theorem popHead_modTile {s : State} {p st : Nat} {d : Desc} (h : Untraced s d) : popHead s p st d =
    s.modTile p (fun t => { t with
      sem := semAfterWaits t d
      run := t.run.map (fun r => { r with streams := r.streams.modify st (fun x => { x with pre := x.pre.drop 1 }) }) }) :=
  popHead_eq h

theorem popHead_streamStep {s : State} {p st : Nat} {d : Desc} {r : Running} (h : Untraced s d) (hr : (s.tiles.get p).run = some r) :
    let x := streamOf (s.tiles.get p) st
    StreamStep s (popHead s p st d) p st (s.tiles.get p) (semTaken (s.tiles.get p) d) { x with pre := x.pre.drop 1 } := by
  rw [popHead_modTile h]
  refine ⟨modTile_tileOnly _ _ _, by rw [modTile_get], fun i => by rw [modTile_get]; exact semAfterWaits_get _ d i, r,
    { r with streams := r.streams.modify st (fun x => { x with pre := x.pre.drop 1 }) }, hr, by rw [modTile_get, hr]; rfl, rfl, ?_, fun n hn => ?_⟩
  · simp [streamOf, hr]
  · simp [Ne.symm hn]

theorem IssuesNow.popHead {s : State} {p st : Nat} {d : Desc} (h : IssuesNow s p st d) :
    let x := streamOf (s.tiles.get p) st
    StreamStep s (Machine.popHead s p st d) p st (s.tiles.get p) (semTaken (s.tiles.get p) d) { x with pre := x.pre.drop 1 } := by
  obtain ⟨r, hr, -⟩ := h.live
  exact popHead_streamStep h.untraced hr

/-! ### Completion (R55, R56) -/

/-- Only CONV_STRIPE and POOL release rows of a line buffer. -/
theorem releasesOf_control {d : Desc} (h : d.op < 0x11) : releasesOf d = [] := by
  have h1 : d.op ≠ 0x11 := by omega
  have h2 : d.op ≠ 0x23 := by omega
  simp [releasesOf, h1, h2, field]

/-- The additions of the signal slots of a descriptor other than SIGNAL_SEM. -/
theorem sum_semAdds {d : Desc} (h5 : d.op ≠ 5) (i : Nat) : (((semAdds d true).filter (·.1 == i)).map (·.2)).sum = d.sigs.count i := by
  rw [semAdds, if_pos rfl, if_neg h5, List.append_nil, sum_sigs]

/-- An issued control descriptor with nothing left to do. -/
def controlIssued (st : Nat) (d : Desc) (err : Option Nat) : Issued :=
  { desc := d, stream := st, err := err, work := none, acc := 0, signals := true }

/-- A control descriptor other than COMPLETE and SIGNAL_SEM completes: its signal slots are added (R56). -/
theorem completeDesc_control {u : State} {p st : Nat} {d : Desc} (err : Option Nat) (hl : liveRun u p = true) (ht : Untraced u d) (ho : d.op < 0x11)
    (h1 : d.op ≠ 1) (h5 : d.op ≠ 5) (hfit : ∀ i, (u.tiles.get p).sem.get i + d.sigs.count i ≤ 255) :
    SemOnly u (completeDesc u p (controlIssued st d err)) p (fun i => (u.tiles.get p).sem.get i + d.sigs.count i) := by
  have hadds := sum_semAdds h5
  have key := completeDesc_live (x := controlIssued st d err) hl ht (releasesOf_control ho) h1 (fun i => by
    change (u.tiles.get p).sem.get i + (((semAdds d true).filter (·.1 == i)).map (·.2)).sum ≤ 255
    rw [hadds]; exact hfit i)
  simpa only [controlIssued, hadds] using key

section
variable {s u : State} {p st : Nat} {d : Desc} {T : Tile} {m : Nat → Nat} {x : StreamSt} {r : Running}

/-- A control descriptor completes after a step of its stream. -/
theorem StreamStep.completes (h : StreamStep s u p st T m x) (hr : (s.tiles.get p).run = some r) (he : r.ended = none) (ht : Untraced s d)
    (ho : d.op < 0x11) (h1 : d.op ≠ 1) (h5 : d.op ≠ 5) (hfit : ∀ i, m i + d.sigs.count i ≤ 255) (err : Option Nat) :
    StreamStep s (completeDesc u p (controlIssued st d err)) p st T (fun i => m i + d.sigs.count i) x := by
  obtain ⟨r', hr', -, he'⟩ := h.run hr
  have hl : liveRun u p = true := by simp [liveRun, hr', he', he]
  have hut : Untraced u d := by rw [Untraced, h.host]; exact ht
  have key := completeDesc_control err (st := st) hl hut ho h1 h5 (fun i => by rw [h.sem]; exact hfit i)
  simp only [h.sem] at key
  exact h.semOnly key

/-- A wait ends after a step of its stream: the descriptor completes, whatever is before it (R55). -/
theorem StreamStep.endWait (h : StreamStep s u p st T m x) (hr : (s.tiles.get p).run = some r) (he : r.ended = none) (ht : Untraced s d)
    (ho : d.op < 0x11) (h1 : d.op ≠ 1) (h5 : d.op ≠ 5) (hfit : ∀ i, m i + d.sigs.count i ≤ 255) (err : Option Nat) :
    StreamStep s (Machine.endWait u p st d err) p st T (fun i => m i + d.sigs.count i) { x with waiting := none } :=
  (h.tileStream (fun x => { x with waiting := none })).completes hr he ht ho h1 h5 hfit err

/-- A descriptor that takes no time completes with its issue where no earlier one is under way (R55). -/
theorem StreamStep.finishIssue (h : StreamStep s u p st T m x) (hc : CompletesNow s p st d) (ho : d.op < 0x11) (h1 : d.op ≠ 1) (h5 : d.op ≠ 5)
    (hT : T.issued = (s.tiles.get p).issued) (hfit : ∀ i, m i + d.sigs.count i ≤ 255) (err : Option Nat) :
    StreamStep s (Machine.finishIssue u p st d err 0) p st T (fun i => m i + d.sigs.count i) x := by
  obtain ⟨hi, hord, -⟩ := hc
  obtain ⟨r, hr, he, -⟩ := hi.live
  have hord : ordered (u.tiles.get p) st d = false := by
    rw [h.tile]; simpa [ordered, hT] using hord
  rw [Machine.finishIssue, hord]
  exact h.completes hr he hi.untraced ho h1 h5 hfit err
end

/-! ### Waits -/

theorem waitingIn_live {t : Tile} {st since : Nat} {d : Desc} (h : waitingIn t st = some (since, d)) : ∃ r, t.run = some r ∧ r.ended = none := by
  unfold waitingIn at h
  split at h
  · next r hr =>
    split at h
    · cases h
    · next he => exact ⟨r, hr, by simpa using he⟩
  · cases h

/-- A waiting descriptor is looked at again (R61–R63). -/
theorem retryWait_waiting {s : State} {p st op since : Nat} {d : Desc} {f : State → Nat → Desc → State}
    (h : waitingIn (s.tiles.get p) st = some (since, d)) (ho : d.op = op) (hc : tileClocked s p = true) : retryWait s p st op f = f s since d := by
  simp [retryWait, h, ho, hc]

/-! ### Errors recorded (R57) -/

/-- The tile with an error recorded (R57, R65). -/
def erroredTile (T : Tile) (code stream tag daddr : Nat) : Tile :=
  { T with
    errStat := T.errStat ||| BitVec.ofNat 32 (2 ^ code), errCnt := cnt T.errCnt 1
    errFirst := if bit T.errFirst.toNat 31 then T.errFirst else BitVec.ofNat 32 (errFirst code stream tag)
    errDaddr := if bit T.errFirst.toNat 31 then T.errDaddr else daddr }

theorem recorded_erroredTile (T : Tile) (code stream tag daddr : Nat) : Recorded T (erroredTile T code stream tag daddr) code stream tag daddr :=
  ⟨rfl, rfl, rfl, rfl⟩

/-- An error recorded changes its tile's error registers, and the host side by its event (R57, R312). -/
theorem recordError_eq (s : State) (p code stream tag daddr : Nat) : let t := recordError s p code stream tag daddr
    EventsOnly s t ∧ t = { s.modTile p (erroredTile · code stream tag daddr) with host := t.host } := by
  have hm : (fun t : Tile =>
      let t := { t with errStat := t.errStat ||| BitVec.ofNat 32 (2 ^ code), errCnt := cnt t.errCnt 1 }
      if bit t.errFirst.toNat 31 then t else { t with errFirst := BitVec.ofNat 32 (errFirst code stream tag), errDaddr := daddr }) =
      (erroredTile · code stream tag daddr) := by
    funext t
    unfold erroredTile
    dsimp only
    split <;> rfl
  unfold recordError
  rw [hm]
  obtain ⟨h1, h2, -⟩ := raiseEvent_spec (s.modTile p (erroredTile · code stream tag daddr)) 0x0300 p
    [logicalField ((s.modTile p (erroredTile · code stream tag daddr)).tiles.get p).logical + code * 256 + stream * 65536 + tag * 16777216, daddr]
  exact ⟨h2, h1⟩

section
variable (s : State) (p code stream tag daddr : Nat)

theorem recordError_events : EventsOnly s (recordError s p code stream tag daddr) := (recordError_eq s p code stream tag daddr).1

theorem recordError_frame : let t := recordError s p code stream tag daddr; t = { s with host := t.host, tiles := t.tiles } := by
  have h := (recordError_eq s p code stream tag daddr).2
  dsimp only at h ⊢
  rw [h]; rfl

theorem recordError_tiles : (recordError s p code stream tag daddr).tiles = (s.modTile p (erroredTile · code stream tag daddr)).tiles :=
  (congrArg State.tiles (recordError_eq s p code stream tag daddr).2 :)

@[simp] theorem recordError_get : (recordError s p code stream tag daddr).tiles.get p = erroredTile (s.tiles.get p) code stream tag daddr := by
  rw [recordError_tiles, modTile_get]

theorem recordError_get_other {q : Nat} (h : q ≠ p) : (recordError s p code stream tag daddr).tiles.get q = s.tiles.get q := by
  rw [recordError_tiles, modTile_get_other _ _ h]

theorem recordError_untraced {d : Desc} (h : Untraced s d) : Untraced (recordError s p code stream tag daddr) d := by
  obtain ⟨he, -⟩ := recordError_events s p code stream tag daddr
  rw [Untraced, he]; exact h
end

/-- What events change is said of the host sides alone. -/
theorem EventsOnly.congr {s s' u u' : State} (h : EventsOnly s u) (hs : s'.host = s.host) (hu : u'.host = u.host) : EventsOnly s' u' := by
  simpa only [EventsOnly, HostMemKept, InMessage, hs, hu] using h

/-- A step of one tile before a change of the host side and tiles. -/
theorem TileOnly.hostTiles {s u t : State} {p : Nat} (h : TileOnly s u p) (k : t = { u with host := t.host, tiles := t.tiles }) :
    t = { s with host := t.host, tiles := t.tiles } := by
  rw [k, h.1]

/-- An error recorded and then a step of a stream. -/
theorem StreamStep.afterError {s t : State} {p st code stream tag daddr : Nat} {m : Nat → Nat} {x : StreamSt}
    (h : StreamStep (recordError s p code stream tag daddr) t p st (erroredTile (s.tiles.get p) code stream tag daddr) m x) :
    t = { s with host := t.host, tiles := t.tiles } ∧ EventsOnly s t ∧ (∀ q, q ≠ p → t.tiles.get q = s.tiles.get q) ∧
    Recorded (s.tiles.get p) (t.tiles.get p) code stream tag daddr ∧ (t.tiles.get p).ev = (s.tiles.get p).ev := by
  have hf := recordError_frame s p code stream tag daddr
  have hev := (recordError_events s p code stream tag daddr).congr rfl h.host
  have ho := fun q hq => recordError_get_other s p code stream tag daddr (q := q) hq
  have ht := h.tile
  obtain ⟨⟨h1, h2⟩, -⟩ := h
  refine ⟨by rw [h1, hf], hev, fun q hq => (h2 q hq).trans (ho q hq), ?_, by rw [ht]; rfl⟩
  rw [ht]
  exact recorded_erroredTile _ _ _ _ _

/-! ### A launch that ends with an error (R53, R57) -/

/-- An error recorded in a quiet tile whose launch then ends. -/
theorem launchEnded_recordError {s : State} {p : Nat} {r : Running} (code stream tag daddr : Nat) (st : Half)
    (hr : (s.tiles.get p).run = some r) (he : r.ended = none) (hq : TileQuiet (s.tiles.get p)) :
    let t := endRun (recordError s p code stream tag daddr) p st
    LaunchEnded s t p st ∧ t.tiles.get p = { erroredTile (s.tiles.get p) code stream tag daddr with run := none } := by
  have hg := recordError_get s p code stream tag daddr
  have hf := recordError_frame s p code stream tag daddr
  have hev := recordError_events s p code stream tag daddr
  have ho := fun q (h : q ≠ p) => recordError_get_other s p code stream tag daddr h
  generalize recordError s p code stream tag daddr = u at hg hf hev ho
  obtain ⟨⟨h1, -, h7, h8, ⟨r', hr', h9⟩, h10⟩, h11⟩ := launchEnded_endRun (s := u) st (by rw [hg]; exact hr) he (by rw [hg]; exact hq)
  have hcal : u.cal = s.cal := by rw [hf]
  have hrr : r' = r := Option.some_injective _ (hr'.symm.trans (by rw [hg]; exact hr))
  have hh : (endRun u p st).host = u.host := by rw [endRun_quiet st (by rw [hg]; exact hr) he (by rw [hg]; exact hq)]; rfl
  refine ⟨⟨?_, ?_, fun q hq' => (h7 q hq').trans (ho q hq'), h8, ⟨r, hr, ?_⟩, fun q hq' => ?_⟩, ?_⟩
  · rw [h1, hf]
  · exact hev.congr rfl hh
  · rw [h9, hrr, hcal]
  · rw [h10 q hq', hcal]
  · rw [h11, hg]

/-- What ends a launch after a step that changed its tile alone. -/
theorem LaunchEnded.of_tileOnly {s u t : State} {p : Nat} {st : Half} {r r' : Running} (h : TileOnly s u p) (hr : (s.tiles.get p).run = some r)
    (hr' : (u.tiles.get p).run = some r') (hl : r'.launch = r.launch) (k : LaunchEnded u t p st) : LaunchEnded s t p st := by
  obtain ⟨k1, k2, k3, k4, ⟨x, kx, k5⟩, k6⟩ := k
  have hx : x = r' := Option.some_injective _ (kx.symm.trans hr')
  obtain ⟨h1, h2⟩ := h
  have hh : u.host = s.host := by rw [h1]
  have hc : u.cal = s.cal := by rw [h1]
  exact ⟨by rw [k1, h1], k2.congr hh.symm rfl, fun q hq => (k3 q hq).trans (h2 q hq), k4, ⟨r, hr, by rw [k5, hc, hx, hl]⟩,
    fun q hq => by rw [k6 q hq, hc]⟩

end Sys2Proof.Machine
end

section
/-! PROOFS. LOOP (R59). -/

namespace Sys2Proof.Machine

theorem loopOf_run {t : Tile} (st c : Nat) {r : Running} (h : t.run = some r) : loopOf t st c = (streamOf t st).loops.get c := by
  simp [loopOf, streamOf, h]

/-- A taken branch: fetching restarts at the target (R52). -/
theorem StreamStep.branchTo {s u : State} {p st : Nat} {T : Tile} {m : Nat → Nat} {x : StreamSt} (h : StreamStep s u p st T m x) (d : Desc)
    (offset : Nat) : StreamStep s (Machine.branchTo u p st d offset) p st T m
      { x with pre := [], fetch := uint 48 ((d.addr : Int) + sint 32 offset * 64) } := h.tileStream _

/-- The passes of a LOOP once this execution is counted (R59). -/
def loopPasses (lc : Bool × Nat) : Nat := (if lc.1 = true then lc.2 else 0) + 1

/-- A LOOP repeats or falls through by its passes (R59). -/
theorem loopOp_eq {s : State} {p st : Nat} {d : Desc} (h : IssuesNow s p st d) (ho : d.op = 0x02) (h1 : field (d.w 1) 63 34 = 0)
    (h2 : field (d.w 2) 63 32 = 0) (hz : d.zeroFrom 3 = true) :
    let c := field (d.w 1) 33 32
    let passes := loopPasses ((streamOf (s.tiles.get p) st).loops.get c)
    let u := popHead s p st d
    loopOp s p st = finishIssue
      (if passes < max 1 (field (d.w 1) 31 0) then
        branchTo (tileStream u p st (fun x => { x with loops := x.loops.set c (true, passes) })) p st d (field (d.w 2) 31 0)
      else tileStream u p st (fun x => { x with loops := x.loops.set c (false, 0) })) p st d none 0 := by
  obtain ⟨r, hr, -⟩ := h.live
  obtain ⟨r', hr', -⟩ := h.popHead.run hr
  have hl : ∀ c, loopOf ((popHead s p st d).tiles.get p) st c = (streamOf (s.tiles.get p) st).loops.get c := fun c => by
    rw [loopOf_run _ _ hr', h.popHead.streamOf]
  rw [loopOp, issueOp_issues h (by simp [ho]) rfl]
  dsimp only
  rw [if_neg (by simp [h1, h2, hz]), hl]
  rfl

/-- Settles O22: a pass below the count branches with the counter armed, the last falls through with it disarmed. -/
theorem loopRunsItsPasses : Obligations.LoopRunsItsPasses := by
  unfold Obligations.LoopRunsItsPasses
  intro p st d s hc ho h1 h2 hz t0 x sem pre c n target repeats exits
  obtain ⟨hi, -, hfit⟩ := id hc
  have hrun : exec (.loop p st) s = .next (loopOp s p st) := rfl
  rw [loopOp_eq hi ho h1 h2 hz] at hrun
  have again : ∀ passes, passes = loopPasses (x.loops.get c) → passes < n → Completes (.loop p st) s (fun t => repeats t passes) := by
    intro passes hp hlt
    refine ⟨_, hrun.trans (by rw [if_pos (by rw [← hp]; omega), ← hp]), ?_⟩
    exact ((hi.popHead.tileStream _).branchTo d _).finishIssue hc (by omega) (by omega) (by omega) rfl hfit none
  have done : ∀ passes, passes = loopPasses (x.loops.get c) → n ≤ passes → Completes (.loop p st) s exits := by
    intro passes hp hle
    have hpos : 1 ≤ passes := by rw [hp, loopPasses]; omega
    refine ⟨_, hrun.trans (by rw [if_neg (by rw [← hp]; omega)]), ?_⟩
    exact (hi.popHead.tileStream _).finishIssue hc (by omega) (by omega) (by omega) rfl hfit none
  refine ⟨⟨again _ rfl, done _ rfl⟩, fun k hk hl => ?_⟩
  have hp : k + 1 = loopPasses (x.loops.get c) := by
    rw [hl, loopPasses]
    cases k <;> simp
  exact ⟨again _ hp, fun h => done _ hp (by omega)⟩

end Sys2Proof.Machine
end

section
/-! PROOFS. WAIT_TIME and WAIT_EVENT: at once, after a wait, and after a timeout (R57, R62, R63). -/

namespace Sys2Proof.Machine

/-! ### Device time advanced -/

theorem IssuesNow.advance {s : State} {p st : Nat} {d : Desc} (h : IssuesNow s p st d) (now : Nat) : IssuesNow (s.advance now) p st d := by
  simpa only [IssuesNow, Untraced, tileClocked, State.advance_tiles, State.advance_pwr, State.advance_host] using h

/-! ### WAIT_TIME (R62) -/

section
variable {s : State} {p st : Nat} {d : Desc}

/-- The target of a WAIT_TIME goes by the launch that runs. -/
theorem waitTarget_run {t : Tile} {r : Running} (hr : t.run = some r) :
    waitTarget t d = if bit (d.w 2) 0 then (d.w 1 + r.launch.strobe.dt) % 2 ^ 64 else d.w 1 := by
  simp [waitTarget, hr]

/-- A step of a stream leaves the target. -/
theorem StreamStep.waitTarget {u : State} {T : Tile} {m : Nat → Nat} {x : StreamSt} {r : Running} (h : StreamStep s u p st T m x)
    (hr : (s.tiles.get p).run = some r) : Machine.waitTarget (u.tiles.get p) d = Machine.waitTarget (s.tiles.get p) d := by
  obtain ⟨r', hr', hl, -⟩ := h.run hr
  rw [waitTarget_run hr, waitTarget_run hr', hl]

/-- A WAIT_TIME that issues has counted itself late or not, and waits. -/
theorem waitTimeOp_eq (h : IssuesNow s p st d) (ho : d.op = 0x06) (h1 : field (d.w 2) 63 1 = 0) (hz : d.zeroFrom 3 = true) :
    ∃ u, waitTimeOp s p st = releaseTime u p st d ∧
      StreamStep s u p st { s.tiles.get p with
          wtLate := if waitTarget (s.tiles.get p) d < s.dt then cnt (s.tiles.get p).wtLate 1 else (s.tiles.get p).wtLate }
        (semTaken (s.tiles.get p) d)
        { streamOf (s.tiles.get p) st with pre := (streamOf (s.tiles.get p) st).pre.drop 1, waiting := some (s.dt, d) } := by
  obtain ⟨r, hr, -⟩ := h.live
  have hp := h.popHead
  rw [waitTimeOp, issueOp_issues h (by simp [ho]) rfl]
  dsimp only
  rw [if_neg (by simp [h1, hz]), hp.waitTarget hr, hp.dt]
  refine ⟨_, rfl, ?_⟩
  split
  · exact (hp.modTile (g := fun t => { t with wtLate := cnt t.wtLate 1 }) (fun _ _ _ => rfl)).startWait d
  · exact hp.startWait d

theorem releaseTime_due (h : waitTarget (s.tiles.get p) d ≤ s.dt) : releaseTime s p st d = endWait s p st d none := if_pos h

theorem releaseTime_early (h : s.dt < waitTarget (s.tiles.get p) d) : releaseTime s p st d = s := if_neg (Nat.not_le.mpr h)

/-! ### WAIT_EVENT (R63) -/

/-- The tile whose counter a consuming WAIT_EVENT has taken its threshold from. -/
def eventTaken (d : Desc) (t : Tile) : Tile :=
  if bit (d.w 1) 32 then { t with ev := t.ev.modify (field (d.w 1) 4 0) (fun n => (n + 65536 - field (d.w 1) 31 16) % 65536) } else t

theorem eventTaken_beside (d : Desc) (t : Tile) (e : Tab Nat) (r : Option Running) :
    eventTaken d { t with sem := e, run := r } = { eventTaken d t with sem := e, run := r } := by
  unfold eventTaken
  split <;> rfl

theorem eventReached_iff {t : Tile} : eventReached t d = true ↔ (eventValue t (field (d.w 1) 4 0) + 65536 - field (d.w 1) 31 16) % 65536 < 32768 := by
  simp [eventReached, reached]

/-- A step that leaves the counters leaves whether the threshold is reached. -/
theorem StreamStep.eventReached {u : State} {m : Nat → Nat} {x : StreamSt} (h : StreamStep s u p st (s.tiles.get p) m x) :
    Machine.eventReached (u.tiles.get p) d = Machine.eventReached (s.tiles.get p) d := by
  rw [h.tile]; rfl

/-- A WAIT_EVENT that has reached its threshold consumes if it says so, and is over. -/
theorem StreamStep.releaseEvent {u : State} {m : Nat → Nat} {x : StreamSt} {r : Running} (h : StreamStep s u p st (s.tiles.get p) m x)
    (hr : (s.tiles.get p).run = some r) (he : r.ended = none) (ht : Untraced s d) (ho : d.op = 0x07) (hv : Machine.eventReached (s.tiles.get p) d = true)
    (hfit : ∀ i, m i + d.sigs.count i ≤ 255) :
    StreamStep s (Machine.releaseEvent u p st d) p st (eventTaken d (s.tiles.get p)) (fun i => m i + d.sigs.count i) { x with waiting := none } := by
  have hk := h.modTile (eventTaken_beside d)
  have hu : Machine.releaseEvent u p st d = Machine.endWait (if bit (d.w 1) 32 then u.modTile p (eventTaken d) else u) p st d none := by
    rw [Machine.releaseEvent, h.eventReached, if_pos hv]
    unfold eventTaken
    split <;> rfl
  rw [hu]
  split
  · exact hk.endWait hr he ht (by omega) (by omega) (by omega) hfit none
  · next hb =>
    rw [eventTaken, if_neg hb]
    exact h.endWait hr he ht (by omega) (by omega) (by omega) hfit none

theorem releaseEvent_short (h : eventReached (s.tiles.get p) d = false) : releaseEvent s p st d = s := by
  simp [releaseEvent, h]

/-- A WAIT_EVENT that issues waits before its counter is looked at. -/
theorem waitEventOp_eq (h : IssuesNow s p st d) (ho : d.op = 0x07) (h1 : field (d.w 1) 63 33 = 0) (h2 : field (d.w 1) 15 5 = 0)
    (h3 : field (d.w 2) 63 32 = 0) (hz : d.zeroFrom 3 = true) (h4 : bit (d.w 1) 32 = true → field (d.w 1) 4 0 < 16) :
    waitEventOp s p st = releaseEvent (startWait (popHead s p st d) p st d) p st d := by
  rw [waitEventOp, issueOp_issues h (by simp [ho]) rfl]
  dsimp only
  rw [if_neg]
  simp only [h1, h2, h3, hz, ne_eq, not_true_eq_false, Bool.not_true, Bool.false_eq_true, false_or, not_and]
  exact fun hb => Nat.not_le.mpr (h4 hb)

/-- A WAIT_EVENT whose timeout has passed first records TIMEOUT, and is over under err_cont (R57, R63). -/
theorem eventTimeout_passed {since : Nat} (hw : waitingIn (s.tiles.get p) st = some (since, d)) (ho : d.op = 0x07) (hc : tileClocked s p = true)
    (h0 : field (d.w 2) 31 0 ≠ 0) (hd : since + field (d.w 2) 31 0 ≤ s.dt) (hv : eventReached (s.tiles.get p) d = false) :
    eventTimeout s p st =
      let u := recordError s p teTimeout st d.tag d.addr
      if d.errCont then endWait u p st d (some teTimeout) else endRun u p stTileError := by
  rw [eventTimeout, retryWait_waiting hw ho hc]
  dsimp only
  rw [if_neg (by simp [h0, hv, Nat.not_lt.mpr hd]), softError]
  split <;> rfl

/-- TIMEOUT recorded under err_cont, and the wait over. -/
theorem timeoutEnds {r : Running} (hr : (s.tiles.get p).run = some r) (he : r.ended = none) (ht : Untraced s d) (ho : d.op = 0x07)
    (hfit : ∀ i, (s.tiles.get p).sem.get i + d.sigs.count i ≤ 255) (code : Nat) :
    let u := recordError s p code st d.tag d.addr
    StreamStep u (endWait u p st d (some code)) p st (erroredTile (s.tiles.get p) code st d.tag d.addr)
      (fun i => (s.tiles.get p).sem.get i + d.sigs.count i) { streamOf (s.tiles.get p) st with waiting := none } := by
  intro u
  have hg : u.tiles.get p = erroredTile (s.tiles.get p) code st d.tag d.addr := recordError_get ..
  have hr' : (u.tiles.get p).run = some r := by rw [hg]; exact hr
  have k := (StreamStep.refl st hr').endWait hr' he (recordError_untraced s p code st d.tag d.addr ht) (by omega) (by omega) (by omega)
    (by rw [hg]; exact hfit) (some code)
  rw [hg] at k
  exact k
end

section
variable {s : State} {p st : Nat} {d : Desc} {r : Running}

/-- A WAIT_TIME that issues advances its stream once its target is reached, else the stream waits (R62). -/
theorem waitTimeOp_step (h : IssuesNow s p st d) (ho : d.op = 0x06) (h1 : field (d.w 2) 63 1 = 0) (hz : d.zeroFrom 3 = true)
    (hfit : ∀ i, semSignalled (s.tiles.get p) d i ≤ 255) :
    let t0 := s.tiles.get p
    let x := streamOf t0 st
    let target := waitTarget t0 d
    let T := { t0 with wtLate := if target < s.dt then cnt t0.wtLate 1 else t0.wtLate }
    (target ≤ s.dt → StreamStep s (waitTimeOp s p st) p st T (semSignalled t0 d) { x with pre := x.pre.drop 1 }) ∧
    (s.dt < target → StreamStep s (waitTimeOp s p st) p st T (semTaken t0 d) { x with pre := x.pre.drop 1, waiting := some (s.dt, d) }) := by
  intro t0 x target T
  obtain ⟨r, hr, he, hnw⟩ := h.live
  obtain ⟨u, hu, hstep⟩ := waitTimeOp_eq h ho h1 hz
  have hut : waitTarget (u.tiles.get p) d = target := hstep.waitTarget hr
  rw [hu]
  refine ⟨fun hd => ?_, fun hd => ?_⟩
  · rw [releaseTime_due (by rw [hut, hstep.dt]; exact hd)]
    have k := hstep.endWait hr he h.untraced (by omega) (by omega) (by omega) hfit none
    rwa [← hnw] at k
  · rw [releaseTime_early (by rw [hut, hstep.dt]; exact hd)]
    exact hstep

/-- A WAIT_EVENT that issues is over if its counter has reached its threshold, else the stream waits (R63). -/
theorem waitEventOp_step (h : IssuesNow s p st d) (ho : d.op = 0x07) (h1 : field (d.w 1) 63 33 = 0) (h2 : field (d.w 1) 15 5 = 0)
    (h3 : field (d.w 2) 63 32 = 0) (hz : d.zeroFrom 3 = true) (h4 : bit (d.w 1) 32 = true → field (d.w 1) 4 0 < 16)
    (hfit : ∀ i, semSignalled (s.tiles.get p) d i ≤ 255) :
    let t0 := s.tiles.get p
    let x := streamOf t0 st
    (eventReached t0 d = true →
      StreamStep s (waitEventOp s p st) p st (eventTaken d t0) (semSignalled t0 d) { x with pre := x.pre.drop 1 }) ∧
    (eventReached t0 d = false →
      StreamStep s (waitEventOp s p st) p st t0 (semTaken t0 d) { x with pre := x.pre.drop 1, waiting := some (s.dt, d) }) := by
  intro t0 x
  obtain ⟨r, hr, he, hnw⟩ := h.live
  have hw := h.popHead.startWait d
  rw [waitEventOp_eq h ho h1 h2 h3 hz h4]
  refine ⟨fun hv => ?_, fun hv => ?_⟩
  · have k := hw.releaseEvent hr he h.untraced ho hv hfit
    rwa [← hnw] at k
  · rw [releaseEvent_short (by rw [hw.eventReached]; exact hv)]
    exact hw
end

/-- Settles O24: a wait that issues and a wait looked at again come to the same release, each with the semaphores it starts from; a timeout
records its error before the wait ends or the launch does. -/
theorem timedAndEventWaits : Obligations.TimedAndEventWaits := by
  unfold Obligations.TimedAndEventWaits
  intro p st d now s s' t0 x
  have ht0 : s'.tiles.get p = t0 := congrArg (Tab.get · p) (State.advance_tiles s now)
  have hclock : tileClocked s' p = tileClocked s p := by rw [tileClocked, State.advance_pwr]; rfl
  have htrace : Untraced s d → Untraced s' d := by rw [Untraced, Untraced, State.advance_host]; exact id
  refine ⟨?_, ?_⟩
  · intro r hr ho h1 hz target
    have htar : waitTarget t0 d = target := waitTarget_run hr
    have hr' : (s'.tiles.get p).run = some r := by rw [ht0, hr]
    refine ⟨?_, ?_⟩
    · intro hi hfit T
      have k := waitTimeOp_step (s := s') (hi.advance now) ho h1 hz (by rwa [ht0])
      simp only [ht0, htar] at k
      exact ⟨fun hd => ⟨_, rfl, k.1 hd⟩, fun hd => ⟨_, rfl, k.2 hd⟩⟩
    · intro since hw hc ht hfit
      obtain ⟨r', hr1, he⟩ := waitingIn_live hw
      obtain rfl : r' = r := Option.some_injective _ (hr1.symm.trans hr)
      have hretry : exec (.waitTimeRelease p st now) s = .next (releaseTime s' p st d) :=
        congrArg _ (retryWait_waiting (by rw [ht0]; exact hw) ho (by rw [hclock]; exact hc))
      have hst := (StreamStep.refl st hr').endWait hr' he (htrace ht) (by omega) (by omega) (by omega) (by rw [ht0]; exact hfit) none
      rw [ht0] at hst
      refine ⟨fun hd => ⟨_, hretry, ?_⟩, fun hd => hretry.trans ?_⟩
      · rw [releaseTime_due (by rw [ht0, htar]; exact hd)]
        exact hst
      · rw [releaseTime_early (by rw [ht0, htar]; exact hd)]
  · intro ho h1 h2 h3 hz c thr h4 T
    have hreach : (eventValue t0 c + 65536 - thr) % 65536 < 32768 → eventReached t0 d = true := eventReached_iff.mpr
    have hshort : 32768 ≤ (eventValue t0 c + 65536 - thr) % 65536 → eventReached t0 d = false :=
      fun h => Bool.eq_false_iff.mpr fun k => Nat.not_le.mpr (eventReached_iff.mp k) h
    refine ⟨?_, ?_⟩
    · intro hi hfit
      have k := waitEventOp_step (s := s') (hi.advance now) ho h1 h2 h3 hz h4 (by rwa [ht0])
      simp only [ht0] at k
      exact ⟨fun hd => ⟨_, rfl, k.1 (hreach hd)⟩, fun hd => ⟨_, rfl, k.2 (hshort hd)⟩⟩
    · intro since hw hc ht hfit
      obtain ⟨r, hr, he⟩ := waitingIn_live hw
      have hretry : exec (.waitEventRelease p st) s = .next (releaseEvent s p st d) := congrArg _ (retryWait_waiting hw ho hc)
      refine ⟨fun hd => ⟨_, hretry, (StreamStep.refl st hr).releaseEvent hr he ht ho (hreach hd) hfit⟩, fun hd => ⟨?_, fun h0 hdue => ?_⟩⟩
      · exact hretry.trans (congrArg _ (releaseEvent_short (hshort hd)))
      · have hr' : (s'.tiles.get p).run = some r := by rw [ht0, hr]
        have hto : exec (.eventTimeout p st now) s = _ := congrArg Host.Outcome.next
          (eventTimeout_passed (s := s') (by rw [ht0]; exact hw) ho (by rw [hclock]; exact hc) h0 hdue (by rw [ht0]; exact hshort hd))
        refine ⟨fun hcont => ⟨_, hto, ?_⟩, fun hcont hq => ⟨_, hto, ?_⟩⟩
        · have k := timeoutEnds (st := st) hr' he (htrace ht) ho (by rw [ht0]; exact hfit) teTimeout
          obtain ⟨k1, k2, k3, k4, -⟩ := k.afterError
          rw [if_pos hcont]
          simp only [ht0] at k k4
          exact ⟨k1, k2.congr (State.advance_host s now).symm rfl, fun q hq => (k3 q hq).trans (by rw [State.advance_tiles]), k4, k.streamOf, k.sem⟩
        · rw [if_neg (by simp [hcont])]
          obtain ⟨k1, k2⟩ := launchEnded_recordError teTimeout st d.tag d.addr stTileError hr' he (by rw [ht0]; exact hq)
          rw [ht0] at k2
          refine ⟨k1, ?_⟩
          rw [k2]
          exact ⟨recorded_erroredTile _ _ _ _ _, rfl, rfl⟩

end Sys2Proof.Machine
end

section
/-! PROOFS. POST_EVENT, reserved opcodes and wrong streams (R57, R58, R64). -/

namespace Sys2Proof.Machine

/-! ### Posts of a tile (R64) -/

theorem tilePost_vacant {s : State} {p l : Nat} (ctr inc : Nat) (h : lmapPhys ((s.tiles.get p).lmap.get l) = none) :
    tilePost s p l ctr inc = (s, some teVacant) := by
  simp [tilePost, h]

theorem tilePost_reaches {s : State} {p q l : Nat} (ctr inc : Nat) (h : lmapPhys ((s.tiles.get p).lmap.get l) = some q) (hq : q < 36)
    (ha : tileAbsorbed s q = false) (hd : (s.tiles.get q).defective = false) (ht : s.fab.transitDown.get (dieOf q) = false)
    (hp : pathUsable s p (dieOf q) = true) : tilePost s p l ctr inc = (evtAdd s q ctr inc, none) := by
  simp [tilePost, h, Nat.not_le.mpr hq, ha, hd, ht, hp]

/-- The counter field names one of the sixteen counters. -/
theorem evtAdd_field (s : State) (p w inc : Nat) : evtAdd s p (field w 11 8) inc =
    s.modTile p (fun t => { t with ev := t.ev.modify (field w 11 8) (fun n => (n + inc) % 65536) }) := by
  have h : field w 11 8 < 16 := Nat.mod_lt _ (by decide)
  rw [evtAdd, Nat.mod_eq_of_lt h]

section
variable {s : State} {p st : Nat} {d : Desc}

/-- The reserved fields of a POST_EVENT are 0 and its increment is not (R64). -/
def PostLegal (d : Desc) : Prop :=
  d.op = 0x08 ∧ field (d.w 1) 63 32 = 0 ∧ field (d.w 1) 15 12 = 0 ∧ field (d.w 1) 7 6 = 0 ∧ d.zeroFrom 2 = true ∧ field (d.w 1) 31 16 ≠ 0

/-- A POST_EVENT to its own tile. -/
theorem postEventOp_self (h : IssuesNow s p st d) (hl : PostLegal d) (hb : bit (d.w 1) 5 = true) : postEventOp s p st =
    finishIssue ((popHead s p st d).modTile p (fun t => { t with
      ev := t.ev.modify (field (d.w 1) 11 8) (fun n => (n + field (d.w 1) 31 16) % 65536) })) p st d none 0 := by
  obtain ⟨ho, h1, h2, h3, hz, h4⟩ := hl
  rw [postEventOp, issueOp_issues h (by simp [ho]) rfl]
  dsimp only
  rw [if_neg (by simp [h1, h2, h3, hz, h4]), if_pos hb, evtAdd_field]

/-- A POST_EVENT through its tile's map: what the post comes to. -/
theorem postEventOp_mapped {u : State} {e : Option Nat} (h : IssuesNow s p st d) (hl : PostLegal d) (hb : bit (d.w 1) 5 = false)
    (hx : tilePost (popHead s p st d) p (field (d.w 1) 4 0) (field (d.w 1) 11 8) (field (d.w 1) 31 16) = (u, e)) :
    (e = none → postEventOp s p st = finishIssue u p st d none 0) ∧
    (∀ code, e = some code → d.errCont = true →
      postEventOp s p st = finishIssue (recordError u p code st d.tag d.addr) p st d (some code) 0) := by
  obtain ⟨ho, h1, h2, h3, hz, h4⟩ := hl
  rw [postEventOp, issueOp_issues h (by simp [ho]) rfl]
  dsimp only
  rw [if_neg (by simp [h1, h2, h3, hz, h4]), if_neg (by simp [hb]), hx]
  refine ⟨fun he => by rw [he], fun code he hcont => ?_⟩
  rw [he]
  simp only [softError, hcont, if_true]

/-- A descriptor that follows no unfinished one completes at once. -/
theorem finishIssue_unordered {u : State} (err : Option Nat) (h : ordered (u.tiles.get p) st d = false) :
    finishIssue u p st d err 0 = completeDesc u p (controlIssued st d err) := by
  rw [finishIssue, h]
  rfl

/-- A step of another tile keeps the step of a stream, but for that tile. -/
theorem StreamStep.otherTile {u : State} {q : Nat} {T : Tile} {m : Nat → Nat} {x : StreamSt} (h : StreamStep s u p st T m x) (hq : q ≠ p)
    (g : Tile → Tile) : let v := u.modTile q g
    v = { s with tiles := v.tiles } ∧ v.tiles.get q = g (s.tiles.get q) ∧ (∀ k, k ≠ q → k ≠ p → v.tiles.get k = s.tiles.get k) ∧
    v.tiles.get p = u.tiles.get p := by
  obtain ⟨⟨h1, h2⟩, -⟩ := h
  refine ⟨by rw [h1]; rfl, by rw [modTile_get, h2 q hq], fun k hk hp => by rw [modTile_get_other _ _ hk, h2 k hp], modTile_get_other _ _ (Ne.symm hq)⟩

/-- What is absorbed at another tile is not changed by a step. -/
theorem StreamStep.tileAbsorbed {u : State} {q : Nat} {T : Tile} {m : Nat → Nat} {x : StreamSt} (h : StreamStep s u p st T m x) (hq : q ≠ p) :
    Machine.tileAbsorbed u q = Machine.tileAbsorbed s q := by
  obtain ⟨⟨h1, h2⟩, -⟩ := h
  rw [Machine.tileAbsorbed, h2 q hq, h1]
  rfl

/-- A post to another tile adds to that tile's counter, and the descriptor completes at its own. -/
theorem finishIssue_otherTile {q : Nat} (hc : CompletesNow s p st d) (ho : d.op = 0x08) (hq : q ≠ p) (g : Tile → Tile) :
    let t0 := s.tiles.get p
    let x := streamOf t0 st
    let t := finishIssue ((popHead s p st d).modTile q g) p st d none 0
    t = { s with tiles := t.tiles } ∧ t.tiles.get q = g (s.tiles.get q) ∧ (∀ k, k ≠ q → k ≠ p → t.tiles.get k = s.tiles.get k) ∧
    TileStep t0 t0 (t.tiles.get p) st (semSignalled t0 d) { x with pre := x.pre.drop 1 } := by
  intro t0 x t
  obtain ⟨hi, hord, hfit⟩ := hc
  obtain ⟨r, hr, he, -⟩ := hi.live
  have hp := hi.popHead
  obtain ⟨h1, h2, h3, h4⟩ := hp.otherTile hq g
  obtain ⟨r', hr', -, he'⟩ := hp.run hr
  have hord : ordered (((popHead s p st d).modTile q g).tiles.get p) st d = false := by
    rw [h4, hp.tile]; exact hord
  have hlive : liveRun ((popHead s p st d).modTile q g) p = true := by simp [liveRun, h4, hr', he', he]
  have hut : Untraced ((popHead s p st d).modTile q g) d := by rw [h1]; exact hi.untraced
  obtain ⟨⟨k1, k2⟩, k3, k4⟩ := completeDesc_control none (st := st) hlive hut (by omega) (by omega) (by omega)
    (fun i => by rw [h4, hp.sem]; exact hfit i)
  have ht : t = completeDesc ((popHead s p st d).modTile q g) p (controlIssued st d none) := finishIssue_unordered none hord
  rw [← ht] at k1 k2 k3 k4
  obtain ⟨-, hT⟩ := hp
  obtain ⟨hT, -, r0, r1, hr0, hr1, hs, hx, hoth⟩ := hT
  refine ⟨by rw [k1, h1], (k2 q hq).trans h2, fun k hkq hkp => (k2 k hkp).trans (h3 k hkq hkp), ?_, fun i => ?_, r0, r1, hr0, ?_, hs, hx, hoth⟩
  · rw [k3, h4, hT]
  · rw [k4, h4]
    exact congrArg (· + _) (hi.popHead.sem i)
  · rw [k3, h4]; exact hr1


/-- A post that is refused under err_cont: its error is recorded, and the descriptor completes. -/
theorem finishIssue_recordError (hc : CompletesNow s p st d) (ho : d.op = 0x08) (code : Nat) :
    let t0 := s.tiles.get p
    let x := streamOf t0 st
    let t := finishIssue (recordError (popHead s p st d) p code st d.tag d.addr) p st d (some code) 0
    t = { s with host := t.host, tiles := t.tiles } ∧ EventsOnly s t ∧ (∀ k, k ≠ p → t.tiles.get k = s.tiles.get k) ∧
    Recorded t0 (t.tiles.get p) code st d.tag d.addr ∧ (t.tiles.get p).ev = t0.ev ∧ streamOf (t.tiles.get p) st = { x with pre := x.pre.drop 1 } := by
  intro t0 x t
  obtain ⟨hi, hord, hfit⟩ := hc
  obtain ⟨r, hr, he, -⟩ := hi.live
  have hp := hi.popHead
  obtain ⟨r', hr', -, he'⟩ := hp.run hr
  have hg := recordError_get (popHead s p st d) p code st d.tag d.addr
  have hrun : ((recordError (popHead s p st d) p code st d.tag d.addr).tiles.get p).run = some r' := by rw [hg]; exact hr'
  have hord : ordered ((recordError (popHead s p st d) p code st d.tag d.addr).tiles.get p) st d = false := by rw [hg, hp.tile]; exact hord
  have hut : Untraced (popHead s p st d) d := by rw [Untraced, hp.host]; exact hi.untraced
  have k := (StreamStep.refl st hrun).completes hrun (he'.trans he) (recordError_untraced _ p code st d.tag d.addr hut) (by omega) (by omega)
    (by omega) (fun i => by rw [hg]; exact (hp.sem i).symm ▸ hfit i) (some code)
  rw [← finishIssue_unordered (some code) hord] at k
  have hx := k.streamOf
  rw [hg] at k
  obtain ⟨k1, k2, k3, k4, k5⟩ := k.afterError
  refine ⟨hp.1.hostTiles k1, k2.congr hp.host.symm rfl, fun n hn => (k3 n hn).trans (hp.1.2 n hn), ?_, k5.trans (by rw [hp.tile]), hx.trans ?_⟩
  · rw [hp.tile] at k4
    exact k4
  · rw [hg]
    exact hp.streamOf

/-- A descriptor that fails in a quiet tile ends the launch (R53, R57). -/
theorem failDesc_popHead (ht : Untraced s d) (hh : headOf (s.tiles.get p) st = some d) (hq : TileQuiet (s.tiles.get p)) (code : Nat) :
    let t0 := s.tiles.get p
    let t := failDesc (popHead s p st d) p st d code
    LaunchEnded s t p stTileError ∧ Recorded t0 (t.tiles.get p) code st d.tag d.addr ∧ (t.tiles.get p).ev = t0.ev ∧
    ∀ i, (t.tiles.get p).sem.get i = semTaken t0 d i := by
  intro t0 t
  obtain ⟨r, hr, he, -⟩ := headOf_live hh
  have hp := popHead_streamStep (st := st) ht hr
  obtain ⟨r', hr', hl, he'⟩ := hp.run hr
  have hq' : TileQuiet ((popHead s p st d).tiles.get p) := by rw [hp.tile]; exact hq
  obtain ⟨k1, k2⟩ := launchEnded_recordError code st d.tag d.addr stTileError hr' (he'.trans he) hq'
  refine ⟨k1.of_tileOnly hp.1 hr hr' hl, ?_⟩
  have ht : t.tiles.get p = { erroredTile ((popHead s p st d).tiles.get p) code st d.tag d.addr with run := none } := k2
  rw [ht]
  refine ⟨?_, ?_, hp.sem⟩
  · rw [hp.tile]; exact recorded_erroredTile t0 _ _ _ _
  · rw [hp.tile]; rfl

theorem reservedOp_issues {e : Nat} (hh : headOf (s.tiles.get p) st = some d) (he : opError st d = some e)
    (hm : mayIssue (s.tiles.get p) st d = true) (hc : tileClocked s p = true) : reservedOp s p st = failDesc (popHead s p st d) p st d e := by
  simp [reservedOp, hh, he, hm, hc]
end

/-- Settles O25: a post adds at its own tile as part of its stream's step, at another tile beside it, and records an error where the map is
vacant; a descriptor that cannot run fails once its head has left. -/
theorem postsAndReservedOpcodes : Obligations.PostsAndReservedOpcodes := by
  unfold Obligations.PostsAndReservedOpcodes
  intro p st d s t0 x
  refine ⟨?_, fun e hh he hm hclk ht hq => ?_⟩
  · intro hc ho h1 h2 h3 hz h4 c inc add
    have hl : PostLegal d := ⟨ho, h1, h2, h3, hz, h4⟩
    obtain ⟨hi, -, hfit⟩ := id hc
    have hp := hi.popHead
    have hmap : ((popHead s p st d).tiles.get p).lmap = t0.lmap := by rw [hp.tile]
    refine ⟨fun hb => ⟨_, congrArg Host.Outcome.next (postEventOp_self hi hl hb), ?_⟩, fun q hb hq hlt hne ha hdef hdown hpath => ?_,
      fun hb hv hcont => ?_⟩
    · exact (hp.modTile (fun _ _ _ => rfl)).finishIssue hc (by omega) (by omega) (by omega) rfl hfit none
    · have hx := tilePost_reaches (s := popHead s p st d) (p := p) c inc (by rw [hmap]; exact hq) hlt ((hp.tileAbsorbed hne).trans ha)
        (by rw [hp.1.2 q hne]; exact hdef) (by rw [hp.1.1]; exact hdown) (by rw [hp.1.1]; exact hpath)
      rw [evtAdd_field] at hx
      exact ⟨_, congrArg Host.Outcome.next ((postEventOp_mapped hi hl hb hx).1 rfl), finishIssue_otherTile hc ho hne _⟩
    · have hx := tilePost_vacant (s := popHead s p st d) (p := p) c inc (by rw [hmap]; exact hv)
      exact ⟨_, congrArg Host.Outcome.next ((postEventOp_mapped hi hl hb hx).2 teVacant rfl hcont), finishIssue_recordError hc ho teVacant⟩
  · exact ⟨_, congrArg Host.Outcome.next (reservedOp_issues hh he hm hclk), failDesc_popHead ht hh hq e⟩

end Sys2Proof.Machine
end

section
/-! PROOFS. SIGNAL_SEM over a semaphore that no signal names (R56, R61). -/

namespace Sys2Proof.Machine

/-- A SIGNAL_SEM of stream 0 under err_cont that adds 1 to semaphore 0. -/
def signalZero : Desc := { addr := 0, words := [0x2000000000005, 1, 1, 0, 0, 0, 0, 0] }

/-- A launch whose stream 0 has a descriptor at its head. -/
def runningHead (d : Desc) : Running :=
  { launch := { strobe := { prog := 0, label := 0, seq := 0, dt := 0 }, link := none }
    streams := (Tab.const idleStream).set 0 { idleStream with valid := true, pre := [d] }, dirRead := true, ended := none }

/-- Tile 0 runs `signalZero` while semaphore 5, which it does not name, holds 300. -/
def unnamedOver : State := State.reset.modTile 0 (fun t => { t with
  run := some (runningHead signalZero), sem := (Tab.const 0).set 5 300 })

theorem unnamedOver_issues : IssuesNow unnamedOver 0 0 signalZero :=
  ⟨rfl, rfl, rfl, rfl, rfl, rfl, .inl rfl⟩

theorem unnamedOver_sem (i : Nat) : (unnamedOver.tiles.get 0).sem.get i = if 5 = i then 300 else 0 := Tab.get_set _ _ _ _

/-- No semaphore is named but 0, so none overflows and no error is counted. -/
theorem unnamedOver_errCnt : ((signalSemOp unnamedOver 0 0).tiles.get 0).errCnt = 0 := by decide

/-- What semaphore `i` of `unnamedOver` comes to by the statement's sum. -/
theorem unnamedOver_sum (i : Nat) : semSignalled (unnamedOver.tiles.get 0) signalZero i +
    (if (decide (i < 64) && bit (signalZero.w 1) i) = true then signalZero.w 2 % 256 else 0) =
    (if 5 = i then 300 else 0) + if i = 0 then 1 else 0 := by
  have hw : signalZero.waits = [] := by decide
  have hs : signalZero.sigs = [] := by decide
  have h1 : signalZero.w 1 = 1 := by decide
  have h2 : signalZero.w 2 % 256 = 1 := by decide
  have hb : (decide (i < 64) && bit 1 i) = decide (i = 0) := by
    rw [Bool.eq_iff_iff, bit_eq_testBit]
    simp only [Bool.and_eq_true, decide_eq_true_eq, Nat.testBit_one_eq_true_iff_self_eq_zero]
    omega
  simp [semSignalled, semTaken, hw, hs, unnamedOver_sem, h1, h2, hb]

/-- Refutes O23: a semaphore that no slot and no mask names may hold more than 255 already, and then SIGNAL_SEM leaves it and records nothing. -/
theorem not_semaphoreWaitsAndSignals : ¬ Obligations.SemaphoreWaitsAndSignals := by
  unfold Obligations.SemaphoreWaitsAndSignals
  intro h
  have hs := (h 0 0 signalZero unnamedOver (by decide) (by decide) (by decide) (by decide)).2 (by decide) (by decide) unnamedOver_issues (by decide)
  obtain ⟨t, ht, -, -, -, ⟨-, hcnt, -⟩, -⟩ := hs.2 5 (by decide)
    (lt_of_lt_of_eq (by decide) (unnamedOver_sum 5).symm)
    (fun i hi => le_of_eq_of_le (unnamedOver_sum i) (by rw [if_neg (Ne.symm hi)]; split <;> omega))
  obtain rfl : t = signalSemOp unnamedOver 0 0 := (Host.Outcome.next.inj ht).symm
  exact absurd (unnamedOver_errCnt.symm.trans hcnt) (by decide)

end Sys2Proof.Machine
end

section
/-! PROOFS. Launches queued, started and accepted (R41, R52, R53, R87, R221). -/

namespace Sys2Proof.Machine

/-! ### A launch that starts (R52) -/

/-- The tile with a queued launch taken: S0 to S47 cleared, the generators seeded (R52, R87). -/
def startedTile (p : Nat) (l : Launch) (rest : List Launch) (t : Tile) : Tile :=
  { t with
    queue := rest, run := some { launch := l, streams := Tab.const idleStream, dirRead := false, ended := none }
    curSeq := l.strobe.seq, lastProg := l.strobe.prog.toNat, rng := seededRng l.strobe.seq p
    sem := (List.range 48).foldl (fun m i => m.set i 0) t.sem }

theorem startedTile_sem (p : Nat) (l : Launch) (rest : List Launch) (t : Tile) (i : Nat) :
    (startedTile p l rest t).sem.get i = if i < 48 then 0 else t.sem.get i := foldl_set_get (fun _ => 0) t.sem 48 i

theorem seededRng_get (seq : Word) (p : Nat) {lane : Nat} (h : lane < 1024) : (seededRng seq p).get lane = laneSeed seq p lane := by
  rw [seededRng, Tab.get, assocGet_graph, if_pos (List.mem_range.mpr h)]

section
variable {s : State} {p : Nat} {l : Launch} {rest : List Launch}

theorem launchStart_runs (hr : (s.tiles.get p).run = none) (hc : tileClocked s p = true) (hq : (s.tiles.get p).queue = l :: rest)
    (hp : l.strobe.prog.toNat < (s.tiles.get p).pdirCnt) : launchStart s p = s.modTile p (startedTile p l rest) := by
  simp only [launchStart, hr, hc, if_true, hq, Nat.not_le.mpr hp, if_false]
  rfl

/-- A program beyond the directory is BAD_PROGRAM; the stream, tag and address of its record are not stated (R53). -/
theorem launchStart_badProgram (hr : (s.tiles.get p).run = none) (hc : tileClocked s p = true) (hq : (s.tiles.get p).queue = l :: rest)
    (hp : (s.tiles.get p).pdirCnt ≤ l.strobe.prog.toNat) : ∃ st tag daddr, launchStart s p =
      endRun (recordError (s.modTile p (startedTile p l rest)).took p teBadProgram st tag daddr) p stBadProgram := by
  simp only [launchStart, hr, hc, if_true, hq, hp]
  exact ⟨_, _, _, rfl⟩
end

/-! ### Launches that the calendar holds (R221) -/

theorem takeHeld_none {s : State} {t : Nat} (b : Strobe) (h : s.cal.held.get t = []) : takeHeld s t b = (s, { strobe := b, link := none }) := by
  simp [takeHeld, h]

/-- A tile takes a strobe only enabled, with room in its queue, present and clocked (R52). -/
theorem tileReady_false {s : State} {p : Nat}
    (h : (s.tiles.get p).launchEn = false ∨ 8 ≤ (s.tiles.get p).queue.length ∨ tileAbsorbed s p = true ∨ tileClocked s p = false) :
    tileReady s p = false := by
  rcases h with h | h | h | h
  · simp [tileReady, h]
  · simp [tileReady, Nat.not_lt.mpr h]
  · simp [tileReady, h]
  · simp [tileReady, h]

theorem popHeld_cons {s : State} {t : Nat} {h : Held} {rest : List Held} (hh : s.cal.held.get t = h :: rest) :
    popHeld s t = { s with cal.held := s.cal.held.set t rest } := by
  rw [popHeld, hh]
  rfl

section
variable {s : State} {h : Held} {rest : List Held}

theorem heldAccept_tile {g : Nat} (hh : s.cal.held.get g = h :: rest) (hg : g < 36) :
    heldAccept s g = if tileReady s g then tileAccept { s with cal.held := s.cal.held.set g rest } g h.launch else s := by
  simp [heldAccept, hh, hg, popHeld_cons hh]

theorem heldAccept_planner {g : Nat} (hh : s.cal.held.get g = h :: rest) (hg : g = 36) : heldAccept s g =
    if plannerReady s then
      if s.pln.cycle.isNone then cycleStart { s with cal.held := s.cal.held.set g rest } h.launch
      else { s with cal.held := s.cal.held.set g rest, pln.waiting := some h.launch }
    else s := by
  subst hg
  simp [heldAccept, hh, popHeld_cons hh]

theorem heldAccept_hubDma {g : Nat} (hh : s.cal.held.get g = h :: rest) (hg : g = 37) : heldAccept s g =
    if s.fab.hdma.run.isNone then hubDmaStart { s with cal.held := s.cal.held.set g rest } h.launch else s := by
  subst hg
  simp [heldAccept, hh, popHeld_cons hh]

theorem heldAccept_frontEnd {g : Nat} (hh : s.cal.held.get g = h :: rest) (hg : g = 38) : heldAccept s g =
    if frontEndReady s then frontEndAccept { s with cal.held := s.cal.held.set g rest } h.launch else s := by
  subst hg
  simp [heldAccept, hh, popHeld_cons hh]
end

/-- The front end has 64 profiles; a launch beyond them is BAD_PROGRAM (R318). -/
theorem frontEndAccept_beyond {l : Launch} (s : State) (h : 64 ≤ l.strobe.prog.toNat) : frontEndAccept s l = reportDone s 38 l stBadProgram := by
  simp [frontEndAccept, Nat.not_lt.mpr h]

theorem hubDmaStart_runs {s : State} {l : Launch} (h : l.strobe.prog.toNat < s.fab.hdma.pdirCnt) : hubDmaStart s l =
    { s with fab.hdma := { s.fab.hdma with
        busy := true, prog := l.strobe.prog.toNat, run := some l, ptr := none, head := none, work := [], ended := none } } := by
  simp only [hubDmaStart, Nat.not_le.mpr h, if_false]

/-- Settles O26: each target's readiness decides whether a launch is taken; a tile that starts one clears and seeds, or ends it at once. -/
theorem launchesAreQueuedStartedAndAccepted : Obligations.LaunchesAreQueuedStartedAndAccepted := by
  unfold Obligations.LaunchesAreQueuedStartedAndAccepted
  refine ⟨fun p b s => ⟨fun hr hh => ?_, fun h => ?_⟩, fun p l rest s => ?_, fun g h rest s hh => ?_⟩
  · change Host.Outcome.next (launchStrobe s p b) = _
    rw [launchStrobe, if_pos hr, takeHeld_none b hh]
    rfl
  · change Host.Outcome.next (launchStrobe s p b) = _
    rw [launchStrobe, tileReady_false h]
    rfl
  · intro t0 hr hc hq
    refine ⟨fun hp => ⟨_, congrArg Host.Outcome.next (launchStart_runs hr hc hq hp), modTile_tileOnly _ _ _, ?_, fun i => ?_,
      fun lane hl => ?_⟩, fun hp hquiet => ?_⟩
    · rw [modTile_get]; rfl
    · rw [modTile_get]; exact startedTile_sem _ _ _ _ i
    · rw [modTile_get]; exact seededRng_get _ _ hl
    · obtain ⟨st, tag, daddr, hx⟩ := launchStart_badProgram hr hc hq hp
      have hg : (s.modTile p (startedTile p l rest)).took.tiles.get p = startedTile p l rest t0 := modTile_get s p _
      obtain ⟨⟨k1, k2, k3, k4, ⟨r, kr, k5⟩, k6⟩, k7⟩ := launchEnded_recordError (s := (s.modTile p (startedTile p l rest)).took) teBadProgram st tag
        daddr stBadProgram (by rw [hg]; rfl) rfl (by rw [hg]; exact hquiet)
      rw [← hx] at k1 k2 k3 k4 k5 k6 k7
      rw [hg] at k7 kr
      have hr' : r.launch = l := by rw [← Option.some_injective _ kr]
      refine ⟨_, rfl, k1, k2, fun q hq => (k3 q hq).trans (modTile_get_other s _ hq), k4, by rw [k7]; rfl, by rw [k7]; rfl, ?_, k6⟩
      rw [k5, hr']
      rfl
  · intro s'
    have hrun : exec (.heldLaunchAccept g) s = .next (heldAccept s g) := rfl
    rw [hrun]
    refine ⟨fun hg hr => ?_, fun hg hr => ?_, fun hg hr hc => ?_, fun hg hr => ?_, fun hg hn hp => ?_, fun hg hn => ?_, fun hg hr hp => ?_⟩
    · rw [heldAccept_tile hh hg, if_pos hr]; rfl
    · rw [heldAccept_tile hh hg, hr]; rfl
    · rw [heldAccept_planner hh hg, if_pos hr, if_neg (by simpa using Option.isSome_iff_ne_none.mp hc)]
    · rw [heldAccept_planner hh hg, hr]; rfl
    · rw [heldAccept_hubDma hh hg, hn]
      exact congrArg Host.Outcome.next (hubDmaStart_runs (s := s') hp)
    · rw [heldAccept_hubDma hh hg, if_neg (by simpa using Option.isSome_iff_ne_none.mp hn)]
    · rw [heldAccept_frontEnd hh hg, if_pos hr, frontEndAccept_beyond _ hp]; rfl

end Sys2Proof.Machine
end

section
/-! PROOFS. What a fetch unit reads: the directory entry and the descriptors of a stream (R51–R53, R57). -/

namespace Sys2Proof.Machine

/-! ### Reads of a fetch unit -/

/-- An address in DRAM, tile SRAM or hub SRAM is its own local address. -/
theorem fetchable_localAddr (s : State) {a : Nat} (h : fetchable a = true) : localAddr s a = a := by
  refine localAddr_local s fun n off ht => ?_
  simp [fetchable, ht] at h

/-- The window of a tile and the offset in it give back the address (R16). -/
theorem tileWindow_target {a p off : Nat} (h : target a = .tileSram p off) : tileWindow p + off = a := by
  unfold target at h
  split at h
  · cases h
  · split at h
    · next h2 =>
      cases h
      simp only [tileWindow, tileBase] at h2 ⊢
      omega
    · split_ifs at h

theorem readAt_clean {s : State} {src a n : Nat} (h : FetchClean s src a n) : readAt s src a n = (s, stOk, s.fab.mem.readN a n, false) := by
  obtain ⟨-, -, hf, -, hp, hr, hc⟩ := h
  have hl := fetchable_localAddr s hf
  cases ht : target a
  case dram d off =>
    rw [ht] at hp hc
    exact readAt_dram ht hp hr hc
  case tileSram q off =>
    rw [ht] at hp hc
    rw [readAt_sram ht hp hr hc, tileWindow_target ht]
  case hubSram off =>
    rw [ht] at hp hc
    simp [readAt, hl, ht, hp, hr, hubRead, hc]
  all_goals simp [fetchable, ht] at hf

/-- A clean read of a fetch unit gives the bytes at the address and changes nothing. -/
theorem fetchRead_clean {s : State} {src a n : Nat} (h : FetchClean s src a n) : fetchRead s src a n = (s, some (s.fab.mem.readN a n)) := by
  have hx := readAt_clean h
  obtain ⟨hn, hb, h1, h2, -⟩ := h
  simp [fetchRead, h1, h2, readRange, pieces_within hn hb, hx, firstErr]

theorem fetchRead_refused {s : State} {src a n : Nat} (h : fetchable a = false) : fetchRead s src a n = (s, none) := by
  simp [fetchRead, h]

/-! ### The directory entry (R51, R53) -/

/-- A directory word of a valid stream without reserved bits, or of an idle one (R51). -/
def dirWordOk (w : Nat) : Prop := bit w 0 = true → field w 63 48 = 0 ∧ field w 5 1 = 0

theorem dirWordOk_iff {w : Nat} : dirWordOk w ↔ (bit w 0 && (field w 63 48 != 0 || field w 5 1 != 0)) = false := by
  unfold dirWordOk
  cases bit w 0 <;> simp

theorem dirStreams_none {ws : List Nat} (h : ∀ w ∈ ws, dirWordOk w) : dirStreams ws = none := by
  rw [dirStreams, indexOf?_eq_findIdx?, List.findIdx?_eq_none_iff]
  exact fun w hw => dirWordOk_iff.mp (h w hw)

/-- The first word with a reserved bit is the one named (R51). -/
theorem dirStreams_first {f : Nat → Nat} {n k : Nat} (hn : n < k) (h : ∀ i, i < n → dirWordOk (f i)) (hb : ¬ dirWordOk (f n)) :
    dirStreams ((List.range k).map f) = some n := by
  rw [dirStreams, indexOf?_eq_findIdx?, List.findIdx?_eq_some_iff_getElem]
  refine ⟨by simpa using hn, ?_, fun j hj => ?_⟩
  · rw [dirWordOk_iff, Bool.not_eq_false] at hb
    simpa using hb
  · have hk := dirWordOk_iff.mp (h j hj)
    simpa using hk

/-- The words of the directory entry at an address. -/
def dirWords (s : State) (a : Nat) : List Nat := (List.range 4).map (wordAt s a)

/-- A stream as its directory word gives it (R51). -/
def dirStream (w : Nat) : StreamSt := { idleStream with valid := bit w 0, fetch := field w 47 6 * 64 }

/-- The launch whose directory entry has arrived. -/
def dirArrived (s : State) (p : Nat) : State := modRun s p (fun r => { r with dirRead := true })

section
variable {s : State} {p a : Nat} {r : Running} (ha : (s.tiles.get p).pdirBase + 32 * r.launch.strobe.prog.toNat = a)
include ha

theorem directoryRead_badField {n : Nat} (hf : FetchClean s p a 32) (hd : dirStreams (dirWords s a) = some n) :
    directoryRead s p r = endRun (recordError (dirArrived s p) p teBadField n 0 (a + 8 * n)) p stTileError := by
  have hw : (List.range 4).map (fun i => fld (s.fab.mem.readN a 32) (8 * i) 8) = dirWords s a := rfl
  unfold directoryRead
  simp only [ha, fetchRead_clean hf, hw, hd]
  rfl

/-- An entry without a valid stream is BAD_PROGRAM; the stream and tag of its record are not stated (R53). -/
theorem directoryRead_idle (hf : FetchClean s p a 32) (hd : dirStreams (dirWords s a) = none) (hv : (dirWords s a).all (fun w => !bit w 0) = true) :
    ∃ st tag, directoryRead s p r = endRun (recordError (dirArrived s p).took p teBadProgram st tag a) p stBadProgram := by
  have hw : (List.range 4).map (fun i => fld (s.fab.mem.readN a 32) (8 * i) 8) = dirWords s a := rfl
  unfold directoryRead
  simp only [ha, fetchRead_clean hf, hw, hd, hv]
  exact ⟨_, _, rfl⟩

theorem directoryRead_streams (hf : FetchClean s p a 32) (hd : dirStreams (dirWords s a) = none)
    (hv : (dirWords s a).all (fun w => !bit w 0) = false) : directoryRead s p r =
      modRun (dirArrived s p) p (fun r => { r with streams := (List.range 4).foldl (fun m i => m.set i (dirStream ((dirWords s a).getD i 0))) r.streams }) := by
  have hw : (List.range 4).map (fun i => fld (s.fab.mem.readN a 32) (8 * i) 8) = dirWords s a := rfl
  unfold directoryRead
  simp only [ha, fetchRead_clean hf, hw, hd, hv]
  rfl

theorem directoryRead_refused (hf : fetchable a = false) :
    ∃ st tag, directoryRead s p r = endRun (recordError (dirArrived s p).took p teFetch st tag a) p stTileError := by
  unfold directoryRead
  simp only [ha, fetchRead_refused hf]
  exact ⟨_, _, rfl⟩
end

/-! ### Descriptors (R52) -/

/-- A stream whose next descriptor is fetched (R52, R57). -/
def Fetching (x : StreamSt) : Prop :=
  x.valid = true ∧ x.closed = false ∧ x.pre.length < 8 ∧ ∀ d, x.pre.getLast? = some d → d.op ≠ 0x01

/-- What a stream makes of the read of its next descriptor: the descriptor joins the prefetched ones, or the launch ends. -/
theorem descriptorRead_fetches {s u : State} {p st : Nat} {r : Running} {o : Option (List Byte)} (hd : r.dirRead = true)
    (hx : Fetching (r.streams.get st)) (hf : fetchRead s p (r.streams.get st).fetch 64 = (u, o)) :
    (∀ bs, o = some bs → descriptorRead s p st r = tileStream u p st (fun z => { z with
      pre := z.pre ++ [{ addr := (r.streams.get st).fetch, words := (List.range 8).map (fun i => BitVec.ofNat 64 (fld bs (8 * i) 8)) }]
      fetch := (z.fetch + 64) % 2 ^ 48 })) ∧
    (o = none → ∃ tag, descriptorRead s p st r = endRun (recordError u.took p teFetch st tag (r.streams.get st).fetch) p stTileError) := by
  obtain ⟨h1, h2, h3, h4⟩ := hx
  unfold descriptorRead
  simp only [hf]
  rw [if_neg]
  · exact ⟨fun bs hb => by rw [hb], fun hn => by rw [hn]; exact ⟨_, rfl⟩⟩
  · cases hl : (r.streams.get st).pre.getLast? with
    | none => simp [hd, h1, h2, h3]
    | some d => simp [hd, h1, h2, h3, h4 d hl]

/-! ### A launch that a fetch ends -/

theorem LaunchEnded.took {s t : State} {p : Nat} {st : Half} (h : LaunchEnded s.took t p st) : LaunchEnded s { t with free := s.free } p st := by
  obtain ⟨h1, h2⟩ := h
  refine ⟨?_, h2⟩
  rw [h1]
  rfl

section
variable {s u : State} {p : Nat} {r r' : Running}

/-- An error of a quiet tile's fetch ends the launch (R57). -/
theorem launchEnded_fetchError (hu : TileOnly s u p) (hT : u.tiles.get p = { s.tiles.get p with run := some r' })
    (hr : (s.tiles.get p).run = some r) (hl : r'.launch = r.launch) (he : r'.ended = none) (hq : TileQuiet (s.tiles.get p))
    (code st tag daddr : Nat) (status : Half) : let t := endRun (recordError u p code st tag daddr) p status
    LaunchEnded s t p status ∧ Recorded (s.tiles.get p) (t.tiles.get p) code st tag daddr := by
  have hr' : (u.tiles.get p).run = some r' := by rw [hT]
  obtain ⟨k1, k2⟩ := launchEnded_recordError code st tag daddr status hr' he (by rw [hT]; exact hq)
  refine ⟨k1.of_tileOnly hu hr hr' hl, ?_⟩
  rw [k2, hT]
  exact recorded_erroredTile _ _ _ _ _

/-- The same where the stream or the tag of the record is not stated. -/
theorem launchEnded_fetchError_free (hu : TileOnly s u p) (hT : u.tiles.get p = { s.tiles.get p with run := some r' })
    (hr : (s.tiles.get p).run = some r) (hl : r'.launch = r.launch) (he : r'.ended = none) (hq : TileQuiet (s.tiles.get p))
    (code st tag daddr : Nat) (status : Half) : let t := endRun (recordError u.took p code st tag daddr) p status
    LaunchEnded s { t with free := s.free } p status ∧ (t.tiles.get p).errStat = (s.tiles.get p).errStat ||| BitVec.ofNat 32 (2 ^ code) := by
  have hu' : TileOnly s.took u.took p := ⟨by rw [hu.1]; rfl, hu.2⟩
  obtain ⟨k1, k2, -⟩ := launchEnded_fetchError hu' hT hr hl he hq code st tag daddr status
  exact ⟨k1.took, k2⟩

theorem dirArrived_get (hr : (s.tiles.get p).run = some r) :
    (dirArrived s p).tiles.get p = { s.tiles.get p with run := some { r with dirRead := true } } := by
  rw [dirArrived, modRun, modTile_get, hr]
  rfl
end

/-- Settles O27: the directory entry is legal, has a first bad word, or has no valid stream; a descriptor is read clean or not at all. -/
theorem tileFetchesDirectoryAndDescriptors : Obligations.TileFetchesDirectoryAndDescriptors := by
  unfold Obligations.TileFetchesDirectoryAndDescriptors
  intro p r s t0 hr he hc
  have hfetch : ∀ f, exec (.descriptorFetch (.tile p) f) s = .next (match f with
      | .directory => if r.dirRead then s else directoryRead s p r
      | .stream st => descriptorRead s p st r) := by
    intro f
    change Host.Outcome.next (tileFetch s p f) = _
    unfold tileFetch
    simp only [show (s.tiles.get p).run = some r from hr, he, hc]
    rfl
  refine ⟨?_, ?_⟩
  · intro hd a w
    have hdir : exec (.descriptorFetch (.tile p) .directory) s = .next (directoryRead s p r) := (hfetch .directory).trans (by simp only [hd]; rfl)
    have hfree := launchEnded_fetchError_free (modTile_tileOnly s p _) (dirArrived_get hr) hr rfl he
    refine ⟨fun hf hok => ?_, fun n hf hn hok hb hbad hq => ?_, fun hf hq => ?_⟩
    · have hnone : dirStreams (dirWords s a) = none := dirStreams_none (by simpa [dirWords, dirWordOk] using hok)
      refine ⟨fun hv => ?_, fun hv hq => ?_⟩
      · have hall : (dirWords s a).all (fun w => !bit w 0) = false := by simpa [dirWords, List.all_eq_false] using hv
        have hstream : ∀ i < 4, ((List.range 4).foldl (fun m i => m.set i (dirStream ((dirWords s a).getD i 0))) r.streams).get i
            = dirStream (w i) := by
          intro i hi
          rw [foldl_set_get, if_pos hi]
          simp [dirWords, hi, w]
        refine ⟨_, hdir.trans (congrArg _ (directoryRead_streams rfl hf hnone hall)), ?_⟩
        refine ⟨(modTile_tileOnly s p _).trans (modTile_tileOnly _ p _), _, ?_, hstream⟩
        rw [modRun, modTile_get, dirArrived_get hr]
        rfl
      · have hall : (dirWords s a).all (fun w => !bit w 0) = true := by simpa [dirWords] using hv
        obtain ⟨st, tag, hx⟩ := directoryRead_idle rfl hf hnone hall
        exact ⟨_, hdir.trans (congrArg _ hx), hfree hq _ _ _ _ _⟩
    · have hfirst : dirStreams (dirWords s a) = some n := dirStreams_first hn hok (fun h => by
        obtain ⟨h1, h2⟩ := h hb
        exact hbad.elim (· h1) (· h2))
      exact ⟨_, hdir.trans (congrArg _ (directoryRead_badField rfl hf hfirst)),
        launchEnded_fetchError (modTile_tileOnly s p _) (dirArrived_get hr) hr rfl he hq _ _ _ _ _⟩
    · obtain ⟨st, tag, hx⟩ := directoryRead_refused (r := r) (a := a) rfl hf
      exact ⟨_, hdir.trans (congrArg _ hx), hfree hq _ _ _ _ _⟩
  · intro st hd x h1 h2 h3 h4
    have hx : Fetching (r.streams.get st) := ⟨h1, h2, h3, h4⟩
    refine ⟨fun hf => ?_, fun hf hq => ?_⟩
    · refine ⟨_, (hfetch (.stream st)).trans (congrArg _ ((descriptorRead_fetches hd hx (fetchRead_clean hf)).1 _ rfl)), modTile_tileOnly s p _, ?_⟩
      rw [tileStream_get, show (s.tiles.get p).run = some r from hr]
      rfl
    · obtain ⟨tag, hx⟩ := (descriptorRead_fetches hd hx (fetchRead_refused hf)).2 rfl
      exact ⟨_, (hfetch (.stream st)).trans (congrArg _ hx),
        launchEnded_fetchError_free (TileOnly.refl s p) (by rw [← hr]) hr rfl he hq _ _ _ _ _⟩

end Sys2Proof.Machine
end

section
/-! PROOFS. A DMA descriptor joins a channel whose oldest descriptor waits for responses (R55, R119–R123). -/

namespace Sys2Proof.Machine

/-! ### The channel carries on only through its oldest descriptor -/

/-- A descriptor without requests left to make makes none. -/
theorem sendAll_idle {s : State} {p i : Nat} {d : Desc} {w : DmaWork} (h : workOf s p i = some (d, w)) (ht : w.todo = []) (n : Nat) :
    sendAll n s p i = s := by
  cases n with
  | zero => rfl
  | succ n => simp [sendAll, h, ht]

/-- A descriptor that waits for responses waits on. -/
theorem dmaRun_waits {s : State} {p i : Nat} {d : Desc} {w : DmaWork} (h : workOf s p i = some (d, w)) (ht : w.todo = []) (ho : w.out ≠ []) (n : Nat) :
    dmaRun n s p i = s := by
  cases n with
  | zero => rfl
  | succ n => simp [dmaRun, sendAll_idle h ht, h, ho]

theorem dmaKick_waits {s : State} {p chan : Nat} (h : ChannelWaits (s.tiles.get p) chan) : dmaKick s p chan = s := by
  obtain ⟨i, x, w, hi, hx, hw, ht, ho⟩ := h
  have hwork : workOf s p i = some (x.desc, w) := by simp [workOf, hx, hw]
  simp only [dmaKick, hi, hwork, dmaRun_waits hwork ht ho]
  split <;> rfl

/-- A descriptor that joins does not become the oldest. -/
theorem ChannelWaits.append {t t' : Tile} {chan : Nat} (h : ChannelWaits t chan) {l : List Issued} (hI : t'.issued = t.issued ++ l) :
    ChannelWaits t' chan := by
  obtain ⟨i, x, w, hi, hx, hw⟩ := h
  refine ⟨i, x, w, ?_, by rw [hI, List.getElem?_append_left (List.getElem?_eq_some_iff.1 hx).1, hx], hw⟩
  rw [oldestIssued, indexOf?_eq_findIdx?] at hi ⊢
  rw [hI, List.findIdx?_append, hi]
  rfl

/-! ### The head leaves its stream and joins -/

/-- Where a descriptor's addresses lie does not depend on what its issue changes. -/
theorem StreamStep.ownSram {s u : State} {p st : Nat} {m : Nat → Nat} {x : StreamSt} (h : StreamStep s u p st (s.tiles.get p) m x) :
    ownSram (u.tiles.get p) p = ownSram (s.tiles.get p) p := by
  rw [h.tile]
  rfl

theorem IssuesNow.loopAdd {s : State} {p st : Nat} {d : Desc} (h : IssuesNow s p st d) :
    loopAdd ((Machine.popHead s p st d).tiles.get p) st = loopAdd (s.tiles.get p) st := by
  obtain ⟨r, hr, -⟩ := h.live
  obtain ⟨r', hr', -⟩ := h.popHead.run hr
  have hx := h.popHead.streamOf
  funext lix c step a
  simp only [streamOf, hr, hr'] at hx
  simp only [Machine.loopAdd, loopOf, hr, hr', hx]

/-- A tile with a descriptor joined to those under way, and its cycles counted. -/
def joinedTile (t : Tile) (d : Desc) (w : DmaWork) (c : Nat) : Tile :=
  { t with issued := t.issued ++ [underWay d w], busyDma := (t.busyDma + c) % 2 ^ 64 }

/-- The cycles counted for a transfer, a free value where they are not stated by number, and the free values this takes. -/
def countedCycles (s : State) (cyc : Option Nat) : Nat := cyc.getD ((Config.freeQuad s.free).toNat % 2 ^ 32)
def takenBy (cyc : Option Nat) : Nat := if cyc.isSome then 0 else 1

section
variable {s : State} {p : Nat} {d : Desc}

/-- The state with the head joined to its channel with work `w`, before any request of it. -/
def joined (s : State) (p : Nat) (d : Desc) (cyc : Option Nat) (w : DmaWork) : State :=
  { popHead s p 2 d with free := (popHead s p 2 d).free + takenBy cyc }.modTile p (joinedTile · d w (countedCycles (popHead s p 2 d) cyc))

/-- A transfer issues: it joins, then its channel carries on. -/
theorem dmaIssue_popHead (w : DmaWork) (cyc : Option Nat) : dmaIssue (popHead s p 2 d) p d w cyc = dmaKick (joined s p d cyc w) p d.chan := by
  cases cyc <;> rfl

theorem joinsChannel_joined (h : IssuesNow s p 2 d) (w : DmaWork) (cyc : Option Nat) :
    JoinsChannel s (joined s p d cyc w) p d w (countedCycles s cyc) (takenBy cyc) := by
  have hs := h.popHead
  unfold joined
  dsimp only at hs
  generalize popHead s p 2 d = u at hs
  have hfree : u.free = s.free := by rw [hs.1.1]
  obtain ⟨⟨h1, h2⟩, h3⟩ := hs.modTile (g := (joinedTile · d w (countedCycles u cyc))) (fun _ _ _ => rfl)
  have hc : countedCycles u cyc = countedCycles s cyc := by rw [countedCycles, hfree, countedCycles]
  rw [hc] at h1 h2 h3 ⊢
  refine ⟨?_, h2, h3⟩
  rw [State.modTile, hfree, hs.1.1]

/-- Of its tile a joined descriptor changes those under way, the cycles counted, semaphores and its stream. -/
theorem joined_get (h : IssuesNow s p 2 d) (w : DmaWork) (cyc : Option Nat) : let T := (joined s p d cyc w).tiles.get p
    T = { joinedTile (s.tiles.get p) d w (countedCycles s cyc) with sem := T.sem, run := T.run } := by
  obtain ⟨-, -, hT, -⟩ := joinsChannel_joined h w cyc
  exact hT

/-- A transfer that issues on a waiting channel joins it; nothing else is done yet. -/
theorem joinsChannel_dmaIssue (h : IssuesNow s p 2 d) (hw : ChannelWaits (s.tiles.get p) d.chan) (w : DmaWork) (cyc : Option Nat) :
    JoinsChannel s (dmaIssue (popHead s p 2 d) p d w cyc) p d w (countedCycles s cyc) (takenBy cyc) := by
  have hwait : ChannelWaits ((joined s p d cyc w).tiles.get p) d.chan := hw.append (l := [underWay d w]) (by rw [joined_get h]; rfl)
  rw [dmaIssue_popHead, dmaKick_waits hwait]
  exact joinsChannel_joined h w cyc

theorem moveRuns_sum (src : Option Nat) (dst : Nat) (ss ds : Int × Int) (f : Nat → Byte) :
    ((moveRuns d src dst ss ds).map (fun r => (List.range r.len).map f)).flatten.length = ((moveRuns d src dst ss ds).map (·.len)).sum := by
  simp [List.length_flatten, Function.comp_def]

/-- A MOVE whose fields are legal issues (R119, R120, R140). -/
theorem moveBody_legal {t : Tile} {u : State} (hl : loopAdd (u.tiles.get p) 2 = loopAdd t 2) (ho' : ownSram (u.tiles.get p) p = ownSram t p)
    (ho : d.op = 0x30) :
    let zc := field (d.w 6) 1 0; let lc := field (d.w 6) 3 2
    let src := loopAdd t 2 (bit (d.w 6) 4) lc (sint 32 (field (d.w 7) 31 0)) (d.w 1)
    let dst := loopAdd t 2 (bit (d.w 6) 5) lc (sint 32 (field (d.w 7) 63 32)) (d.w 2)
    let rs := moveRuns d (some src) dst (strides (d.w 4)) (strides (d.w 5)); let n := (rs.map (·.len)).sum
    moveCountsOk (d.w 3) = true → field (d.w 6) 63 6 = 0 → zc ≠ 3 → tensorBad src = false → tensorBad dst = false → (zc = 0 → runsFit rs = true) →
    (zc ≠ 0 → field (d.w 3) 56 41 = 1 ∧ field (d.w 3) 40 25 = 1 ∧ field (d.w 3) 24 0 % 64 = 0) → (zc = 1 → dst % 64 = 0) → (zc = 2 → src % 64 = 0) →
    moveBody u p d = dmaIssue u p d (if zc = 2 then newWork [src, dst] 1 [] [] else newWork [src, dst] 1 (readPlan rs) (List.replicate n 0))
      (if zc = 0 ∧ ownSram t p src = true ∧ ownSram t p dst = true then some ((n + 1023) / 1024) else none) := by
  intro zc lc src dst rs n h1 h2 h3 h4 h5 h6 h7 h8 h9
  have hrs : runsOf d (newWork [src, dst] 1 [] []) = rs := by simp [runsOf, ho, newWork, rs]
  have hz : zcDecodes d = decide (zc = 2) := by simp [zcDecodes, ho, zc]; rfl
  have hbad : (!moveCountsOk (d.w 3) || field (d.w 6) 63 6 != 0 || zc == 3 || tensorBad src || tensorBad dst ||
      (zc != 0 && (field (d.w 3) 56 41 != 1 || field (d.w 3) 40 25 != 1 || field (d.w 3) 24 0 % 64 != 0)) ||
      (zc == 1 && dst % 64 != 0) || (zc == 2 && src % 64 != 0) || (zc == 0 && !runsFit rs)) = false := by
    simp only [h1, h2, h4, h5, Bool.or_eq_false_iff, Bool.and_eq_false_iff]
    simp only [beq_eq_false_iff_ne, bne_eq_false_iff_eq, Bool.not_eq_false', Bool.not_true, ne_eq, h3, not_false_iff, true_and, and_true]
    tauto
  unfold moveBody
  dsimp only
  rw [hl, ho', hrs, if_neg (by simpa only [Bool.not_eq_true] using hbad), hz]
  simp only [decide_eq_true_eq]
  rfl

/-- A FILL whose fields are legal issues with the bytes of its pattern (R119, R120). -/
theorem fillBody_legal {t : Tile} {u : State} (hl : loopAdd (u.tiles.get p) 2 = loopAdd t 2) (ho' : ownSram (u.tiles.get p) p = ownSram t p)
    (ho : d.op = 0x31) :
    let dst := loopAdd t 2 (bit (d.w 6) 5) (field (d.w 6) 3 2) (sint 32 (field (d.w 5) 31 0)) (d.w 1)
    let rs := moveRuns d none dst (0, 0) (strides (d.w 4)); let n := (rs.map (·.len)).sum
    let buf := (rs.map (fun r => (List.range r.len).map (fun x => BitVec.ofNat 8 (d.w 2 / 256 ^ (x % 2 ^ field (d.w 6) 1 0))))).flatten
    moveCountsOk (d.w 3) = true → field (d.w 6) 63 6 = 0 → bit (d.w 6) 4 = false → field (d.w 5) 63 32 = 0 → d.w 7 = 0 → tensorBad dst = false →
    runsFit rs = true →
    fillBody u p d = dmaIssue u p d (newWork [0, dst] 2 (writePlan rs []) buf) (if ownSram t p dst then some ((n + 1023) / 1024) else none) := by
  intro dst rs n buf h1 h2 h3 h4 h5 h6 h7
  have hrs : runsOf d (newWork [0, dst] 2 [] []) = rs := by simp [runsOf, ho, newWork, rs]
  have hn : buf.length = n := moveRuns_sum _ _ _ _ _
  have hbad : (!moveCountsOk (d.w 3) || field (d.w 6) 63 6 != 0 || bit (d.w 6) 4 || field (d.w 5) 63 32 != 0 || d.w 7 != 0 || tensorBad dst ||
      !runsFit rs) = false := by
    rw [h1, h2, h3, h4, h5, h6, h7]
    rfl
  unfold fillBody
  dsimp only
  rw [hl, ho', hrs, if_neg (by rw [hbad]; decide), show List.length _ = n from hn]
  rfl

/-- A GATHER or SCATTER whose fields are legal issues with the read of its index list (R121, R122). -/
theorem indexedBody_legal {t : Tile} {u : State} (hl : loopAdd (u.tiles.get p) 2 = loopAdd t 2) (src dst : Nat) :
    let w5 := d.w 5; let lc := field w5 37 36; let plain := sint 32 (field (d.w 7) 31 0); let count := field w5 32 17; let rl := field w5 16 0
    let idx := loopAdd t 2 (bit w5 39) lc (sint 32 (field (d.w 7) 63 32)) (d.w 3); let bytes := count * (if bit w5 33 then 4 else 2)
    let far := sint 32 (field (d.w 4) 31 0); let near := sint 32 (field (d.w 6) 31 0)
    src = (if d.op = 0x32 then d.w 1 else loopAdd t 2 (bit w5 38) lc plain (d.w 1)) →
    dst = (if d.op = 0x32 then loopAdd t 2 (bit w5 38) lc plain (d.w 2) else d.w 2) →
    (d.op ≠ 0x32 → bit w5 34 = false) →
    field w5 63 40 = 0 → count ≠ 0 → 0 < rl → rl ≤ 65536 → field (d.w 6) 63 32 = 0 → tensorBad idx = false → tensorFits idx bytes = true →
    tensorBad src = false → tensorBad dst = false →
    (∀ r, r < count → tensorFits (tensorAdd (if d.op = 0x32 then dst else src) (r * near)) rl = true) →
    (bit w5 35 = true → rl % 64 = 0 ∧ field (d.w 4) 31 0 % 64 = 0 ∧ zcWorst rl ≤ far.natAbs ∧ (if d.op = 0x32 then src else dst) % 64 = 0) →
    indexedBody u p d = dmaIssue u p d
      { newWork [src, dst, idx] 0 (tensorPieces false idx bytes 0) (List.replicate bytes 0) with phase := 0 } none := by
  intro w5 lc plain count rl idx bytes far near hs hd h34 h1 h2 h3 h4 h5 h6 h7 h8 h9 h10 h11
  have hrows : (List.range count).all (fun r => tensorFits (tensorAdd (if d.op = 0x32 then dst else src) (r * near)) rl) = true := by
    simpa using h10
  have hzc : (bit w5 35 && (rl % 64 != 0 || field (d.w 4) 31 0 % 64 != 0 || decide (far.natAbs < zcWorst rl) ||
      (if d.op = 0x32 then src else dst) % 64 != 0)) = false := by
    cases hb : bit w5 35 with
    | false => rfl
    | true =>
      obtain ⟨k1, k2, k3, k4⟩ := h11 hb
      simp only [k1, k2, k4, Nat.not_lt.2 k3]
      rfl
  have hskip : (!decide (d.op = 0x32) && bit w5 34) = false := by
    by_cases ho : d.op = 0x32 <;> simp [ho, h34]
  have hbad : (field w5 63 40 != 0 || (!decide (d.op = 0x32) && bit w5 34) || count == 0 || rl == 0 || decide (65536 < rl) || field (d.w 6) 63 32 != 0 ||
      tensorBad src || tensorBad dst || tensorBad idx || !tensorFits idx bytes ||
      (bit w5 35 && (rl % 64 != 0 || field (d.w 4) 31 0 % 64 != 0 || decide (far.natAbs < zcWorst rl) || (if d.op = 0x32 then src else dst) % 64 != 0)) ||
      !((List.range count).all (fun r => tensorFits (tensorAdd (if d.op = 0x32 then dst else src) (r * near)) rl))) = false := by
    rw [hrows, hzc, hskip, h1, h5, h6, h7, h8, h9]
    have k2 : (count == 0) = false := by simpa using h2
    have k3 : (rl == 0) = false := by simpa using h3.ne'
    have k4 : decide (65536 < rl) = false := by simpa using h4
    rw [k2, k3, k4]
    rfl
  unfold indexedBody
  dsimp only
  rw [hl, ← hs, ← hd]
  exact if_neg (by rw [hbad]; decide)
end

/-- Settles O30: the popped head's fields are the legal ones of its form, and the channel's oldest descriptor goes on waiting. -/
theorem transfersJoinTheirChannel : Obligations.TransfersJoinTheirChannel := by
  unfold Obligations.TransfersJoinTheirChannel
  intro p d s t0 h hw
  have hl := h.loopAdd
  have hown := h.popHead.ownSram
  have hjoin := joinsChannel_dmaIssue h hw
  have hexec : ∀ (op : Nat) (body : State → Nat → Desc → State), d.op = op → dmaOp s p op body = body (popHead s p 2 d) p d :=
    fun op body ho => issueOp_issues h (by simp [ho]) rfl
  have key : ∀ {c : Instr} {op : Nat} {body : State → Nat → Desc → State} {w : DmaWork} (cyc : Option Nat),
      exec c s = .next (dmaOp s p op body) → d.op = op → body (popHead s p 2 d) p d = dmaIssue (popHead s p 2 d) p d w cyc →
      Completes c s (fun t => JoinsChannel s t p d w (countedCycles s cyc) (takenBy cyc)) := by
    intro c op body w cyc hc ho hb
    refine ⟨_, hc, ?_⟩
    rw [hexec op body ho, hb]
    exact hjoin w cyc
  refine ⟨fun ho => ?_, fun ho => ?_, ?_⟩
  · have hb := moveBody_legal hl hown ho
    intro zc lc src dst rs n h1 h2 h3 h4 h5 h6 h7 h8 h9 local_
    obtain ⟨t, ht, hj⟩ := key (c := .move (.tile p)) _ rfl ho (hb h1 h2 h3 h4 h5 h6 h7 h8 h9)
    refine ⟨t, ht, fun hloc => ?_, fun hloc => ?_⟩
    · rw [if_pos hloc, if_neg (ne_of_eq_of_ne hloc.1 (by decide))] at hj
      exact hj
    · rw [if_neg hloc] at hj
      exact hj
  · have hb := fillBody_legal hl hown ho
    intro dst rs n buf h1 h2 h3 h4 h5 h6 h7
    obtain ⟨t, ht, hj⟩ := key (c := .fill (.tile p)) _ rfl ho (hb h1 h2 h3 h4 h5 h6 h7)
    refine ⟨t, ht, fun hloc => ?_, fun hloc => ?_⟩ <;> rw [hloc] at hj <;> exact hj
  · have hb := indexedBody_legal (d := d) hl
    intro w5 lc plain count rl idx bytes far near h1 h2 h3 h4 h5 h6 h7
    refine ⟨fun dst ho hd h8 h9 h10 h11 => ?_, fun src ho hs h8 h9 h34 h10 h11 => ?_⟩
    · refine key none rfl ho (hb (d.w 1) dst (by rw [if_pos ho]) (by rw [if_pos ho]; exact hd) (fun k => absurd ho k) h1 h2 h3 h4 h5 h6 h7 h8 h9 ?_ ?_)
      · rw [if_pos ho]; exact h10
      · rw [if_pos ho]; exact h11
    · have ho' : d.op ≠ 0x32 := by omega
      refine key none rfl ho (hb src (d.w 2) (by rw [if_neg ho']; exact hs) (by rw [if_neg ho']) (fun _ => h34) h1 h2 h3 h4 h5 h6 h7 h8 h9 ?_ ?_)
      · rw [if_neg ho']; exact h10
      · rw [if_neg ho']; exact h11

end Sys2Proof.Machine
end

section
/-! PROOFS. Transfers of one row within a 256-byte block: what they read, what they write, and the bytes that arrive (R50, R119–R123). -/

namespace Sys2Proof.Machine

/-! ### Buffers -/

theorem slice_full {bs : List Byte} {n : Nat} (h : bs.length = n) : slice bs 0 n = bs := by
  simp [slice, ← h]

theorem putBytes_full {buf bs : List Byte} (h : buf.length = bs.length) : putBytes buf 0 bs = bs := by
  simp [putBytes, h]

/-! ### Addresses -/

theorem tensorAdd_natCast {a k : Nat} (h : a % 2 ^ 48 + k < 2 ^ 48) : tensorAdd a (k : Int) = a + k := by
  have hu : uint 48 ((a % 2 ^ 48 : Nat) + (k : Int)) = a % 2 ^ 48 + k := by
    rw [uint, ← Nat.cast_add]
    have := Nat.mod_eq_of_lt h
    omega
  rw [tensorAdd, hu]
  omega

theorem tensorAdd_zero (a : Nat) : tensorAdd a 0 = a := by
  have := tensorAdd_natCast (a := a) (k := 0) (by omega)
  simpa using this

/-- A range within one 256-byte block is one request (R37). -/
theorem tensorPieces_block {a n : Nat} (write : Bool) (off : Nat) (hn : 0 < n) (h : a % 256 + n ≤ 256) :
    tensorPieces write a n off = [{ write := write, addr := a, len := n, off := off }] := by
  have ha : a / 2 ^ 48 * 2 ^ 48 + a % 2 ^ 48 = a := by omega
  rw [tensorPieces, pieces_within hn (by omega), List.map_singleton, ha, Nat.add_zero]

/-! ### Plans -/

/-- A write without poison among its bytes is not cut. -/
theorem cutBad_clean (k : Piece) : cutBad [] k = [k] := by
  simp [cutBad]

section
variable {d : Desc} {n : Nat}

/-- Counts of one row in z and y, and the row's length (R119). -/
theorem oneRow_fields (hw : d.w 3 = 2 ^ 41 + 2 ^ 25 + n) (hn : n ≤ 256) :
    field (d.w 3) 56 41 = 1 ∧ field (d.w 3) 40 25 = 1 ∧ field (d.w 3) 24 0 = n ∧ field (d.w 3) 63 57 = 0 := by
  simp only [field, hw]
  omega

theorem moveCountsOk_oneRow (hw : d.w 3 = 2 ^ 41 + 2 ^ 25 + n) (h0 : 0 < n) (hn : n ≤ 256) : moveCountsOk (d.w 3) = true := by
  obtain ⟨h1, h2, h3, h4⟩ := oneRow_fields hw hn
  rw [moveCountsOk, h1, h2, h3, h4]
  simp
  omega

theorem moveRuns_oneRow (hw : d.w 3 = 2 ^ 41 + 2 ^ 25 + n) (hn : n ≤ 256) (src : Option Nat) (dst : Nat) (ss ds : Int × Int) :
    moveRuns d src dst ss ds = [{ src := src, dst := dst, len := n }] := by
  obtain ⟨h1, h2, h3, -⟩ := oneRow_fields hw hn
  rw [moveRuns, h1, h2, h3]
  cases src <;> simp [tensorAdd_zero]
end

section
variable {src dst n : Nat}

theorem readPlan_oneRow (hn : 0 < n) (h : src % 256 + n ≤ 256) (hs : src < 2 ^ 64) :
    readPlan [{ src := some src, dst := dst, len := n }] = [{ write := false, addr := src, len := n, off := 0 }] := by
  have hu : src ≠ unread * 2 ^ 40 := by rw [unread]; omega
  have hr : runOffsets [{ src := some src, dst := dst, len := n }] = [({ src := some src, dst := dst, len := n }, 0)] := rfl
  simp only [readPlan, hr, List.map_cons, List.map_nil, hu, if_false, tensorPieces_block false 0 hn h, List.flatten_cons, List.flatten_nil, List.append_nil]

theorem writePlan_oneRow (src : Option Nat) (hn : 0 < n) (h : dst % 256 + n ≤ 256) :
    writePlan [{ src := src, dst := dst, len := n }] [] = [{ write := true, addr := dst, len := n, off := 0 }] := by
  simp [writePlan, runOffsets, tensorPieces_block true 0 hn h, cutBad_clean]

theorem runsFit_oneRow {src : Option Nat} (hs : ∀ a, src = some a → tensorFits a n = true) (hd : tensorFits dst n = true) :
    runsFit [{ src := src, dst := dst, len := n }] = true := by
  cases src with
  | none => simp only [runsFit, List.all_cons, hd]; rfl
  | some a => simp only [runsFit, List.all_cons, hd, hs a rfl]; rfl

theorem unreadRanges_oneRow (hs : src < 2 ^ 64) : unreadRanges [{ src := some src, dst := dst, len := n }] = [] := by
  have hu : src ≠ unread * 2 ^ 40 := by rw [unread]; omega
  have hr : runOffsets [{ src := some src, dst := dst, len := n }] = [({ src := some src, dst := dst, len := n }, 0)] := rfl
  simp only [unreadRanges, hr, List.filterMap_cons, List.filterMap_nil, Option.some.injEq, hu, if_false]

/-- Source and destination that do not overlap: every byte is the source's (R120). -/
theorem overlapBytes_apart {s : State} {p a b : Nat} (buf : List Byte) (ha : resolve (s.tiles.get p) p src = some a)
    (hb : resolve (s.tiles.get p) p dst = some b) (h : a + n ≤ b ∨ b + n ≤ a) :
    overlapBytes s p [{ src := some src, dst := dst, len := n }] buf = (s, buf) := by
  have hd : ¬ (a < b + n ∧ b < a + n) := by omega
  simp [overlapBytes, runOffsets, ha, hb]
  omega
end

/-- Read bytes of a transfer without the codec fill its buffer. -/
theorem deliver_fills {d : Desc} {w : DmaWork} {k : Piece} {bs : List Byte} (hz : zcDecodes d = false) (hk : k.off = 0)
    (hl : w.buf.length = bs.length) (hb : w.bad = []) : deliver d w k bs [] = { w with buf := bs } := by
  have hn : ¬ (w.phase = 1 ∧ zcDecodes d = true) := by simp [hz]
  rw [deliver, if_neg hn, hk, putBytes_full hl, hb]
  simp [← hb]

end Sys2Proof.Machine
end

section
/-! PROOFS. A tile's transfers within its own SRAM, from issue to their last write (R50, R119–R123). -/

namespace Sys2Proof.Machine

/-! ### Own SRAM -/

theorem resolve_own (t : Tile) (p : Nat) {off : Nat} (h : off < 2 ^ 24) : resolve t p (2 ^ 62 + off) = some (tileWindow p + off) := by
  have hf : field (2 ^ 62 + off) 63 62 = 1 := by simp only [field]; omega
  have hm : (2 ^ 62 + off) % 2 ^ 24 = off := by omega
  simp only [resolve, hf, hm]

theorem tensorBad_own {off : Nat} (h : off < 2 ^ 24) : tensorBad (2 ^ 62 + off) = false := by
  have h1 : field (2 ^ 62 + off) 63 62 = 1 := by simp only [field]; omega
  have h2 : field (2 ^ 62 + off) 61 53 = 0 := by simp only [field]; omega
  have h3 : field (2 ^ 62 + off) 52 48 = 0 := by simp only [field]; omega
  have h4 : field (2 ^ 62 + off) 47 24 = 0 := by simp only [field]; omega
  simp only [tensorBad, h1, h2, h3, h4]
  decide

theorem tensorFits_own {off n : Nat} (h : off + n ≤ 2 ^ 24) : tensorFits (2 ^ 62 + off) n = true := by
  have hm : (2 ^ 62 + off) % 2 ^ 48 = off := by omega
  simp only [tensorFits, hm, h]
  simp

/-- Words without errors and poison mark no bytes of a buffer. -/
theorem sramBad_clean {s : State} {p off n : Nat} (h : CleanSram s p off n) (at_ : Nat) : sramBad s p off n at_ = [] := by
  obtain ⟨hp, he⟩ := h
  have hword : ∀ w ∈ wordsOf off n, (s.fab.poison.hit (tileWindow p + w * 8) 8 || decide (2 ≤ (s.tiles.get p).symErr.get w)) = false := by
    intro w hw
    have hhit : s.fab.poison.hit (tileWindow p + w * 8) 8 = false := by
      simp only [wordsOf, List.mem_map, List.mem_range] at hw
      obtain ⟨j, hj, rfl⟩ := hw
      have hwin : tileWindow p = 8 * (tileWindow p / 8) := by simp only [tileWindow, tileBase]; omega
      simp only [Poison.hit, List.any_eq_false, Bool.and_eq_true, decide_eq_true_eq, not_and] at hp ⊢
      intro m hm h1 h2
      exact hp m hm (by omega) (by omega)
    rw [hhit, he w hw]
    rfl
  rw [sramBad, List.filter_eq_nil_iff.2 (fun w hw => by rw [hword w hw]; decide)]
  rfl

/-- No entry is armed: nothing is gated (R137). -/
theorem gateAt_free {t : Tile} (h : NoExports t) (a : Nat) : gateAt t a = .free := by
  have hnone : exportOf t a = none := by
    rw [exportOf, List.find?_eq_none]
    intro e he
    have ha := h e (List.mem_range.1 he)
    dsimp only
    split
    · simp [ha]
    · exact Bool.false_ne_true
  rw [gateAt, hnone]

/-! ### The joined descriptor carries on -/

/-- Writes are the last phase. -/
theorem dmaRun_stops {u t : State} {p i : Nat} {d d' : Desc} {w w' : DmaWork} (m : Nat) (hw : workOf u p i = some (d, w))
    (hs : sendAll (2 * w.todo.length + 1) u p i = t) (ht : workOf t p i = some (d', w')) (hp : w'.phase = 2) : dmaRun (m + 1) u p i = t := by
  simp [dmaRun, hw, hs, ht, hp]

section
variable {s : State} {p : Nat} {d : Desc} (h : IssuesNow s p 2 d) (cyc : Option Nat)
include h

theorem joined_issued (w : DmaWork) : ((joined s p d cyc w).tiles.get p).issued = (s.tiles.get p).issued ++ [underWay d w] := by
  rw [joined_get h]; rfl

theorem joined_fab (w : DmaWork) : (joined s p d cyc w).fab = s.fab := by
  obtain ⟨h1, -⟩ := joinsChannel_joined h w cyc
  rw [h1]

theorem joined_cleanSram (w : DmaWork) {off n : Nat} (hc : CleanSram s p off n) : CleanSram (joined s p d cyc w) p off n := by
  rw [CleanSram, joined_fab h, joined_get h]
  exact hc

theorem workOf_joined (w : DmaWork) : workOf (joined s p d cyc w) p (s.tiles.get p).issued.length = some (d, w) := by
  simp [workOf, joined_issued h, underWay]

/-- The last descriptor's work changed. -/
theorem modWork_joined (w : DmaWork) (f : DmaWork → DmaWork) :
    modWork (joined s p d cyc w) p (s.tiles.get p).issued.length f = joined s p d cyc (f w) := by
  have hI : ((popHead s p 2 d).tiles.get p).issued = (s.tiles.get p).issued := by rw [h.popHead.tile]
  have hl : ∀ (l : List Issued) (w : DmaWork),
      (l ++ [underWay d w]).modify l.length (fun x => { x with work := x.work.map f }) = l ++ [underWay d (f w)] := by
    intro l w
    induction l with
    | nil => rfl
    | cons x r ih => simpa using ih
  unfold joined modWork
  rw [modTile_modTile]
  simp only [State.modTile, Tab.modify]
  have hT : { joinedTile ((popHead s p 2 d).tiles.get p) d w (countedCycles (popHead s p 2 d) cyc) with
      issued := (joinedTile ((popHead s p 2 d).tiles.get p) d w (countedCycles (popHead s p 2 d) cyc)).issued.modify (s.tiles.get p).issued.length
        (fun x => { x with work := x.work.map f }) } = joinedTile ((popHead s p 2 d).tiles.get p) d (f w) (countedCycles (popHead s p 2 d) cyc) := by
    simp only [joinedTile, hI, hl]
  rw [hT]

theorem liveRun_joined (w : DmaWork) : liveRun (joined s p d cyc w) p = true := by
  obtain ⟨-, -, -, -, r, r', hr, hr', hrr, -⟩ := joinsChannel_joined h w cyc
  obtain ⟨r0, hr0, he, -⟩ := h.live
  obtain rfl : r0 = r := Option.some_injective _ (hr0.symm.trans hr)
  rw [liveRun, hr']
  dsimp only
  rw [hrr]
  simp [he]

/-- On a free channel the joined descriptor is the oldest. -/
theorem dmaKick_joined (hfree : oldestIssued (s.tiles.get p) 2 d.chan = none) (w : DmaWork) :
    ∃ n, dmaKick (joined s p d cyc w) p d.chan = dmaRun (n + 8) (joined s p d cyc w) p (s.tiles.get p).issued.length := by
  have hold : oldestIssued ((joined s p d cyc w).tiles.get p) 2 d.chan = some (s.tiles.get p).issued.length := by
    rw [oldestIssued, indexOf?_eq_findIdx?] at hfree ⊢
    rw [joined_issued h, List.findIdx?_append, hfree]
    simp [underWay]
  refine ⟨(field (d.w 3) 24 0 + field (d.w 5) 16 0 * (field (d.w 5) 32 17 + 1)) / 16 + field (d.w 5) 32 17, ?_⟩
  simp only [dmaKick, liveRun_joined h, hold, workOf_joined h]
  rw [if_neg (by decide)]
  congr 1
  omega

/-- A read of own SRAM is served at once and fills the buffer. -/
theorem sendPiece_read {w : DmaWork} {off n : Nat} (rest : List Piece) (hb : w.bad = []) (hl : w.buf.length = n) (hz : zcDecodes d = false)
    (ho : off + n ≤ 2 ^ 24) (hn : 0 < n) (hc : CleanSram s p off n) :
    sendPiece (joined s p d cyc w) p (s.tiles.get p).issued.length d w { write := false, addr := 2 ^ 62 + off, len := n, off := 0 } rest =
      (joined s p d cyc { w with todo := rest, gate := none, buf := s.fab.mem.readN (tileWindow p + off) n }, true) := by
  have hfill : w.buf.length = (s.fab.mem.readN (tileWindow p + off) n).length := by simpa [Memory.readN_eq] using hl
  have hin : tileWindow p ≤ tileWindow p + off ∧ tileWindow p + off + n ≤ tileWindow p + 0x1000000 := by omega
  have hcj := joined_cleanSram h cyc w hc
  simp only [sendPiece, resolve_own _ p (show off < 2 ^ 24 by omega), if_false, Bool.false_eq_true, Nat.lt_irrefl, hin, if_true, and_self,
    Nat.add_sub_cancel_left, sramRead_clean _ _ _ _ hcj, sramBad_clean hcj, modWork_joined h, joined_fab h]
  rw [deliver_fills (w := { w with todo := rest, gate := none }) hz rfl hfill hb]

/-- A write of own SRAM is done at once where nothing gates it. -/
theorem sendPiece_write {w : DmaWork} {off n : Nat} (rest : List Piece) (hb : w.bad = []) (hl : w.buf.length = n) (ho : off + n ≤ 2 ^ 24) (hn : 0 < n)
    (hx : NoExports (s.tiles.get p)) :
    sendPiece (joined s p d cyc w) p (s.tiles.get p).issued.length d w { write := true, addr := 2 ^ 62 + off, len := n, off := 0 } rest =
      (sramWrite (joined s p d cyc { w with todo := rest, gate := none }) p off w.buf false, true) := by
  have hclean : inBad w.bad 0 n = false := by rw [hb]; rfl
  have hin : tileWindow p ≤ tileWindow p + off ∧ tileWindow p + off + n ≤ tileWindow p + 0x1000000 := by omega
  have hg : ∀ a, gateAt ((joined s p d cyc w).tiles.get p) a = .free := fun a => gateAt_free (by rw [joined_get h]; exact hx) a
  simp only [sendPiece, resolve_own _ p (show off < 2 ^ 24 by omega), if_true, hg, Nat.lt_irrefl, if_false, hin, and_self, Nat.add_sub_cancel_left,
    modWork_joined h, slice_full hl, hclean]


/-- A read fills the buffer; the next phase follows. -/
theorem dmaRun_read {w : DmaWork} {off n : Nat} (m : Nat) (hp : w.phase < 2) (hout : w.out = [])
    (ht : w.todo = [{ write := false, addr := 2 ^ 62 + off, len := n, off := 0 }]) (hb : w.bad = []) (hl : w.buf.length = n) (hz : zcDecodes d = false)
    (ho : off + n ≤ 2 ^ 24) (hn : 0 < n) (hc : CleanSram s p off n) :
    let w' := { w with todo := [], gate := none, buf := s.fab.mem.readN (tileWindow p + off) n }
    dmaRun (m + 1) (joined s p d cyc w) p (s.tiles.get p).issued.length =
      dmaRun m (nextPhase (joined s p d cyc w') p (s.tiles.get p).issued.length d w') p (s.tiles.get p).issued.length := by
  intro w'
  have hpiece := sendPiece_read h cyc [] hb hl hz ho hn hc
  have hsend : sendAll 3 (joined s p d cyc w) p (s.tiles.get p).issued.length = joined s p d cyc w' := by
    rw [sendAll, workOf_joined h]
    simp only [ht, hpiece, if_true]
    exact sendAll_idle (workOf_joined h cyc w') rfl 2
  rw [dmaRun]
  simp only [workOf_joined h, ht, List.length_singleton, hsend, liveRun_joined h, w', hout, hp]
  rfl

/-- Nothing is left to ask for in this phase: the next one follows. -/
theorem dmaRun_plan {w : DmaWork} (m : Nat) (hp : w.phase < 2) (hout : w.out = []) (ht : w.todo = []) :
    dmaRun (m + 1) (joined s p d cyc w) p (s.tiles.get p).issued.length =
      dmaRun m (nextPhase (joined s p d cyc w) p (s.tiles.get p).issued.length d w) p (s.tiles.get p).issued.length := by
  rw [dmaRun]
  simp only [sendAll_idle (workOf_joined h cyc w) ht, workOf_joined h, liveRun_joined h, hout, hp, ht]
  rfl

/-- The last write of a transfer. -/
theorem dmaRun_write {w : DmaWork} {off n : Nat} (m : Nat) (hp : w.phase = 2)
    (ht : w.todo = [{ write := true, addr := 2 ^ 62 + off, len := n, off := 0 }]) (hb : w.bad = []) (hl : w.buf.length = n)
    (ho : off + n ≤ 2 ^ 24) (hn : 0 < n) (hx : NoExports (s.tiles.get p)) :
    dmaRun (m + 1) (joined s p d cyc w) p (s.tiles.get p).issued.length =
      sramWrite (joined s p d cyc { w with todo := [], gate := none }) p off w.buf false := by
  have hpiece := sendPiece_write h cyc [] hb hl ho hn hx
  obtain ⟨q, f, l, hw⟩ := sramWrite_eq (joined s p d cyc { w with todo := [], gate := none }) p off w.buf false
  have hwork : workOf (sramWrite (joined s p d cyc { w with todo := [], gate := none }) p off w.buf false) p (s.tiles.get p).issued.length =
      some (d, { w with todo := [], gate := none }) := by
    rw [hw]
    simp only [workOf, Tab.get_set_self]
    exact workOf_joined h cyc { w with todo := [], gate := none }
  have hsend : sendAll 3 (joined s p d cyc w) p (s.tiles.get p).issued.length =
      sramWrite (joined s p d cyc { w with todo := [], gate := none }) p off w.buf false := by
    rw [sendAll, workOf_joined h]
    simp only [ht, hpiece, if_true]
    exact sendAll_idle hwork rfl 2
  exact dmaRun_stops m (workOf_joined h cyc w) (by rw [ht]; exact hsend) hwork hp

/-- All of a transfer is done. -/
theorem dmaRun_done {w : DmaWork} (m : Nat) (hp : w.phase = 2) (ht : w.todo = []) :
    dmaRun (m + 1) (joined s p d cyc w) p (s.tiles.get p).issued.length = joined s p d cyc w :=
  dmaRun_stops m (workOf_joined h cyc w) (sendAll_idle (workOf_joined h cyc w) ht _) (workOf_joined h cyc w) hp

/-- The writes are planned once every source byte is in, where no byte of the destination is overlapped (R120). -/
theorem nextPhase_writes {w : DmaWork} {rs : List Run} (hp : w.phase = 1) (hz : zcDecodes d = false) (he : zcEncodes d = false)
    (hr : runsOf d w = rs) (hov : d.op = 0x30 → overlapBytes (joined s p d cyc w) p rs w.buf = (joined s p d cyc w, w.buf)) :
    nextPhase (joined s p d cyc w) p (s.tiles.get p).issued.length d w = joined s p d cyc { w with phase := 2, todo := writePlan rs w.bad } := by
  have hp0 : w.phase ≠ 0 := by omega
  have hbuf : (if d.op = 0x30 ∧ !zcDecodes d then overlapBytes (joined s p d cyc w) p rs w.buf else (joined s p d cyc w, w.buf)) =
      (joined s p d cyc w, w.buf) := by
    split
    · next hm => exact hov hm.1
    · rfl
  rw [nextPhase, if_neg hp0, if_neg (by rw [hz]; decide), writePhase]
  simp only [he, hr, hbuf, if_false, Bool.false_eq_true]
  exact modWork_joined h cyc w _

/-- One row within own SRAM is read and then written. -/
theorem dmaRun_copies {w : DmaWork} {ro wo n : Nat} (m : Nat) (hp : w.phase = 1) (hout : w.out = [])
    (ht : w.todo = [{ write := false, addr := 2 ^ 62 + ro, len := n, off := 0 }]) (hb : w.bad = []) (hl : w.buf.length = n)
    (hz : zcDecodes d = false) (he : zcEncodes d = false) (hr : runsOf d w = [{ src := some (2 ^ 62 + ro), dst := 2 ^ 62 + wo, len := n }])
    (hov : d.op = 0x30 → ro + n ≤ wo ∨ wo + n ≤ ro) (hn : 0 < n) (hro : ro + n ≤ 2 ^ 24) (hwo : wo % 256 + n ≤ 256 ∧ wo + n ≤ 2 ^ 24)
    (hc : CleanSram s p ro n) (hx : NoExports (s.tiles.get p)) :
    let bs := s.fab.mem.readN (tileWindow p + ro) n
    dmaRun (m + 2) (joined s p d cyc w) p (s.tiles.get p).issued.length =
      sramWrite (joined s p d cyc { w with phase := 2, todo := [], gate := none, buf := bs, bad := [] }) p wo bs false := by
  have hplan : writePlan [{ src := some (2 ^ 62 + ro), dst := 2 ^ 62 + wo, len := n }] [] =
      [{ write := true, addr := 2 ^ 62 + wo, len := n, off := 0 }] := writePlan_oneRow _ hn (by omega)
  rw [dmaRun_read h cyc (m + 1) (by omega) hout ht hb hl hz hro hn hc, nextPhase_writes h cyc (by exact hp) hz he (by exact hr) ?_]
  · simp only [hb, hplan]
    exact dmaRun_write h cyc m rfl rfl rfl (by simp [Memory.readN_eq]) hwo.2 hn hx
  · intro h30
    exact overlapBytes_apart _ (resolve_own _ p (by omega)) (resolve_own _ p (by omega)) (by have := hov h30; omega)

/-- What a transfer within own SRAM leaves (see `StoresOwn`). -/
theorem storesOwn_write {w : DmaWork} (hf : w.finished = true) (hl : w.late = none) (off : Nat) (bs : List Byte) :
    StoresOwn s (sramWrite (joined s p d cyc w) p off bs false) p d off bs := by
  obtain ⟨q, f, l, hw⟩ := sramWrite_eq (joined s p d cyc w) p off bs false
  have hfab := joined_fab h cyc w
  have hI := joined_issued h cyc w
  obtain ⟨h1, h2, hT, hsem, hrun⟩ := joinsChannel_joined h w cyc
  rw [hw]
  refine ⟨?_, storesAt_write (by rw [hfab]), fun j hj => ?_, ⟨w, ?_, hf, hl⟩, ?_, fun i => ?_, ?_⟩
  · rw [h1]
  · exact (Tab.get_set_other _ _ (Ne.symm hj)).trans (h2 j hj)
  · rw [Tab.get_set_self]; exact hI
  · rw [Tab.get_set_self, hT]
  · rw [Tab.get_set_self]; exact hsem i
  · rw [Tab.get_set_self]; exact hrun

/-- A transfer that stores nothing. -/
theorem storesOwn_none {w : DmaWork} (hf : w.finished = true) (hl : w.late = none) (off : Nat) : StoresOwn s (joined s p d cyc w) p d off [] := by
  have hfab := joined_fab h cyc w
  obtain ⟨h1, h2, hT, hsem, hrun⟩ := joinsChannel_joined h w cyc
  refine ⟨?_, ⟨rfl, fun a _ => by rw [hfab]⟩, h2, ⟨w, joined_issued h cyc w, hf, hl⟩, ?_, hsem, hrun⟩
  · rw [h1]
  · rw [hT]

/-- A transfer that issues on a free channel of its tile runs from the work that it joins with. -/
theorem storesOwn_of_run {body : State → Nat → Desc → State} {c : Instr} {op off : Nat} {w : DmaWork} {bs : List Byte}
    (hfree : oldestIssued (s.tiles.get p) 2 d.chan = none) (hc : exec c s = .next (dmaOp s p op body)) (hop : d.op = op)
    (hb : body (popHead s p 2 d) p d = dmaIssue (popHead s p 2 d) p d w cyc)
    (hrun : ∀ m, StoresOwn s (dmaRun (m + 8) (joined s p d cyc w) p (s.tiles.get p).issued.length) p d off bs) :
    Completes c s (fun t => StoresOwn s t p d off bs) := by
  obtain ⟨m, hk⟩ := dmaKick_joined h cyc hfree w
  have hissue : dmaOp s p op body = body (popHead s p 2 d) p d := issueOp_issues h (by simp [hop]) rfl
  exact ⟨_, hc, by rw [hissue, hb, dmaIssue_popHead, hk]; exact hrun m⟩
end

/-! ### The index list of GATHER and SCATTER (R122) -/

/-- Fields of a descriptor that moves one row by one 16-bit index: nothing reserved, no codec, no loop increment. -/
structure OneIndex (d : Desc) (n : Nat) : Prop where
  count : field (d.w 5) 32 17 = 1
  len   : field (d.w 5) 16 0 = n
  wide  : bit (d.w 5) 33 = false
  zc    : bit (d.w 5) 35 = false
  lix   : bit (d.w 5) 38 = false
  iix   : bit (d.w 5) 39 = false
  rsv   : field (d.w 5) 63 40 = 0

theorem oneIndex_of {d : Desc} {n : Nat} (h : d.w 5 % 2 ^ 34 = 2 ^ 17 + n) (h' : d.w 5 < 2 ^ 35) (hn : n ≤ 256) : OneIndex d n := by
  constructor <;> simp only [field, bit, beq_eq_false_iff_ne] <;> omega

section
variable {d : Desc} {n : Nat} (hd : OneIndex d n)
include hd

theorem OneIndex.plain (h30 : d.op ≠ 0x30) : zcDecodes d = false ∧ zcEncodes d = false := by
  simp [zcDecodes, zcEncodes, hd.zc, h30]

theorem OneIndex.sentinel : Machine.sentinel d = 0xFFFF := by
  simp [Machine.sentinel, hd.wide]

/-- A clean index is read as it is. -/
theorem OneIndex.indexList {w : DmaWork} (hb : w.bad = []) (hl : w.buf.length = 2) : Machine.indexList d w = [leNat w.buf] := by
  have hz : inBad w.bad 0 2 = false := by rw [hb]; rfl
  simp [Machine.indexList, hd.wide, hd.count, hz, fld, slice_full hl]

/-- The transfer issues with the read of its index. -/
theorem OneIndex.body {s : State} {p io : Nat} (h : IssuesNow s p 2 d) (hskip : d.op ≠ 0x32 → bit (d.w 5) 34 = false) (h0 : 0 < n) (hn : n ≤ 256)
    (h6 : d.w 6 < 2 ^ 32) (h3 : OwnBlock (d.w 3) io 2) (h1 : tensorBad (d.w 1) = false) (h2 : tensorBad (d.w 2) = false)
    (hf : tensorFits (if d.op = 0x32 then d.w 2 else d.w 1) n = true) :
    indexedBody (popHead s p 2 d) p d = dmaIssue (popHead s p 2 d) p d
      (newWork [d.w 1, d.w 2, d.w 3] 0 [{ write := false, addr := 2 ^ 62 + io, len := 2, off := 0 }] (List.replicate 2 0)) none := by
  obtain ⟨hio, -, hb, hw⟩ := h3
  have h6' : field (d.w 6) 63 32 = 0 := by simp only [field]; omega
  have key := indexedBody_legal (d := d) h.loopAdd (d.w 1) (d.w 2)
  simp only [hd.count, hd.len, hd.wide, hd.zc, hd.lix, hd.iix, hd.rsv, loopAdd, Bool.false_eq_true, if_false, ite_self, one_mul] at key
  rw [hio, tensorPieces_block false 0 (by decide) (by omega)] at key
  rw [hio]
  refine key trivial trivial hskip trivial (by decide) h0 (by omega) h6' (tensorBad_own (by omega)) (tensorFits_own hw) h1 h2
    (fun r hr => ?_) (fun k => absurd k (by decide))
  obtain rfl : r = 0 := by omega
  simpa only [Nat.cast_zero, zero_mul, tensorAdd_zero] using hf

/-- The work of an indexed transfer once its index is in. -/
def indexedWork (addrs : List Nat) (x : Nat) (rs : List Run) : DmaWork :=
  { newWork addrs 1 (readPlan rs) (List.replicate ((rs.map (·.len)).sum) 0) with idx := [x], bad := unreadRanges rs }

/-- An index that may be used plans its row, if it has one. -/
theorem OneIndex.indexPhase (h30 : d.op ≠ 0x30) (h31 : d.op ≠ 0x31) {a b c : Nat} {bs : List Byte} (hl : bs.length = 2)
    (hok : indexBad d (newWork [a, b, c] 0 [] bs) (leNat bs) = false) :
    Machine.indexPhase d (newWork [a, b, c] 0 [] bs) = indexedWork [a, b, c] (leNat bs) (indexedRuns d a b [leNat bs]) := by
  have hl1 := hd.indexList (w := newWork [a, b, c] 0 [] bs) rfl hl
  have hnone : indexOf? (indexBad d (newWork [a, b, c] 0 [] bs)) [leNat bs] = none := by simp [indexOf?, hok]
  have hl2 : Machine.indexList d (newWork [a, b, c] 0 [] bs) = [leNat bs] := hl1
  simp only [Machine.indexPhase, hl2, hnone, (hd.plain h30).1, runsOf, h30, h31, if_false]
  simp [newWork, indexedWork]

/-- Reads its index, then its row. -/
theorem OneIndex.run {s : State} {p io : Nat} (h : IssuesNow s p 2 d) (cyc : Option Nat) (m : Nat) (h30 : d.op ≠ 0x30) (h31 : d.op ≠ 0x31)
    (hi : OwnBlock (2 ^ 62 + io) io 2) (hc : CleanSram s p io 2) {a b c x : Nat} (hx : x = leNat (s.fab.mem.readN (tileWindow p + io) 2))
    (hok : indexBad d (newWork [a, b, c] 0 [] (s.fab.mem.readN (tileWindow p + io) 2)) x = false) :
    dmaRun (m + 1) (joined s p d cyc
      (newWork [a, b, c] 0 [{ write := false, addr := 2 ^ 62 + io, len := 2, off := 0 }] (List.replicate 2 0))) p (s.tiles.get p).issued.length =
    dmaRun m (joined s p d cyc (indexedWork [a, b, c] x (indexedRuns d a b [x]))) p (s.tiles.get p).issued.length := by
  obtain ⟨-, -, -, hw⟩ := hi
  subst hx
  rw [dmaRun_read (off := io) (n := 2) h cyc m (show 0 < 2 by decide) rfl rfl rfl rfl (hd.plain h30).1 hw (by decide) hc]
  congr 1
  refine (modWork_joined h cyc _ _).trans ?_
  exact congrArg _ (hd.indexPhase h30 h31 (by simp [Memory.readN_eq]) hok)
end

/-! ### The runs of one index -/

section
variable {d : Desc} {n x : Nat} (hd : OneIndex d n)
include hd

theorem OneIndex.gather_row (ho : d.op = 0x32) (hx : x ≠ 0xFFFF) (hu : x < 2 ^ 33) (src dst : Nat) :
    indexedRuns d src dst [x] = [{ src := some (tensorAdd src (x * sint 32 (field (d.w 4) 31 0))), dst := dst, len := n }] := by
  have hne : x ≠ unread := by rw [unread]; omega
  simp [indexedRuns, ho, hd.sentinel, hd.len, hx, hne, tensorAdd_zero]

theorem OneIndex.gather_sentinel (ho : d.op = 0x32) (src dst : Nat) :
    indexedRuns d src dst [0xFFFF] = if bit (d.w 5) 34 then [] else [{ src := none, dst := dst, len := n }] := by
  cases hb : bit (d.w 5) 34 <;> simp [indexedRuns, ho, hd.sentinel, hd.len, tensorAdd_zero, hb]

theorem OneIndex.scatter_row (ho : d.op = 0x33) (hx : x ≠ 0xFFFF) (hu : x < 2 ^ 33) (src dst : Nat) :
    indexedRuns d src dst [x] = [{ src := some src, dst := tensorAdd dst (x * sint 32 (field (d.w 4) 31 0)), len := n }] := by
  have hne : x ≠ unread := by rw [unread]; omega
  simp [indexedRuns, ho, hd.sentinel, hd.len, hx, hne, tensorAdd_zero]

theorem OneIndex.scatter_sentinel (ho : d.op = 0x33) (src dst : Nat) : indexedRuns d src dst [0xFFFF] = [] := by
  simp [indexedRuns, ho, hd.sentinel]

/-- The sentinel is never out of range. -/
theorem OneIndex.sentinel_ok (w : DmaWork) : indexBad d w 0xFFFF = false := by
  simp [indexBad, hd.sentinel]

/-- An index below the limit may be used where its row lies in the window. -/
theorem OneIndex.row_ok (h30 : d.op ≠ 0x30) {w : DmaWork} {off ro : Nat} (hl : x < field (d.w 4) 63 32)
    (ha : w.addrs.getD (if d.op = 0x32 then 0 else 1) 0 = 2 ^ 62 + off) (hadd : tensorAdd (2 ^ 62 + off) (x * sint 32 (field (d.w 4) 31 0)) = 2 ^ 62 + ro)
    (hf : ro + n ≤ 2 ^ 24) : indexBad d w x = false := by
  obtain ⟨hz, he⟩ := hd.plain h30
  have hfits : tensorFits (2 ^ 62 + ro) n = true := tensorFits_own hf
  simp only [indexBad, ha, hadd, hz, he, hd.len, Bool.or_self, Bool.false_eq_true, if_false, hfits, Nat.not_le.2 hl]
  simp
end

/-- The place that an index selects by a stride that is not negative. -/
theorem tensorAdd_row {so x ro : Nat} {far : Int} (hf : 0 ≤ far) (hr : ro = so + x * far.toNat) (hro : ro < 2 ^ 24) :
    tensorAdd (2 ^ 62 + so) (x * far) = 2 ^ 62 + ro := by
  have hm : (2 ^ 62 + so) % 2 ^ 48 = so := by omega
  have hc : (x : Int) * far = ((x * far.toNat : Nat) : Int) := by rw [Nat.cast_mul, Int.toNat_of_nonneg hf]
  rw [hc, tensorAdd_natCast (by omega)]
  omega

/-! ### What one index stores -/

section
variable {s : State} {p : Nat} {d : Desc} {n : Nat} (h : IssuesNow s p 2 d) (hd : OneIndex d n) (h30 : d.op ≠ 0x30) (h31 : d.op ≠ 0x31)
include h hd h30 h31

omit h hd in
theorem runsOf_indexedWork {a b c x : Nat} {rs : List Run} (hr : indexedRuns d a b [x] = rs) : runsOf d (indexedWork [a, b, c] x rs) = rs := by
  rw [runsOf, if_neg h30, if_neg h31]
  exact hr

/-- An index that selects a row of own SRAM: the row is copied. -/
theorem OneIndex.stores_row {a b c x ro wo : Nat} (cyc : Option Nat) (m : Nat)
    (hr : indexedRuns d a b [x] = [{ src := some (2 ^ 62 + ro), dst := 2 ^ 62 + wo, len := n }]) (hn : 0 < n)
    (hro : ro % 256 + n ≤ 256 ∧ ro + n ≤ 2 ^ 24) (hwo : wo % 256 + n ≤ 256 ∧ wo + n ≤ 2 ^ 24) (hc : CleanSram s p ro n)
    (hx : NoExports (s.tiles.get p)) :
    StoresOwn s (dmaRun (m + 2) (joined s p d cyc (indexedWork [a, b, c] x (indexedRuns d a b [x]))) p (s.tiles.get p).issued.length) p d wo
      (s.fab.mem.readN (tileWindow p + ro) n) := by
  obtain ⟨hz, he⟩ := hd.plain h30
  have hplan : readPlan [{ src := some (2 ^ 62 + ro), dst := 2 ^ 62 + wo, len := n }] = [{ write := false, addr := 2 ^ 62 + ro, len := n, off := 0 }] :=
    readPlan_oneRow hn (by omega) (by omega)
  have hrun := dmaRun_copies h cyc m (w := indexedWork [a, b, c] x [{ src := some (2 ^ 62 + ro), dst := 2 ^ 62 + wo, len := n }]) rfl rfl hplan
    (unreadRanges_oneRow (by omega)) (by simp [indexedWork, newWork]) hz he (runsOf_indexedWork h30 h31 hr) (fun k => absurd k h30) hn hro.2 hwo hc hx
  rw [hr, hrun]
  exact storesOwn_write h cyc rfl rfl wo _

/-- An index that selects no row but zeros. -/
theorem OneIndex.stores_zeros {a b c x wo : Nat} (cyc : Option Nat) (m : Nat)
    (hr : indexedRuns d a b [x] = [{ src := none, dst := 2 ^ 62 + wo, len := n }]) (hn : 0 < n)
    (hwo : wo % 256 + n ≤ 256 ∧ wo + n ≤ 2 ^ 24) (hx : NoExports (s.tiles.get p)) :
    StoresOwn s (dmaRun (m + 2) (joined s p d cyc (indexedWork [a, b, c] x (indexedRuns d a b [x]))) p (s.tiles.get p).issued.length) p d wo
      (List.replicate n 0) := by
  obtain ⟨hz, he⟩ := hd.plain h30
  have hplan : writePlan [{ src := none, dst := 2 ^ 62 + wo, len := n }] [] = [{ write := true, addr := 2 ^ 62 + wo, len := n, off := 0 }] :=
    writePlan_oneRow _ hn (by omega)
  rw [hr, dmaRun_plan h cyc (m + 1) (show 1 < 2 by decide) rfl rfl,
    nextPhase_writes h cyc rfl hz he (runsOf_indexedWork h30 h31 hr) (fun k => absurd k h30)]
  have hw := dmaRun_write h cyc m (w := { indexedWork [a, b, c] x [{ src := none, dst := 2 ^ 62 + wo, len := n }] with
    phase := 2, todo := writePlan [{ src := none, dst := 2 ^ 62 + wo, len := n }] [] }) rfl hplan rfl (by simp [indexedWork, newWork]) hwo.2 hn hx
  refine (congrArg (StoresOwn s · p d wo (List.replicate n 0)) hw).mpr ?_
  have hbuf : (indexedWork [a, b, c] x [{ src := none, dst := 2 ^ 62 + wo, len := n }]).buf = List.replicate n 0 := by simp [indexedWork, newWork]
  dsimp only
  rw [hbuf]
  exact storesOwn_write h cyc rfl rfl wo _

/-- An index that selects nothing. -/
theorem OneIndex.stores_nothing {a b c x : Nat} (cyc : Option Nat) (m off : Nat) (hr : indexedRuns d a b [x] = []) :
    StoresOwn s (dmaRun (m + 2) (joined s p d cyc (indexedWork [a, b, c] x (indexedRuns d a b [x]))) p (s.tiles.get p).issued.length) p d off [] := by
  obtain ⟨hz, he⟩ := hd.plain h30
  rw [hr, dmaRun_plan h cyc (m + 1) (show 1 < 2 by decide) rfl rfl,
    nextPhase_writes h cyc rfl hz he (runsOf_indexedWork h30 h31 hr) (fun k => absurd k h30), dmaRun_done h cyc m rfl rfl]
  exact storesOwn_none h cyc rfl rfl off
end

/-! ### FILL and MOVE -/

section
variable {s : State} {p : Nat} {d : Desc} {n : Nat} (h : IssuesNow s p 2 d) (hfree : oldestIssued (s.tiles.get p) 2 d.chan = none)
  (hx : NoExports (s.tiles.get p)) (hw3 : d.w 3 = 2 ^ 41 + 2 ^ 25 + n)
include h hfree hx hw3

theorem fill_stores {c : Instr} (hcmd : exec c s = .next (dmaOp s p 0x31 fillBody)) {off : Nat} (ho : d.op = 0x31) (hb : OwnBlock (d.w 1) off n)
    (h5 : d.w 5 = 0) (h6 : d.w 6 < 4) (h7 : d.w 7 = 0) :
    Completes c s (fun t => StoresOwn s t p d off ((List.range n).map (fun x => BitVec.ofNat 8 (d.w 2 / 256 ^ (x % 2 ^ d.w 6))))) := by
  obtain ⟨h1, hn, hblk, hwin⟩ := hb
  have hruns : ∀ dst ss ds, moveRuns d none dst ss ds = [{ src := none, dst := dst, len := n }] := moveRuns_oneRow hw3 (by omega) none
  have f1 : field (d.w 6) 63 6 = 0 := by simp only [field]; omega
  have f2 : bit (d.w 6) 4 = false := by simp only [bit, beq_eq_false_iff_ne]; omega
  have f3 : bit (d.w 6) 5 = false := by simp only [bit, beq_eq_false_iff_ne]; omega
  have f4 : field (d.w 6) 1 0 = d.w 6 := by simp only [field]; omega
  have f5 : field (d.w 5) 63 32 = 0 := by rw [h5]; decide
  have hfits : runsFit [{ src := none, dst := 2 ^ 62 + off, len := n }] = true :=
    runsFit_oneRow (fun _ k => nomatch k) (tensorFits_own hwin)
  have hplan : writePlan [{ src := none, dst := 2 ^ 62 + off, len := n }] [] = [{ write := true, addr := 2 ^ 62 + off, len := n, off := 0 }] :=
    writePlan_oneRow _ hn (by omega)
  have key := fillBody_legal (d := d) h.loopAdd h.popHead.ownSram ho
  simp only [loopAdd, f3, Bool.false_eq_true, if_false, hruns, h1, f4, hplan] at key
  refine storesOwn_of_run h _ hfree hcmd ho
    (key (moveCountsOk_oneRow hw3 hn (by omega)) f1 f2 f5 h7 (tensorBad_own (by omega)) hfits) (fun m => ?_)
  rw [dmaRun_write h _ (m + 7) rfl rfl rfl (by simp [newWork]) hwin hn hx]
  have hbuf : ∀ (l : List Byte), [l].flatten = l := by simp
  simp only [newWork, List.map_cons, List.map_nil, hbuf]
  exact storesOwn_write h _ rfl rfl off _

theorem move_stores {c : Instr} (hcmd : exec c s = .next (dmaOp s p 0x30 moveBody)) {so dn : Nat} (ho : d.op = 0x30) (hs : OwnBlock (d.w 1) so n)
    (hb : OwnBlock (d.w 2) dn n) (happ : so + n ≤ dn ∨ dn + n ≤ so) (h6 : d.w 6 = 0) (hc : CleanSram s p so n) :
    Completes c s (fun t => StoresOwn s t p d dn (s.fab.mem.readN (tileWindow p + so) n)) := by
  obtain ⟨h1, hn, hsb, hsw⟩ := hs
  obtain ⟨h2, -, hdb, hdw⟩ := hb
  have hruns : ∀ src dst ss ds, moveRuns d (some src) dst ss ds = [{ src := some src, dst := dst, len := n }] :=
    fun src => moveRuns_oneRow hw3 (by omega) (some src)
  have hz : zcDecodes d = false := by simp [zcDecodes, ho, h6, field]
  have he : zcEncodes d = false := by simp [zcEncodes, ho, h6, field]
  have f0 : field 0 1 0 = 0 := by decide
  have f2 : bit 0 4 = false := by decide
  have f3 : bit 0 5 = false := by decide
  have hfits : runsFit [{ src := some (2 ^ 62 + so), dst := 2 ^ 62 + dn, len := n }] = true :=
    runsFit_oneRow (fun _ k => Option.some_injective _ k ▸ tensorFits_own hsw) (tensorFits_own hdw)
  have hplan : readPlan [{ src := some (2 ^ 62 + so), dst := 2 ^ 62 + dn, len := n }] = [{ write := false, addr := 2 ^ 62 + so, len := n, off := 0 }] :=
    readPlan_oneRow hn (by omega) (by omega)
  have key := moveBody_legal (d := d) h.loopAdd h.popHead.ownSram ho
  simp only [loopAdd, h6, f0, f2, f3, Bool.false_eq_true, if_false, hruns, h1, h2, hplan] at key
  refine storesOwn_of_run h _ hfree hcmd ho
    (key (moveCountsOk_oneRow hw3 hn (by omega)) (by decide) (by decide) (tensorBad_own (by omega)) (tensorBad_own (by omega)) (fun _ => hfits)
      (fun k => absurd rfl k) (fun k => absurd k (by decide)) (fun k => absurd k (by decide))) (fun m => ?_)
  have hr : runsOf d (newWork [2 ^ 62 + so, 2 ^ 62 + dn] 1 [{ write := false, addr := 2 ^ 62 + so, len := n, off := 0 }] (List.replicate n 0)) =
      [{ src := some (2 ^ 62 + so), dst := 2 ^ 62 + dn, len := n }] := by
    rw [runsOf, if_pos ho]
    exact hruns _ _ _ _
  have hrun := fun cyc => dmaRun_copies h cyc (m + 6) rfl rfl rfl rfl (by simp [newWork]) hz he hr (fun _ => happ) hn hsw ⟨hdb, hdw⟩ hc hx
  exact (congrArg (StoresOwn s · p d dn _) (hrun _)).mpr (storesOwn_write h _ rfl rfl dn _)
end

/-! ### GATHER and SCATTER -/

section
variable {s : State} {p : Nat} {d : Desc} {n io : Nat} (h : IssuesNow s p 2 d) (hfree : oldestIssued (s.tiles.get p) 2 d.chan = none)
  (hd : OneIndex d n) (hio : OwnBlock (d.w 3) io 2) (hc : CleanSram s p io 2)
include h hfree hd hio hc

/-- A transfer by one clean index comes down to what that index makes of it. -/
theorem OneIndex.completes {c : Instr} {op x off : Nat} {bs : List Byte} (hcmd : exec c s = .next (dmaOp s p op indexedBody)) (ho : d.op = op)
    (h30 : d.op ≠ 0x30) (h31 : d.op ≠ 0x31) (h0 : 0 < n) (hn : n ≤ 256) (h6 : d.w 6 < 2 ^ 32) (hskip : d.op ≠ 0x32 → bit (d.w 5) 34 = false)
    (h1 : tensorBad (d.w 1) = false) (h2 : tensorBad (d.w 2) = false) (hf : tensorFits (if d.op = 0x32 then d.w 2 else d.w 1) n = true)
    (hx : x = leNat (s.fab.mem.readN (tileWindow p + io) 2))
    (hok : indexBad d (newWork [d.w 1, d.w 2, d.w 3] 0 [] (s.fab.mem.readN (tileWindow p + io) 2)) x = false)
    (hrun : ∀ m, StoresOwn s (dmaRun (m + 2) (joined s p d none (indexedWork [d.w 1, d.w 2, d.w 3] x (indexedRuns d (d.w 1) (d.w 2) [x]))) p
      (s.tiles.get p).issued.length) p d off bs) :
    Completes c s (fun t => StoresOwn s t p d off bs) := by
  refine storesOwn_of_run h none hfree hcmd ho (hd.body h hskip h0 hn h6 hio h1 h2 hf) (fun m => ?_)
  obtain ⟨hw, h'⟩ := hio
  rw [hd.run h none (m + 7) h30 h31 ⟨rfl, h'⟩ hc hx hok]
  exact hrun (m + 5)
end

/-- Settles O31: the joined descriptor's reads and writes are each served at once, phase by phase, in its own tile. -/
theorem transfersWithinOwnSramStoreTheirBytes : Obligations.TransfersWithinOwnSramStoreTheirBytes := by
  unfold Obligations.TransfersWithinOwnSramStoreTheirBytes
  intro p d s t0 mem win h hfree hx
  refine ⟨fun off n ho hb h3 h5 h6 h7 => fill_stores h hfree hx h3 rfl ho hb h5 h6 h7,
    fun so dn n ho hs hb happ h3 h6 hc => move_stores h hfree hx h3 rfl ho hs hb happ h6 hc, ?_, ?_⟩
  · intro so dn io n x ho h1 hso hb hio h5 h5' h6 hci hxi
    obtain ⟨h2, hn, hdb, hdw⟩ := hb
    have hd : OneIndex d n := oneIndex_of h5 h5' (by omega)
    have h30 : d.op ≠ 0x30 := by omega
    have h31 : d.op ≠ 0x31 := by omega
    have hx' : x < 65536 := by
      have := leNat_lt (mem.readN (win + io) 2)
      rw [← hxi] at this
      simpa [Memory.readN_eq] using this
    have b1 : tensorBad (d.w 1) = false := by rw [h1]; exact tensorBad_own hso
    have b2 : tensorBad (d.w 2) = false := by rw [h2]; exact tensorBad_own (by omega)
    have hf : tensorFits (if d.op = 0x32 then d.w 2 else d.w 1) n = true := by rw [if_pos ho, h2]; exact tensorFits_own hdw
    have key := fun (off : Nat) (bs : List Byte) => hd.completes (c := .gather p) (off := off) (bs := bs) h hfree hio hci rfl ho h30 h31 hn (by omega) h6
      (fun k => absurd ho k) b1 b2 hf hxi
    refine ⟨fun ro hne hlt hfar hro hrb hrw hcr => ?_, fun hsen hskip => ?_, fun hsen hskip => ?_⟩
    · have hadd := tensorAdd_row hfar hro (by omega)
      refine key dn _ (hd.row_ok h30 hlt (by rw [if_pos ho]; exact h1) hadd hrw) (fun m => ?_)
      refine hd.stores_row h h30 h31 none m ?_ hn ⟨hrb, hrw⟩ ⟨hdb, hdw⟩ hcr hx
      rw [hd.gather_row ho hne (by omega), h1, h2, hadd]
    · subst hsen
      refine key dn _ (hd.sentinel_ok _) (fun m => hd.stores_zeros h h30 h31 none m ?_ hn ⟨hdb, hdw⟩ hx)
      rw [hd.gather_sentinel ho, hskip, h2]
      rfl
    · subst hsen
      refine key dn _ (hd.sentinel_ok _) (fun m => hd.stores_nothing h h30 h31 none m dn ?_)
      rw [hd.gather_sentinel ho, hskip]
      rfl
  · intro so dn io n x ho hs h2 hdn hio h5 h6 hci hxi
    obtain ⟨h1, hn, hsb, hsw⟩ := hs
    have hd : OneIndex d n := oneIndex_of (by omega) (by omega) (by omega)
    have h30 : d.op ≠ 0x30 := by omega
    have h31 : d.op ≠ 0x31 := by omega
    have h32 : d.op ≠ 0x32 := by omega
    have hx' : x < 65536 := by
      have := leNat_lt (mem.readN (win + io) 2)
      rw [← hxi] at this
      simpa [Memory.readN_eq] using this
    have hskip : bit (d.w 5) 34 = false := by simp only [bit, beq_eq_false_iff_ne]; omega
    have b1 : tensorBad (d.w 1) = false := by rw [h1]; exact tensorBad_own (by omega)
    have b2 : tensorBad (d.w 2) = false := by rw [h2]; exact tensorBad_own hdn
    have hf : tensorFits (if d.op = 0x32 then d.w 2 else d.w 1) n = true := by rw [if_neg h32, h1]; exact tensorFits_own hsw
    have key := fun (off : Nat) (bs : List Byte) => hd.completes (c := .scatter p) (off := off) (bs := bs) h hfree hio hci rfl ho h30 h31 hn (by omega) h6
      (fun _ => hskip) b1 b2 hf hxi
    refine ⟨fun ro hne hlt hfar hro hrb hrw hcs => ?_, fun hsen => ?_⟩
    · have hadd := tensorAdd_row hfar hro (by omega)
      refine key ro _ (hd.row_ok h30 hlt (by rw [if_neg h32]; exact h2) hadd hrw) (fun m => ?_)
      refine hd.stores_row h h30 h31 none m ?_ hn ⟨hsb, hsw⟩ ⟨hrb, hrw⟩ hcs hx
      rw [hd.scatter_row ho hne (by omega), h1, h2, hadd]
    · subst hsen
      exact key dn _ (hd.sentinel_ok _) (fun m => hd.stores_nothing h h30 h31 none m dn (hd.scatter_sentinel ho _ _))

end Sys2Proof.Machine
end

section
/-! PROOFS. The hub DMA engine: launches, fetches, requests and responses (R53, R57, R120, R257). -/

namespace Sys2Proof.Machine

/-! ### A launch ends -/

section
variable {s : State} {l : Launch} (hr : s.fab.hdma.run = some l) (he : s.fab.hdma.ended = none)
include hr he

/-- With nothing outstanding a launch that ends is reported at once. -/
theorem hubDmaEnd_settles (st : Half) (ho : ∀ x ∈ s.fab.hdma.work, x.2.out = []) : HubLaunchEnded s (hubDmaEnd s st) st s.fab.hdma.err := by
  have hall : (s.fab.hdma.work.map (fun x => (x.1, { x.2 with todo := [] }))).all (fun x => x.2.out.isEmpty) = true := by
    simpa using ho
  refine ⟨l, hr, ?_⟩
  simp only [hubDmaEnd, hr, he, hubDmaSettle, hall]
  rfl

/-- Requests outstanding are waited for. -/
theorem hubDmaEnd_waits (st : Half) (ho : ∃ x ∈ s.fab.hdma.work, x.2.out ≠ []) : hubDmaEnd s st = { s with fab.hdma := { s.fab.hdma with
    ended := some st, head := none, work := s.fab.hdma.work.map (fun x => (x.1, { x.2 with todo := [] })) } } := by
  have hall : (s.fab.hdma.work.map (fun x => (x.1, { x.2 with todo := [] }))).all (fun x => x.2.out.isEmpty) = false := by
    simpa [List.all_eq_false] using ho
  simp only [hubDmaEnd, hr, he, hubDmaSettle, hall]
  rfl
end

/-- The end of a launch sets the captured error whatever was captured before. -/
theorem HubLaunchEnded.of_err {s t : State} {st : Half} {v err : Word} (h : HubLaunchEnded { s with fab.hdma.err := v } t st err) :
    HubLaunchEnded s t st err := by
  obtain ⟨l, hl, ht⟩ := h
  exact ⟨l, hl, ht⟩

/-! ### The head of the list issues -/

theorem hubHead_live {s : State} {d : Desc} (h : hubHead s = some d) :
    (∃ l, s.fab.hdma.run = some l) ∧ s.fab.hdma.ended = none ∧ s.fab.hdma.head = some d := by
  unfold hubHead at h
  split at h
  · cases h
  · next hc =>
    simp only [Bool.or_eq_true, not_or, Bool.not_eq_true, Option.isSome_eq_false_iff, Option.isNone_eq_false_iff] at hc
    exact ⟨Option.isSome_iff_exists.1 hc.1, by simpa using hc.2, h⟩

theorem hubDmaOp_issues {s : State} {d : Desc} (h : HubIssuesNow s d) (body : State → Desc → State) :
    hubDmaOp s d.op body = body { s with fab.hdma.head := none } d := by
  obtain ⟨h1, h2, h3, h4⟩ := h
  simp [hubDmaOp, h1, h2, h3, h4]

/-- COMPLETE waits for every channel (R257). -/
theorem hubIssues_complete {s : State} {d : Desc} (h : HubIssuesNow s d) (ho : d.op = 0x01) : s.fab.hdma.work = [] := by
  obtain ⟨-, -, -, h4⟩ := h
  rw [hubDmaFree, List.all_eq_true] at h4
  refine List.eq_nil_iff_forall_not_mem.2 (fun x hx => ?_)
  have := h4 x hx
  simp [ho] at this

/-! ### Requests -/

/-- With no tag in use the next one is taken. -/
theorem hubDmaTag_next {h : HubDma} (hu : ∀ x ∈ h.work, x.2.out = []) (hn : h.nextTag < 512) : hubDmaTag h = some h.nextTag := by
  have hused : (h.work.map (fun x => x.2.out.map (·.1))).flatten = [] := by
    rw [List.flatten_eq_nil_iff]
    intro l hl
    obtain ⟨x, hx, rfl⟩ := List.mem_map.1 hl
    rw [hu x hx]
    rfl
  have hfind : (List.range 512).find? (fun i => !([] : List Nat).contains ((h.nextTag + i) % 512)) = some 0 := by
    rw [show (512 : Nat) = 511 + 1 from rfl, List.range_succ_eq_map]
    rfl
  rw [hubDmaTag, hused, hfind]
  simp [Nat.mod_eq_of_lt hn]

/-- The request that a piece makes of the network. -/
def hubReq (s : State) (w : DmaWork) (k : Piece) : NetReq :=
  { src := BitVec.ofNat 8 hubDmaSrc, label := hubDmaLabel s, tag := BitVec.ofNat 9 s.fab.hdma.nextTag, op := if k.write then 1 else 0,
    addr := BitVec.ofNat 48 k.addr, len := k.len, data := if k.write then slice w.buf k.off k.len else [],
    poison := k.write && inBad w.bad k.off k.len }

/-- The one descriptor of the engine sends its one request. -/
theorem hubDmaSend_one {s : State} {d : Desc} {w : DmaWork} {k : Piece} (hw : s.fab.hdma.work = [(d, w)]) (ht : w.todo = [k]) (ho : w.out = [])
    (hn : s.fab.hdma.nextTag < 512) : hubDmaSend 1 s 0 = { s with
      fab.hdma := { s.fab.hdma with work := [(d, { w with todo := [], out := [(s.fab.hdma.nextTag, k)] })], nextTag := (s.fab.hdma.nextTag + 1) % 512 }
      fab.net.inflight := s.fab.net.inflight ++ [hubReq s w k] } := by
  have htag : hubDmaTag s.fab.hdma = some s.fab.hdma.nextTag := hubDmaTag_next (by simp [hw, ho]) hn
  have hget : s.fab.hdma.work[0]? = some (d, w) := by rw [hw]; rfl
  have hmod : modHubWork s 0 (fun w => { w with todo := [], out := w.out ++ [(s.fab.hdma.nextTag, k)] }) =
      { s with fab.hdma.work := [(d, { w with todo := [], out := [(s.fab.hdma.nextTag, k)] })] } := by
    rw [modHubWork, hw, List.modify_zero_cons, ho, List.nil_append]
  unfold hubDmaSend
  rw [hget, htag]
  dsimp only
  rw [ht]
  dsimp only
  rw [hmod]
  rfl

section
variable {s : State} {i : Nat} {d : Desc} {w : DmaWork} (hw : s.fab.hdma.work[i]? = some (d, w)) (he : s.fab.hdma.ended = none)
include hw he

/-- A descriptor with requests to make makes them. -/
theorem hubDmaKick_sends (ht : w.todo ≠ []) : hubDmaKick s i = hubDmaSend w.todo.length s i := by
  simp [hubDmaKick, hw, he, ht]

/-- A descriptor whose source bytes are all in plans its writes. -/
theorem hubDmaKick_writes (ht : w.todo = []) (ho : w.out = []) (hp : w.phase = 1) {rs : List Run} (hr : runsOf d w = rs)
    (hov : overlapBytes s 0 rs w.buf = (s, w.buf)) : hubDmaKick s i =
      hubDmaSend (writePlan rs w.bad).length (modHubWork s i (fun w' => { w' with phase := 2, buf := w.buf, todo := writePlan rs w.bad })) i := by
  simp [hubDmaKick, hw, he, ht, ho, hp, hr, hov]

/-- A descriptor whose writes are all answered is done. -/
theorem hubDmaKick_finishes (ht : w.todo = []) (ho : w.out = []) (hp : w.phase = 2) :
    hubDmaKick s i = { s with fab.hdma.work := s.fab.hdma.work.eraseIdx i } := by
  simp [hubDmaKick, hw, he, ht, ho, hp]
end

/-- With one descriptor that alone carries on. -/
theorem hubDmaPump_one {s : State} {x : Desc × DmaWork} (hw : s.fab.hdma.work = [x]) : hubDmaPump s = hubDmaKick s 0 := by
  rw [hubDmaPump, hw]
  rfl

theorem hubReq_read {s : State} {l : Launch} (hl : s.fab.hdma.run = some l) (w : DmaWork) (a n : Nat) :
    hubReq s w { write := false, addr := a, len := n, off := 0 } = readReq 0x34 l.strobe.label s.fab.hdma.nextTag a n := by
  simp only [hubReq, hubDmaLabel, hl]
  rfl

theorem hubReq_write {s : State} {l : Launch} (hl : s.fab.hdma.run = some l) {w : DmaWork} {n : Nat} (hb : w.bad = []) (hn : w.buf.length = n) (a : Nat) :
    hubReq s w { write := true, addr := a, len := n, off := 0 } = writeReq 0x34 l.strobe.label s.fab.hdma.nextTag a n w.buf false := by
  simp only [hubReq, hubDmaLabel, hl, hb, slice_full hn]
  rfl

/-- A transfer of one request issues in an engine without other work. -/
theorem hubDmaIssue_one {s : State} {d : Desc} {w : DmaWork} {k : Piece} (hw : s.fab.hdma.work = []) (he : s.fab.hdma.ended = none) (ht : w.todo = [k])
    (ho : w.out = []) (hn : s.fab.hdma.nextTag < 512) : hubDmaIssue s d w = { s with
      fab.hdma := { s.fab.hdma with work := [(d, { w with todo := [], out := [(s.fab.hdma.nextTag, k)] })], nextTag := (s.fab.hdma.nextTag + 1) % 512 }
      fab.net.inflight := s.fab.net.inflight ++ [hubReq s w k] } := by
  have hwork : s.fab.hdma.work ++ [(d, w)] = [(d, w)] := by rw [hw]; rfl
  have hkick := hubDmaKick_sends (s := { s with fab.hdma.work := [(d, w)] }) (i := 0) rfl he (by rw [ht]; exact List.cons_ne_nil _ _)
  rw [hubDmaIssue, hwork, hw, List.length_nil, hkick, ht, List.length_singleton,
    hubDmaSend_one (s := { s with fab.hdma.work := [(d, w)] }) rfl ht ho hn]
  rfl

/-- A plain address below 2^48 is a device address (R50). -/
theorem resolve_device {x : Nat} (h : x < 2 ^ 48) (t : Tile) (p : Nat) : resolve t p x = some x := by
  have hf : field x 63 62 = 0 := by simp only [field]; omega
  simp only [resolve, hf, Nat.mod_eq_of_lt h]

/-- All bytes of one row are in: they are written in one request (R120). -/
theorem hubDmaKick_copies {s : State} {d : Desc} {w : DmaWork} {l : Launch} {a b n : Nat} (hw : s.fab.hdma.work = [(d, w)])
    (he : s.fab.hdma.ended = none) (hl : s.fab.hdma.run = some l) (ht : w.todo = []) (ho : w.out = []) (hp : w.phase = 1) (hbad : w.bad = [])
    (hr : runsOf d w = [{ src := some a, dst := b, len := n }]) (hlen : w.buf.length = n) (ha : a < 2 ^ 48) (hb : b < 2 ^ 48) (h0 : 0 < n)
    (hblk : b % 256 + n ≤ 256) (happ : a + n ≤ b ∨ b + n ≤ a) (hn : s.fab.hdma.nextTag < 512) :
    let k : Piece := { write := true, addr := b, len := n, off := 0 }
    hubDmaKick s 0 = { s with
      fab.hdma := { s.fab.hdma with
        work := [(d, { w with phase := 2, todo := [], out := [(s.fab.hdma.nextTag, k)] })], nextTag := (s.fab.hdma.nextTag + 1) % 512 }
      fab.net.inflight := s.fab.net.inflight ++ [writeReq 0x34 l.strobe.label s.fab.hdma.nextTag b n w.buf false] } := by
  intro k
  have hget : s.fab.hdma.work[0]? = some (d, w) := by rw [hw]; rfl
  have hov := overlapBytes_apart (s := s) (p := 0) (n := n) w.buf (resolve_device ha _ 0) (resolve_device hb _ 0) happ
  have hplan : writePlan [{ src := some a, dst := b, len := n }] w.bad = [k] := by rw [hbad]; exact writePlan_oneRow (some a) h0 hblk
  have hmod : modHubWork s 0 (fun w' => { w' with phase := 2, buf := w.buf, todo := [k] }) = { s with
      fab.hdma.work := [(d, { w with phase := 2, todo := [k] })] } := by
    rw [modHubWork, hw, List.modify_zero_cons]
  have hreq : hubReq s { w with phase := 2, todo := [k] } k = writeReq 0x34 l.strobe.label s.fab.hdma.nextTag b n w.buf false :=
    hubReq_write hl hbad hlen b
  rw [hubDmaKick_writes hget he ht ho hp hr hov, hplan, hmod, List.length_singleton, ← hreq]
  exact hubDmaSend_one (s := { s with fab.hdma.work := [(d, { w with phase := 2, todo := [k] })] }) rfl rfl ho hn

/-! ### Responses -/

section
variable {s : State} {d : Desc} {w : DmaWork} {k : Piece} {tag : BitVec 9} {r : NetRsp} {rest : List NetRsp}
  (hw : s.fab.hdma.work = [(d, w)]) (ho : w.out = [(tag.toNat, k)]) (hq : s.fab.net.rsps = r :: rest) (hs : r.src = 0x34) (ht : r.tag = tag)
  (hst : r.status = stOk) (he : s.fab.hdma.ended = none)
include hw ho hq hs ht hst he

omit hw ho hst he in
theorem hubResponse_found : s.fab.net.rsps.find? (fun r => r.src.toNat == hubDmaSrc && r.tag.toNat == tag.toNat) = some r ∧
    eraseFirst (fun r => r.src.toNat == hubDmaSrc && r.tag.toNat == tag.toNat) s.fab.net.rsps = rest := by
  have hm : (r.src.toNat == hubDmaSrc && r.tag.toNat == tag.toNat) = true := by rw [hs, ht]; simp [hubDmaSrc]
  simp [hq, eraseFirst, hm]

/-- An answer with status OK: the engine carries on with what it brings. -/
theorem hubDmaResponse_ok : hubDmaResponse s tag.toNat = hubDmaPump { s with
    fab.hdma := { s.fab.hdma with
      work := [(d, if k.write then { w with out := [] } else deliver d { w with out := [] } k r.data [])]
      bytes := if k.write then (s.fab.hdma.bytes + k.len) % 2 ^ 64 else s.fab.hdma.bytes }
    fab.net.rsps := rest } := by
  obtain ⟨hfind, herase⟩ := hubResponse_found hq hs ht
  have hout : w.out.filter (·.1 != tag.toNat) = [] := by simp [ho]
  have hidx : indexOf? (fun (x : Desc × DmaWork) => x.2.out.any (·.1 == tag.toNat)) s.fab.hdma.work = some 0 := by simp [hw, indexOf?, ho]
  have hget : s.fab.hdma.work[0]? = some (d, w) := by rw [hw]; rfl
  have hk : w.out.find? (·.1 == tag.toNat) = some (tag.toNat, k) := by simp [ho]
  rw [hubDmaResponse, hfind]
  dsimp only
  rw [herase, hidx]
  dsimp only
  rw [hget]
  dsimp only
  rw [hk]
  simp only [modHubWork, hw, List.modify_zero_cons, hout, hst, beq_self_eq_true, Bool.and_true, if_true]
  cases k.write <;> simp [he]

/-- The last write of the only descriptor is answered: it is done (R257). -/
theorem hubDmaResponse_write (hk : k.write = true) (hp : w.phase = 2) (htodo : w.todo = []) :
    hubDmaResponse s tag.toNat = { s with
      fab.hdma := { s.fab.hdma with work := [], bytes := (s.fab.hdma.bytes + k.len) % 2 ^ 64 }
      fab.net.rsps := rest } := by
  rw [hubDmaResponse_ok hw ho hq hs ht hst he, hubDmaPump_one rfl]
  simp only [hk, if_true]
  exact hubDmaKick_finishes (d := d) (w := { w with out := [] }) rfl he htodo rfl hp

/-- The read of a MOVE of one row is answered: the row is written in one request (R120). -/
theorem hubDmaResponse_read {l : Launch} {a b n : Nat} (hl : s.fab.hdma.run = some l) (hk : k = { write := false, addr := a, len := n, off := 0 })
    (hp : w.phase = 1) (htodo : w.todo = []) (hop : d.op = 0x30) (ha : w.addrs = [a, b]) (h6 : d.w 6 = 0) (ha' : a < 2 ^ 48) (hb' : b < 2 ^ 48)
    (h0 : 0 < n) (hblk : b % 256 + n ≤ 256) (h3 : d.w 3 = 2 ^ 41 + 2 ^ 25 + n) (hbad : w.bad = []) (hlen : w.buf.length = n) (hdata : r.data.length = n)
    (happ : a + n ≤ b ∨ b + n ≤ a) (hn : s.fab.hdma.nextTag < 512) :
    ∃ w', w'.out = [(s.fab.hdma.nextTag, { write := true, addr := b, len := n, off := 0 })] ∧ w'.todo = [] ∧
      hubDmaResponse s tag.toNat = { s with
        fab.hdma := { s.fab.hdma with nextTag := (s.fab.hdma.nextTag + 1) % 512, work := [(d, w')] }
        fab.net.rsps := rest
        fab.net.inflight := s.fab.net.inflight ++ [writeReq 0x34 l.strobe.label s.fab.hdma.nextTag b n r.data false] } := by
  have hz : zcDecodes d = false := by simp [zcDecodes, hop, h6, field]
  have hdel : deliver d { w with out := [] } k r.data [] = { w with out := [], buf := r.data } :=
    deliver_fills (w := { w with out := [] }) hz (by rw [hk]) (hlen.trans hdata.symm) hbad
  have hruns : runsOf d { w with out := [], buf := r.data } = [{ src := some a, dst := b, len := n }] := by
    rw [runsOf, if_pos hop, ha]
    exact moveRuns_oneRow h3 (by omega) (some a) b _ _
  have hkick := hubDmaKick_copies (s := { s with
    fab.hdma.work := [(d, { w with out := [], buf := r.data })], fab.net.rsps := rest })
    (l := l) rfl he hl htodo rfl hp hbad hruns hdata ha' hb' h0 hblk happ hn
  refine ⟨{ w with phase := 2, todo := [], out := [(s.fab.hdma.nextTag, { write := true, addr := b, len := n, off := 0 })], buf := r.data }, rfl, rfl, ?_⟩
  rw [hubDmaResponse_ok hw ho hq hs ht hst he, hubDmaPump_one rfl, hdel, hk]
  exact hkick
end

/-! ### Transfers of one row issue -/

section
variable {s : State} {d : Desc} {l : Launch} {a n : Nat} (h : HubIssuesNow s d) (hl : s.fab.hdma.run = some l) (he : s.fab.hdma.ended = none)
  (hw : s.fab.hdma.work = []) (h0 : 0 < n) (hblk : a % 256 + n ≤ 256) (ha : a < 2 ^ 48) (hn : s.fab.hdma.nextTag < 512) (h1 : d.w 1 = a)
  (h3 : d.w 3 = 2 ^ 41 + 2 ^ 25 + n)
include h hl he hw h0 hblk ha hn h1 h3

theorem hubMove_one {b : Nat} (ho : d.op = 0x30) (hb : b < 2 ^ 48) (h2 : d.w 2 = b) (h6 : d.w 6 = 0) :
    Completes (.move .hub) s (fun t => ∃ w,
      w.out = [(s.fab.hdma.nextTag, { write := false, addr := a, len := n, off := 0 })] ∧ w.todo = [] ∧ w.phase = 1 ∧ w.buf.length = n ∧
      t = { s with fab.hdma := { s.fab.hdma with head := none, nextTag := (s.fab.hdma.nextTag + 1) % 512, work := [(d, w)] }
                   fab.net.inflight := s.fab.net.inflight ++ [readReq 0x34 l.strobe.label s.fab.hdma.nextTag a n] }) := by
  have hfields : (hubDmaFieldsBad d [d.w 1, d.w 2] || field (d.w 6) 1 0 != 0) = false := by
    have hab : ([a, b].any (fun x => decide (2 ^ 48 ≤ x))) = false := by simp only [List.any_cons, List.any_nil, Nat.not_le.2 ha, Nat.not_le.2 hb]; rfl
    rw [hubDmaFieldsBad, moveCountsOk_oneRow h3 h0 (by omega), h6, h1, h2, hab]
    decide
  have hplan : readPlan [{ src := some a, dst := b, len := n }] = [{ write := false, addr := a, len := n, off := 0 }] :=
    readPlan_oneRow h0 hblk (by omega)
  have hmove : hubDmaMove { s with fab.hdma.head := none } d = hubDmaIssue { s with fab.hdma.head := none } d
      (newWork [a, b] 1 [{ write := false, addr := a, len := n, off := 0 }] (List.replicate n 0)) := by
    rw [hubDmaMove, hfields, if_neg (by decide), h1, h2]
    dsimp only
    rw [moveRuns_oneRow h3 (by omega), hplan]
    simp
  have hexec : exec (.move .hub) s = .next (hubDmaMove { s with fab.hdma.head := none } d) :=
    congrArg Host.Outcome.next ((congrArg (hubDmaOp s · hubDmaMove) ho.symm).trans (hubDmaOp_issues h hubDmaMove))
  refine ⟨_, hexec, { newWork [a, b] 1 [] (List.replicate n 0) with out := [(s.fab.hdma.nextTag, { write := false, addr := a, len := n, off := 0 })] },
    rfl, rfl, rfl, by simp [newWork], ?_⟩
  have hreq := hubReq_read hl (newWork [a, b] 1 [{ write := false, addr := a, len := n, off := 0 }] (List.replicate n 0)) a n
  rw [hmove, ← hreq]
  exact hubDmaIssue_one (s := { s with fab.hdma.head := none }) hw he rfl rfl hn

theorem hubFill_one (ho : d.op = 0x31) (h5 : d.w 5 = 0) (h6 : d.w 6 < 4) (h7 : d.w 7 = 0) :
    Completes (.fill .hub) s (fun t => ∃ w,
      w.out = [(s.fab.hdma.nextTag, { write := true, addr := a, len := n, off := 0 })] ∧ w.todo = [] ∧
      t = { s with fab.hdma := { s.fab.hdma with head := none, nextTag := (s.fab.hdma.nextTag + 1) % 512, work := [(d, w)] }
                   fab.net.inflight := s.fab.net.inflight ++ [writeReq 0x34 l.strobe.label s.fab.hdma.nextTag a n
                     ((List.range n).map (fun x => BitVec.ofNat 8 (d.w 2 / 256 ^ (x % 2 ^ d.w 6)))) false] }) := by
  have hfields : (hubDmaFieldsBad d [d.w 1] || field (d.w 5) 63 32 != 0 || d.w 7 != 0) = false := by
    have h64 : field (d.w 6) 63 4 = 0 := by simp only [field]; omega
    have hab : ([a].any (fun x => decide (2 ^ 48 ≤ x))) = false := by simp only [List.any_cons, List.any_nil, Nat.not_le.2 ha]; rfl
    rw [hubDmaFieldsBad, moveCountsOk_oneRow h3 h0 (by omega), h64, h1, hab, h5, h7]
    decide
  have f4 : field (d.w 6) 1 0 = d.w 6 := by simp only [field]; omega
  have hplan : writePlan [{ src := none, dst := a, len := n }] [] = [{ write := true, addr := a, len := n, off := 0 }] := writePlan_oneRow _ h0 hblk
  have hfill : hubDmaFill { s with fab.hdma.head := none } d = hubDmaIssue { s with fab.hdma.head := none } d
      (newWork [0, a] 2 [{ write := true, addr := a, len := n, off := 0 }]
        ((List.range n).map (fun x => BitVec.ofNat 8 (d.w 2 / 256 ^ (x % 2 ^ d.w 6))))) := by
    rw [hubDmaFill, hfields, if_neg (by decide), h1, f4]
    dsimp only
    rw [moveRuns_oneRow h3 (by omega), hplan]
    simp
  have hexec : exec (.fill .hub) s = .next (hubDmaFill { s with fab.hdma.head := none } d) :=
    congrArg Host.Outcome.next ((congrArg (hubDmaOp s · hubDmaFill) ho.symm).trans (hubDmaOp_issues h hubDmaFill))
  refine ⟨_, hexec, { newWork [0, a] 2 [] ((List.range n).map (fun x => BitVec.ofNat 8 (d.w 2 / 256 ^ (x % 2 ^ d.w 6)))) with
    out := [(s.fab.hdma.nextTag, { write := true, addr := a, len := n, off := 0 })] }, rfl, rfl, ?_⟩
  have hreq := hubReq_write hl (w := newWork [0, a] 2 [{ write := true, addr := a, len := n, off := 0 }]
    ((List.range n).map (fun x => BitVec.ofNat 8 (d.w 2 / 256 ^ (x % 2 ^ d.w 6))))) (n := n) rfl (by simp [newWork]) a
  have hbuf : (newWork [0, a] 2 [{ write := true, addr := a, len := n, off := 0 }]
    ((List.range n).map (fun x => BitVec.ofNat 8 (d.w 2 / 256 ^ (x % 2 ^ d.w 6))))).buf =
    (List.range n).map (fun x => BitVec.ofNat 8 (d.w 2 / 256 ^ (x % 2 ^ d.w 6))) := rfl
  rw [hbuf] at hreq
  rw [hfill, ← hreq]
  exact hubDmaIssue_one (s := { s with fab.hdma.head := none }) hw he rfl rfl hn
end

/-! ### Launches, fetches and errors -/

section
variable {s : State} {b : Strobe} (hr : s.fab.hdma.run = none) (hh : s.cal.held.get 37 = [])
include hr hh

theorem hubDmaLaunch_idle : hubDmaLaunch s b = hubDmaStart s { strobe := b, link := none } := by
  rw [hubDmaLaunch, hr, if_neg (by decide), takeHeld_none b hh]

/-- A program beyond the directory ends its launch at once (R53). -/
theorem hubDmaLaunch_beyond (hp : s.fab.hdma.pdirCnt ≤ b.prog.toNat) :
    HubLaunchEnded { s with fab.hdma := { s.fab.hdma with
      busy := true, prog := b.prog.toNat, run := some { strobe := b, link := none }, ptr := none, head := none, work := [], ended := none } }
      (hubDmaLaunch s b) stBadProgram s.fab.hdma.err := by
  rw [hubDmaLaunch_idle hr hh, hubDmaStart, if_pos hp]
  exact hubDmaEnd_settles rfl rfl stBadProgram (fun x hx => nomatch hx)
end

section
variable {s : State} {l : Launch} (hr : s.fab.hdma.run = some l) (he : s.fab.hdma.ended = none)
include hr he

/-- The directory entry of a valid program gives the list's address (R53). -/
theorem hubDmaFetch_directory {a : Nat} (ha : s.fab.hdma.pdirBase + 8 * l.strobe.prog.toNat = a) (hp : s.fab.hdma.ptr = none)
    (hf : FetchClean s 0x34 a 8) (hv : bit (fld (s.fab.mem.readN a 8) 0 8) 0 = true) :
    hubDmaFetch s .directory = { s with fab.hdma.ptr := some (field (fld (s.fab.mem.readN a 8) 0 8) 47 6 * 64) } := by
  have hx : fetchRead s hubDmaSrc a 8 = (s, some (s.fab.mem.readN a 8)) := fetchRead_clean hf
  simp only [hubDmaFetch, hr, he, hp, ha, hx, hv]
  rfl

/-- The next descriptor of the list becomes its head. -/
theorem hubDmaFetch_descriptor {a : Nat} (ha : s.fab.hdma.ptr = some a) (hd : s.fab.hdma.head = none) (hf : FetchClean s 0x34 a 64) :
    hubDmaFetch s (.stream 2) = { s with fab.hdma := { s.fab.hdma with
      ptr := some ((a + 64) % 2 ^ 48)
      head := some { addr := a, words := (List.range 8).map (fun i => BitVec.ofNat 64 (fld (s.fab.mem.readN a 64) (8 * i) 8)) } } } := by
  have hx : fetchRead s hubDmaSrc a 64 = (s, some (s.fab.mem.readN a 64)) := fetchRead_clean hf
  simp only [hubDmaFetch, hr, he, ha, hd, hx]
  rfl

/-- A halting error is captured and ends the launch (R57, R257). -/
theorem hubDmaFail_ends (hw : s.fab.hdma.work = []) (d : Desc) (code : Nat) : HubLaunchEnded s (hubDmaFail s d code) stEngineError
    (if bit s.fab.hdma.err.toNat 31 then s.fab.hdma.err else BitVec.ofNat 32 (errFirst code 2 d.tag)) := by
  have key := fun v : Word => hubDmaEnd_settles (s := { s with fab.hdma.err := v }) hr he stEngineError
    (fun x hx => by change x ∈ s.fab.hdma.work at hx; rw [hw] at hx; exact nomatch hx)
  rw [hubDmaFail, hubDmaCapture]
  generalize BitVec.ofNat 32 (errFirst code 2 d.tag) = v
  split
  · exact key s.fab.hdma.err
  · exact (key v).of_err
end

/-- Settles O33: the engine with no work, or with one descriptor of one row, at each of its commands. -/
theorem hubDmaEngineRunsItsList : Obligations.HubDmaEngineRunsItsList := by
  intro s h
  refine ⟨?_, fun l hr he => ⟨?_, fun a ha hd hf => ?_, fun ho => ?_, fun ho => ?_⟩, fun st d hi => ?_, fun st d e hd hop hw => ?_, ?_, rfl, rfl⟩
  · intro b started
    refine ⟨fun hr hh hp => ?_, fun hr hh hp => ⟨_, rfl, hubDmaLaunch_beyond hr hh hp⟩, fun hr => ?_⟩
    · exact congrArg Host.Outcome.next ((hubDmaLaunch_idle hr hh).trans (hubDmaStart_runs hp))
    · exact congrArg Host.Outcome.next (if_pos hr)
  · intro a e hp hf hv
    exact congrArg Host.Outcome.next (hubDmaFetch_directory hr he rfl hp hf hv)
  · exact congrArg Host.Outcome.next (hubDmaFetch_descriptor hr he ha hd hf)
  · exact ⟨_, rfl, hubDmaEnd_settles hr he stAborted ho⟩
  · exact congrArg Host.Outcome.next (hubDmaEnd_waits hr he stAborted ho)
  · obtain ⟨⟨l, hl⟩, he, hhd⟩ := hubHead_live hi.1
    have hbody := fun body => hubDmaOp_issues hi body
    refine ⟨fun ho hz => ?_, fun ho hz => ?_, fun a b n l hl hw h0 hblk ha hb hn h3 => ⟨fun ho h1 h2 h6 => ?_, fun ho h1 h5 h6 h7 => ?_⟩⟩
    · rw [ho] at hbody
      exact congrArg Host.Outcome.next ((hbody hubDmaNop).trans (if_pos hz))
    · rw [ho] at hbody
      obtain ⟨l', hl', ht⟩ := hubDmaEnd_settles (s := { s with fab.hdma.head := none }) hl he stOk
        (fun x hx => by change x ∈ s.fab.hdma.work at hx; rw [hubIssues_complete hi ho] at hx; exact nomatch hx)
      exact ⟨_, congrArg Host.Outcome.next ((hbody hubDmaComplete).trans (if_pos hz)), l', hl', ht⟩
    · exact hubMove_one hi hl he hw h0 hblk ha hn h1 h3 ho hb h2 h6
    · exact hubFill_one hi hl he hw h0 hblk ha hn h1 h3 ho h5 h6 h7
  · obtain ⟨⟨l, hl⟩, he, -⟩ := hubHead_live hd
    have hres : hubDmaReserved s = hubDmaFail s d e := by simp only [hubDmaReserved, hd, hop]
    exact ⟨_, congrArg Host.Outcome.next hres, hubDmaFail_ends hl he hw d e⟩
  · intro d w k tag r rest l hl he hw ho ht hq hs htag hst hn
    refine ⟨fun hk hp => congrArg Host.Outcome.next (hubDmaResponse_write hw ho hq hs htag hst he hk hp ht),
      fun a b n hk hp hop haddr h6 ha hb h0 hblk h3 hbad hlen hdata happ => ?_⟩
    obtain ⟨w', h1, h2, hx⟩ := hubDmaResponse_read hw ho hq hs htag hst he hl hk hp ht hop haddr h6 ha hb h0 hblk h3 hbad hlen hdata happ hn
    exact ⟨_, congrArg Host.Outcome.next hx, w', h1, h2, rfl⟩

end Sys2Proof.Machine
end

section
/-! PROOFS. One tile in and out of reset: launches that end with it, its SRAM, isolation and quarantine (R43, R49, R222, R438, R443). -/

namespace Sys2Proof.Machine

/-! ### What a launch's completion may change -/

theorem EventsOnly.refl (s : State) : EventsOnly s s := ⟨rfl, fun _ _ => rfl, rfl, rfl, fun _ _ => rfl⟩

theorem EventsOnly.trans {s u t : State} (h : EventsOnly s u) (k : EventsOnly u t) : EventsOnly s t := by
  obtain ⟨h1, h2, h3, h4, h5⟩ := h
  obtain ⟨k1, k2, k3, k4, k5⟩ := k
  refine ⟨by rw [k1, h1], fun i hi => (k2 i hi).trans (h2 i hi), k3.trans h3, k4.trans h4, fun a ha => ?_⟩
  rw [k5 a (fun v hv => by rw [InMessage, h4]; exact ha v hv), h5 a ha]

/-- Launches end and a pin is released: events are raised, and the calendar but for the launches it holds, the servo and the sequence tables may
change; nothing else does. -/
def CompletionsOnly (s u : State) : Prop :=
  EventsOnly s u ∧ u = { s with host := u.host, time := u.time, cal := u.cal, kvt := u.kvt } ∧ u.cal.held = s.cal.held

theorem CompletionsOnly.refl (s : State) : CompletionsOnly s s := ⟨EventsOnly.refl s, rfl, rfl⟩

theorem CompletionsOnly.trans {s u t : State} (h : CompletionsOnly s u) (k : CompletionsOnly u t) : CompletionsOnly s t := by
  obtain ⟨h1, h2, h3⟩ := h
  obtain ⟨k1, k2, k3⟩ := k
  exact ⟨h1.trans k1, by rw [k2, h2], k3.trans h3⟩

section
variable {s u : State} (h : CompletionsOnly s u)
include h

/-- A change of the servo, the calendar or the tables that raises no event and holds the same launches. -/
theorem CompletionsOnly.quiet {t : State} (ht : t = { u with time := t.time, cal := t.cal, kvt := t.kvt }) (hd : t.cal.held = u.cal.held) :
    CompletionsOnly s t := by
  obtain ⟨h1, h2, h3⟩ := h
  have hh : t.host = u.host := by rw [ht]
  exact ⟨h1.congr rfl hh, by rw [ht, h2], hd.trans h3⟩

theorem CompletionsOnly.raise (code aux : Nat) (pay : List Nat) : CompletionsOnly s (raiseEvent u code aux pay) := by
  obtain ⟨h1, h2, -⟩ := raiseEvent_spec u code aux pay
  exact h.trans ⟨h2, by rw [h1], by rw [h1]⟩

theorem CompletionsOnly.servoEvent (k : Nat) : CompletionsOnly s (Machine.servoEvent u k) := h.raise _ _ _

theorem CompletionsOnly.servoEnter (st : Nat) : CompletionsOnly s (Machine.servoEnter u st) := by
  unfold Machine.servoEnter
  dsimp only
  split
  · refine CompletionsOnly.servoEvent ?_ 1
    exact h.quiet rfl rfl
  · exact h.quiet rfl rfl

theorem CompletionsOnly.servoIdleCheck : CompletionsOnly s (Machine.servoIdleCheck u) := by
  unfold Machine.servoIdleCheck
  split
  · exact h.servoEnter 1
  · exact h

theorem CompletionsOnly.chainSettle (c : Nat) : CompletionsOnly s (Machine.chainSettle u c) := by
  unfold Machine.chainSettle
  refine CompletionsOnly.servoIdleCheck ?_
  split
  · exact h.quiet rfl rfl
  · exact h

theorem CompletionsOnly.launchError (m : Made) (st : Half) (tgt : Nat) : CompletionsOnly s (Machine.launchError u m st tgt) :=
  CompletionsOnly.raise (u := u.modChain m.chain _) (h.quiet rfl rfl) _ _ _

/-- The last target of a launch has completed: lateness and errors are counted and reported, and its chain may end (R224, R225, R230). -/
theorem CompletionsOnly.madeComplete (m : Made) : CompletionsOnly s (Machine.madeComplete u m) := by
  unfold Machine.madeComplete
  refine CompletionsOnly.chainSettle ?_ m.chain
  have hlate : ∀ {v : State}, CompletionsOnly s v → CompletionsOnly s (if m.deadline ≠ 0 ∧ m.deadline < v.dt - m.sched then
      raiseEvent (v.modChain m.chain (fun c => { c with dlMissCnt := cnt c.dlMissCnt 1 })) 0x0413 m.chain
        [m.idx, m.tag.toNat * 2 ^ 32 + m.entry % 4096 * 2 ^ 20 + sat 20 ((v.dt - m.sched) / 1000)] else v) := by
    intro v hv
    split
    · exact CompletionsOnly.raise (u := v.modChain m.chain _) (hv.quiet rfl rfl) _ _ _
    · exact hv
  have hdone := hlate (v := u.modChain m.chain (fun c => { c with w := max c.w u.dt })) (h.quiet rfl rfl)
  split
  · next st t _ => exact hdone.launchError m st t
  · exact hdone

theorem CompletionsOnly.targetComplete (id tgt : Nat) (st : Half) : CompletionsOnly s (Machine.targetComplete u id tgt st) := by
  cases hm : u.cal.made.find? (fun m => m.id == id) with
  | none =>
    have hx : Machine.targetComplete u id tgt st = u := by simp only [Machine.targetComplete, hm]
    rw [hx]
    exact h
  | some m =>
    simp only [Machine.targetComplete, hm]
    split
    · refine CompletionsOnly.madeComplete ?_ _
      exact h.quiet rfl rfl
    · exact h.quiet rfl rfl

theorem CompletionsOnly.launchEnds (l : Launch) (tgt : Nat) (st : Half) : CompletionsOnly s (Machine.launchEnds u l tgt st) := by
  unfold Machine.launchEnds
  split
  · exact h.targetComplete _ _ _
  · exact h

theorem CompletionsOnly.kvReleaseTo (n c : Nat) : CompletionsOnly s (Machine.kvReleaseTo u n c) := by
  have hfold := foldl_keeps (CompletionsOnly s) (fun v i => raiseEvent v 0x0600 0 [n + ((u.kvt.tables.get n).released + 1 + i) * 2 ^ 32])
    (fun v i hv => hv.raise _ _ _) (List.range (c - (u.kvt.tables.get n).released)) u h
  exact hfold.quiet rfl rfl

theorem CompletionsOnly.releasePin (p : Nat) : CompletionsOnly s (Machine.releasePin u p) := by
  unfold Machine.releasePin
  split
  · exact h
  · next n k _ =>
    have hslot : ∀ {v : State}, CompletionsOnly s v → CompletionsOnly s (kvSettle v n) := by
      intro v hv
      unfold kvSettle
      dsimp only
      split
      · split
        · exact (hv.kvReleaseTo _ _).quiet rfl rfl
        · exact hv
      · exact hv.kvReleaseTo _ _
    exact hslot (h.quiet rfl rfl)
end

/-! ### A tile stops (R222, R438) -/

/-- The tile isolated and without launches. -/
def stoppedTile (t : Tile) : Tile := { t with isoEn := true, run := none, queue := [], issued := [], walk := none }

/-- Launches that end one after another. -/
theorem foldl_launchEnds {α : Type} (f : α → Launch) (p : Nat) (st : Half) (ls : List α) (u : State) :
    CompletionsOnly u (ls.foldl (fun s l => launchEnds s (f l) p st) u) :=
  foldl_keeps (CompletionsOnly u) _ (fun _ l hv => hv.launchEnds (f l) p st) ls u (CompletionsOnly.refl u)

/-- A tile stops: its launches and those held for it end, and its pin is released. -/
theorem tileStop_spec (s : State) (p : Nat) : let t := tileStop s p
    EventsOnly s t ∧ t = { s with host := t.host, time := t.time, cal := t.cal, kvt := t.kvt, tiles := t.tiles } ∧
    t.tiles = (s.modTile p stoppedTile).tiles ∧ t.cal.held.get p = [] := by
  intro t
  obtain ⟨ls, hls⟩ : ∃ ls, t =
      releasePin (dropHeld (List.foldl (fun s l => launchEnds s l p stTargetReset) (s.modTile p stoppedTile) ls) p) p := ⟨_, rfl⟩
  have hdrop : ∀ v : State, CompletionsOnly { v with cal.held := v.cal.held.set p [] } (releasePin (dropHeld v p) p) := fun v =>
    (foldl_launchEnds Held.launch p stTargetReset (v.cal.held.get p) { v with cal.held := v.cal.held.set p [] }).releasePin p
  obtain ⟨k1, k2, k3⟩ := hdrop (List.foldl (fun s l => launchEnds s l p stTargetReset) (s.modTile p stoppedTile) ls)
  rw [← hls] at k1 k2 k3
  have h1' : CompletionsOnly (s.modTile p stoppedTile) (List.foldl (fun s l => launchEnds s l p stTargetReset) (s.modTile p stoppedTile) ls) :=
    foldl_launchEnds id p stTargetReset ls (s.modTile p stoppedTile)
  generalize List.foldl (fun s l => launchEnds s l p stTargetReset) (s.modTile p stoppedTile) ls = v at h1' k1 k2 k3
  obtain ⟨h1, h2, -⟩ := h1'
  refine ⟨(h1.congr rfl rfl).trans (k1.congr rfl rfl), ?_, ?_, ?_⟩
  · rw [k2, h2]; rfl
  · rw [k2, h2]
  · rw [k3]; simp

theorem tileStop_get (s : State) (p : Nat) : (tileStop s p).tiles.get p = stoppedTile (s.tiles.get p) := by
  obtain ⟨-, -, hT, -⟩ := tileStop_spec s p
  rw [hT, modTile_get]

theorem tileStop_get_other (s : State) {p q : Nat} (h : q ≠ p) : (tileStop s p).tiles.get q = s.tiles.get q := by
  obtain ⟨-, -, hT, -⟩ := tileStop_spec s p
  rw [hT, modTile_get_other s _ h]

/-! ### SRAM written to zero (R49) -/

/-- A cleared range reads 0 and every other byte as before. -/
theorem Memory.read_clear (m : Memory) (a n b : Nat) : (m.clear a n).read b = if a ≤ b ∧ b < a + n then 0 else m.read b := by
  unfold Memory.clear
  rw [Memory.read_append]
  by_cases hlo : b < a
  · have hkeep := Memory.read_filter m (fun c => c.1 < a) b (fun c _ hc => by simpa [hc] using hlo)
    rw [if_neg (show ¬ (a ≤ b ∧ b < a + n) by omega)]
    split
    · exact hkeep
    · next hx =>
      rw [← hkeep, Memory.read_none _ b (Bool.eq_false_iff.2 hx)]
      exact Memory.read_none _ b (any_filter_none m _ b (fun c hc => by simp [hc]; omega))
  · rw [any_filter_none m _ b (fun c hc => by simp [hc]; omega), if_neg (by decide)]
    split
    · exact Memory.read_none _ b (any_filter_none m _ b (fun c hc => by simp [hc]; omega))
    · exact Memory.read_filter m _ b (fun c _ hc => by simp [hc]; omega)

/-- What Bellows and the events of a returned tile leave alone: its tiles and memory are those set before. -/
theorem tileReturn_spec (s : State) (p : Nat) : let t := tileReturn s p; let T := t.tiles.get p
    (T.role = if (s.tiles.get p).logical = none then 1 else 0) ∧ T.isoEn = false ∧ T.inReset = false ∧
    (∀ q, q ≠ p → t.tiles.get q = s.tiles.get q) ∧ t.fab.mem = s.fab.mem.clear (tileWindow p) 0x1000000 := by
  obtain ⟨v, hv, hx⟩ : ∃ v, tileReturn s p = raiseEvent (qosRecompute v) 0x0015 p [b2n (s.tiles.get p).logical.isNone] ∧
      v = (clearSram s p).modTile p (fun t => mapTile s.bu.map { t with
        isoEn := false, inReset := false, initBusy := false, role := if (s.tiles.get p).logical.isNone then 1 else 0, heldOff := liveChains s
        symErr := Tab.const 0 }) := ⟨_, rfl, rfl⟩
  have hq : QosOnly v (tileReturn s p) := by
    rw [hv]
    exact raiseEvent_qosOnly (qosRecompute_qosOnly v) _ _ _
  have htiles : (tileReturn s p).tiles = v.tiles := by rw [hq]
  have hmem : (tileReturn s p).fab.mem = v.fab.mem := by rw [hq]
  dsimp only
  rw [htiles, hmem, hx]
  refine ⟨?_, ?_, ?_, fun q hq => modTile_get_other _ _ hq, rfl⟩
  · rw [modTile_get]
    cases (s.tiles.get p).logical <;> rfl
  · rw [modTile_get]; rfl
  · rw [modTile_get]; rfl

/-- Settles O20: what ends with the tile changes the calendar, the servo, the tables and events only; the rest is said of the tile and its window. -/
theorem tileResetIsolationAndQuarantine : Obligations.TileResetIsolationAndQuarantine := by
  unfold Obligations.TileResetIsolationAndQuarantine
  refine ⟨fun p s => ?_, fun p s hr hb hf hd => ?_, fun p s => ?_, fun p s => ?_, fun p now s hrole => ?_⟩
  · obtain ⟨h1, h2, -⟩ := tileStop_spec s p
    refine ⟨_, rfl, h1.congr rfl rfl, ?_, ?_, fun q hq => ?_⟩
    · rw [tileReset, State.modTile, h2]
    · rw [tileReset, modTile_get, tileStop_get]; rfl
    · rw [tileReset, modTile_get_other _ _ hq, tileStop_get_other s hq]
  · have hx : sramInitDone s p = (clearSram s p).modTile p (fun t => { t with
        inReset := false, initBusy := false, role := if t.role < 2 then 3 else t.role, symErr := Tab.const 0 }) := by
      rw [sramInitDone, hr, hb, hf, hd]; rfl
    refine ⟨_, congrArg Host.Outcome.next hx, rfl, Memory.read_clear _ _ _, ?_, fun q hq => modTile_get_other _ _ hq⟩
    rw [modTile_get]; rfl
  · obtain ⟨h1, h2, -, h4⟩ := tileStop_spec s p
    exact ⟨_, rfl, h1, h2, tileStop_get s p, fun q hq => tileStop_get_other s hq, h4⟩
  · intro free
    refine ⟨fun hfree => ?_, fun hfree => ?_⟩
    · obtain ⟨h1, h2⟩ := hfree
      exact congrArg Host.Outcome.next (if_neg (by rw [h1, h2]; decide))
    · have hor : (s.tiles.get p).inReset = true ∨ (s.tiles.get p).initBusy = true := by
        by_contra hn
        simp only [not_or, Bool.not_eq_true] at hn
        exact hfree hn
      exact congrArg Host.Outcome.next (if_pos hor)
  · have hrole' : ¬ ((s.advance now).tiles.get p).role ≠ 3 := by rw [State.advance_tiles]; exact not_not_intro hrole
    refine ⟨?_, ?_⟩
    · have hx : quarantineDone (s.advance now) p true = tileReturn (s.advance now) p := by rw [quarantineDone, if_neg hrole', if_pos rfl]
      obtain ⟨h1, h2, h3, h4, h5⟩ := tileReturn_spec (s.advance now) p
      rw [State.advance_tiles] at h1 h4
      rw [State.advance_fab] at h5
      refine ⟨_, congrArg Host.Outcome.next hx, h1, h2, h3, h4, fun a => ?_⟩
      rw [h5, Memory.read_clear]
    · change Host.Outcome.next (quarantineDone (s.advance now) p false) = _
      rw [quarantineDone, if_neg hrole', if_neg Bool.false_ne_true, State.advance_bu]

end Sys2Proof.Machine
end

section
/-! PROOFS. What a matrix descriptor of any form may change (R44, R49, R53, R57, R103–R108, R126–R131). -/

namespace Sys2Proof.Machine

/-! ### The tile -/

/-- What `MatrixFrame` says of the tile itself: its error registers and counts, semaphores, matrix cycles, launch, descriptors under way and
accumulators may differ. -/
def MatrixTile (T T' : Tile) : Prop :=
  T' = { T with
    errStat := T'.errStat, errFirst := T'.errFirst, errDaddr := T'.errDaddr, errCnt := T'.errCnt,
    ceCnt := T'.ceCnt, ueCnt := T'.ueCnt, ueTimes := T'.ueTimes, sem := T'.sem,
    busyMat := T'.busyMat, run := T'.run, issued := T'.issued, acc := T'.acc }

theorem MatrixTile.trans {T T' T'' : Tile} (h : MatrixTile T T') (k : MatrixTile T' T'') : MatrixTile T T'' := by
  unfold MatrixTile at h k ⊢
  rw [k, h]

theorem MatrixTile.walk {T T' : Tile} (h : MatrixTile T T') : T'.walk = T.walk := by rw [h]

/-! ### The state -/

/-- A step of the matrix stream is within the frame. -/
theorem StreamStep.matrixFrame {s u : State} {p st : Nat} {m : Nat → Nat} {x : StreamSt} (h : StreamStep s u p st (s.tiles.get p) m x) :
    MatrixFrame s u p := by
  obtain ⟨⟨h1, h2⟩, h3, -⟩ := h
  have hh : u.host = s.host := by rw [h1]
  have hc : u.cal = s.cal := by rw [h1]
  exact ⟨by rw [h1], (EventsOnly.refl s).congr rfl hh, fun q hq => ⟨h2 q hq, by rw [hc]⟩, by rw [h3]⟩

section
variable {s u : State} {p : Nat} (h : MatrixFrame s u p)
include h

theorem MatrixFrame.tile : MatrixTile (s.tiles.get p) (u.tiles.get p) := h.2.2.2

theorem MatrixFrame.trans {t : State} (k : MatrixFrame u t p) : MatrixFrame s t p := by
  have hT := h.tile.trans k.tile
  obtain ⟨h1, h2, h3, -⟩ := h
  obtain ⟨k1, k2, k3, -⟩ := k
  exact ⟨by rw [k1, h1], h2.trans k2, fun q hq => ⟨(k3 q hq).1.trans (h3 q hq).1, (k3 q hq).2.trans (h3 q hq).2⟩, hT⟩

/-- A change of the tile alone. -/
theorem MatrixFrame.modTile {g : Tile → Tile} (hg : MatrixTile (u.tiles.get p) (g (u.tiles.get p))) : MatrixFrame s (u.modTile p g) p :=
  h.trans ⟨rfl, (EventsOnly.refl u).congr rfl rfl, fun _ hq => ⟨modTile_get_other _ _ hq, rfl⟩, by rw [modTile_get]; exact hg⟩

theorem MatrixFrame.setFree (n : Nat) : MatrixFrame s { u with free := n } p :=
  h.trans ⟨rfl, (EventsOnly.refl u).congr rfl rfl, fun _ _ => ⟨rfl, rfl⟩, rfl⟩

theorem MatrixFrame.recordError (code st tag daddr : Nat) : MatrixFrame s (Machine.recordError u p code st tag daddr) p := by
  have hf := recordError_frame u p code st tag daddr
  have hc : (Machine.recordError u p code st tag daddr).cal = u.cal := by rw [hf]
  have hg := recordError_get u p code st tag daddr
  refine h.trans ⟨by rw [hf], recordError_events .., fun q hq => ⟨recordError_get_other _ _ _ _ _ _ hq, by rw [hc]⟩, ?_⟩
  change MatrixTile _ _
  rw [hg]
  rfl

theorem MatrixFrame.reportDone (l : Launch) (st : Half) : MatrixFrame s (Machine.reportDone u p l st) p :=
  h.trans ⟨rfl, (EventsOnly.refl u).congr rfl rfl, fun _ hq => ⟨rfl, by simp [Machine.reportDone, Ne.symm hq]⟩, rfl⟩

/-- Outside a page walk a launch that has ended, with nothing of it under way, is only reported (R53). -/
theorem MatrixFrame.settleRun (hw : (s.tiles.get p).walk = none) : MatrixFrame s (Machine.settleRun u p) p := by
  have hwu : (u.tiles.get p).walk = none := h.tile.walk.trans hw
  unfold Machine.settleRun
  dsimp only
  split
  · split
    · split
      · rw [hwu]
        exact (h.modTile (by simp only [MatrixTile, hwu])).reportDone _ _
      · exact h
    · exact h
  · exact h

theorem MatrixFrame.endRun (hw : (s.tiles.get p).walk = none) (st : Half) : MatrixFrame s (Machine.endRun u p st) p := by
  unfold Machine.endRun
  split
  · exact h
  · split
    · exact h
    · exact (h.modTile (by rfl)).settleRun hw

theorem MatrixFrame.failDesc (hw : (s.tiles.get p).walk = none) (st : Nat) (d : Desc) (code : Nat) :
    MatrixFrame s (Machine.failDesc u p st d code) p :=
  (h.recordError code st d.tag d.addr).endRun hw _

theorem MatrixFrame.softError (hw : (s.tiles.get p).walk = none) (st : Nat) (d : Desc) (code : Nat) :
    MatrixFrame s (Machine.softError u p st d code) p := by
  unfold Machine.softError
  dsimp only
  split
  · exact h.recordError _ _ _ _
  · exact (h.recordError _ _ _ _).endRun hw _

/-- An arithmetic descriptor joins those under way, and its errors are recorded. -/
theorem MatrixFrame.unitDone (hw : (s.tiles.get p).walk = none) (st : Nat) (d : Desc) (errs : List Nat) (acc : Nat) :
    MatrixFrame s (Machine.unitDone u p st d errs acc) p :=
  foldl_keeps (MatrixFrame s · p) _ (fun _ e hv => hv.softError hw st d e) errs _ (h.modTile (by rfl))

theorem MatrixFrame.sramRead (off n : Nat) : MatrixFrame s (Machine.sramRead u p off n).1 p := by
  unfold Machine.sramRead
  dsimp only
  split
  · exact h
  · exact h.modTile (by rfl)

/-- The cells of a block are written to one accumulator. -/
theorem MatrixFrame.blockResult {bad ecc : Bool} (d : Desc) (fa fb : Nat) (pr : Pair81) (f k accNo init m n : Nat) (ra rb : List ARow)
    (cin : List (List (Option Nat))) :
    MatrixFrame s (Machine.blockResult { st := u, bad := bad, ecc := ecc } p d fa fb pr f k accNo init m n ra rb cin) p := by
  unfold Machine.blockResult
  dsimp only
  split
  · exact (h.setFree _).modTile (by rfl)
  · exact h.modTile (by rfl)
end

/-! ### Operand reads -/

section
variable {s : State} {p : Nat} {u : Unit'} (h : MatrixFrame s u.st p)
include h

theorem MatrixFrame.readOwn (off n : Nat) : MatrixFrame s (Machine.readOwn u p off n).1.st p := h.sramRead off n

theorem MatrixFrame.readRows (f off pitch soff rows cols : Nat) :
    MatrixFrame s (Machine.readRows u p f off pitch soff rows cols).1.st p :=
  foldl_keeps (fun a : Unit' × List (List (Option Val) × List (Option Val)) => MatrixFrame s a.1.st p) _
    (fun _ _ hv => (hv.readOwn _ _).readOwn _ _) (List.range rows) (u, []) h

theorem MatrixFrame.readPixels (f c : Nat) (off : Nat → Nat → Nat) (pix : List (Nat × Nat)) :
    MatrixFrame s (Machine.readPixels u p f c off pix).1.st p :=
  foldl_keeps (fun a : Unit' × List ((Nat × Nat) × List (Option Val)) => MatrixFrame s a.1.st p) _
    (fun _ _ hv => hv.readOwn _ _) pix (u, []) h
end

/-! ### MATMUL and CONV_STRIPE -/

section
variable {s u : State} {p : Nat} (h : MatrixFrame s u p) (hw : (s.tiles.get p).walk = none)
include h hw

theorem MatrixFrame.matmulBody (d : Desc) : MatrixFrame s (Machine.matmulBody u p d) p := by
  unfold Machine.matmulBody
  extract_lets
  split
  · exact h.failDesc hw _ _ _
  · extract_lets
    split
    · split
      · exact h.failDesc hw _ _ _
      · extract_lets ra rb rc
        have hc : MatrixFrame s rc.1.st p := by
          have hb : MatrixFrame s rb.1.st p := MatrixFrame.readRows (h.readRows (u := { st := u, bad := false, ecc := false }) ..) ..
          subst rc
          split
          · exact hb.readRows ..
          · exact hb
        exact MatrixFrame.unitDone (MatrixFrame.modTile (hc.blockResult ..) (by rfl)) hw ..
    · exact h.failDesc hw _ _ _

theorem MatrixFrame.convBody (d : Desc) : MatrixFrame s (Machine.convBody u p d) p := by
  unfold Machine.convBody
  extract_lets
  split
  · exact h.failDesc hw _ _ _
  · extract_lets es ra rb
    have hb : MatrixFrame s rb.1.st p := MatrixFrame.readRows (MatrixFrame.readPixels h ..) ..
    exact MatrixFrame.unitDone (MatrixFrame.modTile (hb.blockResult ..) (by rfl)) hw ..
end

end Sys2Proof.Machine
end

section
/-! PROOFS. INT8 operands in own SRAM: rows read clean, their integer products, and a block's accumulator cells (R49, R72, R75, R81, R103–R107). -/

namespace Sys2Proof.Machine

/-! ### Clean reads -/

/-- A part of a clean range is clean. -/
theorem CleanSram.within {s : State} {p off n o k : Nat} (h : CleanSram s p off n) (hlo : off ≤ o) (hhi : o + k ≤ off + n) : CleanSram s p o k := by
  obtain ⟨hp, he⟩ := h
  refine ⟨?_, fun w hw => he w ?_⟩
  · simp only [Poison.hit, List.any_eq_false, Bool.and_eq_true, decide_eq_true_eq, not_and] at hp ⊢
    intro w hw h1 h2
    exact hp w hw (by omega) (by omega)
  · simp only [wordsOf, List.mem_map, List.mem_range] at hw ⊢
    obtain ⟨j, hj, rfl⟩ := hw
    exact ⟨o / 8 + j - off / 8, by omega, by omega⟩

/-- Clean is said of memory, poison and the tile's words with errors alone. -/
theorem CleanSram.congr {s u : State} {p off n : Nat} (h : CleanSram s p off n) (hf : u.fab = s.fab)
    (he : (u.tiles.get p).symErr = (s.tiles.get p).symErr) : CleanSram u p off n := by
  rw [CleanSram, hf, he]
  exact h

theorem cleanSram_none (s : State) (p : Nat) : CleanSram s p 0 0 := by
  refine ⟨?_, fun w hw => absurd hw (by simp [wordsOf])⟩
  have hwin : tileWindow p = 8 * (tileWindow p / 8) := by simp only [tileWindow, tileBase]; omega
  simp only [Poison.hit, List.any_eq_false, Bool.and_eq_true, decide_eq_true_eq, not_and]
  omega

theorem StreamStep.fab {s u : State} {p st : Nat} {T : Tile} {m : Nat → Nat} {x : StreamSt} (h : StreamStep s u p st T m x) : u.fab = s.fab := by
  rw [h.1.1]

/-- A step of a stream leaves clean words clean. -/
theorem StreamStep.cleanSram {s u : State} {p st off n : Nat} {m : Nat → Nat} {x : StreamSt} (h : StreamStep s u p st (s.tiles.get p) m x)
    (hc : CleanSram s p off n) : CleanSram u p off n :=
  hc.congr h.fab (by rw [h.tile])

/-- A clean range is read without a mark. -/
theorem readOwn_clean (u : Unit') {p off n : Nat} (h : CleanSram u.st p off n) :
    readOwn u p off n = (u, u.st.fab.mem.readN (tileWindow p + off) n, []) := by
  simp [readOwn, sramBad_clean h, sramRead_clean _ _ _ _ h]

/-- A fold that only gathers results gathers them in order. -/
theorem foldl_gathers {α β σ : Type} {step : σ × List β → α → σ × List β} {u : σ} (f : α → β) (l : List α)
    (h : ∀ x ∈ l, ∀ acc, step (u, acc) x = (u, f x :: acc)) (acc : List β) : l.foldl step (u, acc) = (u, (l.map f).reverse ++ acc) := by
  induction l generalizing acc with
  | nil => rfl
  | cons a r ih =>
    rw [List.foldl_cons, h a (by simp), ih (fun x hx => h x (by simp [hx]))]
    simp

/-! ### INT8 elements -/

theorem fmtOk_int8 : fmtOk false 8 = true := rfl
theorem fmtBlock_int8 : fmtBlock 8 = none := rfl
theorem scaleCount_int8 (n : Nat) : scaleCount 8 n = 0 := rfl
theorem pair81_int8 : pair81 8 8 = some ⟨4, true, 1⟩ := rfl
theorem scaleOff_int8 (t : Tile) (p a n : Nat) : scaleOff t p 8 a n = some 0 := rfl
theorem scaleRow_int8 (n : Nat) : scaleRow 8 n = 0 := by rw [scaleRow, scaleCount_int8, Nat.zero_mul]

theorem rowBytes_int8 (n : Nat) : rowBytes 8 n = n := by
  have h : rowBytes 8 n = ((n + 1 - 1) / 1 * 1 * 8 + 7) / 8 := rfl
  omega

/-- The value of an INT8 code (R72). -/
theorem rawVal_int8 (b : Byte) : rawVal 8 b.toNat = Val.ofInt b.toInt := by
  have h : sint 8 b.toNat = b.toInt := by
    have := b.isLt
    simp only [sint, BitVec.toInt_eq_toNat_cond]
    split <;> split <;> omega
  exact congrArg Val.ofInt h

/-- Element `i` of an INT8 row is its byte `i` (R75). -/
theorem rowElem_int8 (row : List Byte) (i : Nat) : rowElem 8 row i = (row.getD i 0).toNat := by
  have hi : i * 8 / 8 = i := by omega
  have hm : i * 8 % 8 = 0 := by omega
  have hb : fld row i 4 % 256 = (row.getD i 0).toNat := by
    have hcons : slice row i 4 = row.getD i 0 :: slice row (i + 1) 3 := by
      rw [slice_eq, slice_eq]
      simp [List.range_succ, Nat.add_assoc]
    rw [fld, hcons, leNat]
    have := (row.getD i 0).isLt
    omega
  have h8 : rowElem 8 row i = fld row (i * 8 / 8) 4 / 2 ^ (i * 8 % 8) % 2 ^ 8 := rfl
  rw [h8, hi, hm, Nat.pow_zero, Nat.div_one]
  exact hb

theorem Memory.getD_readN (m : Memory) (a : Nat) {n i : Nat} (h : i < n) : (m.readN a n).getD i 0 = m.read (a + i) := by
  rw [Memory.readN_eq]
  simp [h]

/-- The values of `n` INT8 elements from an offset of own SRAM. -/
def int8Row (s : State) (p off n : Nat) : List Val := (List.range n).map (fun x => Val.ofInt (byteAt s p (off + x)))

/-- An INT8 row of own SRAM as the array takes it. -/
def int8ARow (s : State) (p off n : Nat) : ARow := { vals := int8Row s p off n, scales := [], bad := false }

/-- Rows are read from memory alone. -/
theorem int8Row_congr {s u : State} (h : u.fab = s.fab) : int8Row u = int8Row s := by
  funext p off n
  simp only [int8Row, byteAt, h]

theorem int8ARow_congr {s u : State} (h : u.fab = s.fab) : int8ARow u = int8ARow s := by
  funext p off n
  rw [int8ARow, int8Row_congr h, int8ARow]

theorem rowVals_int8 (s : State) (p off n : Nat) :
    rowVals 8 (s.fab.mem.readN (tileWindow p + off) n) [] n = (int8Row s p off n).map some := by
  rw [rowVals, int8Row, List.map_map]
  refine List.map_congr_left fun i hi => ?_
  have hv : rawVal 8 (rowElem 8 (s.fab.mem.readN (tileWindow p + off) n) i) = Val.ofInt (byteAt s p (off + i)) := by
    rw [rowElem_int8, Memory.getD_readN _ _ (List.mem_range.1 hi), rawVal_int8, byteAt, Nat.add_assoc]
  exact congrArg some hv

theorem any_isNone_map_some {α : Type} (l : List α) : (l.map some).any (·.isNone) = false := by simp

/-- INT8 rows read clean (R49, R100). -/
theorem readRows_int8 (u : Unit') {p off pitch rows cols : Nat} (h : ∀ r, r < rows → CleanSram u.st p (off + r * pitch) cols) :
    readRows u p 8 off pitch 0 rows cols = (u, (List.range rows).map (fun r => ((int8Row u.st p (off + r * pitch) cols).map some, []))) := by
  have hstep := foldl_gathers (u := u) (fun r => ((int8Row u.st p (off + r * pitch) cols).map some, ([] : List (Option Val)))) (List.range rows)
    (step := fun a r =>
      let x := readOwn a.1 p (off + r * pitch) (rowBytes 8 cols)
      let y := readOwn x.1 p (0 + r * scaleRow 8 cols) (scaleRow 8 cols)
      let vs := rowVals 8 x.2.1 x.2.2 cols
      let ss := scaleVals 8 y.2.1 y.2.2 (scaleCount 8 cols)
      ({ y.1 with bad := y.1.bad || vs.any (·.isNone) || ss.any (·.isNone) }, (vs, ss) :: a.2))
    (fun r hr acc => by
      have hz0 : readOwn u p (0 + r * 0) 0 = (u, _, []) := readOwn_clean u (by simpa using cleanSram_none u.st p)
      dsimp only
      rw [rowBytes_int8, scaleRow_int8, scaleCount_int8, readOwn_clean u (h r (List.mem_range.1 hr))]
      dsimp only
      rw [hz0, rowVals_int8, any_isNone_map_some]
      simp [scaleVals]) []
  rw [readRows, hstep]
  simp

/-! ### Integer products -/

theorem Val.num_ofInt (i : Int) : (Val.ofInt i).toRat.num = i := by
  rw [Val.ofInt, Val.ofRat]
  split <;> simp [Val.toRat]

/-- Clean unscaled elements as an operand row. -/
theorem aRow_clean (vs : List Val) (used : Nat) : aRow (vs.map some, []) used = { vals := vs, scales := [], bad := false } := by
  rw [aRow, any_isNone_map_some]
  simp

theorem aRow_int8 (s : State) (p off n used : Nat) : aRow ((int8Row s p off n).map some, []) used = int8ARow s p off n := aRow_clean _ _

/-- The exact sum of the products of two integer rows (R81). -/
theorem dotInt_ofInt (f g : Nat → Int) (k : Nat) (sa sb : List Val) (ba bb : Bool) :
    dotInt { vals := (List.range k).map (fun x => Val.ofInt (f x)), scales := sa, bad := ba }
      { vals := (List.range k).map (fun x => Val.ofInt (g x)), scales := sb, bad := bb } = ((List.range k).map (fun x => f x * g x)).sum := by
  rw [dotInt, List.zip_map', List.map_map]
  simp only [Function.comp_def, Val.num_ofInt]

theorem dotInt_int8 (s : State) (p a b k : Nat) : dotInt (int8ARow s p a k) (int8ARow s p b k) =
    ((List.range k).map (fun x => byteAt s p (a + x) * byteAt s p (b + x))).sum :=
  dotInt_ofInt _ _ k _ _ _ _

/-! ### The cells of a block (R105) -/

theorem assocGet_append {α : Type} (d : α) (l r : List (Nat × α)) (i : Nat) : assocGet d (l ++ r) i = assocGet (assocGet d r i) l i := by
  induction l with
  | nil => rfl
  | cons a l ih => rw [List.cons_append, assocGet, assocGet, ih]

theorem assocGet_of_ne {α : Type} (d : α) {l : List (Nat × α)} {i : Nat} (h : ∀ c ∈ l, c.1 ≠ i) : assocGet d l i = d := by
  induction l with
  | nil => rfl
  | cons a l ih =>
    rw [assocGet, if_neg (h a (by simp))]
    exact ih fun c hc => h c (by simp [hc])

theorem assocGet_filter {α : Type} (d : α) (q : Nat × α → Bool) (l : List (Nat × α)) {i : Nat} (h : ∀ v, q (i, v) = true) :
    assocGet d (l.filter q) i = assocGet d l i := by
  induction l with
  | nil => rfl
  | cons a l ih =>
    obtain ⟨j, v⟩ := a
    by_cases hj : j = i
    · subst hj
      rw [List.filter_cons_of_pos (h v), assocGet, assocGet, if_pos rfl, if_pos rfl]
    · rw [List.filter_cons]
      split
      · rw [assocGet, assocGet, if_neg hj, if_neg hj, ih]
      · rw [assocGet, if_neg hj, ih]

theorem mem_blockCells {m n : Nat} {f : Nat → Nat → Word × Bool} {c : Nat × (Word × Bool)} :
    c ∈ blockCells m n f ↔ ∃ i, i < m ∧ ∃ j, j < n ∧ (128 * i + j, f i j) = c := by
  simp only [blockCells, List.mem_flatten, List.mem_map, List.mem_range, exists_exists_and_eq_and]

/-- A list whose entries for `i` all hold `v`, and that has one. -/
theorem assocGet_of_mem {α : Type} (d : α) {l : List (Nat × α)} {i : Nat} {v : α} (hm : (i, v) ∈ l) (hu : ∀ w, (i, w) ∈ l → w = v) :
    assocGet d l i = v := by
  induction l with
  | nil => cases hm
  | cons a l ih =>
    obtain ⟨j, w⟩ := a
    rw [assocGet]
    split
    · next hj => exact hu w (by rw [← hj]; simp)
    · next hj =>
      have hm' : (i, v) ∈ l := (List.mem_cons.1 hm).resolve_left fun he => hj (congrArg Prod.fst he).symm
      exact ih hm' fun w hw => hu w (by simp [hw])

theorem blockCells_congr {m n : Nat} {f g : Nat → Nat → Word × Bool} (h : ∀ i j, i < m → j < n → f i j = g i j) :
    blockCells m n f = blockCells m n g := by
  rw [blockCells, blockCells]
  refine congrArg List.flatten (List.map_congr_left fun i hi => List.map_congr_left fun j hj => ?_)
  rw [h i j (List.mem_range.1 hi) (List.mem_range.1 hj)]

section
variable {x : Acc} {ty : AccType} {m n : Nat} {f : Nat → Nat → Word × Bool} (hn : n ≤ 128)
include hn

/-- The cells of the block are replaced. -/
theorem putCells_get_block {i j : Nat} (hi : i < m) (hj : j < n) : (putCells x ty m n (blockCells m n f)).cells.get (128 * i + j) = f i j := by
  rw [putCells, Tab.get, assocGet_append]
  refine assocGet_of_mem _ (mem_blockCells.2 ⟨i, hi, j, hj, rfl⟩) fun w hw => ?_
  obtain ⟨i', -, j', hj', he⟩ := mem_blockCells.1 hw
  obtain ⟨h1, h2⟩ := Prod.mk.inj he
  obtain rfl : i' = i := by omega
  obtain rfl : j' = j := by omega
  exact h2.symm

/-- The other cells keep their bit patterns. -/
theorem putCells_get_other {i j : Nat} (hj : j < 128) (h : m ≤ i ∨ n ≤ j) :
    (putCells x ty m n (blockCells m n f)).cells.get (128 * i + j) = x.cells.get (128 * i + j) := by
  rw [putCells, Tab.get, assocGet_append, assocGet_of_ne, assocGet_filter, Tab.get]
  · intro v
    simp only [decide_eq_true_eq]
    omega
  · intro c hc he
    obtain ⟨i', hi', j', hj', rfl⟩ := mem_blockCells.1 hc
    dsimp only at he
    omega
end

/-! ### An integer block accumulated (R81, R105) -/

/-- An INT32 cell after a block: its initial value (its old one under KEEP) plus the products of its rows. -/
def intCell (x : Acc) (init : Nat) (a b : ARow) (c : Nat) : Word × Bool :=
  let old := if init = 1 then x.cells.get c else (0, false)
  (old.1 + BitVec.ofInt 32 (dotInt a b), old.2 || a.bad || b.bad)

theorem intCell_zero (x : Acc) (a b : ARow) (c : Nat) : intCell x 0 a b c = (BitVec.ofInt 32 (dotInt a b), a.bad || b.bad) := by
  simp [intCell]

/-- An accumulator after a block of integer products. -/
def intBlock (x : Acc) (init m n : Nat) (ra rb : Nat → ARow) : Acc :=
  putCells x .int32 m n (blockCells m n (fun i j => intCell x init (ra i) (rb j) (128 * i + j)))

/-- A tile whose matrix unit has accumulated a block into buffer `b`, and where the descriptor waits to complete. -/
def blockDone (d : Desc) (b cycles init m n : Nat) (ra rb : Nat → ARow) (t : Tile) : Tile :=
  { t with
    acc := t.acc.set b (intBlock (t.acc.get b) init m n ra rb)
    busyMat := (t.busyMat + cycles) % 2 ^ 64
    issued := t.issued ++ [workDone d 0 (2 ^ b)] }

/-- Operands read clean, of an integer pair: the block is accumulated without an error. -/
theorem blockResult_done (u : State) (p : Nat) (d : Desc) (fa fb : Nat) {pr : Pair81} (f k b m n cycles : Nat) {init : Nat} (ra rb : Nat → ARow)
    (cin : List (List (Option Nat))) (hp : pr.int = true) (h2 : init ≠ 2) :
    unitDone ((blockResult { st := u, bad := false, ecc := false } p d fa fb pr f k b init m n ((List.range m).map ra) ((List.range n).map rb) cin).modTile p
      (fun t => { t with busyMat := (t.busyMat + cycles) % 2 ^ 64 })) p 0 d (unitErrors { st := u, bad := false, ecc := false }) (2 ^ b) =
    u.modTile p (blockDone d b cycles init m n ra rb) := by
  have he : unitErrors { st := u, bad := false, ecc := false } = [] := rfl
  rw [unitDone, he, blockResult, he]
  dsimp only
  rw [blockCells_congr (g := fun i j => intCell ((u.tiles.get p).acc.get b) init (ra i) (rb j) (128 * i + j))]
  · simp [holdIssue, hp, State.modTile, blockDone, intBlock, workDone, Tab.modify]
  · intro i j hi hj
    simp [intCell, hp, h2, hi, hj]

/-- An integer block accumulated after the head has left its stream: nothing else has changed (R104–R108). -/
theorem matrixDone_blockDone {s : State} {p : Nat} {d : Desc} (h : IssuesNow s p 0 d) (b cycles init m n : Nat) (ra rb : Nat → ARow) :
    let t := (popHead s p 0 d).modTile p (blockDone d b cycles init m n ra rb)
    MatrixDone s t p d b cycles ∧ (t.tiles.get p).acc.get b = intBlock ((s.tiles.get p).acc.get b) init m n ra rb := by
  intro t
  have ht := h.popHead.modTile (g := blockDone d b cycles init m n ra rb) (fun _ _ _ => rfl)
  have hacc : (t.tiles.get p).acc = (s.tiles.get p).acc.set b (intBlock ((s.tiles.get p).acc.get b) init m n ra rb) := by rw [ht.tile]; rfl
  obtain ⟨h1, h2, h3⟩ := ht
  refine ⟨⟨h1, fun k hk => ?_, ?_, h3⟩, ?_⟩
  · rw [hacc, Tab.get_set_other _ _ (Ne.symm hk)]
  · rw [hacc]
    exact h2
  · rw [hacc, Tab.get_set_self]

section
variable {x : Acc} {init m n i j : Nat} {ra rb : Nat → ARow} (hn : n ≤ 128)
include hn

theorem intBlock_get (hi : i < m) (hj : j < n) :
    (intBlock x init m n ra rb).cells.get (128 * i + j) = intCell x init (ra i) (rb j) (128 * i + j) :=
  putCells_get_block hn hi hj

theorem intBlock_get_other (hj : j < 128) (h : m ≤ i ∨ n ≤ j) :
    (intBlock x init m n ra rb).cells.get (128 * i + j) = x.cells.get (128 * i + j) :=
  putCells_get_other hn hj h
end

end Sys2Proof.Machine
end

section
/-! PROOFS. MATMUL of INT8 by INT8 operands in own SRAM (R81, R103–R107). -/

namespace Sys2Proof.Machine

/-- An address that is not loop-indexed (R101). -/
theorem loopAdd_plain (t : Tile) (st c : Nat) (step : Int) (a : Nat) : loopAdd t st false c step a = a := rfl

theorem own_aligned {off : Nat} (h : off % 64 = 0) : own off % 64 = 0 := by
  simp only [own]
  omega

/-- The own-SRAM form of a tensor address names its offset (R50, R100). -/
theorem ownOff_own (t : Tile) (p : Nat) {off n : Nat} (h : off + n ≤ 2 ^ 24) (h0 : off < 2 ^ 24) : ownOff t p (own off) n = some off := by
  have hf : field (own off) 63 62 = 1 := by simp only [field, own]; omega
  have hm : own off % 2 ^ 24 = off := by simp only [own]; omega
  have hb : tensorBad (own off) = false := tensorBad_own h0
  simp only [ownOff, hb, hf, hm, Bool.false_eq_true, if_false]
  exact if_pos (by omega)

/-- The fields of a MATMUL of `m` rows of INT8 A by `n` rows of INT8 B over `k` elements into buffer `b` (R103). -/
structure Int8Matmul (d : Desc) (ao bo pa pb k m n init b : Nat) : Prop where
  wordA : d.w 1 = own ao
  wordB : d.w 2 = own bo
  word3 : d.w 3 = 0
  word4 : d.w 4 = 0
  word5 : d.w 5 = 0
  word6 : d.w 6 = 8 + 8 * 2 ^ 16 + pa * 2 ^ 32
  word7 : d.w 7 = pb + k * 2 ^ 18 + (m - 1) * 2 ^ 35 + (n - 1) * 2 ^ 42 + init * 2 ^ 49 + b * 2 ^ 51
  alignA : ao % 64 = 0
  alignB : bo % 64 = 0
  length : 0 < k ∧ k ≤ 65536
  pitchA : pa < 2 ^ 18 ∧ k ≤ 64 * pa
  pitchB : pb < 2 ^ 18 ∧ k ≤ 64 * pb
  rowsA : 0 < m ∧ m ≤ 128
  rowsB : 0 < n ∧ n ≤ 128
  fitsA : ao + (m - 1) * (64 * pa) + k ≤ 2 ^ 24
  fitsB : bo + (n - 1) * (64 * pb) + k ≤ 2 ^ 24
  initial : init ≤ 1
  buffer : b ≤ 1

section
variable {d : Desc} {ao bo pa pb k m n init b : Nat} (h : Int8Matmul d ao bo pa pb k m n init b)
include h

theorem Int8Matmul.fields6 : field (d.w 6) 15 0 = 8 ∧ field (d.w 6) 31 16 = 8 ∧ field (d.w 6) 49 32 = pa ∧ field (d.w 6) 63 50 = 0 := by
  have hpa := h.pitchA
  simp only [field, h.word6]
  omega

theorem Int8Matmul.fields7 : field (d.w 7) 17 0 = pb ∧ field (d.w 7) 34 18 = k ∧ field (d.w 7) 41 35 + 1 = m ∧ field (d.w 7) 48 42 + 1 = n ∧
    field (d.w 7) 50 49 = init ∧ field (d.w 7) 51 51 = b ∧ field (d.w 7) 53 52 = 0 ∧ field (d.w 7) 63 58 = 0 ∧ bit (d.w 7) 56 = false ∧
    bit (d.w 7) 57 = false := by
  obtain ⟨-, -, -, -, -, -, h7, -, -, hk, -, hpb, hm, hn, -, -, hi, hb⟩ := h
  simp only [field, bit, h7, beq_eq_false_iff_ne]
  omega

/-- Its products are accumulated (R104–R107). -/
theorem Int8Matmul.body {u : State} {p : Nat} (hA : ∀ i, i < m → CleanSram u p (ao + i * (64 * pa)) k)
    (hB : ∀ j, j < n → CleanSram u p (bo + j * (64 * pb)) k) (hk : init = 1 → ((u.tiles.get p).acc.get b).type = .int32) :
    matmulBody u p d = u.modTile p (blockDone d b k init m n (fun i => int8ARow u p (ao + i * (64 * pa)) k)
      (fun j => int8ARow u p (bo + j * (64 * pb)) k)) := by
  obtain ⟨f1, f2, f3, f4⟩ := h.fields6
  obtain ⟨g1, g2, g3, g4, g5, g6, g7, g8, g9, g10⟩ := h.fields7
  obtain ⟨-, -, -, -, -, -, -, haA, haB, ⟨hk0, hk1⟩, ⟨-, hpa⟩, ⟨-, hpb⟩, -, -, hfA, hfB, hinit, -⟩ := id h
  obtain ⟨hk', hpa', hpb', hi2, hi3⟩ : k ≠ 0 ∧ pa ≠ 0 ∧ pb ≠ 0 ∧ init ≠ 2 ∧ init ≠ 3 := by omega
  have hcyc : (4 * k + 2 ^ 0 * 4 - 1) / (2 ^ 0 * 4) + 0 = k := by omega
  have hoA : ownOff (u.tiles.get p) p (own ao) ((m - 1) * (64 * pa) + k) = some ao :=
    ownOff_own _ _ (by omega) (by omega)
  have hoB : ownOff (u.tiles.get p) p (own bo) ((n - 1) * (64 * pb) + k) = some bo :=
    ownOff_own _ _ (by omega) (by omega)
  have rA := readRows_int8 { st := u, bad := false, ecc := false } hA
  have rB := readRows_int8 { st := u, bad := false, ecc := false } hB
  unfold matmulBody
  simp only [f1, f2, f3, f4, g1, g2, g3, g4, g5, g6, g7, g8, g9, g10, pair81_int8, loopAdd_plain, scaleOff_int8, h.word3, h.word4,
    h.word5, h.wordA, h.wordB, rowBytes_int8, Nat.mul_comm pa 64, Nat.mul_comm pb 64, hoA, hoB, hi2, hcyc, if_false]
  rw [if_neg]
  · simp only [rA, rB, List.map_map, Function.comp_def, aRow_int8]
    exact blockResult_done u p d 8 8 _ k b m n k _ _ _ rfl hi2
  · simpa [fmtOk_int8, fmtBlock_int8, hk', hpa', hpb', hi3, own_aligned haA, own_aligned haB, hk1, hpa, hpb, Nat.mod_one] using hk

/-- A MATMUL that issues: its block is accumulated and nothing else changes. -/
theorem Int8Matmul.completes {s : State} {p : Fin 36} (hi : IssuesNow s p 0 d) (ho : d.op = 0x10)
    (hA : ∀ i, i < m → CleanSram s p (ao + i * (64 * pa)) k) (hB : ∀ j, j < n → CleanSram s p (bo + j * (64 * pb)) k)
    (hk : init = 0 ∧ accFree (s.tiles.get p) (2 ^ b) = true ∨ init = 1 ∧ ((s.tiles.get p).acc.get b).type = .int32) :
    Completes (.matmul p) s (fun t => MatrixDone s t p d b k ∧ (t.tiles.get p).acc.get b = intBlock ((s.tiles.get p).acc.get b) init m n
      (fun i => int8ARow s p (ao + i * (64 * pa)) k) (fun j => int8ARow s p (bo + j * (64 * pb)) k)) := by
  obtain ⟨-, -, -, -, g5, g6, -⟩ := h.fields7
  have hready : matmulReady p s d = true := by
    rw [matmulReady, g5, g6]
    rcases hk with ⟨-, hf⟩ | ⟨h1, -⟩
    · rw [hf, Bool.or_true]
    · rw [h1]; rfl
  have hp := hi.popHead
  have hbody := h.body (fun i h => hp.cleanSram (hA i h)) (fun j h => hp.cleanSram (hB j h)) (fun h1 => by
    rw [hp.tile]
    exact (hk.resolve_left (by omega)).2)
  refine ⟨_, congrArg Host.Outcome.next ((issueOp_issues hi (by simp [ho]) hready).trans hbody), ?_⟩
  rw [int8ARow_congr hp.fab]
  exact matrixDone_blockDone hi ..

end

/-- What the cell of an INT8 block holds (R81, R105). -/
theorem intCell_int8 (s : State) (p : Nat) (x : Acc) (init a b k c : Nat) :
    intCell x init (int8ARow s p a k) (int8ARow s p b k) c =
      let old := if init = 1 then x.cells.get c else (0, false)
      (old.1 + BitVec.ofInt 32 ((List.range k).map (fun y => byteAt s p (a + y) * byteAt s p (b + y))).sum, old.2) := by
  rw [intCell, dotInt_int8]
  simp [int8ARow]

end Sys2Proof.Machine
end

section
/-! PROOFS. CONV_STRIPE of INT8 operands in own SRAM, without padding or halo (R81, R126–R131). -/

namespace Sys2Proof.Machine

/-! ### Nested ranges -/

section
variable {i j b : Nat} (h : j < b)
include h

theorem rowMajor_div : (i * b + j) / b = i := by
  rw [Nat.mul_comm, Nat.mul_add_div (Nat.zero_lt_of_lt h), Nat.div_eq_of_lt h, Nat.add_zero]

theorem rowMajor_lt {a : Nat} (hi : i < a) : i * b + j < a * b :=
  calc i * b + j < (i + 1) * b := by rw [Nat.succ_mul]; omega
    _ ≤ a * b := Nat.mul_le_mul_right _ hi
end

/-- The numbers below `a * b`, row by row. -/
theorem flatten_map_range {α : Type} (a b : Nat) (f : Nat → Nat → α) :
    ((List.range a).map (fun i => (List.range b).map (f i))).flatten = (List.range (a * b)).map (fun x => f (x / b) (x % b)) := by
  induction a with
  | zero => simp
  | succ a ih =>
    rw [List.range_succ, List.map_append, List.flatten_append, ih, Nat.succ_mul, List.range_add, List.map_append, List.map_map]
    congr 1
    simp only [List.map_cons, List.map_nil, List.flatten_cons, List.flatten_nil, List.append_nil]
    refine List.map_congr_left fun j hj => ?_
    have hb := List.mem_range.1 hj
    simp only [Function.comp_apply, rowMajor_div hb, Nat.mul_add_mod_of_lt hb]

/-- A sum over the numbers below `a * b`, row by row. -/
theorem sum_map_range_mul (a b : Nat) (f : Nat → Int) :
    ((List.range (a * b)).map f).sum = ((List.range a).map (fun i => ((List.range b).map (fun j => f (i * b + j))).sum)).sum := by
  have h := flatten_map_range a b (fun i j => f (i * b + j))
  have hf : (fun x => f (x / b * b + x % b)) = f := by
    funext x
    rw [Nat.mul_comm, Nat.div_add_mod]
  rw [hf] at h
  rw [← h, List.sum_flatten, List.map_map]
  rfl

/-! ### The geometry -/

/-- What a CONV_STRIPE without padding or halo names: operands, input region, window, strides, dilations, output block and buffer (R126). -/
structure ConvArgs where
  ao     : Nat
  bo     : Nat
  inW    : Nat
  inRows : Nat
  pa     : Nat
  cin    : Nat
  kh     : Nat
  kw     : Nat
  sy     : Nat
  sx     : Nat
  dy     : Nat
  dx     : Nat
  oy0    : Nat
  ox0    : Nat
  orows  : Nat
  ocols  : Nat
  n      : Nat
  b      : Nat

/-- Elements of the reduction, and the pitch of B's rows. -/
def ConvArgs.k (c : ConvArgs) : Nat := c.kh * c.kw * c.cin
def ConvArgs.pb (c : ConvArgs) : Nat := roundUp c.k 64

/-- Its stripe: no padding, no halo. -/
def ConvArgs.stripe (c : ConvArgs) : Stripe :=
  { inW := c.inW, inRows := c.inRows, aPitch := 64 * c.pa, cin := c.cin, kh := c.kh, kw := c.kw, sy := c.sy, sx := c.sx, dy := c.dy, dx := c.dx,
    pt := 0, pb := 0, pl := 0, pr := 0, tlb := 0, ht := 0, trel := 0, blb := 0, hb := 0, brel := 0 }

/-- Its output pixels, by row. -/
def ConvArgs.outs (c : ConvArgs) : List (Nat × Nat) := (List.range (c.orows * c.ocols)).map (fun i => (c.oy0 + i / c.ocols, c.ox0 + i % c.ocols))

/-- The plan it comes to. -/
def ConvArgs.plan (c : ConvArgs) : ConvPlan :=
  { g := c.stripe, pr := ⟨4, true, 1⟩, fa := 8, fb := 8, a := c.ao, b := c.bo, sb := 0, bp := c.pb, k := c.k, n := c.n, outs := c.outs, fill := 0,
    fillV := rawVal 8 0, pix := c.stripe.reads false c.outs }

/-- Offset of the input pixel that tap (ky, kx) of output pixel (oy, ox) of the block reads (R128). -/
def ConvArgs.tapOff (c : ConvArgs) (oy ox ky kx : Nat) : Nat :=
  c.ao + ((c.oy0 + oy) * c.sy + ky * c.dy) * (64 * c.pa) + ((c.ox0 + ox) * c.sx + kx * c.dx) * c.cin

/-- The words and bounds of a CONV_STRIPE of INT8 operands without padding or halo (R126, R127, R130). -/
structure Int8Conv (c : ConvArgs) (d : Desc) : Prop where
  wordA : d.w 1 = own c.ao
  wordB : d.w 2 = own c.bo
  word3 : d.w 3 = 0
  word4 : d.w 4 = 8 * 2 ^ 48 + 8 * 2 ^ 32
  word5 : d.w 5 = (c.inW - 1) * 2 ^ 52 + (c.inRows - 1) * 2 ^ 40 + c.pa * 2 ^ 24 + (c.cin - 1) * 2 ^ 12 + (c.kh - 1) * 2 ^ 8 + (c.kw - 1) * 2 ^ 4
  word6 : d.w 6 = (c.sy - 1) * 2 ^ 61 + (c.sx - 1) * 2 ^ 58 + (c.dy - 1) * 2 ^ 55 + (c.dx - 1) * 2 ^ 52
  word7 : d.w 7 = c.oy0 * 2 ^ 52 + c.ox0 * 2 ^ 40 + (c.orows - 1) * 2 ^ 33 + (c.ocols - 1) * 2 ^ 26 + (c.n - 1) * 2 ^ 19 + c.b * 2 ^ 18
  inW : 0 < c.inW ∧ c.inW ≤ 4096
  inRows : 0 < c.inRows ∧ c.inRows ≤ 4096
  cin : 0 < c.cin ∧ c.cin ≤ 4096
  pa : c.pa < 2 ^ 16 ∧ c.inW * c.cin ≤ 64 * c.pa
  kh : 0 < c.kh ∧ c.kh < 16
  kw : 0 < c.kw ∧ c.kw < 16
  sy : 0 < c.sy ∧ c.sy ≤ 8
  sx : 0 < c.sx ∧ c.sx ≤ 8
  dy : 0 < c.dy ∧ c.dy ≤ 8
  dx : 0 < c.dx ∧ c.dx ≤ 8
  block : 0 < c.orows ∧ 0 < c.ocols ∧ c.orows * c.ocols ≤ 128
  n : 0 < c.n ∧ c.n ≤ 128
  b : c.b ≤ 1
  origin : c.oy0 < 4096 ∧ c.ox0 < 4096
  rows_in : (c.oy0 + c.orows - 1) * c.sy + (c.kh - 1) * c.dy < c.inRows
  cols_in : (c.ox0 + c.ocols - 1) * c.sx + (c.kw - 1) * c.dx < c.inW
  alignA : c.ao % 64 = 0
  alignB : c.bo % 64 = 0
  fitsA : c.ao + (c.inRows - 1) * (64 * c.pa) + c.inW * c.cin ≤ 2 ^ 24
  fitsB : c.bo + (c.n - 1) * c.pb + c.k ≤ 2 ^ 24

/-- Output rows, or columns, that lie inside the input along one axis (R128). -/
theorem axis_fits {o r st e len : Nat} (hr : 0 < r) (hs : 0 < st) (h : (o + r - 1) * st + e < len) :
    ((o + r : Nat) : Int) ≤ ((len : Int) - (e : Nat) - 1) / (st : Int) + 1 := by
  have hq : ((o + r : Nat) : Int) - 1 ≤ ((len : Int) - (e : Nat) - 1) / (st : Int) := by
    rw [Int.le_ediv_iff_mul_le (by omega)]
    have hc : (((o + r : Nat) : Int) - 1) * st = (((o + r - 1) * st : Nat) : Int) := by
      rw [Nat.cast_mul, Nat.cast_sub (by omega)]
      rfl
    omega
  omega

theorem mapRow_int8 (w n : Nat) : mapRow 8 w n = w * n := by
  have h : mapRow 8 w n = w * n * 1 := rfl
  rw [h, Nat.mul_one]

section
variable {c : ConvArgs} {d : Desc} (h : Int8Conv c d)
include h

theorem Int8Conv.block_le : c.orows ≤ 128 ∧ c.ocols ≤ 128 := by
  obtain ⟨hr, hc, hb⟩ := h.block
  exact ⟨(Nat.le_mul_of_pos_right _ hc).trans hb, (Nat.le_mul_of_pos_left _ hr).trans hb⟩

theorem Int8Conv.stripeOf : Machine.stripeOf (d.w 5) (d.w 6) = c.stripe := by
  obtain ⟨-, -, -, -, h5, h6, -, hinW, hinRows, hcin, ⟨hpa, -⟩, hkh, hkw, hsy, hsx, hdy, hdx, -⟩ := h
  simp only [Machine.stripeOf, ConvArgs.stripe, Stripe.mk.injEq, field, h5, h6]
  omega

theorem Int8Conv.fields4 : field (d.w 4) 63 48 = 8 ∧ field (d.w 4) 47 32 = 8 ∧ field (d.w 4) 15 14 = 0 ∧ field (d.w 4) 13 0 = 0 ∧
    field (d.w 4) 31 24 = 0 ∧ field (d.w 4) 31 16 = 0 := by
  rw [h.word4]
  decide

theorem Int8Conv.fields56 : field (d.w 5) 3 0 = 0 ∧ field (d.w 6) 7 5 = 0 ∧ bit (d.w 6) 0 = false ∧ bit (d.w 6) 1 = false ∧ bit (d.w 6) 2 = false := by
  simp only [field, bit, h.word5, h.word6, beq_eq_false_iff_ne]
  omega

theorem Int8Conv.fields7 : field (d.w 7) 63 52 = c.oy0 ∧ field (d.w 7) 51 40 = c.ox0 ∧ field (d.w 7) 39 33 + 1 = c.orows ∧
    field (d.w 7) 32 26 + 1 = c.ocols ∧ field (d.w 7) 25 19 + 1 = c.n ∧ field (d.w 7) 18 18 = c.b ∧ field (d.w 7) 17 16 = 0 ∧
    field (d.w 7) 15 0 = 0 := by
  obtain ⟨hr, hc⟩ := h.block_le
  obtain ⟨hr0, hc0, -⟩ := h.block
  have hn := h.n
  have hb := h.b
  have ho := h.origin
  simp only [field, h.word7]
  omega

/-- The output block lies in the output and every row in its pitch (R130). -/
theorem Int8Conv.stripeBad (t : Tile) : Machine.stripeBad t c.stripe 8 c.oy0 c.orows c.ox0 c.ocols = false := by
  obtain ⟨hr, hc, -⟩ := h.block
  have hH : ((c.oy0 + c.orows : Nat) : Int) ≤ c.stripe.outH := by
    simpa [Stripe.outH, Stripe.rows, ConvArgs.stripe, Nat.mul_comm] using axis_fits hr h.sy.1 h.rows_in
  have hW : ((c.ox0 + c.ocols : Nat) : Int) ≤ c.stripe.outW := by
    simpa [Stripe.outW, ConvArgs.stripe, Nat.mul_comm] using axis_fits hc h.sx.1 h.cols_in
  have hkh : c.kh ≠ 16 := h.kh.2.ne
  have hkw : c.kw ≠ 16 := h.kw.2.ne
  have hrow : mapRow 8 c.stripe.inW c.stripe.cin ≤ c.stripe.aPitch := by
    rw [mapRow_int8]
    exact h.pa.2
  have hhalo : ∀ r, haloBad t 0 0 0 r = false := fun _ => rfl
  have h1 : 1 ≤ c.stripe.outH := by omega
  have h2 : 1 ≤ c.stripe.outW := by omega
  simp only [Machine.stripeBad, Bool.or_eq_false_iff, decide_eq_false_iff_not, beq_eq_false_iff_ne, Int.not_lt, Nat.not_lt]
  exact ⟨⟨⟨⟨⟨⟨⟨⟨⟨⟨⟨⟨hkh, hkw⟩, Nat.zero_le _⟩, Nat.zero_le _⟩, Nat.zero_le _⟩, Nat.zero_le _⟩, h1⟩, h2⟩, hH⟩, hW⟩, hrow⟩, hhalo _⟩, hhalo _⟩

/-- Nothing of it is illegal: it has its plan, whatever the tile holds (R127, R130). -/
theorem Int8Conv.convPlan (t : Tile) (p : Nat) : Machine.convPlan t p d = some c.plan := by
  obtain ⟨f1, f2, f3, f4, f5, f6⟩ := h.fields4
  obtain ⟨g1, g2, g3, g4, g5⟩ := h.fields56
  obtain ⟨e1, e2, e3, e4, e5, e6, e7, e8⟩ := h.fields7
  obtain ⟨-, -, hb⟩ := h.block
  have hfmt : convFormat 8 = true := rfl
  have hpb : roundUp c.k 64 = c.pb := rfl
  have hk : c.stripe.kh * c.stripe.kw * c.stripe.cin = c.k := rfl
  have hkpos : 0 < c.k := Nat.mul_pos (Nat.mul_pos h.kh.1 h.kw.1) h.cin.1
  have hrow : 0 < c.inW * c.cin := Nat.mul_pos h.inW.1 h.cin.1
  have hoA : ownOff t p (own c.ao) ((c.stripe.inRows - 1) * c.stripe.aPitch + mapRow 8 c.stripe.inW c.stripe.cin) = some c.ao := by
    have hf := h.fitsA
    rw [mapRow_int8]
    exact ownOff_own _ _ (by rw [← Nat.add_assoc]; exact hf) (by omega)
  have hoB : ownOff t p (own c.bo) ((c.n - 1) * c.pb + c.k) = some c.bo := by
    have hf := h.fitsB
    exact ownOff_own _ _ (by omega) (by omega)
  unfold Machine.convPlan
  simp only [h.stripeOf, f1, f2, f3, f4, f5, f6, g1, g2, g3, g4, g5, e1, e2, e3, e4, e5, e6, e7, e8, pair81_int8, loopAdd_plain,
    scaleOff_int8, h.word3, h.wordA, h.wordB, rowBytes_int8, hpb, hk, hoA, hoB, Bool.false_eq_true, if_false, Nat.add_zero]
  rw [if_neg]
  · rfl
  · simp [fmtOk_int8, fmtBlock_int8, hfmt, own_aligned h.alignA, own_aligned h.alignB, hb, h.stripeBad, Nat.mod_one]

theorem Int8Conv.convReady {s : State} {p : Nat} (hf : accFree (s.tiles.get p) (2 ^ c.b) = true) : Machine.convReady p s d = true := by
  obtain ⟨-, -, -, -, -, e6, e7, -⟩ := h.fields7
  rw [Machine.convReady, h.convPlan, e6, e7, hf]
  rfl
end

/-! ### Operands -/

section
variable {c : ConvArgs}

theorem ConvArgs.length_outs (c : ConvArgs) : c.outs.length = c.orows * c.ocols := by simp [ConvArgs.outs]

/-- A pixel read lies in the input region. -/
theorem ConvArgs.pixel_in {oy ox : Nat} {t q : Nat × Nat} (h : c.stripe.pixel false oy ox t = some q) : q.1 < c.inRows ∧ q.2 < c.inW := by
  simp only [Stripe.pixel, Stripe.rows, ConvArgs.stripe, Bool.false_eq_true, if_false] at h
  split at h
  · cases h
    dsimp only
    omega
  · cases h

/-- The pixels of the plan are those of the region that a tap of an output pixel reads. -/
theorem ConvArgs.mem_pix {q : Nat × Nat} : q ∈ c.plan.pix ↔ ∃ o ∈ c.outs, ∃ t ∈ c.stripe.taps, c.stripe.pixel false o.1 o.2 t = some q := by
  simp only [ConvArgs.plan, Stripe.reads, List.mem_eraseDups, List.mem_flatten, List.mem_map, exists_exists_and_eq_and, List.mem_filterMap]

/-- Offset of a pixel of the region. -/
def ConvArgs.pixOff (c : ConvArgs) (q : Nat × Nat) : Nat := c.ao + q.1 * (64 * c.pa) + q.2 * c.cin

theorem ConvArgs.rowOff (t : Tile) {y : Nat} (hy : y < c.inRows) : c.stripe.rowOff t c.ao y = c.ao + y * (64 * c.pa) := by
  simp [Stripe.rowOff, ConvArgs.stripe, hy]

/-- INT8 pixels read clean. -/
theorem readPixels_int8 (u : Unit') {p n : Nat} {off : Nat → Nat → Nat} {at_ : Nat × Nat → Nat} {pix : List (Nat × Nat)}
    (ho : ∀ q ∈ pix, off q.1 q.2 = at_ q) (h : ∀ q ∈ pix, CleanSram u.st p (at_ q) n) :
    readPixels u p 8 n off pix = (u, pix.map (fun q => (q, (int8Row u.st p (at_ q) n).map some))) := by
  have hstep := foldl_gathers (u := u) (fun q => (q, (int8Row u.st p (at_ q) n).map some)) pix
    (step := fun a q =>
      let x := readOwn a.1 p (off q.1 q.2) (mapRow 8 1 n)
      let vs := rowVals 8 x.2.1 x.2.2 n
      ({ x.1 with bad := x.1.bad || vs.any (·.isNone) }, (q, vs) :: a.2))
    (fun q hq acc => by
      dsimp only
      rw [mapRow_int8, Nat.one_mul, ho q hq, readOwn_clean u (h q hq)]
      dsimp only
      rw [rowVals_int8, any_isNone_map_some]
      simp) []
  rw [readPixels, hstep]
  simp

/-- A pixel's channels are found by its position. -/
theorem pixelOf_map (f : Nat × Nat → List (Option Val)) {pix : List (Nat × Nat)} {q : Nat × Nat} (h : q ∈ pix) :
    pixelOf (pix.map (fun q => (q, f q))) q = f q := by
  induction pix with
  | nil => cases h
  | cons a r ih =>
    by_cases ha : a = q
    · subst ha
      simp [pixelOf]
    · have hr := ih ((List.mem_cons.1 h).resolve_left (Ne.symm ha))
      rw [pixelOf] at hr ⊢
      rw [List.map_cons, List.find?_cons_of_neg (by simpa using ha)]
      exact hr

theorem ConvArgs.taps_eq (c : ConvArgs) : c.stripe.taps = (List.range (c.kh * c.kw)).map (fun x => (x / c.kw, x % c.kw)) :=
  flatten_map_range c.kh c.kw (fun y x => (y, x))

/-- Output pixel (oy, ox) of the block as a row of A: the channels of its taps in order (R129). -/
def ConvArgs.tapRow (c : ConvArgs) (s : State) (p oy ox : Nat) : ARow :=
  { vals := (List.range c.k).map (fun x => Val.ofInt (byteAt s p (c.tapOff oy ox (x / c.cin / c.kw) (x / c.cin % c.kw) + x % c.cin)))
    scales := [], bad := false }

theorem ConvArgs.tapRow_congr {s u : State} (h : u.fab = s.fab) : c.tapRow u = c.tapRow s := by
  funext p oy ox
  simp only [ConvArgs.tapRow, byteAt, h]

/-- The integer products of an output pixel: over its taps, then their channels (R128, R129). -/
theorem ConvArgs.dotInt_tapRow (c : ConvArgs) (s : State) (p oy ox bo : Nat) :
    dotInt (c.tapRow s p oy ox) (int8ARow s p bo c.k) = ((List.range c.kh).map (fun ky => ((List.range c.kw).map (fun kx =>
      ((List.range c.cin).map (fun ch => byteAt s p (c.tapOff oy ox ky kx + ch) * byteAt s p (bo + (ky * c.kw + kx) * c.cin + ch))).sum)).sum)).sum := by
  have hdot := dotInt_ofInt (fun x => byteAt s p (c.tapOff oy ox (x / c.cin / c.kw) (x / c.cin % c.kw) + x % c.cin)) (fun x => byteAt s p (bo + x)) c.k
    [] [] false false
  refine hdot.trans ?_
  rw [ConvArgs.k, sum_map_range_mul (c.kh * c.kw) c.cin, sum_map_range_mul c.kh c.kw]
  refine congrArg List.sum (List.map_congr_left fun ky _ => congrArg List.sum (List.map_congr_left fun kx hx => congrArg List.sum
    (List.map_congr_left fun ch hch => ?_)))
  have hx := List.mem_range.1 hx
  have hch := List.mem_range.1 hch
  rw [rowMajor_div hch, Nat.mul_add_mod_of_lt hch, rowMajor_div hx, Nat.mul_add_mod_of_lt hx, Nat.add_assoc bo]

/-- A tap inside the region reads its pixel (R128). -/
theorem ConvArgs.pixel_of_lt {oy ox ky kx y x : Nat} (hy : oy * c.sy + ky * c.dy = y) (hx : ox * c.sx + kx * c.dx = x) (hy' : y < c.inRows)
    (hx' : x < c.inW) : c.stripe.pixel false oy ox (ky, kx) = some (y, x) := by
  simp only [Stripe.pixel, Stripe.rows, ConvArgs.stripe, hy, hx]
  rw [if_pos (by omega)]
  simp

/-- The pixels of the plan read clean where every row of the region is. -/
theorem ConvArgs.readPixels {u : State} {p : Nat} (hA : ∀ y, y < c.inRows → CleanSram u p (c.ao + y * (64 * c.pa)) (c.inW * c.cin)) :
    Machine.readPixels { st := u, bad := false, ecc := false } p 8 c.cin
      (fun y x => c.stripe.rowOff (u.tiles.get p) c.ao y + x * mapRow 8 1 c.cin) c.plan.pix =
    ({ st := u, bad := false, ecc := false }, c.plan.pix.map (fun q => (q, (int8Row u p (c.pixOff q) c.cin).map some))) := by
  have hin : ∀ q ∈ c.plan.pix, q.1 < c.inRows ∧ q.2 < c.inW := by
    intro q hq
    obtain ⟨_, -, _, -, hp⟩ := ConvArgs.mem_pix.1 hq
    exact ConvArgs.pixel_in hp
  refine readPixels_int8 (at_ := c.pixOff) _ (fun q hq => ?_) (fun q hq => ?_)
  · rw [ConvArgs.rowOff _ (hin q hq).1, mapRow_int8, Nat.one_mul, ConvArgs.pixOff]
  · obtain ⟨hy, hx⟩ := hin q hq
    have hw : (q.2 + 1) * c.cin ≤ c.inW * c.cin := Nat.mul_le_mul_right _ hx
    rw [Nat.succ_mul] at hw
    exact (hA q.1 hy).within (by simp only [ConvArgs.pixOff]; omega) (by simp only [ConvArgs.pixOff]; omega)
end

section
variable {c : ConvArgs} {d : Desc} (h : Int8Conv c d)
include h

/-- A tap of an output pixel of the block reads inside the region. -/
theorem Int8Conv.pixel_tap {oy ox ky kx : Nat} (hoy : oy < c.orows) (hox : ox < c.ocols) (hky : ky < c.kh) (hkx : kx < c.kw) :
    c.stripe.pixel false (c.oy0 + oy) (c.ox0 + ox) (ky, kx) = some ((c.oy0 + oy) * c.sy + ky * c.dy, (c.ox0 + ox) * c.sx + kx * c.dx) :=
  ConvArgs.pixel_of_lt rfl rfl
    ((Nat.add_le_add (Nat.mul_le_mul_right _ (by omega)) (Nat.mul_le_mul_right _ (by omega))).trans_lt h.rows_in)
    ((Nat.add_le_add (Nat.mul_le_mul_right _ (by omega)) (Nat.mul_le_mul_right _ (by omega))).trans_lt h.cols_in)

/-- The row of A that an output pixel makes of the pixels read. -/
theorem Int8Conv.convRow (s : State) (p : Nat) {oy ox : Nat} (hoy : oy < c.orows) (hox : ox < c.ocols) :
    Machine.convRow c.plan (c.plan.pix.map (fun q => (q, (int8Row s p (c.pixOff q) c.cin).map some))) (c.oy0 + oy, c.ox0 + ox) = c.tapRow s p oy ox := by
  have hout : (c.oy0 + oy, c.ox0 + ox) ∈ c.outs :=
    List.mem_map.2 ⟨oy * c.ocols + ox, List.mem_range.2 (rowMajor_lt hox hoy), by rw [rowMajor_div hox, Nat.mul_add_mod_of_lt hox]⟩
  have hflat := flatten_map_range (c.kh * c.kw) c.cin (fun x ch => some (Val.ofInt (byteAt s p (c.tapOff oy ox (x / c.kw) (x % c.kw) + ch))))
  unfold Machine.convRow
  change aRow ((c.stripe.taps.map _).flatten, []) 0 = _
  rw [c.taps_eq, List.map_map, List.map_congr_left (g := fun x => (List.range c.cin).map
    (fun ch => some (Val.ofInt (byteAt s p (c.tapOff oy ox (x / c.kw) (x % c.kw) + ch)))))]
  · rw [hflat, ConvArgs.tapRow, ← aRow_clean _ 0, List.map_map]
    rfl
  · intro x hx
    have hp := h.pixel_tap hoy hox (Nat.div_lt_of_lt_mul (by rw [Nat.mul_comm]; exact List.mem_range.1 hx)) (Nat.mod_lt x h.kw.1)
    have hmem := ConvArgs.mem_pix.2 ⟨_, hout, (x / c.kw, x % c.kw), by rw [c.taps_eq]; exact List.mem_map.2 ⟨x, hx, rfl⟩, hp⟩
    have hpix : c.plan.g.pixel (c.plan.fill == 2) (c.oy0 + oy) (c.ox0 + ox) (x / c.kw, x % c.kw) = _ := hp
    rw [Function.comp_apply, hpix]
    dsimp only
    rw [pixelOf_map _ hmem, int8Row, List.map_map]
    rfl

/-- The rows of A of the whole block. -/
theorem Int8Conv.rowsA (s : State) (p : Nat) :
    c.outs.map (Machine.convRow c.plan (c.plan.pix.map (fun q => (q, (int8Row s p (c.pixOff q) c.cin).map some)))) =
      (List.range (c.orows * c.ocols)).map (fun i => c.tapRow s p (i / c.ocols) (i % c.ocols)) := by
  obtain ⟨-, hc, -⟩ := h.block
  rw [ConvArgs.outs, List.map_map]
  refine List.map_congr_left fun i hi => ?_
  exact h.convRow s p (Nat.div_lt_of_lt_mul (by rw [Nat.mul_comm]; exact List.mem_range.1 hi)) (Nat.mod_lt i hc)

/-- Its products are accumulated (R126–R131). -/
theorem Int8Conv.body {u : State} {p : Nat} (hA : ∀ y, y < c.inRows → CleanSram u p (c.ao + y * (64 * c.pa)) (c.inW * c.cin))
    (hB : ∀ j, j < c.n → CleanSram u p (c.bo + j * c.pb) c.k) :
    convBody u p d = u.modTile p (blockDone d c.b (convCycles c.plan) 0 (c.orows * c.ocols) c.n
      (fun i => c.tapRow u p (i / c.ocols) (i % c.ocols)) (fun j => int8ARow u p (c.bo + j * c.pb) c.k)) := by
  obtain ⟨-, -, -, -, -, e6, e7, -⟩ := h.fields7
  obtain ⟨p1, p2, p3, p4, p5, p6, p7, p8, p9, p10⟩ : c.plan.g = c.stripe ∧ c.plan.fa = 8 ∧ c.plan.fb = 8 ∧ c.plan.a = c.ao ∧ c.plan.b = c.bo ∧
      c.plan.bp = c.pb ∧ c.plan.sb = 0 ∧ c.plan.n = c.n ∧ c.plan.k = c.k ∧ c.plan.outs = c.outs := ⟨rfl, rfl, rfl, rfl, rfl, rfl, rfl, rfl, rfl, rfl⟩
  have hcin : c.stripe.cin = c.cin := rfl
  have rB := readRows_int8 { st := u, bad := false, ecc := false } hB
  unfold convBody
  simp only [h.convPlan, p1, p2, p3, p4, p5, p6, p7, p8, p9, p10, hcin, e6, e7, ConvArgs.readPixels hA, rB, h.rowsA, c.length_outs, List.map_map,
    Function.comp_def, aRow_int8]
  exact blockResult_done u p d 8 8 1 c.k c.b _ c.n _ _ _ [] rfl (by decide)

/-- A CONV_STRIPE that issues: its block is accumulated and nothing else changes. -/
theorem Int8Conv.completes {s : State} {p : Fin 36} (hi : IssuesNow s p 0 d) (ho : d.op = 0x11)
    (hA : ∀ y, y < c.inRows → CleanSram s p (c.ao + y * (64 * c.pa)) (c.inW * c.cin)) (hB : ∀ j, j < c.n → CleanSram s p (c.bo + j * c.pb) c.k)
    (hf : accFree (s.tiles.get p) (2 ^ c.b) = true) :
    Completes (.convStripe p) s (fun t => MatrixDone s t p d c.b (convCycles c.plan) ∧ (t.tiles.get p).acc.get c.b =
      intBlock ((s.tiles.get p).acc.get c.b) 0 (c.orows * c.ocols) c.n (fun i => c.tapRow s p (i / c.ocols) (i % c.ocols))
        (fun j => int8ARow s p (c.bo + j * c.pb) c.k)) := by
  have hp := hi.popHead
  have hbody := h.body (fun y hy => hp.cleanSram (hA y hy)) (fun j hj => hp.cleanSram (hB j hj))
  refine ⟨_, congrArg Host.Outcome.next ((issueOp_issues hi (by simp [ho]) (h.convReady hf)).trans hbody), ?_⟩
  rw [ConvArgs.tapRow_congr hp.fab, int8ARow_congr hp.fab]
  exact matrixDone_blockDone hi ..
end

/-- Settles O34: the steps of a matrix descriptor keep the frame one by one; an INT8 one reads its rows clean and comes to one block of integer
products. -/
theorem matrixUnitAccumulatesIntegerProducts : Obligations.MatrixUnitAccumulatesIntegerProducts := by
  unfold Obligations.MatrixUnitAccumulatesIntegerProducts
  intro p d s t0 hi
  refine ⟨fun ho hr hw => ⟨_, congrArg Host.Outcome.next (issueOp_issues hi (by simp [ho]) hr), hi.popHead.matrixFrame.matmulBody hw d⟩, ?_,
    fun ho hr hw => ⟨_, congrArg Host.Outcome.next (issueOp_issues hi (by simp [ho]) hr), hi.popHead.matrixFrame.convBody hw d⟩, ?_⟩
  · intro ao bo pa pb k m n init b ho hw1 hw2 hw3 hw4 hw5 hw6 hw7 aA aB k0 k1 kpa kpb pa1 pb1 m0 m1 n0 n1 fA fB hb hA hB hk
    have hm : Int8Matmul d ao bo pa pb k m n init b :=
      ⟨hw1, hw2, hw3, hw4, hw5, hw6, hw7, aA, aB, ⟨k0, k1⟩, ⟨pa1, kpa⟩, ⟨pb1, kpb⟩, ⟨m0, m1⟩, ⟨n0, n1⟩, fA, fB, by omega, hb⟩
    obtain ⟨t, ht, hd, hacc⟩ := hm.completes hi ho hA hB hk
    refine ⟨t, ht, hd, by rw [hacc]; rfl, fun i j hi hj => ?_, fun i j hj h => ?_⟩
    · rw [hacc, intBlock_get n1 hi hj, intCell_int8]
    · rw [hacc, intBlock_get_other n1 hj h]
  · intro ao bo inW inRows pa cin kh kw sy sx dy dx oy0 ox0 orows ocols n b ho hw1 hw2 hw3 hw4 hw5 hw6 hw7 w0 w1 r0 r1 i0 i1 pa1 ipa kh0 kh1 kw0 kw1
      sy0 sy1 sx0 sx1 dy0 dy1 dx0 dx1 or0 oc0 o1 n0 n1 hb hoy hox hrow hcol k pb aA aB fA fB hA hB hf
    have hc : Int8Conv ⟨ao, bo, inW, inRows, pa, cin, kh, kw, sy, sx, dy, dx, oy0, ox0, orows, ocols, n, b⟩ d :=
      ⟨hw1, hw2, hw3, hw4, hw5, hw6, hw7, ⟨w0, w1⟩, ⟨r0, r1⟩, ⟨i0, i1⟩, ⟨pa1, ipa⟩, ⟨kh0, kh1⟩, ⟨kw0, kw1⟩, ⟨sy0, sy1⟩, ⟨sx0, sx1⟩, ⟨dy0, dy1⟩,
        ⟨dx0, dx1⟩, ⟨or0, oc0, o1⟩, ⟨n0, n1⟩, hb, ⟨hoy, hox⟩, hrow, hcol, aA, aB, fA, fB⟩
    obtain ⟨t, ht, hd, hacc⟩ := hc.completes hi ho hA hB hf
    refine ⟨t, ht, ⟨_, hd⟩, fun oy ox j hoy hox hj => ?_⟩
    rw [hacc, intBlock_get n1 (rowMajor_lt hox hoy) hj, rowMajor_div hox, Nat.mul_add_mod_of_lt hox, intCell_zero, ConvArgs.dotInt_tapRow]
    rfl

end Sys2Proof.Machine
end

section
/-! PROOFS. A vector descriptor beside an SFU counter that does not fit its 64 bits (R41, R147). -/

namespace Sys2Proof.Machine

/-- An ARGMAX_C of stream 1 over one pixel of one FP32 channel at offset 0, its index stored at offset 64. -/
def argmaxOne : Desc := { addr := 0, words := [0x124, 0x4000000000000000, 0x4000000000000040, 0, 1, 0x1000100000000, 0, 0] }

/-- A launch whose stream 1 has a descriptor at its head. -/
def runningVector (d : Desc) : Running :=
  { runningHead d with streams := (Tab.const idleStream).set 1 { idleStream with valid := true, pre := [d] } }

/-- Tile 0 runs `argmaxOne` while its count of SFU cycles stands at 2⁶⁴, one more than the counter can hold. -/
def sfuOver : State := State.reset.modTile 0 (fun t => { t with run := some (runningVector argmaxOne), busySfu := 2 ^ 64 })

theorem sfuOver_issues : IssuesNow sfuOver 0 1 argmaxOne :=
  ⟨rfl, rfl, rfl, rfl, rfl, rfl, .inl rfl⟩

theorem sfuOver_clean : CleanSram sfuOver 0 0 4 := ⟨by decide, by decide⟩

/-- ARGMAX_C uses no SFU: the count is left as it is. -/
theorem sfuOver_busySfu :
    ((issueOp sfuOver 0 1 (· == 0x24) anyTime (fun s d => argmaxBody s 0 d)).tiles.get 0).busySfu = 2 ^ 64 := by decide

/-- Refutes O36: the frame takes the count of SFU cycles modulo 2⁶⁴, ARGMAX_C leaves it alone, and the statement admits a state
that holds 2⁶⁴ there. No command makes such a state: wherever the model sets the count it is 0 or taken modulo 2⁶⁴. -/
theorem not_imageOperatorsOnVectorUnit : ¬ Obligations.ImageOperatorsOnVectorUnit := by
  unfold Obligations.ImageOperatorsOnVectorUnit
  intro h
  obtain ⟨-, hargmax, -⟩ := h 0 argmaxOne 0 64 sfuOver sfuOver_issues (by decide)
  obtain ⟨t, ht, cycles, best, ⟨-, -, -, hstep, -⟩, -⟩ := hargmax 1 1 0 (by decide) (by decide) (by decide) (by decide) (by decide) (by decide)
    (by decide) (by decide) (by decide) (by decide) (by decide) (by decide) (by decide) (by decide) sfuOver_clean
  obtain rfl : t = issueOp sfuOver 0 1 (· == 0x24) anyTime (fun s d => argmaxBody s 0 d) := (Host.Outcome.next.inj ht).symm
  have hzero : (2 ^ 64 : Nat) = (2 ^ 64 + 0) % 2 ^ 64 := sfuOver_busySfu.symm.trans (congrArg Tile.busySfu hstep)
  exact absurd hzero (by decide)

end Sys2Proof.Machine
end

section
/-! PROOFS. LB_CONFIG: line buffers and export entries set up and given up, rows released (R132–R136). -/

namespace Sys2Proof.Machine

/-! ### Fields -/

section
variable {d : Desc} {addr lb exp shape rel cred ctr : Bool}

/-- Halo, kept rows and pitch are in range where the operation uses them (R134). -/
theorem lbShape_of_fields (h : lbFieldsBad d addr lb exp true rel cred ctr = false) :
    (1 ≤ lbHalo d ∧ lbHalo d ≤ 16) ∧ (2 ≤ lbSkew d ∧ lbSkew d ≤ 16) ∧ 1 ≤ lbPitch d := by
  simp only [lbFieldsBad, Bool.or_eq_false_iff, if_true, Bool.not_eq_false', decide_eq_true_eq] at h
  omega

/-- The row count is in range where the operation uses it (R134). -/
theorem lbRel_of_fields (h : lbFieldsBad d addr lb exp shape true cred ctr = false) : 1 ≤ lbRel d ∧ lbRel d ≤ 16 := by
  simp only [lbFieldsBad, Bool.or_eq_false_iff, if_true, Bool.not_eq_false', decide_eq_true_eq] at h
  omega

/-- A ring holds bytes. -/
theorem lbRing_pos (h : lbFieldsBad d addr lb exp true rel cred ctr = false) : 0 < lbRing d := by
  obtain ⟨⟨hh, -⟩, -, hp⟩ := lbShape_of_fields h
  exact Nat.mul_pos (by omega) (by omega)

/-- LB_CONFIG itself releases no rows at completion (R136). -/
theorem releasesOf_lbConfig (ho : d.op = 0x40) : releasesOf d = [] := by
  simp [releasesOf, ho, field]
end

/-! ### Issue and completion -/

section
variable {s u : State} {p st : Nat} {d : Desc} {T : Tile} {m : Nat → Nat} {x : StreamSt}

/-- An LB_CONFIG of op `k` that may issue runs its body. -/
theorem lbIssue_issues {k : Nat} {body : State → Nat → Desc → State} (h : IssuesNow s p 3 d) (ho : d.op = 0x40) (hk : lbOp d = k) :
    lbIssue s p k body = body (popHead s p 3 d) p d :=
  issueOp_issues h (by simp [ho]) (by simp [lbIs, hk])

/-- A descriptor takes its place among those under way. -/
theorem StreamStep.holdIssue (h : StreamStep s u p st T m x) (acc : Nat) :
    StreamStep s (Machine.holdIssue u p st d none acc) p st { T with issued := T.issued ++ [workDone d st acc] } m x :=
  h.modTile fun _ _ _ => rfl

/-- An LB_CONFIG whose body is one change of the tile beside its semaphores and launch: that change is made, and it waits to complete. -/
theorem IssuesNow.configures {k : Nat} {body : State → Nat → Desc → State} {c : Instr} {g : Tile → Tile} (h : IssuesNow s p 3 d) (ho : d.op = 0x40)
    (hk : lbOp d = k) (hcmd : exec c s = .next (lbIssue s p k body))
    (hbody : body (Machine.popHead s p 3 d) p d = Machine.holdIssue ((Machine.popHead s p 3 d).modTile p g) p 3 d none 0)
    (hg : ∀ t e r, g { t with sem := e, run := r } = { g t with sem := e, run := r }) :
    Completes c s (fun t => StreamStep s t p 3 { g (s.tiles.get p) with issued := (g (s.tiles.get p)).issued ++ [workDone d 3 0] }
      (semTaken (s.tiles.get p) d) { streamOf (s.tiles.get p) 3 with pre := (streamOf (s.tiles.get p) 3).pre.drop 1 }) := by
  refine ⟨_, hcmd.trans (congrArg _ ((lbIssue_issues h ho hk).trans hbody)), ?_⟩
  exact (h.popHead.modTile hg).holdIssue 0

/-- The wait of an LB_CONFIG ends after a step of its stream: its signal slots are added (R55, R56). -/
theorem StreamStep.endWait_lbConfig (h : StreamStep s u p st T m x) {r : Running} (hr : (s.tiles.get p).run = some r) (he : r.ended = none)
    (ht : Untraced s d) (ho : d.op = 0x40) (hfit : ∀ i, m i + d.sigs.count i ≤ 255) :
    StreamStep s (Machine.endWait u p st d none) p st T (fun i => m i + d.sigs.count i) { x with waiting := none } := by
  have k := h.tileStream (fun x => { x with waiting := none })
  obtain ⟨r', hr', -, he'⟩ := k.run hr
  have hl : liveRun (Machine.tileStream u p st (fun x => { x with waiting := none })) p = true := by simp [liveRun, hr', he', he]
  have hut : Untraced (Machine.tileStream u p st (fun x => { x with waiting := none })) d := by rw [Untraced, k.host]; exact ht
  have hadds := sum_semAdds (d := d) (by omega)
  have key := completeDesc_live (x := controlIssued st d none) hl hut (releasesOf_lbConfig ho) (show d.op ≠ 1 by omega) (fun i => by
    change ((Machine.tileStream u p st _).tiles.get p).sem.get i + (((semAdds d true).filter (·.1 == i)).map (·.2)).sum ≤ 255
    rw [hadds, k.sem]; exact hfit i)
  simp only [controlIssued, hadds, k.sem] at key
  exact k.semOnly key
end

/-! ### DEFINE, EXPORT, UNDEFINE and UNEXPORT (R135) -/

/-- The line buffer that a DEFINE at offset `o` sets up. -/
def definedBuf (d : Desc) (o : Nat) : LineBuf :=
  { defined := true, base := o, h := lbHalo d, k := lbSkew d, pitch := lbPitch d * 64, y0 := lbY0 d, rc := 0, rp := 0, fill := Tab.const 0,
    cen := bit (d.w 3) 15, ltile := field (d.w 3) 12 8, self := bit (d.w 3) 5, ctr := field (d.w 3) 3 0 }

/-- The entry that an EXPORT of logical tile `l` and offset `o` arms. -/
def armedExport (d : Desc) (l o : Nat) : Export :=
  { armed := true, base := o, ltile := l, n := lbHalo d + lbSkew d, pitch := lbPitch d * 64, y0 := lbY0 d, wrow := 0, issued := 0,
    ctr := field (d.w 3) 3 0 }

section
variable {u : State} {p : Nat} {d : Desc}

theorem lbDefineBody_legal {o : Nat} (h1 : d.w 1 = own o) (ha : o % 128 = 0) (hf : o + lbRing d ≤ 2 ^ 24)
    (hb : lbFieldsBad d true true false true false true true = false) (hv : lbOverlaps (u.tiles.get p) (lbNum d) o (lbRing d) = false) :
    lbDefineBody u p d = holdIssue (u.modTile p (fun t => { t with lbs := t.lbs.set (lbNum d) (definedBuf d o) })) p 3 d none 0 := by
  have hr := lbRing_pos hb
  simp only [lbDefineBody, h1, ownOff_own (u.tiles.get p) p hf (by omega), hb, ha, hv]
  rfl

/-- A logical tile's form of a tensor address names the tile and the offset (R50). -/
theorem exportBase_logical (t : Tile) {a l o : Nat} (ha : a = 2 ^ 63 + l * 2 ^ 48 + o) (hl : l < 32) (ho : o < 2 ^ 24) :
    exportBase t a = some (l, o) := by
  have h1 : field a 63 62 = 2 := by simp only [field]; omega
  have h2 : field a 61 53 = 0 := by simp only [field]; omega
  have h3 : field a 47 24 = 0 := by simp only [field]; omega
  have h4 : field a 52 48 = l := by simp only [field]; omega
  have h5 : a % 2 ^ 24 = o := by omega
  have hb : tensorBad a = false := by simp [tensorBad, h1, h2, h3]
  simp only [exportBase, hb, h1, h4, h5]
  rfl

theorem lbExportBody_legal {l o : Nat} (h1 : d.w 1 = 2 ^ 63 + l * 2 ^ 48 + o) (hl : l < 32) (ho : o < 2 ^ 24) (hf : o + lbRing d ≤ 2 ^ 24)
    (hm : (lmapPhys ((u.tiles.get p).lmap.get l)).isSome = true) (hb : lbFieldsBad d true false true true false false true = false) :
    lbExportBody u p d = holdIssue (u.modTile p (fun t => { t with
      exports := t.exports.set (lbExp d) (armedExport d l o), ev := t.ev.set (field (d.w 3) 3 0) 0 })) p 3 d none 0 := by
  have hv : (lmapPhys ((u.tiles.get p).lmap.get l)).isNone = false := by simpa using hm
  simp only [lbExportBody, exportBase_logical _ h1 hl ho, hb, Bool.false_or, decide_eq_true_eq, Nat.not_lt.2 hf, if_false, hv, Bool.false_eq_true]
  rfl

theorem lbUndefineBody_legal (hb : lbFieldsBad d false true false false false false false = false) : lbUndefineBody u p d =
    holdIssue (u.modTile p (fun t => { t with lbs := t.lbs.modify (lbNum d) (fun x => { x with defined := false }) })) p 3 d none 0 :=
  if_neg (by simp [hb])

theorem lbUnexportBody_legal (hb : lbFieldsBad d false false true false false false false = false) : lbUnexportBody u p d =
    holdIssue (u.modTile p (fun t => { t with exports := t.exports.modify (lbExp d) (fun x => { x with armed := false }) })) p 3 d none 0 :=
  if_neg (by simp [hb])
end

/-! ### RELEASE (R135, R136) -/

/-- `n` rows of a line buffer have arrived and may be released, their credit due to the tile itself or to nobody. -/
structure Releasable (x : LineBuf) (n : Nat) : Prop where
  defined : x.defined = true
  credit  : x.cen = false ∨ x.self = true
  some    : n ≠ 0
  arrived : n ≤ x.rc - x.rp

/-- `n` rows of line buffer `b` released, the credit counted where the buffer has a target, which is the tile itself. -/
def rowsReleased (b n : Nat) (t : Tile) : Tile :=
  { t with
    lbs := t.lbs.modify b (fun y => lbAdvance (y.h + y.k) { y with rp := y.rp + n })
    ev := if (t.lbs.get b).cen then t.ev.modify ((t.lbs.get b).ctr % 16) (fun v => (v + n) % 65536) else t.ev }

section
variable {s u : State} {p b n : Nat} {d : Desc} {m : Nat → Nat} {x : StreamSt}

theorem lbRelease_own (h : Releasable ((u.tiles.get p).lbs.get b) n) : lbRelease u p b n = (u.modTile p (rowsReleased b n), none) := by
  obtain ⟨hd, hc, hn, -⟩ := h
  unfold lbRelease
  cases hcen : ((u.tiles.get p).lbs.get b).cen with
  | false => simp [hd, hn, hcen, State.modTile, Tab.modify, rowsReleased]
  | true =>
    have hself := hc.resolve_left (by simp [hcen])
    simp [hd, hn, hcen, hself, evtAdd, State.modTile, Tab.modify, rowsReleased]

/-- Too few rows have arrived: nothing happens. -/
theorem lbReleaseTry_short (h : ((u.tiles.get p).lbs.get (lbNum d)).rc - ((u.tiles.get p).lbs.get (lbNum d)).rp < lbRel d) :
    lbReleaseTry u p d = u := by
  simp [lbReleaseTry, h]

/-- The rows have arrived: they are released and the wait ends. -/
theorem lbReleaseTry_arrived (h : Releasable ((u.tiles.get p).lbs.get (lbNum d)) (lbRel d)) :
    lbReleaseTry u p d = endWait (u.modTile p (rowsReleased (lbNum d) (lbRel d))) p 3 d none := by
  simp [lbReleaseTry, h.defined, Nat.not_lt.2 h.arrived, lbRelease_own h]

/-- A step that leaves the tile's line buffers, and then the release of rows that have arrived. -/
theorem StreamStep.releasesRows (k : StreamStep s u p 3 (s.tiles.get p) m x) {r : Running} (hr : (s.tiles.get p).run = some r) (he : r.ended = none)
    (ht : Untraced s d) (ho : d.op = 0x40) (hfit : ∀ i, m i + d.sigs.count i ≤ 255)
    (h : Releasable ((s.tiles.get p).lbs.get (lbNum d)) (lbRel d)) :
    StreamStep s (lbReleaseTry u p d) p 3 (rowsReleased (lbNum d) (lbRel d) (s.tiles.get p)) (fun i => m i + d.sigs.count i)
      { x with waiting := none } := by
  have hl : (u.tiles.get p).lbs = (s.tiles.get p).lbs := by rw [k.tile]
  rw [lbReleaseTry_arrived (by rw [hl]; exact h)]
  exact (k.modTile fun _ _ _ => rfl).endWait_lbConfig hr he ht ho hfit
end

/-- Settles O37: each operation that sets up or gives up is one change of the popped tile; a release is tried in its wait, at issue and again
later. -/
theorem lineBuffersAreConfiguredAndReleased : Obligations.LineBuffersAreConfiguredAndReleased := by
  unfold Obligations.LineBuffersAreConfiguredAndReleased
  intro p d s t0 x0 b ho
  refine ⟨fun hi => ⟨?_, ?_, ?_, ?_⟩, ?_⟩
  · intro o hk h1 ha hf hb hv
    have hbody := lbDefineBody_legal (u := popHead s p 3 d) h1 ha hf hb (by rw [hi.popHead.tile]; exact hv)
    exact hi.configures ho hk rfl hbody (fun _ _ _ => rfl)
  · intro l o hk h1 hl hlt hf hm hb
    have hbody := lbExportBody_legal (u := popHead s p 3 d) h1 hl hlt hf (by rw [hi.popHead.tile]; exact hm) hb
    exact hi.configures ho hk rfl hbody (fun _ _ _ => rfl)
  · intro hk hb
    exact hi.configures ho hk rfl (lbUndefineBody_legal hb) (fun _ _ _ => rfl)
  · intro hk hb
    exact hi.configures ho hk rfl (lbUnexportBody_legal hb) (fun _ _ _ => rfl)
  · intro hk x n hb hd hc T
    obtain ⟨hn, -⟩ := lbRel_of_fields hb
    refine ⟨fun hi hfit => ?_, fun since hw hclk ht hfit => ?_⟩
    · obtain ⟨r, hr, he, hwait⟩ := hi.live
      have hstart := hi.popHead.startWait d
      have hbody : lbReleaseBody (popHead s p 3 d) p d = lbReleaseTry (startWait (popHead s p 3 d) p 3 d) p d := if_neg (by simp [hb])
      have hexec : exec (.lbConfigRelease p) s = .next (lbReleaseTry (startWait (popHead s p 3 d) p 3 d) p d) :=
        congrArg Host.Outcome.next ((lbIssue_issues hi ho hk).trans hbody)
      refine ⟨fun harr => ⟨_, hexec, ?_⟩, fun hshort => ⟨_, hexec, ?_⟩⟩
      · have hx : ({ x0 with pre := x0.pre.drop 1, waiting := none } : StreamSt) = { x0 with pre := x0.pre.drop 1 } :=
          congrArg (fun w => { x0 with pre := x0.pre.drop 1, waiting := w }) hwait.symm
        rw [← hx]
        exact hstart.releasesRows hr he hi.untraced ho hfit ⟨hd, hc, by omega, harr⟩
      · have hl : ((startWait (popHead s p 3 d) p 3 d).tiles.get p).lbs = t0.lbs := by rw [hstart.tile]
        rw [lbReleaseTry_short (by rw [hl]; exact hshort)]
        exact hstart
    · obtain ⟨r, hr, he⟩ := waitingIn_live hw
      have hexec : exec (.lbReleaseApply p) s = .next (lbReleaseTry s p d) := congrArg Host.Outcome.next (retryWait_waiting hw ho hclk)
      refine ⟨fun harr => ⟨_, hexec, ?_⟩, fun hshort => hexec.trans (congrArg _ (lbReleaseTry_short hshort))⟩
      exact (StreamStep.refl 3 hr).releasesRows hr he ht ho hfit ⟨hd, hc, by omega, harr⟩

end Sys2Proof.Machine
end

section
/-! PROOFS. Register writes of one cycle: KVT_TSEL written by one port, and by two (R178, R296, R298, R313). -/

namespace Sys2Proof.Machine

/-! ### The ports' turns in a cycle -/

/-- The turn of port `p` in a cycle of register writes (R298). -/
def portTurn (ws : List PortWrite) (s : State) (p : Nat) : State :=
  (ws.filter (fun w => w.port.val == p)).foldl (fun s w =>
    if portMeets s w && ws.any (fun x => decide (x.port.val < p) && portMeets s x &&
      decide (portAddr x < portAddr w + w.size ∧ portAddr w < portAddr x + x.size)) then arbLoss s p (portAddr w) else portWrite s w) s

theorem registerWrite_eq (s : State) (ws : List PortWrite) : registerWrite s ws = (List.range 4).foldl (portTurn ws) s := rfl

/-- A port that writes nothing has no effect. -/
theorem portTurn_idle {ws : List PortWrite} {p : Nat} (s : State) (h : ∀ w ∈ ws, w.port.val ≠ p) : portTurn ws s p = s := by
  rw [portTurn, List.filter_eq_nil_iff.mpr (by simpa using h)]
  rfl

/-- Turns that have no effect may be left out. -/
theorem foldl_filter_idle {α β : Type} {f : β → α → β} {q : α → Bool} (l : List α) (b : β) (h : ∀ c a, q a = false → f c a = c) :
    l.foldl f b = (l.filter q).foldl f b := by
  rw [List.foldl_filter]
  congr 1
  funext c a
  cases hq : q a
  · simp [h c a hq]
  · simp

/-- A cycle in which one port writes is that port's write. -/
theorem registerWrite_single (s : State) (w : PortWrite) : registerWrite s [w] = portWrite s w := by
  have hturns : ∀ p : Fin 4, (List.range 4).filter (· == p.val) = [p.val] := by decide
  rw [registerWrite_eq, foldl_filter_idle (q := (· == w.port.val)) _ _ fun u p hp => portTurn_idle u (by simp at hp ⊢; omega),
    hturns]
  simp [portTurn]

/-- Of two writes that meet one register the lower port's is made and the higher port's is lost (R298). -/
theorem registerWrite_pair {s u : State} {w z : PortWrite} (hp : w.port < z.port) (hu : portWrite s w = u) (hw : portMeets u w = true)
    (hz : portMeets u z = true) (hover : portAddr w < portAddr z + z.size ∧ portAddr z < portAddr w + w.size) :
    registerWrite s [w, z] = arbLoss u z.port (portAddr z) := by
  have hturns : ∀ p q : Fin 4, p < q → (List.range 4).filter (fun n => n == p.val || n == q.val) = [p.val, q.val] := by decide
  rw [registerWrite_eq, foldl_filter_idle (q := fun n => n == w.port.val || n == z.port.val) _ _ fun u p hp => portTurn_idle u
    (by simp at hp ⊢; omega), hturns _ _ hp]
  have hne : w.port ≠ z.port := Fin.ne_of_lt hp
  have hlow : portTurn [w, z] s w.port = u := by simp [portTurn, hu, Ne.symm hne, hp.not_gt, Fin.val_inj]
  rw [List.foldl_cons, List.foldl_cons, List.foldl_nil, hlow]
  simp [portTurn, hw, hz, hover, hne, Fin.val_inj, hp]

/-! ### A lost write -/

/-- What a write lost to a lower port leaves: the loss recorded and reported, and the message of HUB_INT_STAT bit 6 (R296, R298, R313). -/
theorem arbLoss_spec (s : State) (p addr : Nat) : let t := arbLoss s p addr
    t = { s with host := { s.host with arb := t.host.arb, ints := t.host.ints, mem := t.host.mem, poison := t.host.poison } } ∧
    t.host.arb = { s.host.arb with lost := s.host.arb.lost ||| BitVec.ofNat 4 (2 ^ p), cnt := cnt s.host.arb.cnt 1, valid := true,
                                   addr := if s.host.arb.valid then s.host.arb.addr else addr } ∧
    bit t.host.ints.stat.toNat 6 = true ∧ HostMemKept s t [6] := by
  intro t
  obtain ⟨a, ha, harb⟩ : ∃ a, t = setInt { s with host.arb := a } 6 ∧ a = { s.host.arb with
      lost := s.host.arb.lost ||| BitVec.ofNat 4 (2 ^ p), cnt := cnt s.host.arb.cnt 1, valid := true,
      addr := if s.host.arb.valid then s.host.arb.addr else addr } := by
    refine ⟨_, rfl, ?_⟩
    cases s.host.arb.valid <;> simp
  obtain ⟨hset, hstat, hmem, -⟩ := setInt_spec { s with host.arb := a } 6 (by omega)
  rw [← ha] at hset hstat hmem
  exact ⟨by rw [hset], by rw [hset, ← harb], by rw [hstat]; simp, hmem⟩

/-! ### KVT_TSEL -/

/-- A 32-bit write of KVT_TSEL by a port (R178). -/
def tselWrite (p : Fin 4) (v : Word) (src : BitVec 8) : PortWrite :=
  { port := p, bar0 := false, addr := regAddr 0 0x30 0x18, size := 4, value := v.setWidth 64, src := src }

theorem tselWrite_addr (p : Fin 4) (v : Word) (src : BitVec 8) : portAddr (tselWrite p v src) = regAddr 0 0x30 0x18 := rfl

theorem tselWrite_meets (s : State) (p : Fin 4) (v : Word) (src : BitVec 8) : portMeets s (tselWrite p v src) = true := by
  have hrange : regBase ≤ regAddr 0 0x30 0x18 ∧ regAddr 0 0x30 0x18 < regBase + 0x100000000 := by decide
  have hrefusal : regRefusal s 0 0x30 0x18 4 = none := rfl
  have hfields : (regAddr 0 0x30 0x18 - regBase) / 0x1000000 = 0 ∧ (regAddr 0 0x30 0x18 - regBase) / 0x10000 % 256 = 0x30 ∧
      (regAddr 0 0x30 0x18 - regBase) % 0x10000 = 0x18 := by decide
  obtain ⟨hunit, hpage, hoff⟩ := hfields
  simp only [portMeets, tselWrite_addr, hunit, hpage, hoff]
  simp [tselWrite, hrange, hrefusal, pageRegs, pageOfHub, pageKvt, r4, r8]

/-- The register takes the value's low 12 bits (R178). -/
theorem portWrite_tselWrite (s : State) (p : Fin 4) (v : Word) (src : BitVec 8) :
    portWrite s (tselWrite p v src) = { s with kvt.tsel := v.toNat % 4096 } := by
  have hv : (v.setWidth 64).toNat % 256 ^ 4 = v.toNat := by
    rw [BitVec.toNat_setWidth]; have := v.isLt; omega
  change (regWrite s src.toNat (regAddr 0 0x30 0x18) 4 ((v.setWidth 64).toNat % 256 ^ 4)).1 = _
  rw [hv]
  rfl

/-- Settles O10: KVT_TSEL is one register that both ports meet, so the higher port's write is the lost one. -/
theorem lowerPortWinsRegisterWrite : Obligations.LowerPortWinsRegisterWrite := by
  unfold Obligations.LowerPortWinsRegisterWrite
  intro a b v w x y s
  have hone := portWrite_tselWrite s a v x
  refine ⟨congrArg Host.Outcome.next ((registerWrite_single s (tselWrite a v x)).trans hone), fun hab => ?_⟩
  have hpair := registerWrite_pair (w := tselWrite a v x) (z := tselWrite b w y) hab hone (tselWrite_meets _ a v x) (tselWrite_meets _ b w y)
    (by simp [tselWrite, portAddr])
  obtain ⟨hframe, harb, hbit, hmem⟩ := arbLoss_spec { s with kvt.tsel := v.toNat % 4096 } b (regAddr 0 0x30 0x18)
  exact ⟨_, congrArg Host.Outcome.next hpair, hframe, harb, hbit, hmem⟩

end Sys2Proof.Machine
end

section
/-! PROOFS. Bytes as numbers, legal fields of a payload, and plain commands that are answered at once (R10, R288–R295). -/

namespace Sys2Proof.Machine

/-! ### Bytes and their number -/

/-- The bytes of the number that bytes stand for are those bytes (R10). -/
theorem leBytes_leNat (bs : List Byte) : leBytes bs.length (leNat bs) = bs := by
  induction bs with
  | nil => rfl
  | cons b r ih =>
    have hb := b.isLt
    have hdiv : (b.toNat + 256 * leNat r) / 256 = leNat r := by omega
    have hmod : BitVec.ofNat 8 (b.toNat + 256 * leNat r) = b := BitVec.eq_of_toNat_eq (by rw [BitVec.toNat_ofNat]; omega)
    rw [leNat, List.length_cons, leBytes, hdiv, hmod, ih]

/-- A field written with the value it has leaves the payload as it is. -/
theorem putBytes_fld {bs : List Byte} {off n : Nat} (h : off + n ≤ bs.length) : putBytes bs off (leBytes n (fld bs off n)) = bs := by
  have hs : slice bs off n = (bs.drop off).take n := by
    simp [slice, show min n (bs.length - off) = n by omega]
  have hn : leBytes n (fld bs off n) = (bs.drop off).take n := by
    have hb := leBytes_leNat (slice bs off n)
    rwa [length_slice, ← fld, hs] at hb
  rw [putBytes, hn, List.length_take, List.length_drop, show min n (bs.length - off) = n by omega, ← List.drop_drop, List.append_assoc,
    List.take_append_drop, List.take_append_drop, List.take_length]

/-! ### Legal fields -/

/-- The payload holds a legal value in a field (R295). -/
def FieldSpec.Legal (pay : List Byte) (f : FieldSpec) : Prop :=
  f.lo ≤ fld pay f.off f.size ∧ fld pay f.off f.size ≤ f.hi ∧ fld pay f.off f.size % f.step = 0

theorem FieldSpec.Legal.apply {pay : List Byte} {f : FieldSpec} (h : f.Legal pay) : f.apply (fld pay f.off f.size) = fld pay f.off f.size := by
  obtain ⟨hlo, hhi, hstep⟩ := h
  rw [FieldSpec.apply, clampN, Nat.min_eq_right hhi, Nat.max_eq_right hlo, Nat.div_mul_cancel (Nat.dvd_of_mod_eq_zero hstep)]

theorem fr_legal {pay : List Byte} {off size lo hi : Nat} : (fr off size lo hi).Legal pay ↔ lo ≤ fld pay off size ∧ fld pay off size ≤ hi := by
  simp [FieldSpec.Legal, fr, Nat.mod_one]

theorem fz_legal {pay : List Byte} {off size : Nat} : (fz off size).Legal pay ↔ fld pay off size = 0 := by
  simp [FieldSpec.Legal, fz, Nat.mod_one]

theorem fm_legal {pay : List Byte} {off size lo hi step : Nat} : (fm off size lo hi step).Legal pay ↔
    lo ≤ fld pay off size ∧ fld pay off size ≤ hi ∧ fld pay off size % step = 0 := Iff.rfl

/-- A payload of its layout's length with legal fields is applied as sent (R295). -/
theorem clampFields_whole {pay : List Byte} {size : Nat} {fs : List FieldSpec} (hl : pay.length = size) (h : ∀ f ∈ fs, f.Legal pay) :
    clampFields pay size fs = (pay, 0) := by
  have hs := slice_full hl
  rw [clampFields_legal (fun f hf => by rw [hs]; exact (h f hf).apply), hs]

/-! ### Commands answered at once -/

theorem plainCmd_pay_length (ch op : Nat) (r : Request) : (plainCmd ch op r).pay.length = r.length.toNat := length_slice _ _ _

section
variable {s u : State} {c : Instr} {ch op : Nat} {r : Request} {f : State → Cmd → State × Reply}
  (h : Plain s r) (hop : definedOpcodes.contains op = true) (h4 : ch < 4) (hc : exec c s = .next (runCmd s ch op r 0 f))
include h hop h4 hc

/-- A plain command that changes nothing answers only. -/
theorem Plain.answersOnly {st : Half} {clamps : Nat} {data : List Byte} (hx : f s (plainCmd ch op r) = (s, reply st clamps data)) :
    AnswersOnly c s ch op r st clamps data := by
  have hrun := runCmd_plain s ch op r f h hop
  rw [hx] at hrun
  obtain ⟨h1, h2, h3⟩ := completeCmd_answers (u := s) (c := plainCmd ch op r) (r := r) (reply st clamps data) (s.host.mbx.get ch).bufOk rfl rfl rfl rfl
    rfl h4
  rw [← hrun] at h1 h2 h3
  simp only [plainCmd, reply, Nat.zero_add] at h2
  exact ⟨_, hc, h1, h2, h3⟩

/-- A plain command whose own effect leaves the host side alone is accepted. -/
theorem Plain.accepts {clamps : Nat} {data : List Byte} {P : State → Prop} (hx : f s (plainCmd ch op r) = (u, reply stOk clamps data))
    (hu : u.host = s.host) (hP : ∀ g, P { u with host := g }) : Accepts c s ch op r clamps data P := by
  have hrun := runCmd_plain s ch op r f h hop
  rw [hx] at hrun
  obtain ⟨h1, h2, h3⟩ := completeCmd_answers (c := plainCmd ch op r) (r := r) (reply stOk clamps data) (s.host.mbx.get ch).bufOk hu rfl rfl rfl rfl h4
  rw [← hrun] at h1 h2 h3
  simp only [plainCmd, reply, Nat.zero_add] at h2
  exact ⟨_, hc, h2, h3, by rw [h1]; exact hP _⟩

/-- A plain command whose own effect changes the host side by events is accepted. -/
theorem Plain.acceptsEv {clamps : Nat} {data : List Byte} {P : State → Prop} (hx : f s (plainCmd ch op r) = (u, reply stOk clamps data))
    (hu : EventsOnly s u) (hP : ∀ g, g.evt = u.host.evt → P { u with host := g }) : AcceptsEv c s ch op r clamps data P := by
  have hrun := runCmd_plain s ch op r f h hop
  rw [hx] at hrun
  obtain ⟨k1, k2, k3, ⟨k4, k5, k6, k7, k8, k9⟩, -⟩ := completeCmd_spec u (plainCmd ch op r) (s.host.mbx.get ch).bufOk (reply stOk clamps data) rfl
    (by simp only [plainCmd]; omega)
  rw [← hrun] at k1 k2 k3 k4 k5 k6 k7 k8 k9
  simp only [plainCmd, reply, Nat.zero_add] at k2 k3 k5 k6 k9
  obtain ⟨e1, e2, e3, e4, e5⟩ := hu
  have hmbx : u.host.mbx = s.host.mbx := by rw [e1]
  refine ⟨_, hc, ⟨by rw [k2, hmbx], k3⟩, ⟨by rw [k4, e1], fun n hn => by rw [k5 n hn, hmbx], fun i hi h8 => (k6 i hi).trans (e2 i h8), k7.trans e3,
    k8.trans e4, fun a ha => ?_⟩, by rw [k1]; exact hP _ (by rw [k4])⟩
  simp only [List.mem_cons, List.not_mem_nil, or_false, forall_eq_or_imp, forall_eq] at ha
  obtain ⟨hch, hlost⟩ := ha
  rw [k9 a (by simpa only [List.mem_singleton, forall_eq, InMessage, e4] using hch), e5 a (by simpa only [List.mem_singleton, forall_eq] using hlost)]
end

end Sys2Proof.Machine
end

section
/-! PROOFS. The sequence-table unit: pins, appends, and a table whose releases are already told (R154, R165–R168, R173–R176, R178). -/

namespace Sys2Proof.Machine

/-! ### Slots -/

/-- The current slot is one of the eight (R154). -/
theorem currentSlot_lt (t : KvTable) : currentSlot t < 8 := by
  unfold currentSlot
  cases hf : (List.range 8).find? (fun i => (t.slots.get i).state == 1) with
  | none => decide
  | some k => exact List.mem_range.1 (List.mem_of_find?_eq_some hf)

/-- A slot that is not FREE holds a live commit number. -/
theorem mem_liveCommits {t : KvTable} {k : Nat} (hk : k < 8) (h : (t.slots.get k).state ≠ 0) : (t.slots.get k).commit ∈ liveCommits t :=
  List.mem_map.2 ⟨_, List.mem_filter.2 ⟨List.mem_map.2 ⟨k, List.mem_range.2 hk, rfl⟩, by simpa using h⟩, rfl⟩

theorem liveCommits_free {t : KvTable} (h : ∀ k, (t.slots.get k).state = 0) : liveCommits t = [] := by
  simp [liveCommits, Tab.list, h]

/-- The least of a list is at most each of its members. -/
theorem foldl_min_le {c x : Nat} {r : List Nat} (h : x ∈ c :: r) : r.foldl min c ≤ x := by
  have hmin : (c :: r).min? = some (r.foldl min c) := List.min?_cons'
  exact (List.min?_eq_some_iff.1 hmin).2 x h

/-! ### Releases -/

section
variable {s : State} {n : Nat} {f : KvTable → KvTable}

/-- A table changed so that its releases are told up to `c` already has none to tell (R175). -/
theorem kvReleaseTo_told {c : Nat} (h : c ≤ (f (s.kvt.tables.get n)).released) : kvReleaseTo (s.modTable n f) n c = s.modTable n f := by
  have hget : (s.modTable n f).kvt.tables.get n = f (s.kvt.tables.get n) := by rw [State.modTable_get, if_pos rfl]
  unfold kvReleaseTo
  simp only [hget, Nat.sub_eq_zero_of_le h, List.range_zero, List.foldl_nil]
  simp [State.modTable, Tab.modify, Nat.max_eq_left h]

/-- A changed table that keeps a generation in use whose commit is released already settles with nothing more (R175, R176). -/
theorem kvSettle_told {k : Nat} (hk : k < 8) (hs : ((f (s.kvt.tables.get n)).slots.get k).state ≠ 0)
    (hc : ((f (s.kvt.tables.get n)).slots.get k).commit ≤ (f (s.kvt.tables.get n)).released) :
    kvSettle (s.modTable n f) n = s.modTable n f := by
  have hget : (s.modTable n f).kvt.tables.get n = f (s.kvt.tables.get n) := by rw [State.modTable_get, if_pos rfl]
  have hmem := mem_liveCommits hk hs
  unfold kvSettle
  simp only [hget]
  split
  · next hl => simp [hl] at hmem
  · next c r hl => exact kvReleaseTo_told ((foldl_min_le (hl ▸ hmem)).trans hc)

/-- A defined table left without a generation ends, and its last commit is released (R175, R176). -/
theorem kvSettle_ends {u : State} (hd : (u.kvt.tables.get n).defined = true) (hs : ∀ k, ((u.kvt.tables.get n).slots.get k).state = 0) :
    kvSettle u n = (kvReleaseTo u n ((u.kvt.tables.get n).commit + 1)).modTable n (fun t => { t with defined := false, destroying := false }) := by
  simp [kvSettle, liveCommits_free hs, hd]

/-- One commit to release is one KV_RELEASE (R175). -/
theorem kvReleaseTo_next {u : State} {c : Nat} (h : c = (u.kvt.tables.get n).released + 1) :
    kvReleaseTo u n c = (raiseEvent u 0x0600 0 [n + c * 2 ^ 32]).modTable n (fun t => { t with released := max t.released c }) := by
  simp [kvReleaseTo, h]
end

/-! ### Pins -/

section
variable {s : State} {p n k : Nat}

theorem releasePin_unpinned (h : s.kvt.pins.get p = none) : releasePin s p = s := by
  rw [releasePin, h]

/-- Only a tile has a pin to change: a write of HUB_KVT_PIN by another source is refused and counted (R178). -/
theorem kvtPin_other (v : Nat) (hp : 36 ≤ p) : kvtPin s p v = kvtRefuse s := if_pos hp

theorem kvtUnpin_other (hp : 36 ≤ p) : kvtUnpin s p = kvtRefuse s := if_pos hp

theorem kvtUnpin_tile (hp : p < 36) : kvtUnpin s p = (releasePin s p, stOk) := if_neg (by omega)

/-- A table with one reference less of slot `k`. -/
def unreferenced (k : Nat) (t : KvTable) : KvTable := { t with slots := t.slots.modify k (fun x => { x with refs := x.refs - 1 }) }

/-- The pin of a current generation whose commit is released already gives its reference back, and nothing more (R173). -/
theorem releasePin_current (h : s.kvt.pins.get p = some (n, k)) (hk : k < 8) (hs : ((s.kvt.tables.get n).slots.get k).state = 1)
    (hc : ((s.kvt.tables.get n).slots.get k).commit ≤ (s.kvt.tables.get n).released) :
    releasePin s p = State.modTable { s with kvt.pins := s.kvt.pins.set p none } n (unreferenced k) := by
  have hslot : (fun t : KvTable => { t with
      slots := t.slots.modify k (fun x => { x with refs := x.refs - 1, state := if x.state = 2 ∧ x.refs ≤ 1 then 0 else x.state }) })
      (s.kvt.tables.get n) = unreferenced k (s.kvt.tables.get n) := by
    simp [unreferenced, Tab.modify, hs]
  have hfree : State.modTable { s with kvt.pins := s.kvt.pins.set p none } n (fun t => { t with
      slots := t.slots.modify k (fun x => { x with refs := x.refs - 1, state := if x.state = 2 ∧ x.refs ≤ 1 then 0 else x.state }) }) =
      State.modTable { s with kvt.pins := s.kvt.pins.set p none } n (unreferenced k) := by
    simp only [State.modTable, Tab.modify] at hslot ⊢
    rw [hslot]
  simp only [releasePin, h, hfree]
  exact kvSettle_told hk (by simp [unreferenced, hs]) (by simpa [unreferenced] using hc)

/-- A table with one reference more of slot `k`. -/
def referenced (k : Nat) (t : KvTable) : KvTable := { t with slots := t.slots.modify k (fun x => { x with refs := x.refs + 1 }) }

/-- A tile without a pin that pins a table counts a reference on the current generation (R165, R166). -/
theorem kvtPin_defined {v : Nat} (hp : p < 36) (h : s.kvt.pins.get p = none) (hn : v % 4096 = n) (hd : (s.kvt.tables.get n).defined = true)
    (hy : (s.kvt.tables.get n).destroying = false) : (kvtPin s p v).1 =
      { s with kvt := { s.kvt with tables := s.kvt.tables.modify n (referenced (currentSlot (s.kvt.tables.get n)))
                                   pins := s.kvt.pins.set p (some (n, currentSlot (s.kvt.tables.get n))) } } := by
  unfold kvtPin
  rw [if_neg (by omega), releasePin_unpinned h]
  simp only [hn, hd, hy, Bool.not_true, Bool.or_self, Bool.false_eq_true, if_false]
  rfl

/-- A table that is absent or being destroyed is not pinned: the write is refused and counted (R176, R178). -/
theorem kvtPin_refused {v : Nat} (hp : p < 36) (h : s.kvt.pins.get p = none)
    (hd : ¬ ((s.kvt.tables.get (v % 4096)).defined = true ∧ (s.kvt.tables.get (v % 4096)).destroying = false)) :
    kvtPin s p v = kvtRefuse s := by
  have hbad : (!(s.kvt.tables.get (v % 4096)).defined || (s.kvt.tables.get (v % 4096)).destroying) = true := by
    simpa [or_iff_not_imp_left] using hd
  unfold kvtPin
  rw [if_neg (by omega), releasePin_unpinned h]
  exact if_pos hbad
end

/-! ### Appends -/

/-- A range of memory stores the bytes it holds. -/
theorem storesAt_readN (s : State) (a n : Nat) : StoresAt s s a (leBytes n (leNat (s.fab.mem.readN a n))) := by
  have hlen : (s.fab.mem.readN a n).length = n := by simp [Memory.readN_eq]
  have hb := leBytes_leNat (s.fab.mem.readN a n)
  rw [hlen] at hb
  exact ⟨by rw [hb, hlen], fun _ _ => rfl⟩

/-- An entry with a token count where that is more than it has (R168). -/
def pteRaised (e c : Nat) : Nat := if field e 54 48 < c then e - field e 54 48 * 2 ^ 48 + c * 2 ^ 48 else e

/-- The entry at `a` raised to a token count, and written only where that changes it (R168). -/
def pteRaise (s : State) (src a c : Nat) : State :=
  if c ≤ field (leNat (s.fab.mem.readN a 8)) 54 48 then s
  else (dramWrite s src a (leBytes 8 (pteRaised (leNat (s.fab.mem.readN a 8)) c)) false).1

/-- Raising an entry in clean DRAM stores the raised entry; beside memory only poison, symbol errors and undefined ranges change. -/
theorem pteRaise_stores {s : State} {a : Nat} (src c : Nat) (h : CleanDram s a 8) : let u := pteRaise s src a c
    u = { s with fab := { s.fab with mem := u.fab.mem, poison := u.fab.poison, symErr := u.fab.symErr, lost := u.fab.lost } } ∧
    StoresAt s u a (leBytes 8 (pteRaised (leNat (s.fab.mem.readN a 8)) c)) := by
  intro u
  obtain ⟨hclean, -⟩ := h
  by_cases hc : c ≤ field (leNat (s.fab.mem.readN a 8)) 54 48
  · have hu : u = s := if_pos hc
    rw [hu, pteRaised, if_neg (by omega)]
    exact ⟨rfl, storesAt_readN s a 8⟩
  · obtain ⟨x, e, l, hw⟩ := dramWrite_eq (s := s) (a := a) (bs := leBytes 8 (pteRaised (leNat (s.fab.mem.readN a 8)) c)) src false
      (by rw [length_leBytes]; exact fun b hb => (hclean b hb).2)
    have hu : u = (dramWrite s src a (leBytes 8 (pteRaised (leNat (s.fab.mem.readN a 8)) c)) false).1 := if_neg hc
    rw [hu, hw]
    exact ⟨rfl, storesAt_write rfl⟩

/-- An append to a page of the current generation raises the page's entry and counts the append (R168). -/
theorem kvtAppend_within {s : State} {src v n : Nat} {t : KvTable} (hn : v % 4096 = n) (ht : s.kvt.tables.get n = t) (hd : t.defined = true)
    (hy : t.destroying = false) (hh : field v 53 50 < t.heads) (hp : field v 49 36 < (t.slots.get (currentSlot t)).npages)
    (hc : field v 60 54 ≤ 64) (hm : CleanDram s (pteAddr (t.slots.get (currentSlot t)) (field v 53 50) (field v 49 36)) 8) :
    let a := pteAddr (t.slots.get (currentSlot t)) (field v 53 50) (field v 49 36)
    ∃ u : State, (kvtAppend s src v).1 = u.modTable n (fun t => { t with append := (t.append + 1) % 2 ^ 32 }) ∧
      u = { s with fab := { s.fab with mem := u.fab.mem, poison := u.fab.poison, symErr := u.fab.symErr, lost := u.fab.lost } } ∧
      StoresAt s u a (leBytes 8 (pteRaised (leNat (s.fab.mem.readN a 8)) (field v 60 54))) := by
  intro a
  refine ⟨pteRaise s src a (field v 60 54), ?_, pteRaise_stores src _ hm⟩
  have hok : ¬ (!t.defined || t.destroying || decide (t.heads ≤ field v 53 50) ||
      decide ((t.slots.get (currentSlot t)).npages ≤ field v 49 36) || decide (64 < field v 60 54)) = true := by
    simp [hd, hy, hh, hp, hc]
  simp only [kvtAppend, hn, ht]
  rw [if_neg hok, dramRead_clean src hm, pteRaise]
  split
  · next he => rw [if_pos (by simpa using he)]
  · next he => rw [if_neg (by simpa using he), pteRaised, if_pos (by simpa using he)]

end Sys2Proof.Machine
end

section
/-! PROOFS. The commands of the sequence tables: create, destroy, commit and query (R152, R154, R174–R177). -/

namespace Sys2Proof.Machine

/-! ### KV_TABLE_CREATE -/

/-- A KV_TABLE_CREATE payload of its length with legal fields (R177). -/
structure KvCreateLegal (pay : List Byte) : Prop where
  length : pay.length = 32
  table : fld pay 0 2 < 4096
  heads : 1 ≤ fld pay 2 1 ∧ fld pay 2 1 ≤ 16
  dim : 32 ≤ fld pay 3 2 ∧ fld pay 3 2 ≤ 256 ∧ fld pay 3 2 % 32 = 0
  mode : fld pay 5 1 ≤ 2
  parts : 1 ≤ fld pay 6 1 ∧ fld pay 6 1 ≤ 64
  shard : fld pay 7 1 < fld pay 6 1
  root : fld pay 8 8 % 64 = 0 ∧ fld pay 8 8 < 4 * dieSpan
  pages : 1 ≤ fld pay 16 4 ∧ fld pay 16 4 ≤ 16384
  stride : fld pay 16 4 ≤ fld pay 20 4 ∧ fld pay 20 4 ≤ 16384
  reserved : fld pay 24 8 = 0

/-- The table that a legal payload defines: its first generation is current, commit 1 and append 0 (R152, R154). -/
def createdTable (pay : List Byte) : KvTable :=
  { defined := true, destroying := false, heads := fld pay 2 1, d := fld pay 3 2, mode := fld pay 5 1, parts := fld pay 6 1, shard := fld pay 7 1
    commit := 1, append := 0, released := 1
    slots := (Tab.const { state := 0, root := 0, npages := 0, hstride := 0, commit := 0, refs := 0 }).set 0
      { state := 1, root := fld pay 8 8, npages := fld pay 16 4, hstride := fld pay 20 4, commit := 1, refs := 0 } }

/-- A legal head dimension is the nearest one to itself (R177). -/
theorem nearestD_legal {d : Nat} (hlo : 32 ≤ d) (hhi : d ≤ 256) (hm : d % 32 = 0) : nearestD d = d := by
  have h : (d + 16) / 32 * 32 = d := by omega
  rw [nearestD, h, clampN, Nat.min_eq_right hhi, Nat.max_eq_right hlo]

/-- Legal fields are applied as sent: a defined table is busy, another is defined (R177). -/
theorem cmdKvCreate_legal {s : State} {c : Cmd} (h : KvCreateLegal c.pay) : cmdKvCreate s c =
    if (s.kvt.tables.get (fld c.pay 0 2)).defined then (s, reply stBusy 0 [])
    else (s.modTable (fld c.pay 0 2) (fun _ => createdTable c.pay), reply stOk 0 (c.pay ++ leBytes 4 1 ++ leBytes 4 0)) := by
  obtain ⟨hlen, htable, ⟨hheads, hheads'⟩, ⟨hdim, hdim', hdim''⟩, hmode, ⟨hparts, hparts'⟩, hshard, ⟨hroot, hroot'⟩, ⟨hpages, hpages'⟩,
    ⟨hstride, hstride'⟩, hres⟩ := h
  have hfirst : clampFields c.pay 32 [fr 0 2 0 4095, fr 2 1 1 16, fr 5 1 0 2, fr 6 1 1 64, fm 8 8 0 (2 ^ 64 - 1) 64, fr 16 4 1 16384, fz 24 8] =
      (c.pay, 0) := by
    refine clampFields_whole hlen ?_
    simp only [dieSpan] at hroot'
    simp only [List.forall_mem_cons, fr_legal, fm_legal, fz_legal, List.not_mem_nil, false_imp_iff, implies_true, and_true]
    omega
  have hsecond : clampFields c.pay 32 [fr 7 1 0 (fld c.pay 6 1 - 1), fr 20 4 (fld c.pay 16 4) 16384] = (c.pay, 0) := by
    refine clampFields_whole hlen ?_
    simp only [List.forall_mem_cons, fr_legal, List.not_mem_nil, false_imp_iff, implies_true, and_true]
    omega
  have hdim := nearestD_legal hdim hdim' hdim''
  have hput := putBytes_fld (bs := c.pay) (off := 3) (n := 2) (by omega)
  simp only [cmdKvCreate, hfirst, hdim, hput, hsecond, if_true]
  rw [if_neg (Nat.not_le.2 hroot')]
  rfl

/-! ### KV_TABLE_DESTROY and KV_TABLE_QUERY -/

/-- The table number of KV_TABLE_DESTROY and KV_TABLE_QUERY is applied as sent where it is one (R177). -/
theorem clampFields_table {pay : List Byte} (hl : pay.length = 2) (hn : fld pay 0 2 < 4096) : clampFields pay 2 [fr 0 2 0 4095] = (pay, 0) := by
  refine clampFields_whole hl ?_
  simp only [List.forall_mem_cons, fr_legal, List.not_mem_nil, false_imp_iff, implies_true, and_true]
  omega

/-- A table being destroyed: its generations without pins are FREE, the others DRAINING (R176). -/
def drainedTable (t : KvTable) : KvTable :=
  { t with destroying := true, slots := t.slots.map (fun x => { x with state := if x.state = 0 ∨ x.refs = 0 then 0 else 2 }) }

/-- A table that is no longer defined, its commits released up to `c` (R175, R176). -/
def endedTable (c : Nat) (t : KvTable) : KvTable := { t with defined := false, destroying := false, released := max t.released c }

section
variable {s : State} {c : Cmd} {n : Nat} (hl : c.pay.length = 2) (hn : fld c.pay 0 2 = n) (h : n < 4096)
include hl hn h

theorem cmdKvDestroy_undefined (hd : (s.kvt.tables.get n).defined = false) : cmdKvDestroy s c = (s, reply stNotDefined 0 []) := by
  simp [cmdKvDestroy, clampFields_table hl (hn ▸ h), hn, hd]

theorem cmdKvQuery_undefined (hd : (s.kvt.tables.get n).defined = false) : cmdKvQuery s c = (s, reply stNotDefined 0 []) := by
  simp [cmdKvQuery, clampFields_table hl (hn ▸ h), hn, hd]

/-- KV_TABLE_QUERY reports a defined table (R177). -/
theorem cmdKvQuery_defined {t : KvTable} (ht : s.kvt.tables.get n = t) (hd : t.defined = true) : cmdKvQuery s c = (s, reply stOk 0
    (leBytes 4 t.heads ++ leBytes 4 t.d ++ leBytes 4 t.mode ++ leBytes 4 t.parts ++ leBytes 4 t.shard ++ leBytes 4 t.commit ++
     leBytes 4 t.append ++ leBytes 4 (currentSlot t) ++
     catMap 8 (fun i => leBytes 4 (t.slots.get i).state ++ leBytes 4 (t.slots.get i).refs ++ leBytes 4 (t.slots.get i).commit) ++
     leBytes 4 t.released)) := by
  simp [cmdKvQuery, clampFields_table hl (hn ▸ h), hn, ht, hd]

/-- KV_TABLE_DESTROY of a table without pins ends it: no generation stays in use, and the last commit is released (R175, R176). -/
theorem cmdKvDestroy_unpinned {t : KvTable} (ht : s.kvt.tables.get n = t) (hd : t.defined = true) (hr : t.released = t.commit)
    (hfree : ∀ k, (t.slots.get k).state = 0 ∨ (t.slots.get k).refs = 0) : cmdKvDestroy s c =
      ((raiseEvent (s.modTable n drainedTable) 0x0600 0 [n + (t.commit + 1) * 2 ^ 32]).modTable n (endedTable (t.commit + 1)),
       reply stOk 0 (leBytes 4 0)) := by
  have hget : (s.modTable n drainedTable).kvt.tables.get n = drainedTable t := by rw [State.modTable_get, if_pos rfl, ht]
  have hstate : ∀ k, ((drainedTable t).slots.get k).state = 0 := fun k => by simp [drainedTable, hfree k]
  have hsettle : kvSettle (s.modTable n drainedTable) n =
      (raiseEvent (s.modTable n drainedTable) 0x0600 0 [n + (t.commit + 1) * 2 ^ 32]).modTable n (endedTable (t.commit + 1)) := by
    rw [kvSettle_ends (by rw [hget]; exact hd) (by rw [hget]; exact hstate), hget,
      kvReleaseTo_next (by rw [hget]; exact congrArg (· + 1) hr.symm)]
    simp only [State.modTable, Tab.modify_modify]
    rfl
  have hpinned : (((s.modTable n drainedTable).kvt.tables.get n).slots.list 8).filter (fun x => x.state != 0) = [] := by
    simp [hget, Tab.list, hstate]
  rw [← hsettle]
  simp only [cmdKvDestroy, clampFields_table hl (hn ▸ h), hn, ht, hd]
  refine (if_neg (by simp)).trans (Prod.ext rfl ?_)
  change reply stOk 0 (leBytes 4 (((((s.modTable n drainedTable).kvt.tables.get n).slots.list 8).filter (fun x => x.state != 0)).length)) = _
  rw [hpinned]
  rfl
end

/-! ### PAGE_COMMIT -/

/-- A PAGE_COMMIT payload of its length with legal fields (R174, R177). -/
structure PageCommitLegal (pay : List Byte) : Prop where
  length : pay.length = 32
  table : fld pay 0 2 < 4096
  reserved : fld pay 2 2 = 0 ∧ fld pay 28 4 = 0
  pages : 1 ≤ fld pay 12 4
  root : fld pay 16 8 % 64 = 0 ∧ fld pay 16 8 < 4 * dieSpan
  stride : fld pay 12 4 ≤ fld pay 24 4 ∧ fld pay 24 4 ≤ 16384

/-- The generation that a payload commits as number `cn` (R174). -/
def committedSlot (pay : List Byte) (cn : Nat) : KvSlot :=
  { state := 1, root := fld pay 16 8, npages := fld pay 12 4, hstride := fld pay 24 4, commit := cn, refs := 0 }

/-- A commit of table `t` takes slot `k`, the first that is FREE, while its current generation is pinned and the commit of that one is released
already (R154, R174, R175). -/
structure CommitsInto (t : KvTable) (k : Nat) : Prop where
  slot : k < 8
  free : (t.slots.get k).state = 0
  first : ∀ j, j < k → (t.slots.get j).state ≠ 0
  current : (t.slots.get (currentSlot t)).state = 1
  pinned : 0 < (t.slots.get (currentSlot t)).refs
  told : (t.slots.get (currentSlot t)).commit ≤ t.released
  room : t.commit + 1 < 2 ^ 32

/-- A table with a new generation in slot `k`: the old one is DRAINING while pinned, and FREE otherwise (R174). -/
def committedTable (k : Nat) (x : KvSlot) (t : KvTable) : KvTable :=
  { t with commit := x.commit, slots := (t.slots.modify (currentSlot t) (fun y => { y with state := if y.refs = 0 then 0 else 2 })).set k x }

/-- The slots after a commit over a pinned generation (R174). -/
theorem committedTable_slot {k : Nat} {x : KvSlot} {t : KvTable} (hpin : 0 < (t.slots.get (currentSlot t)).refs) (j : Nat) :
    (committedTable k x t).slots.get j =
      if j = k then x else if j = currentSlot t then { t.slots.get (currentSlot t) with state := 2 } else t.slots.get j := by
  simp only [committedTable, Tab.get_set, Tab.get_modify, eq_comm (b := j), if_neg (Nat.ne_of_gt hpin)]

section
variable {s : State} {c : Cmd} {n : Nat} {t : KvTable} (h : PageCommitLegal c.pay) (hn : fld c.pay 0 2 = n) (ht : s.kvt.tables.get n = t)
  (hd : t.defined = true) (hy : t.destroying = false)

include h in
/-- Legal fields are applied as sent (R177). -/
theorem PageCommitLegal.clamps : clampFields c.pay 32 [fr 0 2 0 4095, fz 2 2, fr 12 4 1 16384, fm 16 8 0 (2 ^ 64 - 1) 64, fz 28 4] = (c.pay, 0) ∧
    clampFields c.pay 32 [fr 24 4 (fld c.pay 12 4) 16384] = (c.pay, 0) := by
  obtain ⟨hlen, htable, ⟨hres, hres'⟩, hpages, ⟨hroot, hroot'⟩, hstride, hstride'⟩ := h
  simp only [dieSpan] at hroot'
  refine ⟨clampFields_whole hlen ?_, clampFields_whole hlen ?_⟩
  · simp only [List.forall_mem_cons, fr_legal, fm_legal, fz_legal, List.not_mem_nil, false_imp_iff, implies_true, and_true]
    omega
  · simp only [List.forall_mem_cons, fr_legal, List.not_mem_nil, false_imp_iff, implies_true, and_true]
    omega

include h hn ht hd hy

/-- Commit or append numbers that are not the table's are stale (R174). -/
theorem cmdPageCommit_stale (hs : fld c.pay 4 4 ≠ t.commit ∨ fld c.pay 8 4 ≠ t.append) : cmdPageCommit s c = (s, reply stStale 0 []) := by
  obtain ⟨hfirst, hsecond⟩ := h.clamps
  obtain ⟨-, hroot⟩ := h.root
  simp only [cmdPageCommit, hfirst, hsecond, hn, ht, hd, hy]
  rw [if_neg (by simp), if_neg (Nat.not_le.2 hroot), if_pos hs]

/-- A commit with the table's numbers: the new generation takes its slot, and no release is to be told (R174, R175). -/
theorem cmdPageCommit_commits {k : Nat} (hc : fld c.pay 4 4 = t.commit) (ha : fld c.pay 8 4 = t.append) (hk : CommitsInto t k) :
    cmdPageCommit s c = (s.modTable n (committedTable k (committedSlot c.pay (t.commit + 1))),
      reply stOk 0 (leBytes 4 (t.commit + 1) ++ leBytes 4 k ++ leBytes 4 (fld c.pay 12 4) ++ leBytes 4 (fld c.pay 24 4))) := by
  obtain ⟨hslot, hfree, hleast, hold, hpin, hrel, hcn⟩ := hk
  obtain ⟨hfirst, hsecond⟩ := h.clamps
  obtain ⟨-, hroot⟩ := h.root
  have hne : currentSlot t ≠ k := fun hk => by rw [← hk, hold] at hfree; exact absurd hfree (by decide)
  have hfind : (List.range 8).find? (fun i => (t.slots.get i).state == 0) = some k :=
    List.find?_range_eq_some.2 ⟨by simpa using hfree, List.mem_range.2 hslot, fun j hj => by simpa using hleast j hj⟩
  have hdrains : (committedTable k (committedSlot c.pay (t.commit + 1)) t).slots.get (currentSlot t) =
      { t.slots.get (currentSlot t) with state := 2 } := by
    rw [committedTable_slot hpin, if_neg hne, if_pos rfl]
  have hsettle := kvSettle_told (s := s) (n := n) (f := committedTable k (committedSlot c.pay (t.commit + 1))) (currentSlot_lt t)
    (by rw [ht, hdrains]; simp) (by rw [ht, hdrains]; exact hrel)
  have hmod : s.modTable n (fun u => { u with
      commit := t.commit + 1
      slots := (u.slots.modify (currentSlot t) (fun y => { y with state := if y.refs = 0 then 0 else 2 })).set k (committedSlot c.pay (t.commit + 1)) }) =
      s.modTable n (committedTable k (committedSlot c.pay (t.commit + 1))) := by
    simp only [State.modTable, Tab.modify, ht]
    rfl
  simp only [cmdPageCommit, hfirst, hsecond, hn, ht, hd, hy, Nat.mod_eq_of_lt hcn]
  rw [if_neg (by simp), if_neg (Nat.not_le.2 hroot), if_neg (by simp [hc, ha]), hfind]
  simp only
  rw [← hsettle, ← hmod]
  rfl
end

end Sys2Proof.Machine
end

section
/-! PROOFS. Pins, appends and commands of the sequence tables as they complete (R152, R154, R165–R168, R173–R177). -/

namespace Sys2Proof.Machine

section
variable {s : State} {ch : Fin 4} {r : Request} {n : Nat} (h : Plain s r)
include h

/-- KV_TABLE_CREATE of a table that is not defined defines it. -/
theorem kvTableCreate_accepts (hl : KvCreateLegal (payBytes r)) (hd : (s.kvt.tables.get (payField r 0 2)).defined = false) :
    Accepts (.kvTableCreate ch r) s ch 0x0600 r 0 (payBytes r ++ leBytes 4 1 ++ leBytes 4 0) (fun t =>
      t = { s with host := t.host, kvt.tables := t.kvt.tables } ∧ (∀ m, m ≠ payField r 0 2 → t.kvt.tables.get m = s.kvt.tables.get m) ∧
      t.kvt.tables.get (payField r 0 2) = createdTable (payBytes r)) :=
  h.accepts (by decide) ch.isLt rfl ((cmdKvCreate_legal (c := plainCmd ch 0x0600 r) hl).trans (if_neg (ne_true_of_eq_false hd))) rfl
    fun _ => ⟨rfl, fun _ hm => Tab.get_modify_other _ _ (Ne.symm hm), Tab.get_modify_self _ _ _⟩

/-- KV_TABLE_DESTROY of a table without pins whose releases are told ends it, with one KV_RELEASE (R175, R176). -/
theorem kvTableDestroy_accepts {t : KvTable} (hl : r.length.toNat = 2) (hn : payField r 0 2 = n) (h4096 : n < 4096) (ht : s.kvt.tables.get n = t)
    (hd : t.defined = true) (hr : t.released = t.commit) (hfree : ∀ k, (t.slots.get k).state = 0 ∨ (t.slots.get k).refs = 0) :
    AcceptsEv (.kvTableDestroy ch r) s ch 0x0601 r 0 (leBytes 4 0) (fun u =>
      u = { s with host := u.host, kvt.tables := u.kvt.tables } ∧ (∀ m, m ≠ n → u.kvt.tables.get m = s.kvt.tables.get m) ∧
      (u.kvt.tables.get n).defined = false ∧ Raised s u 0x0600 0 [n + (t.commit + 1) * 2 ^ 32]) := by
  have hx := cmdKvDestroy_unpinned (s := s) (c := plainCmd ch 0x0601 r) ((plainCmd_pay_length ..).trans hl) hn h4096 ht hd hr hfree
  obtain ⟨hhost, hev, hraised, -⟩ := raiseEvent_spec (s.modTable n drainedTable) 0x0600 0 [n + (t.commit + 1) * 2 ^ 32]
  generalize raiseEvent (s.modTable n drainedTable) 0x0600 0 [n + (t.commit + 1) * 2 ^ 32] = e at hx hhost hev hraised
  refine h.acceptsEv (by decide) ch.isLt rfl hx (hev.congr rfl rfl) fun g hg => ⟨?_, fun m hm => ?_, ?_, ?_⟩
  · rw [hhost]; rfl
  · rw [hhost]; simp [State.modTable, Ne.symm hm]
  · rw [hhost]; simp [State.modTable, endedTable]
  · have hg : g.evt = e.host.evt := hg
    simp only [Raised, hg]
    exact hraised

/-- PAGE_COMMIT with the table's numbers makes the new generation current (R174). -/
theorem pageCommit_accepts {t : KvTable} {k : Nat} (hl : PageCommitLegal (payBytes r)) (hn : payField r 0 2 = n) (ht : s.kvt.tables.get n = t)
    (hd : t.defined = true) (hy : t.destroying = false) (hc : payField r 4 4 = t.commit) (ha : payField r 8 4 = t.append) (hk : CommitsInto t k) :
    Accepts (.pageCommit ch r) s ch 0x0602 r 0
      (leBytes 4 (t.commit + 1) ++ leBytes 4 k ++ leBytes 4 (payField r 12 4) ++ leBytes 4 (payField r 24 4)) (fun u =>
        u = { s with host := u.host, kvt.tables := u.kvt.tables } ∧ (∀ m, m ≠ n → u.kvt.tables.get m = s.kvt.tables.get m) ∧
        u.kvt.tables.get n = committedTable k (committedSlot (payBytes r) (t.commit + 1)) t) :=
  h.accepts (by decide) ch.isLt rfl
    (cmdPageCommit_commits (c := plainCmd ch 0x0602 r) hl hn ht hd hy hc ha hk) rfl
    fun _ => ⟨rfl, fun _ hm => Tab.get_modify_other _ _ (Ne.symm hm), (Tab.get_modify_self _ _ _).trans (congrArg _ ht)⟩
end

/-- Settles O40: the unit's writes are each one change of one table; the commands' payloads are legal, so that they are applied as sent. -/
theorem kvTablesPinAppendAndCommit : Obligations.KvTablesPinAppendAndCommit := by
  unfold Obligations.KvTablesPinAppendAndCommit
  intro s tbl slot
  refine ⟨?_, ?_, ?_, fun ch r hplain => ⟨?_, ?_, ?_⟩⟩
  · intro src v n ok
    refine ⟨fun hp hpin hok => ?_, fun hbad => ?_, fun hp => ?_, fun hp hpin => ?_⟩
    · obtain ⟨hd, hy⟩ := hok
      exact congrArg Host.Outcome.next (kvtPin_defined hp hpin rfl hd hy)
    · have hrefused : kvtPin s src.toNat v.toNat = kvtRefuse s := by
        by_cases hp : 36 ≤ src.toNat
        · exact kvtPin_other _ hp
        · obtain ⟨hpin, hok⟩ := hbad.resolve_left hp
          exact kvtPin_refused (by omega) hpin hok
      exact congrArg (fun x => Host.Outcome.next x.1) hrefused
    · exact congrArg (fun x => Host.Outcome.next x.1) (kvtUnpin_other hp)
    · have hunpin := kvtUnpin_tile (s := s) hp
      rw [releasePin_unpinned hpin] at hunpin
      exact congrArg (fun x => Host.Outcome.next x.1) hunpin
  · intro src n k hp hpin hstate hcommit hk
    have hexec : exec (.hubKvtUnpin src) s = .next (releasePin s src.toNat) :=
      congrArg (fun x : State × Half => Host.Outcome.next x.1) (kvtUnpin_tile hp)
    rw [releasePin_current hpin hk hstate hcommit] at hexec
    exact ⟨_, hexec, rfl, Tab.get_set_self _ _ _, fun q hq => Tab.get_set_other _ _ (Ne.symm hq),
      fun m hm => Tab.get_modify_other _ _ (Ne.symm hm), Tab.get_modify_self _ _ _⟩
  · intro src v n x h pg c a e hd hy hh hpg hc hclean _
    obtain ⟨u, happend, hframe, hstore⟩ := kvtAppend_within (src := src.toNat) (v := v.toNat) rfl rfl hd hy hh hpg hc hclean
    refine ⟨_, congrArg Host.Outcome.next happend, ?_, ?_, hstore⟩
    · rw [hframe]; rfl
    · rw [hframe]; rfl
  · intro n heads dim mode parts shard root np hs hn heads1 heads16 dim32 dim256 dimStep hmode parts1 parts64 hshard rootStep rootDram np1 npMax
      npStride hsMax hres hlen
    have hl : KvCreateLegal (payBytes r) :=
      ⟨by rw [payBytes, length_slice, hlen]; rfl, hn, ⟨heads1, heads16⟩, ⟨dim32, dim256, dimStep⟩, hmode, ⟨parts1, parts64⟩, hshard,
        ⟨rootStep, rootDram⟩, ⟨np1, npMax⟩, ⟨npStride, hsMax⟩, hres⟩
    refine ⟨fun hd => hplain.answersOnly (by decide) ch.isLt rfl ((cmdKvCreate_legal (c := plainCmd ch 0x0600 r) hl).trans (if_pos hd)), fun hd => ?_⟩
    obtain ⟨t, ht, hans, hkept, hframe, hothers, htable⟩ := kvTableCreate_accepts (ch := ch) hplain hl hd
    refine ⟨t, ht, hans, hkept, hframe, hothers, ?_⟩
    rw [htable]
    exact ⟨rfl, rfl, rfl, rfl, rfl, rfl, rfl, rfl, rfl, rfl, Tab.get_set_self _ _ _, fun k hk =>
      congrArg KvSlot.state (Tab.get_set_other _ _ (Ne.symm hk))⟩
  · intro n hn hlen
    have hl : r.length.toNat = 2 := by rw [hlen]; rfl
    have hpay : ∀ op, (plainCmd ch op r).pay.length = 2 := fun op => (plainCmd_pay_length ..).trans hl
    refine ⟨fun hd => ⟨?_, ?_⟩, fun hd => ?_, fun hd hcommit hrel hs hrefs hfree => ?_⟩
    · exact hplain.answersOnly (by decide) ch.isLt rfl (cmdKvDestroy_undefined (hpay _) rfl hn hd)
    · exact hplain.answersOnly (by decide) ch.isLt rfl (cmdKvQuery_undefined (hpay _) rfl hn hd)
    · exact hplain.answersOnly (by decide) ch.isLt rfl (cmdKvQuery_defined (hpay _) rfl hn rfl hd)
    · have hunpinned : ∀ k, (slot n k).state = 0 ∨ (slot n k).refs = 0 := fun k => by
        by_cases hk : k = 0
        · exact .inr (hk ▸ hrefs)
        · exact .inl (hfree k hk)
      have hx := kvTableDestroy_accepts (ch := ch) hplain hl rfl hn rfl hd (hrel.trans hcommit.symm) hunpinned
      rwa [show (s.kvt.tables.get n).commit = 1 from hcommit] at hx
  · intro n np root hs old hn hres np1 npStride hsMax rootStep rootDram hres' hlen hd hy
    have hl : PageCommitLegal (payBytes r) :=
      ⟨by rw [payBytes, length_slice, hlen]; rfl, hn, ⟨hres, hres'⟩, np1, ⟨rootStep, rootDram⟩, npStride, hsMax⟩
    refine ⟨fun hstale => hplain.answersOnly (by decide) ch.isLt rfl (cmdPageCommit_stale (c := plainCmd ch 0x0602 r) hl rfl rfl hd hy hstale), ?_⟩
    intro k hc ha hk hfree hleast hold hpin hrel hcn
    obtain ⟨t, ht, hans, hkept, hframe, hothers, htable⟩ :=
      pageCommit_accepts (ch := ch) hplain hl rfl rfl hd hy hc ha ⟨hk, hfree, hleast, hold, hpin, hrel, hcn⟩
    refine ⟨t, ht, hans, hkept, hframe, hothers, ?_, fun j => ?_⟩
    · rw [htable]; rfl
    · rw [htable]; exact committedTable_slot hpin j

end Sys2Proof.Machine
end

section
/-! PROOFS. Ranges of hub SRAM and ingress lanes as a master of the hub reads and writes them (R27, R37, R189, R353, R465). -/

namespace Sys2Proof.Machine

/-! ### Ranges cut into pieces -/

/-- How many bytes of a range its first `j` pieces hold. -/
def inPieces (a n j : Nat) : Nat := min n ((a / 256 + j) * 256 - a)

theorem inPieces_zero (a n : Nat) : inPieces a n 0 = 0 := by unfold inPieces; omega

theorem inPieces_all (a n : Nat) : inPieces a n ((a + n + 255) / 256 - a / 256) = n := by unfold inPieces; omega

theorem pieces_eq {a n : Nat} (hn : 0 < n) : pieces a n = (List.range ((a + n + 255) / 256 - a / 256)).map (fun j =>
    (a + inPieces a n j, inPieces a n j, inPieces a n (j + 1) - inPieces a n j)) := by
  refine List.map_congr_left fun j hj => ?_
  have hj := List.mem_range.mp hj
  simp only [inPieces, Prod.mk.injEq]
  omega

/-- A range handled piece by piece (R37): what holds of none of its bytes, and with each further piece still holds, holds of the whole range. -/
theorem pieces_foldl {σ : Type} {f : σ → Nat × Nat × Nat → σ} {a n : Nat} {x : σ} (hn : 0 < n) (I : Nat → σ → Prop) (h0 : I 0 x)
    (hstep : ∀ c d y, 0 < d → c + d ≤ n → I c y → I (c + d) (f y (a + c, c, d))) : I n ((pieces a n).foldl f x) := by
  have hall := inPieces_all a n
  rw [pieces_eq hn, List.foldl_map]
  generalize hk : (a + n + 255) / 256 - a / 256 = k at hall ⊢
  have hprefix : ∀ j, j ≤ k → I (inPieces a n j) ((List.range j).foldl (fun y i =>
      f y (a + inPieces a n i, inPieces a n i, inPieces a n (i + 1) - inPieces a n i)) x) := by
    intro j
    induction j with
    | zero => intro _; rw [inPieces_zero]; exact h0
    | succ j ih =>
      intro hj
      have hgrows : inPieces a n j < inPieces a n (j + 1) ∧ inPieces a n (j + 1) ≤ n := by unfold inPieces; omega
      have hnext := hstep _ (inPieces a n (j + 1) - inPieces a n j) _ (by omega) (by omega) (ih (by omega))
      rw [show inPieces a n j + (inPieces a n (j + 1) - inPieces a n j) = inPieces a n (j + 1) by omega] at hnext
      rwa [List.range_succ, List.foldl_append]
  rw [← hall]
  exact hall.symm ▸ hprefix k (Nat.le_refl k)

/-! ### Memory in parts -/

theorem Memory.readN_add (m : Memory) (a n k : Nat) : m.readN a (n + k) = m.readN a n ++ m.readN (a + n) k := by
  simp [Memory.readN_eq, List.range_add, Nat.add_assoc, Function.comp_def]

@[simp] theorem Memory.length_readN (m : Memory) (a n : Nat) : (m.readN a n).length = n := by simp [Memory.readN_eq]

/-- The first bytes of a range read. -/
theorem Memory.take_readN (m : Memory) (a : Nat) {k n : Nat} (h : k ≤ n) : (m.readN a n).take k = m.readN a k := by
  obtain ⟨d, rfl⟩ := Nat.exists_eq_add_of_le h
  rw [Memory.readN_add, List.take_left' (Memory.length_readN m a k)]

theorem StoresAt.nothing (s : State) (a : Nat) : StoresAt s s a [] := ⟨rfl, fun _ _ => rfl⟩

/-- Bytes stored behind others are stored with them. -/
theorem StoresAt.append {s u t : State} {a : Nat} {xs ys : List Byte} (h : StoresAt s u a xs) (k : StoresAt u t (a + xs.length) ys) :
    StoresAt s t a (xs ++ ys) := by
  obtain ⟨hxs, hrest⟩ := h
  obtain ⟨hys, hrest'⟩ := k
  have hkept : t.fab.mem.readN a xs.length = u.fab.mem.readN a xs.length := by
    rw [Memory.readN_eq, Memory.readN_eq]
    exact List.map_congr_left fun i hi => hrest' _ (.inl (by have := List.mem_range.mp hi; omega))
  refine ⟨by rw [List.length_append, Memory.readN_add, hkept, hxs, hys], fun b hb => ?_⟩
  rw [List.length_append] at hb
  rw [hrest' b (by omega), hrest b (by omega)]

/-- A slice within the bytes is that part of them. -/
theorem slice_within {bs : List Byte} {off n : Nat} (h : off + n ≤ bs.length) : slice bs off n = (bs.drop off).take n := by
  have hl : n - min n (bs.length - off) = 0 := by omega
  simp [slice, hl]

/-! ### Hub SRAM -/

/-- The range lies in hub SRAM (R27). -/
def InHub (a n : Nat) : Prop := hubBase ≤ a ∧ a + n ≤ hubBase + 0x4000000

theorem CleanHub.inHub {s : State} {a n : Nat} (h : CleanHub s a n) : InHub a n := ⟨h.1, h.2.1⟩

theorem target_hub {a : Nat} (h : hubBase ≤ a) (k : a < hubBase + 0x4000000) : target a = .hubSram (a - hubBase) := by
  simp only [hubBase] at h k
  unfold target
  rw [if_neg (by simp only [dieSpan]; omega), if_neg (by simp only [tileBase]; omega), if_pos ⟨h, k⟩]

/-- A part of a range of hub SRAM without poison has none. -/
theorem CleanHub.part {s : State} {a n : Nat} (h : CleanHub s a n) {c d : Nat} (hd : c + d ≤ n) : CleanHub s (a + c) d := by
  obtain ⟨hlo, hhi, hclean⟩ := h
  refine ⟨by omega, by omega, ?_⟩
  simp only [Poison.hit, List.any_eq_false, Bool.and_eq_true, decide_eq_true_eq] at hclean ⊢
  intro w hw
  have := hclean w hw
  omega

/-- Hub units reach hub SRAM without crossing an edge (R38). -/
theorem pathUsable_hub (s : State) {src : Nat} (h : 36 ≤ src) : pathUsable s src 4 = true := by
  have hnode : nodeOfSrc src = 4 := if_neg (Nat.not_lt.mpr h)
  rw [pathUsable, if_pos hnode]

/-- A part of a range that no buffer in use meets is met by none (R189). -/
theorem sieveLocked_part {s : State} {a n : Nat} (h : sieveLocked s a n = false) {c d : Nat} (hd : c + d ≤ n) :
    sieveLocked s (a + c) d = false := by
  simp only [sieveLocked, Bool.and_eq_false_iff, List.any_eq_false, Bool.and_eq_true, decide_eq_true_eq, not_and] at h ⊢
  refine h.imp_right fun h b hb huse hlo => ?_
  have := h b hb huse
  omega

/-- Bytes have been stored at an address; beside memory only poison has changed. -/
def HubStored (s t : State) (a : Nat) (bs : List Byte) : Prop :=
  t = { s with fab := { s.fab with mem := t.fab.mem, poison := t.fab.poison } } ∧ StoresAt s t a bs

theorem HubStored.append {s u t : State} {a : Nat} {xs ys : List Byte} (h : HubStored s u a xs) (k : HubStored u t (a + xs.length) ys) :
    HubStored s t a (xs ++ ys) := ⟨by rw [k.1, h.1], h.2.append k.2⟩

theorem hubWrite_stored (s : State) (a : Nat) (bs : List Byte) : HubStored s (hubWrite s a bs false) a bs := ⟨rfl, storesAt_write rfl⟩

section
variable {s : State} {src : Nat} (hsrc : 36 ≤ src) {a n label : Nat} {bs : List Byte}
include hsrc

theorem readAt_hub (hn : 0 < n) (h : CleanHub s a n) : readAt s src a n = (s, stOk, s.fab.mem.readN a n, false) := by
  obtain ⟨hlo, hhi, hclean⟩ := h
  have ht := target_hub hlo (by omega)
  have hl : localAddr s a = a := localAddr_local s (by simp [ht])
  simp [readAt, hl, ht, nodeOf, pathUsable_hub s hsrc, refusal, hubRead, hclean]

/-- A range of hub SRAM without poison is read as it stands, and nothing changes. -/
theorem readRange_hub (hn : 0 < n) (h : CleanHub s a n) : readRange s src a n = (s, stOk, s.fab.mem.readN a n, false) := by
  refine pieces_foldl hn (fun c y => y = (s, stOk, s.fab.mem.readN a c, false)) rfl fun c d y hd hle hy => ?_
  rw [hy, readAt_hub hsrc hd (h.part hle), Memory.readN_add]
  rfl

theorem writeAt_hub (hn : 0 < bs.length) (h : InHub a bs.length) (hfree : sieveLocked s a bs.length = false) :
    writeAt s src label a bs false = (hubWrite s a bs false, stOk) := by
  have ht := target_hub h.1 (by have := h.2; omega)
  have hl : localAddr s a = a := localAddr_local s (by simp [ht])
  simp [writeAt, writeFor, hl, ht, nodeOf, pathUsable_hub s hsrc, refusal, hfree]

/-- A range of hub SRAM that no buffer in use meets is written as given. -/
theorem writeRange_hub (hn : 0 < bs.length) (h : InHub a bs.length) (hfree : sieveLocked s a bs.length = false) :
    ∃ u, writeRange s src label a bs false = (u, stOk) ∧ HubStored s u a bs := by
  have hpieces : ∃ u, writeRange s src label a bs false = (u, stOk) ∧ HubStored s u a (bs.take bs.length) := by
    refine pieces_foldl hn (fun c (y : State × Half) => ∃ u, y = (u, stOk) ∧ HubStored s u a (bs.take c)) ⟨s, rfl, rfl, StoresAt.nothing s a⟩ ?_
    rintro c d _ hd hle ⟨u, rfl, hu⟩
    have hslice : slice bs c d = (bs.drop c).take d := slice_within hle
    have hlen : (slice bs c d).length = d := length_slice ..
    have hsie : u.sie = s.sie := by rw [hu.1]
    have hpart : sieveLocked u (a + c) d = false := by
      have := sieveLocked_part hfree hle
      rwa [sieveLocked, ← hsie] at this
    have hwrite : writeAt u src label (a + c) (slice bs c d) false = (hubWrite u (a + c) (slice bs c d) false, stOk) :=
      writeAt_hub hsrc (by omega) (by rw [hlen]; exact ⟨by have := h.1; omega, by have := h.2; omega⟩) (by rwa [hlen])
    refine ⟨hubWrite u (a + c) (slice bs c d) false, by simp only [hwrite]; rfl, ?_⟩
    rw [List.take_add, ← hslice]
    refine hu.append ?_
    rw [List.length_take_of_le (by omega)]
    exact hubWrite_stored ..
  rwa [List.take_length] at hpieces
end

/-! ### Ingress lanes -/

/-- A write into an island's ingress lane goes to that island as it is (R25, R353). -/
theorem writeAt_ingress {s : State} {src label a i off : Nat} {bs : List Byte} (hsrc : 36 ≤ src) (ht : target a = .ingress i off) :
    writeAt s src label a bs false = (ingressWrite s src i off bs, stOk) := by
  have hl : localAddr s a = a := localAddr_local s (by simp [ht])
  simp [writeAt, writeFor, hl, ht, nodeOf, pathUsable_hub s hsrc, refusal]

end Sys2Proof.Machine
end

section
/-! PROOFS. Strobes of the planner, pins, and epoch buffers published (R187, R189, R190, R195). -/

namespace Sys2Proof.Machine

/-! ### Pins (R189) -/

/-- Pins with one more on a buffer. -/
theorem addPin_spec (s : State) (b : Option Nat) : addPin s b = { s with sie := { s.sie with pins := (addPin s b).sie.pins } } ∧
    ∀ n, (addPin s b).sie.pins.get n = s.sie.pins.get n + if b = some n then 1 else 0 := by
  cases b with
  | none => exact ⟨rfl, fun n => rfl⟩
  | some m =>
    refine ⟨rfl, fun n => (Tab.get_modify _ _ _ _).trans ?_⟩
    by_cases h : m = n <;> simp [h]

/-- Pins with one fewer on a buffer. -/
theorem dropPin_spec (s : State) (b : Option Nat) : dropPin s b = { s with sie := { s.sie with pins := (dropPin s b).sie.pins } } ∧
    ∀ n, (dropPin s b).sie.pins.get n = s.sie.pins.get n - if b = some n then 1 else 0 := by
  cases b with
  | none => exact ⟨rfl, fun n => rfl⟩
  | some m =>
    refine ⟨rfl, fun n => (Tab.get_modify _ _ _ _).trans ?_⟩
    by_cases h : m = n <;> simp [h]

/-! ### Strobes (R195) -/

/-- The cycle that a strobe starts with a request block. -/
def newCycle (s : State) (l : Launch) (req : List Byte) : Cycle :=
  { launch := l, req := req, reqBad := !requestOk req, pinE := s.sie.cur, eSearch := s.sie.curEpoch, pinN := none, eCheck := 0, mapBad := false,
    ended := if requestOk req = true then none else some ([], false) }

/-- The state in which a cycle has started: the current epoch is pinned for its search. -/
def cycleStarted (s : State) (l : Launch) (req : List Byte) : State :=
  { addPin s s.sie.cur with pln.cycle := some (newCycle s l req) }

theorem cycleStarted_frame (s : State) (l : Launch) (req : List Byte) : cycleStarted s l req =
    { s with pln.cycle := some (newCycle s l req), sie := { s.sie with pins := (cycleStarted s l req).sie.pins } } := by
  have h := (addPin_spec s s.sie.cur).1
  unfold cycleStarted
  rw [h]

/-- A launch with a request block in clean hub SRAM starts a cycle; a field out of range raises PLAN_ERROR. -/
theorem cycleStart_request {s : State} {l : Launch} {req : List Byte} (hp : l.strobe.prog.toNat ≤ 15)
    (h : CleanHub s (s.pln.reqBase + 128 * l.strobe.prog.toNat) 128) (hr : s.fab.mem.readN (s.pln.reqBase + 128 * l.strobe.prog.toNat) 128 = req) :
    cycleStart s l = if requestOk req = true then cycleStarted s l req
      else raiseEvent (cycleStarted s l req) 0x0502 0 [2 + l.strobe.prog.toNat * 65536] := by
  rw [cycleStart, if_neg (by omega), readRange_hub (by decide) (by decide) h, hr]
  have hcur : (addPin s s.sie.cur).sie.cur = s.sie.cur ∧ (addPin s s.sie.cur).sie.curEpoch = s.sie.curEpoch := by
    rw [(addPin_spec s s.sie.cur).1]; exact ⟨rfl, rfl⟩
  cases hok : requestOk req <;> simp [hok, cycleStarted, newCycle, hcur]

/-- A strobe that no held launch of the planner stands for is a launch of its own. -/
theorem plannerStrobe_ready {s : State} {b : Strobe} (h : plannerReady s = true) (hh : s.cal.held.get 36 = []) : plannerStrobe s b =
    if s.pln.cycle.isNone then cycleStart s { strobe := b, link := none } else { s with pln.waiting := some { strobe := b, link := none } } := by
  rw [plannerStrobe, if_pos h, takeHeld, hh]

/-! ### Publishing (R190) -/

/-- Buffer `b` may become the current one (R187, R190): it is open, its header is read and passes, its epoch is the next. -/
def publishOk (s : State) (b : Nat) : Bool :=
  s.sie.valid && s.sie.cur != some b && s.sie.pins.get b == 0 && decide (64 ≤ (s.sie.bufs.get b).2) &&
    !(hubRead s (s.sie.bufs.get b).1 64).2 && bufHdrOk s (bufHdr s b) &&
    (s.sie.cur.isNone || fld (bufHdr s b) 8 4 == (s.sie.curEpoch + 1) % 2 ^ 32)

/-- SIE_PUBLISH makes such a buffer current; another is refused with a decode error (R28, R190). -/
theorem siePublish_eq (s : State) (src v : Nat) : (siePublish s src v).1 =
    if publishOk s (v % 2) = true then { s with sie := { s.sie with cur := some (v % 2), curEpoch := fld (bufHdr s (v % 2)) 8 4 } }
    else raiseEvent { s with sie.pubRej := cnt s.sie.pubRej 1, fab.net.decodeErrs := cnt s.fab.net.decodeErrs 1 } 0x0003 src [0x8000210018, 1] :=
  apply_ite Prod.fst _ _ _

theorem publishOk_iff {s : State} {b : Nat} : publishOk s b = true ↔
    s.sie.valid = true ∧ s.sie.cur ≠ some b ∧ s.sie.pins.get b = 0 ∧ 64 ≤ (s.sie.bufs.get b).2 ∧ (hubRead s (s.sie.bufs.get b).1 64).2 = false ∧
    bufHdrOk s (bufHdr s b) = true ∧ (s.sie.cur = none ∨ fld (bufHdr s b) 8 4 = (s.sie.curEpoch + 1) % 2 ^ 32) := by
  simp only [publishOk, Bool.and_eq_true, bne_iff_ne, ne_eq, beq_iff_eq, decide_eq_true_eq, Bool.not_eq_true', Bool.or_eq_true,
    Option.isNone_iff_eq_none, and_assoc]

theorem bufHdrOk_iff {s : State} {h : List Byte} : bufHdrOk s h = true ↔ fld h 0 2 = 1 ∧ fld h 2 1 = s.sie.depth ∧ fld h 3 1 = 0 ∧
    fld h 4 2 = s.sie.voxel ∧ fld h 6 2 = 0 ∧ fld h 0xC 4 = 0 ∧ fld h 0x30 16 = 0 := by
  simp only [bufHdrOk, Bool.and_eq_true, beq_iff_eq, and_assoc]

theorem CleanHub.hubRead {s : State} {a n : Nat} (h : CleanHub s a n) : hubRead s a n = (s.fab.mem.readN a n, false) := by
  rw [Machine.hubRead, h.2.2]

end Sys2Proof.Machine
end

section
/-! PROOFS. Searches of the planner: no candidate, and one candidate of one swept entry (R188, R191, R196, R197, R205). -/

namespace Sys2Proof.Machine

/-! ### Candidates (R196) -/

/-- Steps that change nothing at a value leave it. -/
theorem foldl_unchanged {α β : Type} {f : β → α → β} {b : β} {l : List α} (h : ∀ a ∈ l, f b a = b) : l.foldl f b = b := by
  induction l with
  | nil => rfl
  | cons a l ih => rw [List.foldl_cons, h a (by simp), ih fun x hx => h x (by simp [hx])]

/-- A search whose request enables no loaded set has no candidates. -/
theorem candidates_none {s : State} {mask : Nat} (h : ∀ n, n < 8 → bit mask n = true → s.pln.sets.get n = none) : candidates s mask = (s, []) := by
  refine foldl_unchanged fun n hn => ?_
  obtain ⟨hlt, hbit⟩ := List.mem_filter.mp hn
  simp only [h n (List.mem_range.mp hlt) hbit]

/-- The one primitive of the one set that a request enables is its one candidate. -/
theorem candidates_single {s : State} {n : Nat} {st : PlanSet} (hn : n < 8) (hst : s.pln.sets.get n = some st) (hk : st.kind = 0)
    (h1 : st.nprim = 1) (hc : CleanHub s (st.addr + 0x100) 64) :
    candidates s (2 ^ n) = (s, [(n, 0, s.fab.mem.readN (st.addr + 0x100) 64)]) := by
  have hbits : ∀ k : Fin 8, bitsOf (2 ^ k.val) 8 = [k.val] := by decide
  have hrec : primRecord s st 0 = (s, some (s.fab.mem.readN (st.addr + 0x100) 64)) := by
    rw [primRecord, Nat.mul_zero, Nat.add_zero, readRange_hub (by decide) (by decide) hc, if_pos rfl]
  rw [candidates, hbits ⟨n, hn⟩]
  simp [hst, hk, h1, hrec]

/-! ### One swept entry against the Sieve (R188, R191) -/

/-- What an entry of the map's octree says at the root (R188). -/
theorem descend_root {s : State} {b used bx by_ bz l off w : Nat} (hw : bufWord s b off = some w) :
    (field w 63 62 = 0 → descend s b used bx by_ bz l off = .empty) ∧ (field w 63 62 = 1 → descend s b used bx by_ bz l off = .full) := by
  refine ⟨fun h => ?_, fun h => ?_⟩ <;> cases l <;> simp [descend, hw, h]

/-- The cell of a swept entry in the buffer's map, from a lattice point (R191). -/
def entryCell (s : State) (b : Nat) (e : List Byte) (q : Nat) (x y z : Int) : Int × Int × Int :=
  let h := bufHdr s b
  let d := rotCell q (sint 16 (fld e 8 2), sint 16 (fld e 10 2))
  (x + d.1 - sint 32 (fld h 0x18 4), y + d.2 - sint 32 (fld h 0x1C 4), z + sint 8 (fld e 12 1) - sint 32 (fld h 0x20 4))

/-- A coordinate within the map. -/
def InMap (s : State) (i : Int) : Prop := 0 ≤ i ∧ i < 2 ^ (s.sie.depth - 2)

/-- An entry within a map whose root is EMPTY does not collide, within one whose root is FULL it does. -/
theorem entryCollides_root {s : State} {b epoch q w : Nat} {e : List Byte} {x y z : Int}
    (hx : InMap s (entryCell s b e q x y z).1) (hy : InMap s (entryCell s b e q x y z).2.1) (hz : InMap s (entryCell s b e q x y z).2.2)
    (hw : bufWord s b 0x10 = some w) :
    (field w 63 62 = 0 → entryCollides s b epoch e q x y z = (s, false)) ∧
    (field w 63 62 = 1 → entryCollides s b epoch e q x y z = (s, true)) := by
  simp only [entryCell, InMap] at hx hy hz
  have hin : ¬ ((entryCell s b e q x y z).1 < 0 ∨ 2 ^ (s.sie.depth - 2) ≤ (entryCell s b e q x y z).1 ∨ (entryCell s b e q x y z).2.1 < 0 ∨
      2 ^ (s.sie.depth - 2) ≤ (entryCell s b e q x y z).2.1 ∨ (entryCell s b e q x y z).2.2 < 0 ∨
      2 ^ (s.sie.depth - 2) ≤ (entryCell s b e q x y z).2.2) := by
    simp only [entryCell]; omega
  refine ⟨fun h => ?_, fun h => ?_⟩
  · refine (if_neg hin).trans ?_
    rw [(descend_root hw).1 h]
  · refine (if_neg hin).trans ?_
    rw [(descend_root hw).2 h]

/-- A word of an epoch buffer without poison. -/
theorem bufWord_clean {s : State} {b off : Nat} (hl : off + 8 ≤ (s.sie.bufs.get b).2) (hc : CleanHub s ((s.sie.bufs.get b).1 + off) 8) :
    bufWord s b off = some (leNat (s.fab.mem.readN ((s.sie.bufs.get b).1 + off) 8)) := by
  have hl : ¬ (s.sie.bufs.get b).2 < off + 8 := by omega
  simp [bufWord, hc.hubRead, hl]

/-- A check of one swept entry, whose outcome is known, counts the entry; a collision takes the free value of how many were examined (R204). -/
theorem sieveCheck_one {s : State} {b epoch slot q : Nat} {rec : List Byte} {x y z : Int} {st : PlanSet} {hit : Bool}
    (hst : s.pln.sets.get slot = some st) (hv : st.voxel = s.sie.voxel) (h1 : fld rec 6 2 = 1)
    (hc : CleanHub s (st.addr + 16 * fld rec 0x18 4) 16)
    (hhit : entryCollides s b epoch (s.fab.mem.readN (st.addr + 16 * fld rec 0x18 4) 16) q x y z = (s, hit)) :
    sieveCheck s (some (b, epoch)) slot rec q x y z =
      ({ s with free := s.free + b2n hit, sie := { s.sie with entries := (s.sie.entries + 1) % 2 ^ 64 } }, hit) := by
  have hsweep : sweep s b epoch st rec q x y z 0 1 = (s, hit, 1) := by
    rw [sweep, Nat.add_zero, readRange_hub (by decide) (by decide) hc]
    cases hit <;> simp [hhit, sweep]
  simp only [sieveCheck, hst, hv, ne_eq, not_true_eq_false, if_false, h1, hsweep]
  cases hit
  · rfl
  · simp [Nat.mod_one, b2n, State.took]

/-! ### The search (R197) -/

/-- The start state of a search. -/
def startState (r : List Byte) : OpenSt :=
  { x := rqX r, y := rqY r, hb := rqHb r, sb := rqSb r, depth := 0, g := 0, f := fOf r (rqX r) (rqY r) 0, succ := fld r 0x50 4, chain := [], dur := 0 }

theorem runSearch_eq (s : State) (c : Cycle) (limit : Nat) : runSearch s c limit =
    searchLoop c.req (c.pinE.map (fun b => (b, c.eSearch))) (candidates s (fld c.req 0xC 1)).2 (min limit (fld c.req 0x54 4))
      (candidates s (fld c.req 0xC 1)).1 { opens := [startState c.req], visited := [], ranked := [] } := rfl

section
variable (r : List Byte) (pin : Option (Nat × Nat)) (cands : List (Nat × Nat × List Byte)) (s : State)

/-- A search without open states has ended. -/
theorem searchLoop_proven (fuel : Nat) {t : Search} (h : t.opens = []) : searchLoop r pin cands fuel s t = (s, t.ranked, false) := by
  cases fuel <;> simp [searchLoop, h, bestOpen]

/-- A search that may expand nothing ends at its budget. -/
theorem searchLoop_budget (n : OpenSt) : searchLoop r pin cands 0 s { opens := [n], visited := [], ranked := [] } = (s, [], true) := by
  simp [searchLoop, bestOpen, Search.full]

/-- A search expands its one open state. -/
theorem searchLoop_expand {fuel : Nat} (hf : 0 < fuel) (n : OpenSt) {u : State} {t : Search}
    (h : cands.foldl (fun a c => candidate r pin n a c.1 c.2.1 c.2.2) (s, { opens := [], visited := [], ranked := [] }) = (u, t)) (ht : t.opens = []) :
    searchLoop r pin cands fuel s { opens := [n], visited := [], ranked := [] } = (u, t.ranked, false) := by
  obtain ⟨fuel, rfl⟩ := Nat.exists_eq_add_of_lt hf
  rw [Nat.zero_add]
  rw [searchLoop]
  simp [bestOpen, Search.full, eraseFirst, h, searchLoop_proven r pin cands u fuel ht]
end

/-- The end state of a primitive from the start state, as the list holds it: its cost and its chain of one. -/
def firstPlan (r rec : List Byte) (slot idx : Nat) : Ranked :=
  let q := rqHb r / 16
  let e := rotEnd q (sint 16 (fld rec 8 2), sint 16 (fld rec 10 2))
  { f := fOf r (s32 (rqX r + e.1)) (s32 (rqY r + e.2)) (fld rec 0x10 4), g := fld rec 0x10 4,
    chain := [{ set := slot, q := q, idx := idx, x := rqX r, y := rqY r, off := 0 }] }

/-- A primitive that fits the start state of a search of horizon 1, with no cost samples and one swept entry (R193, R196). -/
structure FitsStart (r rec : List Byte) : Prop where
  heading : fld rec 0 1 = rqHb r % 16
  speed : fld rec 1 1 = rqSb r
  follows : bit (fld r 0x50 4) (fld rec 4 1) = true
  samples : fld rec 0x1C 1 = 0
  entries : fld rec 6 2 = 1
  horizon : rqHorizon r = 1

/-- The state with one candidate more counted (R204). -/
def candCounted (s : State) : State := { s with sie.cand := (s.sie.cand + 1) % 2 ^ 64 }

/-- Such a primitive is counted and checked; it is listed where it does not collide, and nothing is left open. -/
theorem candidate_first {r rec : List Byte} {pin : Option (Nat × Nat)} {s u : State} {slot idx : Nat} {hit : Bool} (h : FitsStart r rec)
    (hcheck : sieveCheck (candCounted s) pin slot rec (rqHb r / 16) (rqX r) (rqY r) (rqZ r) = (u, hit)) :
    ∃ t, candidate r pin (startState r) (s, { opens := [], visited := [], ranked := [] }) slot idx rec = (u, t) ∧ t.opens = [] ∧
      t.ranked = if hit then [] else [firstPlan r rec slot idx] := by
  obtain ⟨hheading, hspeed, hclass, hsamples, -, hhorizon⟩ := h
  have hedge : edgeCost s r rec (rqHb r / 16) (rqX r) (rqY r) = (s, some (fld rec 0x10 4)) := by
    rw [edgeCost, hsamples, List.range_zero, List.foldl_nil]
    simp
  have hlt : ¬ 2 ^ 32 ≤ fld rec 0x10 4 := Nat.not_le.mpr (fld_lt rec 0x10 4)
  rw [candCounted] at hcheck
  cases hit <;>
    simp [-Nat.reducePow, candidate, startState, hheading, hspeed, hclass, Search.full, hedge, hlt, hcheck, hhorizon, rankInsert, firstPlan]

/-! ### Whole searches -/

/-- What the search of a cycle leaves: its list, candidates and entries counted, free values taken. -/
def searched (s : State) (seen k : Nat) : State :=
  { s with
    free := s.free + k
    sie := { s.sie with cand := if seen = 0 then s.sie.cand else (s.sie.cand + seen) % 2 ^ 64,
                        entries := if seen = 0 then s.sie.entries else (s.sie.entries + seen) % 2 ^ 64 } }

section
variable {s : State} {c : Cycle}

/-- A search without candidates ends with an empty list: at its budget where it may expand nothing. -/
theorem runSearch_none (hmax : 1 ≤ fld c.req 0x54 4) (h : ∀ n, n < 8 → bit (fld c.req 0xC 1) n = true → s.pln.sets.get n = none) (limit : Nat) :
    runSearch s c limit = (s, [], decide (limit = 0)) := by
  rw [runSearch_eq, candidates_none h]
  by_cases hlimit : limit = 0
  · rw [hlimit, Nat.zero_min, searchLoop_budget]
    rfl
  · rw [searchLoop_expand _ _ _ _ (by omega) _ (u := s) (t := { opens := [], visited := [], ranked := [] }) rfl rfl]
    simp [hlimit]

/-- A search with one candidate, of one swept entry, lists its end state where the entry does not collide. -/
theorem runSearch_single (hmax : 1 ≤ fld c.req 0x54 4) {n b limit : Nat} {st : PlanSet} {hit : Bool} (hlimit : 0 < limit) (hn : n < 8)
    (hmask : fld c.req 0xC 1 = 2 ^ n) (hst : s.pln.sets.get n = some st) (hk : st.kind = 0) (h1 : st.nprim = 1) (hv : st.voxel = s.sie.voxel)
    (hrec : CleanHub s (st.addr + 0x100) 64) (hfit : FitsStart c.req (s.fab.mem.readN (st.addr + 0x100) 64))
    (hent : CleanHub s (st.addr + 16 * fld (s.fab.mem.readN (st.addr + 0x100) 64) 0x18 4) 16) (hpin : c.pinE = some b)
    (hhit : entryCollides (candCounted s) b c.eSearch
      (s.fab.mem.readN (st.addr + 16 * fld (s.fab.mem.readN (st.addr + 0x100) 64) 0x18 4) 16) (rqHb c.req / 16) (rqX c.req) (rqY c.req) (rqZ c.req) =
      (candCounted s, hit)) :
    runSearch s c limit =
      (searched s 1 (b2n hit), if hit then [] else [firstPlan c.req (s.fab.mem.readN (st.addr + 0x100) 64) n 0], false) := by
  have hcheck : sieveCheck (candCounted s) (some (b, c.eSearch)) n (s.fab.mem.readN (st.addr + 0x100) 64) (rqHb c.req / 16) (rqX c.req)
      (rqY c.req) (rqZ c.req) = (searched s 1 (b2n hit), hit) := sieveCheck_one (s := candCounted s) hst hv hfit.entries hent hhit
  obtain ⟨t, hcand, hopens, hranked⟩ := candidate_first (idx := 0) hfit hcheck
  have hfuel : 0 < min limit (fld c.req 0x54 4) := by omega
  rw [runSearch_eq, hmask, candidates_single hn hst hk h1 hrec, hpin, ← hranked]
  refine searchLoop_expand _ _ _ _ hfuel _ ?_ hopens
  rw [List.foldl_cons, List.foldl_nil]
  exact hcand
end

/-! ### The end of a search (R197, R199) -/

/-- The search of cycle `c` has ended with a list after `seen` candidates, each of one swept entry, with `k` free values taken: the newest epoch
is pinned for the check. -/
def SearchEnded (s t : State) (now : Nat) (c : Cycle) (l : List Ranked) (budget : Bool) (seen k : Nat) : Prop :=
  t = { s.advance now with
    free := s.free + k
    pln.cycle := some { c with pinN := s.sie.cur, eCheck := s.sie.curEpoch, ended := some (l, budget) }
    sie := { s.sie with pins := t.sie.pins, cand := if seen = 0 then s.sie.cand else (s.sie.cand + seen) % 2 ^ 64,
                        entries := if seen = 0 then s.sie.entries else (s.sie.entries + seen) % 2 ^ 64 } } ∧
  ∀ n, t.sie.pins.get n = s.sie.pins.get n + if s.sie.cur = some n then 1 else 0

theorem searchEnd_ended {s : State} {now limit seen k : Nat} {timed budget : Bool} {c : Cycle} {l : List Ranked} (hc : s.pln.cycle = some c)
    (h : runSearch (s.advance now) c limit = (searched (s.advance now) seen k, l, budget)) :
    SearchEnded s (searchEnd (s.advance now) c limit timed) now c l budget seen k := by
  have hbudget : (timed && budget || budget) = budget := by cases timed <;> cases budget <;> rfl
  obtain ⟨hpin, hpins⟩ := addPin_spec (searched (s.advance now) seen k) (searched (s.advance now) seen k).sie.cur
  have hcur : (searched (s.advance now) seen k).sie.cur = s.sie.cur := by simp [searched]
  have heq : searchEnd (s.advance now) c limit timed = { searched (s.advance now) seen k with
      pln.cycle := some { c with pinN := s.sie.cur, eCheck := s.sie.curEpoch, ended := some (l, budget) }
      sie := { (searched (s.advance now) seen k).sie with pins := (addPin (searched (s.advance now) seen k) s.sie.cur).sie.pins } } := by
    rw [hcur] at hpin
    simp only [searchEnd, h, hcur]
    rw [hpin]
    simp [hc, hbudget, searched]
  rw [hcur] at hpins
  rw [heq]
  refine ⟨?_, fun n => (hpins n).trans ?_⟩
  · simp [-Nat.reducePow, searched]
  · simp [searched]

/-! ### PLAN_SEARCH_END and PLAN_TIME_LIMIT (R197) -/

/-- Advancing device time changes the time base only. -/
theorem advance_time (s : State) (now : Nat) : ∃ T, s.advance now = { s with time := T } := by
  unfold State.advance
  split
  · exact ⟨_, rfl⟩
  · exact ⟨_, rfl⟩

theorem planSearchEnd_running {s : State} {c : Cycle} (hc : s.pln.cycle = some c) (he : c.ended = none) :
    planSearchEnd s = searchEnd s c (2 ^ 32) false := by
  simp [planSearchEnd, hc, he]

theorem planTimeLimit_running {s : State} {c : Cycle} (e : Nat) (hc : s.pln.cycle = some c) (he : c.ended = none) :
    planTimeLimit s e = if timeUp s c = true then searchEnd s c e true else s := by
  simp [planTimeLimit, hc, he]

theorem planSearchEnd_idle {s : State} (h : s.pln.cycle = none ∨ ∃ c l, s.pln.cycle = some c ∧ c.ended = some l) : planSearchEnd s = s := by
  rcases h with h | ⟨c, l, h, he⟩
  · simp [planSearchEnd, h]
  · simp [planSearchEnd, h, he]

theorem planTimeLimit_idle {s : State} (e : Nat) (h : s.pln.cycle = none ∨ ∃ c l, s.pln.cycle = some c ∧ c.ended = some l) :
    planTimeLimit s e = s := by
  rcases h with h | ⟨c, l, h, he⟩
  · simp [planTimeLimit, h]
  · simp [planTimeLimit, h, he]

end Sys2Proof.Machine
end

section
/-! PROOFS. Releases of the planner: the plan chosen, the record and what is sent with it (R199–R203, R352, R353). -/

namespace Sys2Proof.Machine

/-! ### Records (R202, R352) -/

@[simp] theorem length_planRecord (req : Nat) (p : Plan) (flags seq eSearch eCheck rel sensor cost : Nat) :
    (planRecord req p flags seq eSearch eCheck rel sensor cost).length = 320 := by
  rw [planRecord, length_slice]

section
variable {req : Nat} {p : Plan} {flags seq eSearch eCheck rel sensor cost : Nat}

theorem planRecord_status (h : p.status < 65536) : fld (planRecord req p flags seq eSearch eCheck rel sensor cost) 0 2 = p.status := by
  rw [planRecord, fld_slice _ (by decide)]
  simp [fld, slice, leBytes, leNat]
  omega

theorem planRecord_flags (h : flags < 65536) : fld (planRecord req p flags seq eSearch eCheck rel sensor cost) 2 2 = flags := by
  rw [planRecord, fld_slice _ (by decide)]
  simp [fld, slice, leBytes, leNat]
  omega

/-- The number of primitives of a record. -/
theorem planRecord_count (h : p.prims.length < 256) :
    fld (planRecord req p flags seq eSearch eCheck rel sensor cost) 10 1 = p.prims.length := by
  rw [planRecord, fld_slice _ (by decide)]
  simp [fld, slice, leBytes, leNat]
  omega
end

theorem length_e2eBytes (src stream seq dt : Nat) (pay : List Byte) : (e2eBytes src stream seq dt pay).length = 24 + pay.length := by
  simp [e2eBytes, putBytes]

/-! ### What a release sends (R201, R353) -/

/-- An island's ingress range (R27). -/
theorem target_ingress {a i off : Nat} (hi : i < 2) (ho : off < 0x10000) (ha : a = 0x7000000000 + i * 0x1000000 + off) :
    target a = .ingress i off := by
  unfold target
  rw [if_neg (by simp only [dieSpan]; omega), if_neg (by simp only [tileBase]; omega), if_neg (by simp only [hubBase]; omega)]
  obtain rfl | rfl : i = 0 ∨ i = 1 := by omega
  · rw [if_pos (by omega), show a - 0x7000000000 = off by omega]
  · rw [if_neg (by omega), if_pos (by omega), show a - 0x7001000000 = off by omega]

/-- 344 bytes from the start of a 256-byte block are two pieces (R37). -/
theorem pieces_record {a : Nat} (h : a % 256 = 0) : pieces a 344 = [(a, 0, 256), (a + 256, 256, 88)] := by
  have hk : (a + 344 + 255) / 256 - a / 256 = 2 := by omega
  have h1 : inPieces a 344 1 = 256 := by unfold inPieces; omega
  have h2 : inPieces a 344 2 = 344 := by unfold inPieces; omega
  rw [pieces_eq (by omega), hk]
  simp [List.range_succ, inPieces_zero, h1, h2]

theorem writeRange_two {s : State} {src label a : Nat} {bs : List Byte} {poison : Bool} {p q : Nat × Nat × Nat} (h : pieces a bs.length = [p, q]) :
    (writeRange s src label a bs poison).1 =
      (writeAt (writeAt s src label p.1 (slice bs p.2.1 p.2.2) poison).1 src label q.1 (slice bs q.2.1 q.2.2) poison).1 := by
  rw [writeRange, h]
  rfl

/-- An E2E record of the planner goes to an island in two frames (R25, R353). -/
theorem writeRange_ingress (s : State) {i label : Nat} {e : List Byte} (hi : i < 2) (he : e.length = 344) :
    (writeRange s srcPlanner label (ingressLane i srcPlanner) e false).1 =
      { s with toIslands := s.toIslands ++ [(i, .record 0x31 0xC400 (slice e 0 256)), (i, .record 0x31 0xC500 (slice e 256 88))] } := by
  have hsrc : 36 ≤ srcPlanner := by decide
  have hlane : ingressLane i srcPlanner = 0x7000000000 + i * 0x1000000 + 0xC400 := by simp only [ingressLane, srcPlanner]
  have hfirst := target_ingress (off := 0xC400) hi (by decide) hlane
  have hsecond := target_ingress (a := ingressLane i srcPlanner + 256) (off := 0xC500) hi (by decide) (by omega)
  have hpieces : pieces (ingressLane i srcPlanner) e.length = [(ingressLane i srcPlanner, 0, 256), (ingressLane i srcPlanner + 256, 256, 88)] := by
    rw [he]; exact pieces_record (by omega)
  rw [writeRange_two hpieces, writeAt_ingress hsrc hfirst, writeAt_ingress hsrc hsecond]
  simp only [ingressWrite, List.append_assoc, List.cons_append, List.nil_append]
  rfl

/-- What the islands receive of an E2E record of the planner. -/
def recordFrames (e : List Byte) : List (Nat × SafetyPayload) :=
  [(0, .record 0x31 0xC400 (slice e 0 256)), (0, .record 0x31 0xC500 (slice e 256 88)),
   (1, .record 0x31 0xC400 (slice e 0 256)), (1, .record 0x31 0xC500 (slice e 256 88))]

/-- An E2E record of the planner sent to both islands. -/
def sendRecord (s : State) (label : Nat) (e : List Byte) : State :=
  (List.range 2).foldl (fun s i => (writeRange s srcPlanner label (ingressLane i srcPlanner) e false).1) s

theorem sendRecord_eq (s : State) (label : Nat) {e : List Byte} (he : e.length = 344) :
    sendRecord s label e = { s with toIslands := s.toIslands ++ recordFrames e } := by
  have htwo : List.range 2 = [0, 1] := rfl
  rw [sendRecord, htwo, List.foldl_cons, List.foldl_cons, List.foldl_nil, writeRange_ingress _ (by decide) he, writeRange_ingress _ (by decide) he]
  simp only [recordFrames, List.append_assoc, List.cons_append, List.nil_append]

/-- The event of a released record raised and the cycle's pins given back (R189, R201). -/
def planTold (s : State) (c : Cycle) (seq status rank flags : Nat) : State :=
  dropPin (dropPin (raiseEvent s (if status = 3 then 0x0501 else 0x0500) c.launch.strobe.prog.toNat
    [seq + status * 2 ^ 32 + rank * 2 ^ 40 + flags * 2 ^ 48, rqOut c.req]) c.pinE) c.pinN

theorem planTold_spec (s : State) (c : Cycle) (seq status rank flags : Nat) :
    planTold s c seq status rank flags = { s with
      host := (planTold s c seq status rank flags).host
      sie := { s.sie with pins := (planTold s c seq status rank flags).sie.pins } } ∧
    EventsOnly s (planTold s c seq status rank flags) ∧
    Raised s (planTold s c seq status rank flags) (if status = 3 then 0x0501 else 0x0500) c.launch.strobe.prog.toNat
      [seq + status * 2 ^ 32 + rank * 2 ^ 40 + flags * 2 ^ 48, rqOut c.req] ∧
    ∀ n, (planTold s c seq status rank flags).sie.pins.get n =
      s.sie.pins.get n - ((if c.pinE = some n then 1 else 0) + if c.pinN = some n then 1 else 0) := by
  unfold planTold
  generalize (if status = 3 then 0x0501 else 0x0500) = code
  generalize [seq + status * 2 ^ 32 + rank * 2 ^ 40 + flags * 2 ^ 48, rqOut c.req] = pay
  obtain ⟨hhost, hevents, hraised, -⟩ := raiseEvent_spec s code c.launch.strobe.prog.toNat pay
  generalize raiseEvent s code c.launch.strobe.prog.toNat pay = u at hhost hevents hraised ⊢
  obtain ⟨hdrop, hpins⟩ := dropPin_spec u c.pinE
  generalize dropPin u c.pinE = v at hdrop hpins ⊢
  obtain ⟨hdrop', hpins'⟩ := dropPin_spec v c.pinN
  generalize dropPin v c.pinN = w at hdrop' hpins' ⊢
  have hw : w.host = u.host := by rw [hdrop', hdrop]
  have hsie : u.sie = s.sie := by rw [hhost]
  refine ⟨by rw [hdrop', hdrop, hhost], hevents.congr rfl hw, by rwa [Raised, hw], fun n => ?_⟩
  rw [hpins' n, hpins n, hsie, Nat.sub_sub]

/-! ### Releases (R199–R203) -/

/-- A map fault has marked the running cycle (R188). -/
def cycleMapBad (s : State) : Bool :=
  match s.pln.cycle with
  | some c => c.mapBad
  | none => false

theorem cycleMapBad_running {s : State} {c : Cycle} (hc : s.pln.cycle = some c) : cycleMapBad s = c.mapBad := by rw [cycleMapBad, hc]

/-- The flags of a released record (R202). -/
def releaseFlags (budget rechecked bad late reqBad : Bool) : Nat :=
  pack [(1, b2n budget), (1, b2n rechecked), (1, b2n bad), (1, b2n late), (1, b2n reqBad)]

theorem releaseFlags_eq (budget rechecked bad late reqBad : Bool) : releaseFlags budget rechecked bad late reqBad =
    b2n budget + 2 * b2n rechecked + 4 * b2n bad + 8 * b2n late + 16 * b2n reqBad := by
  revert budget rechecked bad late reqBad; decide

theorem bit_releaseFlags (budget rechecked bad late reqBad : Bool) : let f := releaseFlags budget rechecked bad late reqBad
    bit f 0 = budget ∧ bit f 1 = rechecked ∧ bit f 3 = late := by
  revert budget rechecked bad late reqBad; decide

/-- The record of a plan of cycle `c`: what the cycle does not know is a free value (R203). -/
def releaseRecord (s : State) (c : Cycle) (p : Plan) (flags : Nat) : List Byte :=
  planRecord c.launch.strobe.prog.toNat p flags ((s.pln.seq + 1) % 2 ^ 32)
    (if c.pinE.isSome then c.eSearch else (Config.freeQuad (s.free + 0)).toNat % 2 ^ 32)
    (if c.pinN.isSome then c.eCheck else (Config.freeQuad (s.free + 1)).toNat % 2 ^ 32) s.dt
    (match c.pinN with
      | some b => fld (bufHdr s b) 0x28 8
      | none => (Config.freeQuad (s.free + 2)).toNat)
    (p.cost.getD ((Config.freeQuad (s.free + 3)).toNat % 2 ^ 32))

/-- The planner after a release with its flags (R201, R204). -/
def releasedPlanner (q : Planner) (seq dt : Nat) (c : Cycle) (p : Plan) (rec_ : List Byte) (budget rechecked late outErr : Bool) : Planner :=
  { q with
    cycle := none, seq := seq, lastDt := dt, lastReq := c.launch.strobe.prog.toNat, lastStat := p.status, prev := some rec_
    e2eSeq := (q.e2eSeq + 1) % 2 ^ 32, cycCnt := cnt q.cycCnt 1, budCnt := cnt q.budCnt (b2n budget), rechkCnt := cnt q.rechkCnt (b2n rechecked)
    keptCnt := cnt q.keptCnt (b2n (p.status = 1)), stopCnt := cnt q.stopCnt (b2n (p.status = 2)), nspCnt := cnt q.nspCnt (b2n (p.status = 3))
    lateCnt := cnt q.lateCnt (b2n late), outErr := cnt q.outErr (b2n outErr), waiting := none }

/-- The launch of a cycle reported, after which a strobe that waits starts its own (R195, R201). -/
def planReported (s : State) (l : Launch) (q : Planner) : State :=
  let t := reportDone { s with pln := q } 36 l stOk
  match s.pln.waiting with
  | some l => cycleStart t l
  | none => t

theorem planReported_alone {s : State} (h : s.pln.waiting = none) (l : Launch) (q : Planner) :
    planReported s l q = reportDone { s with pln := q } 36 l stOk := by rw [planReported, h]

/-- The release of a chosen plan: its record is written and sent, the event raised and the pins given back, the launch reported. -/
def releasePlan (s : State) (c : Cycle) (p : Plan) (budget rechecked : Bool) : State :=
  let late := decide (c.launch.strobe.dt + rqBudget c.req < s.dt)
  let flags := releaseFlags budget rechecked (cycleMapBad s) late c.reqBad
  let seq := (s.pln.seq + 1) % 2 ^ 32
  let rec_ := releaseRecord s c p flags
  let w := writeRange { s with free := s.free + 4 } srcPlanner c.launch.strobe.label.toNat (rqOut c.req) rec_ false
  let u := sendRecord w.1 c.launch.strobe.label.toNat (e2eBytes srcPlanner Config.planStream.toNat w.1.pln.e2eSeq w.1.dt rec_)
  let v := planTold u c seq p.status p.rank flags
  planReported v c.launch (releasedPlanner v.pln seq v.dt c p rec_ budget rechecked late (w.2 ≠ stOk))

theorem planRelease_chosen {s : State} {c : Cycle} {ranked : List Ranked} {budget rechecked : Bool} {p : Plan} (hc : s.pln.cycle = some c)
    (he : c.ended = some (ranked, budget)) (hplan : choosePlan s c ranked = (s, p, rechecked)) :
    planRelease s = releasePlan s c p budget rechecked := by
  unfold planRelease
  simp -zeta only [hc, he, hplan]
  rfl

/-- A release without a strobe that waits, into hub SRAM that no buffer in use meets: every write is answered OK. -/
theorem releasePlan_sent {s : State} {c : Cycle} (p : Plan) (budget rechecked : Bool) (hc : s.pln.cycle = some c) (hw : s.pln.waiting = none)
    (hout : InHub (rqOut c.req) 320) (hfree : sieveLocked s (rqOut c.req) 320 = false) :
    let late := decide (c.launch.strobe.dt + rqBudget c.req < s.dt)
    let flags := releaseFlags budget rechecked c.mapBad late c.reqBad
    let rec_ := releaseRecord s c p flags
    let e := e2eBytes srcPlanner Config.planStream.toNat s.pln.e2eSeq s.dt rec_
    ∃ w v, HubStored { s with free := s.free + 4 } w (rqOut c.req) rec_ ∧
      planTold { w with toIslands := s.toIslands ++ recordFrames e } c ((s.pln.seq + 1) % 2 ^ 32) p.status p.rank flags = v ∧
      releasePlan s c p budget rechecked =
        reportDone { v with pln := releasedPlanner s.pln ((s.pln.seq + 1) % 2 ^ 32) s.dt c p rec_ budget rechecked late false } 36 c.launch stOk := by
  intro late flags rec_ e
  have hlen : rec_.length = 320 := length_planRecord ..
  have he : e.length = 344 := by rw [length_e2eBytes, hlen]
  obtain ⟨w, hwrite, hstored⟩ := writeRange_hub (s := { s with free := s.free + 4 }) (src := srcPlanner) (label := c.launch.strobe.label.toNat)
    (a := rqOut c.req) (bs := rec_) (by decide) (by omega) (hlen ▸ hout) (hlen ▸ hfree)
  have hw' : w.pln = s.pln ∧ w.dt = s.dt ∧ w.toIslands = s.toIslands := by rw [hstored.1]; exact ⟨rfl, rfl, rfl⟩
  obtain ⟨hpln, hdt, hsent⟩ := hw'
  have hseen : e2eBytes srcPlanner Config.planStream.toNat w.pln.e2eSeq w.dt rec_ = e := by rw [hpln, hdt]
  have hsend : sendRecord w c.launch.strobe.label.toNat (e2eBytes srcPlanner Config.planStream.toNat w.pln.e2eSeq w.dt rec_) =
      { w with toIslands := s.toIslands ++ recordFrames e } := by
    rw [hseen, sendRecord_eq w _ he, hsent]
  obtain ⟨v, hv⟩ : ∃ v, planTold { w with toIslands := s.toIslands ++ recordFrames e } c ((s.pln.seq + 1) % 2 ^ 32) p.status p.rank flags = v :=
    ⟨_, rfl⟩
  have hframe := (planTold_spec { w with toIslands := s.toIslands ++ recordFrames e } c ((s.pln.seq + 1) % 2 ^ 32) p.status p.rank flags).1
  rw [hv] at hframe
  have hv' : v.pln = s.pln ∧ v.dt = s.dt := by rw [hframe]; exact ⟨hpln, hdt⟩
  obtain ⟨hvpln, hvdt⟩ := hv'
  refine ⟨w, v, hstored, hv, ?_⟩
  simp only [releasePlan, cycleMapBad_running hc]
  rw [hwrite, hsend, hv, planReported_alone (by rw [hvpln, hw]), hvpln, hvdt]
  simp only [ne_eq, not_true_eq_false, decide_false]
  rfl

/-- The record that such a release of cycle `c` makes, its plan as chosen, is released with its flags (R201–R203). -/
theorem planReleased_releasePlan {s : State} {now : Nat} {c : Cycle} (p : Plan) (budget : Bool) (hc : s.pln.cycle = some c)
    (hw : s.pln.waiting = none) (hout : InHub (rqOut c.req) 320) (hfree : sieveLocked s (rqOut c.req) 320 = false) :
    let s' := s.advance now
    let flags := releaseFlags budget false c.mapBad (decide (c.launch.strobe.dt + rqBudget c.req < s'.dt)) c.reqBad
    PlanReleased s (releasePlan s' c p budget false) now c (releaseRecord s' c p flags) p.status p.rank flags
      (fun n => (if c.pinE = some n then 1 else 0) + if c.pinN = some n then 1 else 0) := by
  obtain ⟨T, hT⟩ := advance_time s now
  rw [hT]
  intro s' flags
  obtain ⟨w, v, hstored, hv, heq⟩ := releasePlan_sent (s := s') p budget false hc hw hout hfree
  obtain ⟨hbudget, hrecheck, hlate⟩ := bit_releaseFlags budget false c.mapBad (decide (c.launch.strobe.dt + rqBudget c.req < s'.dt)) c.reqBad
  have htold := planTold_spec { w with toIslands := s.toIslands ++ recordFrames (e2eBytes srcPlanner Config.planStream.toNat s.pln.e2eSeq s'.dt
    (releaseRecord s' c p flags)) } c ((s.pln.seq + 1) % 2 ^ 32) p.status p.rank flags
  rw [hv] at htold
  obtain ⟨hframe, hevents, hraised, hpins⟩ := htold
  obtain ⟨hw', hmem⟩ := hstored
  obtain ⟨m, x, rfl⟩ : ∃ m x, w = { s' with free := s.free + 4, fab := { s.fab with mem := m, poison := x } } := ⟨_, _, hw'⟩
  obtain ⟨h, k, rfl⟩ : ∃ h k, v = { s' with
      host := h, free := s.free + 4, fab := { s.fab with mem := m, poison := x }, sie := { s.sie with pins := k }
      toIslands := s.toIslands ++ recordFrames (e2eBytes srcPlanner Config.planStream.toNat s.pln.e2eSeq s'.dt (releaseRecord s' c p flags)) } :=
    ⟨_, _, hframe⟩
  rw [heq]
  refine ⟨?_, hmem, hevents.congr rfl rfl, ?_, hpins⟩
  · simp only [hbudget, hrecheck, hlate, hT, flags]
    rfl
  · rw [hT]
    exact hraised

/-! ### The plan chosen (R199, R200) -/

/-- The plan of a ranked chain from the start of a request (R199). -/
def newPlan (r : List Byte) (n : Nat) (x : Ranked) : Plan :=
  { status := 0, rank := n, prims := x.chain, t0 := rqT0 r, cost := some x.g, x := rqX r, y := rqY r }

/-- No safe plan (R200). -/
def noSafePlan (r : List Byte) : Plan := { status := 3, rank := 0xFF, prims := [], t0 := rqT0 r, cost := none, x := rqX r, y := rqY r }

/-- Rank 0 is chosen unchecked where the check epoch is the search epoch (R199). -/
theorem choosePlan_same {s : State} {c : Cycle} (x : Ranked) (rest : List Ranked) (hok : c.reqBad = false) (hpin : c.pinN = c.pinE)
    (he : c.eCheck = c.eSearch) : choosePlan s c (x :: rest) = (s, newPlan c.req 0 x, false) := by
  simp [choosePlan, hok, hpin, he, newPlan]

theorem choosePlan_bad {s : State} {c : Cycle} (ranked : List Ranked) (hbad : c.reqBad = true) :
    choosePlan s c ranked = (s, noSafePlan c.req, false) := by
  simp [choosePlan, hbad, noSafePlan]

theorem planRelease_idle {s : State} (h : s.pln.cycle = none ∨ ∃ c, s.pln.cycle = some c ∧ c.ended = none) : planRelease s = s := by
  rcases h with h | ⟨c, h, he⟩
  · simp [planRelease, h]
  · simp [planRelease, h, he]

end Sys2Proof.Machine
end

section
/-! PROOFS. Planning cycles from strobe to release, and published epochs (R187, R190, R191, R195–R204). -/

namespace Sys2Proof.Machine

/-- A strobe at a ready planner without a cycle: a program that does not exist is reported, another starts a cycle (R195). -/
theorem plannerStrobe_starts {b : Strobe} {s : State} (hready : plannerReady s = true) (hheld : s.cal.held.get 36 = []) (hc : s.pln.cycle = none) :
    plannerStrobe s b = cycleStart s { strobe := b, link := none } := by
  rw [plannerStrobe_ready hready hheld, hc]
  rfl

theorem plannerStrobe_badProgram {b : Strobe} {s : State} (hready : plannerReady s = true) (hheld : s.cal.held.get 36 = [])
    (hc : s.pln.cycle = none) (hp : 15 < b.prog.toNat) : Completes (.plannerStrobe b) s (fun t =>
      t = { s with host := t.host, cal := { s.cal with done := s.cal.done.modify 36 (· ++ [({ strobe := b, link := none }, stBadProgram)]) } } ∧
      EventsOnly s t ∧ Raised s t 0x0502 0 [1 + b.prog.toNat * 65536]) := by
  obtain ⟨hframe, hevents, hraised, -⟩ := raiseEvent_spec s 0x0502 0 [1 + b.prog.toNat * 65536]
  refine ⟨_, congrArg Host.Outcome.next ((plannerStrobe_starts hready hheld hc).trans (if_pos hp)), ?_, hevents, hraised⟩
  rw [hframe]
  rfl

theorem plannerStrobe_request {b : Strobe} {s : State} {req : List Byte} (hready : plannerReady s = true) (hheld : s.cal.held.get 36 = [])
    (hc : s.pln.cycle = none) (hp : b.prog.toNat ≤ 15) (hclean : CleanHub s (s.pln.reqBase + 128 * b.prog.toNat) 128)
    (hr : s.fab.mem.readN (s.pln.reqBase + 128 * b.prog.toNat) 128 = req) :
    Completes (.plannerStrobe b) s (fun t => EventsOnly s t ∧
      t = { s with host := t.host, sie := { s.sie with pins := t.sie.pins }, pln.cycle := some (newCycle s { strobe := b, link := none } req) } ∧
      (∀ n, t.sie.pins.get n = s.sie.pins.get n + if s.sie.cur = some n then 1 else 0) ∧
      (requestOk req = true → t.host = s.host) ∧ (requestOk req = false → Raised s t 0x0502 0 [2 + b.prog.toNat * 65536])) := by
  obtain ⟨u, hu⟩ : ∃ u, cycleStarted s { strobe := b, link := none } req = u := ⟨_, rfl⟩
  have hframe := cycleStarted_frame s { strobe := b, link := none } req
  have hpins : ∀ n, u.sie.pins.get n = s.sie.pins.get n + if s.sie.cur = some n then 1 else 0 := hu ▸ (addPin_spec s s.sie.cur).2
  have hstart := cycleStart_request (s := s) (l := { strobe := b, link := none }) hp hclean hr
  rw [hu] at hframe hstart
  have hhost : u.host = s.host := by rw [hframe]
  have hdt : u.dt = s.dt := by rw [hframe]; rfl
  refine ⟨_, congrArg Host.Outcome.next ((plannerStrobe_starts hready hheld hc).trans hstart), ?_⟩
  by_cases hok : requestOk req = true
  · rw [if_pos hok]
    exact ⟨(EventsOnly.refl s).congr rfl hhost, by rw [hhost]; exact hframe, hpins, fun _ => hhost, fun h => absurd (hok.symm.trans h) (by decide)⟩
  · rw [if_neg hok]
    obtain ⟨hraise, hevents, hraised, -⟩ := raiseEvent_spec u 0x0502 0 [2 + b.prog.toNat * 65536]
    generalize raiseEvent u 0x0502 0 [2 + b.prog.toNat * 65536] = t at hraise hevents hraised
    refine ⟨hevents.congr hhost.symm rfl, by rw [hraise, hframe], fun n => by rw [hraise]; exact hpins n, fun h => absurd h hok, fun _ => ?_⟩
    simpa only [Raised, hhost, hdt] using hraised

/-! ### Searches -/

/-- The time condition of a cycle or the coolant stop that stands for it (R197, R417). -/
theorem timeUp_iff (s : State) (now : Nat) (c : Cycle) : timeUp (s.advance now) c = true ↔
    c.launch.strobe.dt + rqBudget c.req ≤ (s.advance now).dt + s.pln.reserve * 1000 ∨ s.qch.coolant = 3 := by
  simp [timeUp]

section
variable {now : Nat} {c : Cycle} {s : State} (hc : s.pln.cycle = some c) (he : c.ended = none) (hmax : 1 ≤ fld c.req 0x54 4)
include hc he

/-- PLAN_SEARCH_END ends a running search with what the search finds. -/
theorem planSearchEnd_completes {l : List Ranked} {budget : Bool} {seen k : Nat}
    (h : runSearch (s.advance now) c (2 ^ 32) = (searched (s.advance now) seen k, l, budget)) :
    Completes (.planSearchEnd now) s (fun t => SearchEnded s t now c l budget seen k) :=
  ⟨_, congrArg Host.Outcome.next (planSearchEnd_running (by rw [State.advance_pln, hc]) he), searchEnd_ended hc h⟩

theorem planTimeLimit_completes {l : List Ranked} {budget : Bool} {e seen k : Nat} (hup : timeUp (s.advance now) c = true)
    (h : runSearch (s.advance now) c e = (searched (s.advance now) seen k, l, budget)) :
    Completes (.planTimeLimit now e) s (fun t => SearchEnded s t now c l budget seen k) :=
  ⟨_, congrArg Host.Outcome.next ((planTimeLimit_running e (by rw [State.advance_pln, hc]) he).trans (if_pos hup)), searchEnd_ended hc h⟩

theorem planTimeLimit_early {e : Nat} (hup : ¬ timeUp (s.advance now) c = true) : exec (.planTimeLimit now e) s = .next (s.advance now) :=
  congrArg Host.Outcome.next ((planTimeLimit_running e (by rw [State.advance_pln, hc]) he).trans (if_neg hup))

include hmax

/-- A search with one candidate over a map of one cube: EMPTY leaves the candidate, FULL leaves none (R188, R191). -/
theorem planSearchEnd_root {n b : Nat} {st : PlanSet} {rec_ e : List Byte} {root : Nat} (hn : n < 8) (hmask : fld c.req 0xC 1 = 2 ^ n)
    (hst : s.pln.sets.get n = some st) (hk : st.kind = 0) (h1 : st.nprim = 1) (hv : st.voxel = s.sie.voxel)
    (hrec : CleanHub s (st.addr + 0x100) 64) (hrec' : s.fab.mem.readN (st.addr + 0x100) 64 = rec_) (hfit : FitsStart c.req rec_)
    (hent : CleanHub s (st.addr + 16 * fld rec_ 0x18 4) 16) (hent' : s.fab.mem.readN (st.addr + 16 * fld rec_ 0x18 4) 16 = e)
    (hpin : c.pinE = some b) (hlen : 24 ≤ (s.sie.bufs.get b).2) (hroot : CleanHub s ((s.sie.bufs.get b).1 + 0x10) 8)
    (hroot' : leNat (s.fab.mem.readN ((s.sie.bufs.get b).1 + 0x10) 8) = root)
    (hx : InMap s (entryCell s b e (rqHb c.req / 16) (rqX c.req) (rqY c.req) (rqZ c.req)).1)
    (hy : InMap s (entryCell s b e (rqHb c.req / 16) (rqX c.req) (rqY c.req) (rqZ c.req)).2.1)
    (hz : InMap s (entryCell s b e (rqHb c.req / 16) (rqX c.req) (rqY c.req) (rqZ c.req)).2.2) :
    (field root 63 62 = 0 → Completes (.planSearchEnd now) s (fun t => SearchEnded s t now c [firstPlan c.req rec_ n 0] false 1 0)) ∧
    (field root 63 62 = 1 → Completes (.planSearchEnd now) s (fun t => SearchEnded s t now c [] false 1 1)) := by
  subst hrec' hent' hroot'
  obtain ⟨T, hT⟩ := advance_time s now
  obtain ⟨hempty, hfull⟩ := entryCollides_root (s := candCounted { s with time := T }) (epoch := c.eSearch) hx hy hz (bufWord_clean hlen hroot)
  have hsearch := fun hit => runSearch_single (s := { s with time := T }) (c := c) (limit := 2 ^ 32) (hit := hit) hmax (by decide) hn hmask hst hk h1 hv
    hrec hfit hent hpin
  refine ⟨fun h => planSearchEnd_completes hc he ?_, fun h => planSearchEnd_completes hc he ?_⟩
  · rw [hT]
    exact hsearch false (hempty h)
  · rw [hT]
    exact hsearch true (hfull h)
end

/-! ### Releases -/

section
variable {now : Nat} {c : Cycle} {s : State} (hc : s.pln.cycle = some c) (hw : s.pln.waiting = none) (hout : InHub (rqOut c.req) 320)
  (hfree : sieveLocked s (rqOut c.req) 320 = false)
include hc hw hout hfree

/-- PLAN_RELEASE of a plan chosen without a check releases its record. -/
theorem planRelease_completes {ranked : List Ranked} {budget late : Bool} {p : Plan} {flags : Nat} (he : c.ended = some (ranked, budget))
    (hplan : choosePlan (s.advance now) c ranked = (s.advance now, p, false))
    (hlate : decide (c.launch.strobe.dt + rqBudget c.req < (s.advance now).dt) = late)
    (hflags : releaseFlags budget false c.mapBad late c.reqBad = flags) :
    Completes (.planRelease now) s (fun t => PlanReleased s t now c (releaseRecord (s.advance now) c p flags) p.status p.rank flags
      (fun n => (if c.pinE = some n then 1 else 0) + if c.pinN = some n then 1 else 0)) := by
  subst hlate hflags
  exact ⟨_, congrArg Host.Outcome.next (planRelease_chosen (by rw [State.advance_pln, hc]) he hplan),
    planReleased_releasePlan p budget hc hw hout hfree⟩

/-- Of a cycle whose map has not changed since its search rank 0 is released, with status NEW (R199, R203). -/
theorem planRelease_new {x : Ranked} {rest : List Ranked} {budget late : Bool} {b flags : Nat} (he : c.ended = some (x :: rest, budget))
    (hok : c.reqBad = false) (hpinE : c.pinE = some b) (hpinN : c.pinN = some b) (hepoch : c.eCheck = c.eSearch)
    (hlate : decide (c.launch.strobe.dt + rqBudget c.req < (s.advance now).dt) = late)
    (hflags : flags = b2n budget + 4 * b2n c.mapBad + 8 * b2n late) :
    Completes (.planRelease now) s (fun t => PlanReleased s t now c (planRecord c.launch.strobe.prog.toNat (newPlan c.req 0 x) flags
      ((s.pln.seq + 1) % 2 ^ 32) c.eSearch c.eSearch (s.advance now).dt (fld (bufHdr s b) 0x28 8) x.g) 0 0 flags (fun n => if n = b then 2 else 0)) := by
  have hplan : choosePlan (s.advance now) c (x :: rest) = (s.advance now, newPlan c.req 0 x, false) :=
    choosePlan_same x rest hok (hpinN.trans hpinE.symm) hepoch
  have hflags' : releaseFlags budget false c.mapBad late c.reqBad = flags := by rw [releaseFlags_eq, hok, hflags]; simp [b2n]
  have hrec : releaseRecord (s.advance now) c (newPlan c.req 0 x) flags = planRecord c.launch.strobe.prog.toNat (newPlan c.req 0 x) flags
      ((s.pln.seq + 1) % 2 ^ 32) c.eSearch c.eSearch (s.advance now).dt (fld (bufHdr s b) 0x28 8) x.g := by
    simp only [releaseRecord, hpinE, hpinN, hepoch, bufHdr, State.advance_pln, State.advance_fab, State.advance_sie]
    rfl
  have hpins : (fun n => (if c.pinE = some n then 1 else 0) + if c.pinN = some n then 1 else 0) = fun n => if n = b then 2 else 0 := by
    funext n
    by_cases h : n = b
    · simp [hpinE, hpinN, h]
    · simp [hpinE, hpinN, h, Ne.symm h]
  rw [← hrec, ← hpins]
  exact planRelease_completes hc hw hout hfree he hplan hlate hflags'

/-- Of a bad request a record without a plan is released (R195, R200). -/
theorem planRelease_noSafePlan {late : Bool} {flags : Nat} (he : c.ended = some ([], false)) (hbad : c.reqBad = true) (hpinN : c.pinN = none)
    (hlate : decide (c.launch.strobe.dt + rqBudget c.req < (s.advance now).dt) = late)
    (hflags : flags = 4 * b2n c.mapBad + 8 * b2n late + 16) :
    Completes (.planRelease now) s (fun t => ∃ rec_, rec_.length = 320 ∧ fld rec_ 0 2 = 3 ∧ fld rec_ 2 2 = flags ∧ fld rec_ 10 1 = 0 ∧
      PlanReleased s t now c rec_ 3 0xFF flags (fun n => if c.pinE = some n then 1 else 0)) := by
  have hflags' : releaseFlags false false c.mapBad late c.reqBad = flags := by rw [releaseFlags_eq, hbad, hflags]; simp [b2n]
  have hsmall : flags < 65536 := by
    rw [hflags]
    cases c.mapBad <;> cases late <;> decide
  have hpins : (fun n => (if c.pinE = some n then 1 else 0) + if c.pinN = some n then 1 else 0) = fun n => if c.pinE = some n then 1 else 0 := by
    funext n
    simp [hpinN]
  obtain ⟨t, ht, hreleased⟩ := planRelease_completes hc hw hout hfree he (choosePlan_bad [] hbad) hlate hflags'
  rw [hpins] at hreleased
  have hempty : (noSafePlan c.req).prims.length < 256 := by simp [noSafePlan]
  exact ⟨t, ht, _, length_planRecord .., planRecord_status (show 3 < 65536 by decide), planRecord_flags hsmall,
    planRecord_count hempty, hreleased⟩
end

/-- Settles O44: a search without candidates, or with one of one swept entry, is followed step by step; a release of a plan that needs no check
writes, sends and reports its record. -/
theorem plannerCyclesRunAndRelease : Obligations.PlannerCyclesRunAndRelease := by
  unfold Obligations.PlannerCyclesRunAndRelease
  refine ⟨?_, ?_, ?_, ?_, ?_, fun _ => rfl, fun _ _ => rfl⟩
  · intro b s l p a r
    refine ⟨fun h => ?_, fun hready hheld => ⟨fun hc => ?_, fun hc hp => plannerStrobe_badProgram hready hheld hc hp,
      fun hc hp hclean => plannerStrobe_request hready hheld hc hp hclean rfl⟩⟩
    · exact congrArg Host.Outcome.next (if_neg (ne_true_of_eq_false h))
    · have hnone : ¬ s.pln.cycle.isNone = true := by simpa [Option.isSome_iff_ne_none] using hc
      exact congrArg Host.Outcome.next ((plannerStrobe_ready hready hheld).trans (if_neg hnone))
  · intro now c s s' hc he ends up hmax
    refine ⟨fun hnone => ⟨?_, fun hup => ?_⟩, fun e hup => ?_, ?_⟩
    · exact planSearchEnd_completes (seen := 0) (k := 0) hc he (runSearch_none hmax (by rwa [State.advance_pln]) _)
    · exact planTimeLimit_completes (seen := 0) (k := 0) hc he ((timeUp_iff s now c).mpr hup) (runSearch_none hmax (by rwa [State.advance_pln]) _)
    · exact planTimeLimit_early hc he (fun h => hup ((timeUp_iff s now c).mp h))
    · intro n b st hn hmask hst hk h1 hv rec_ ea e h q d x y inMap hrec hent hheading hspeed hclass hsamples hentries hhorizon hpin hlen hroot
        hx hy hz root
      exact planSearchEnd_root hc he hmax hn hmask hst hk h1 hv hrec rfl ⟨hheading, hspeed, hclass, hsamples, hentries, hhorizon⟩ hent rfl hpin
        hlen hroot rfl hx hy hz
  · intro now c s s' out late hc hw hlo hhi hfree
    exact ⟨fun x rest budget b he hok hpinE hpinN hepoch => planRelease_new hc hw ⟨hlo, hhi⟩ hfree he hok hpinE hpinN hepoch rfl rfl,
      fun he hbad hpinN => planRelease_noSafePlan hc hw ⟨hlo, hhi⟩ hfree he hbad hpinN rfl rfl⟩
  · intro now e s s'
    refine ⟨fun h => ⟨congrArg Host.Outcome.next (planSearchEnd_idle ?_), congrArg Host.Outcome.next (planTimeLimit_idle e ?_)⟩, fun h =>
      congrArg Host.Outcome.next (planRelease_idle ?_)⟩
    all_goals rwa [State.advance_pln]
  · intro src v s b x h e
    refine ⟨fun hvalid hcur hpin hlen hclean h0 h2 h3 h4 h6 h12 h48 hnext => ?_, fun hbad => ?_⟩
    · have hok : publishOk s b = true := publishOk_iff.mpr
        ⟨hvalid, hcur, hpin, hlen, by rw [hclean.hubRead], bufHdrOk_iff.mpr ⟨h0, h2, h3, h4, h6, h12, h48⟩, hnext⟩
      exact congrArg Host.Outcome.next ((siePublish_eq s src.toNat v.toNat).trans (if_pos hok))
    · have hno : ¬ publishOk s b = true := by
        intro hok
        obtain ⟨-, hcur, hpin, -, -, -, hnext⟩ := publishOk_iff.mp hok
        rcases hbad with hb | hb | ⟨hsome, hne⟩
        · exact hcur hb
        · omega
        · exact hnext.elim (fun hnone => by simp [hnone] at hsome) hne
      obtain ⟨hframe, hevents, hraised, -⟩ := raiseEvent_spec
        { s with sie.pubRej := cnt s.sie.pubRej 1, fab.net.decodeErrs := cnt s.fab.net.decodeErrs 1 } 0x0003 src.toNat [0x8000210018, 1]
      exact ⟨_, congrArg Host.Outcome.next ((siePublish_eq s src.toNat v.toNat).trans (if_neg hno)), hevents.congr rfl rfl, hraised, hframe⟩

end Sys2Proof.Machine
end


section
/-! PROOFS. The commands of the planner: buffers, primitive sets and the query (R182, R185, R204, R205). -/

namespace Sys2Proof.Machine

/-! ### PLN_CONFIG -/

/-- A PLN_CONFIG payload of its length with legal fields (R205). -/
structure PlnConfigLegal (pay : List Byte) : Prop where
  length : pay.length = 48
  voxel : 50 ≤ fld pay 0 2 ∧ fld pay 0 2 ≤ 400
  depth : 3 ≤ fld pay 2 1 ∧ fld pay 2 1 ≤ 12
  reserve : 50 ≤ fld pay 4 4 ∧ fld pay 4 4 ≤ 5000
  buffer0 : fld pay 8 8 % 64 = 0 ∧ fld pay 16 4 ≤ 25165824
  buffer1 : fld pay 24 8 % 64 = 0 ∧ fld pay 32 4 ≤ 25165824
  table : fld pay 40 8 % 64 = 0
  reserved : fld pay 3 1 = 0 ∧ fld pay 20 4 = 0 ∧ fld pay 36 4 = 0

/-- The planner's and the Sieve's configuration of a payload: no epoch, no pin, no previous plan (R205). -/
def plnConfigured (s : State) (pay : List Byte) : State :=
  { s with
    pln := { s.pln with reqBase := fld pay 40 8, reserve := fld pay 4 4, seq := 0, lastStat := 0xF, prev := none }
    sie := { s.sie with valid := true, voxel := fld pay 0 2, depth := fld pay 2 1,
                        bufs := { dflt := (0, 0), cells := [(0, (fld pay 8 8, fld pay 16 4)), (1, (fld pay 24 8, fld pay 32 4))] }
                        cur := none, curEpoch := 0, pins := Tab.const 0 } }

/-- The buffers lie in hub SRAM, and the request table in device memory (R187, R205). -/
structure PlnConfigPlaced (pay : List Byte) : Prop where
  buffer0 : InHub (fld pay 8 8) (fld pay 16 4)
  buffer1 : InHub (fld pay 24 8) (fld pay 32 4)
  table : fld pay 40 8 < hostBase

/-- PLN_CONFIG while strobes are accepted or a cycle runs or waits is BUSY; with buffers that overlap it is refused; else it configures. -/
theorem cmdPlnConfig_legal {s : State} {c : Cmd} (h : PlnConfigLegal c.pay) (hp : PlnConfigPlaced c.pay) : cmdPlnConfig s c =
    if s.pln.launchEn || plnBusy s then (s, reply stBusy 0 [])
    else if fld c.pay 8 8 < fld c.pay 24 8 + fld c.pay 32 4 ∧ fld c.pay 24 8 < fld c.pay 8 8 + fld c.pay 16 4 then (s, reply stDecodeError 0 [])
    else (plnConfigured s c.pay, reply stOk 0 c.pay) := by
  obtain ⟨hlen, hvoxel, hdepth, hreserve, hbuffer0, hbuffer1, htable, hreserved⟩ := h
  obtain ⟨⟨hlo0, hhi0⟩, ⟨hlo1, hhi1⟩, htop⟩ := hp
  have hfields : clampFields c.pay 48 [fr 0 2 50 400, fr 2 1 3 12, fz 3 1, fr 4 4 50 5000, fm 8 8 0 (2 ^ 64 - 1) 64, fr 16 4 0 25165824, fz 20 4,
      fm 24 8 0 (2 ^ 64 - 1) 64, fr 32 4 0 25165824, fz 36 4, fm 40 8 0 (2 ^ 64 - 1) 64] = (c.pay, 0) := by
    refine clampFields_whole hlen ?_
    have h8 := fld_lt c.pay 8 8
    have h24 := fld_lt c.pay 24 8
    have h40 := fld_lt c.pay 40 8
    simp only [List.forall_mem_cons, fr_legal, fm_legal, fz_legal, List.not_mem_nil, false_imp_iff, implies_true, and_true]
    omega
  have hin0 : ¬ (fld c.pay 8 8 < hubBase ∨ hubBase + 0x4000000 < fld c.pay 8 8 + fld c.pay 16 4) := by omega
  have hin1 : ¬ (fld c.pay 24 8 < hubBase ∨ hubBase + 0x4000000 < fld c.pay 24 8 + fld c.pay 32 4) := by omega
  have htop' : ¬ hostBase ≤ fld c.pay 40 8 := by omega
  simp only [cmdPlnConfig, hfields, hin0, hin1, htop', decide_false, Bool.or_false, Bool.false_or, decide_eq_true_eq]
  rfl

theorem plnBusy_iff {s : State} : plnBusy s = true ↔ s.pln.cycle ≠ none ∨ s.pln.waiting ≠ none := by
  simp [plnBusy, Option.isSome_iff_ne_none]

/-! ### PLN_SET_LOAD -/

/-- A PLN_SET_LOAD payload of its length with legal fields (R205). -/
structure PlnSetLoadLegal (pay : List Byte) : Prop where
  length : pay.length = 20
  slot : fld pay 0 1 < 8
  address : fld pay 8 8 % 64 = 0
  reserved : fld pay 1 7 = 0

theorem PlnSetLoadLegal.clampFields {pay : List Byte} (h : PlnSetLoadLegal pay) :
    Machine.clampFields pay 20 [fr 0 1 0 7, fz 1 7, fm 8 8 0 (2 ^ 64 - 1) 64, fa 16 4] = (pay, 0) := by
  obtain ⟨hlen, hslot, haddress, hreserved⟩ := h
  refine clampFields_whole hlen ?_
  have h8 := fld_lt pay 8 8
  have h16 := fld_lt pay 16 4
  have hany : (fa 16 4).Legal pay := ⟨Nat.zero_le _, by simp only [fa]; omega, Nat.mod_one _⟩
  simp only [List.forall_mem_cons, fr_legal, fm_legal, fz_legal, List.not_mem_nil, false_imp_iff, implies_true, and_true]
  exact ⟨⟨by omega, by omega⟩, hreserved, ⟨by omega, by omega, haddress⟩, hany⟩

/-- A range of hub SRAM is one that an image may lie in, one of host memory is not. -/
theorem inDramOrHub_hub {a n : Nat} (h : InHub a n) (hn : 0 < n) : inDramOrHub a n = true := by
  obtain ⟨hlo, hhi⟩ := h
  rw [inDramOrHub, target_hub hlo (by omega), target_hub (by omega) (by omega)]

theorem inDramOrHub_host {a : Nat} (n : Nat) (h : hostBase ≤ a) : inDramOrHub a n = false := by
  have ht : ∀ d off, target a ≠ .dram d off ∧ target a ≠ .hubSram off := by
    intro d off
    simp only [hostBase] at h
    unfold target
    rw [if_neg (by simp only [dieSpan]; omega), if_neg (by simp only [tileBase]; omega), if_neg (by simp only [hubBase]; omega)]
    split_ifs <;> simp
  unfold inDramOrHub
  split
  · next d off _ _ hd _ => exact absurd hd (ht d off).1
  · next off _ hd _ => exact absurd hd (ht 0 off).2
  · rfl

/-- A STOP set is loaded. -/
theorem stopSlot_isSome {s : State} : (stopSlot s).isSome = true ↔ ∃ k st, k < 8 ∧ s.pln.sets.get k = some st ∧ st.kind = 1 := by
  rw [stopSlot, List.isSome_findSome?, List.any_eq_true]
  refine ⟨fun ⟨k, hk, hst⟩ => ?_, fun ⟨k, st, hk, hst, hkind⟩ => ⟨k, List.mem_range.mpr hk, ?_⟩⟩
  · obtain ⟨x, hx⟩ := Option.isSome_iff_exists.mp hst
    obtain ⟨st, hget, hkind⟩ := Option.bind_eq_some_iff.mp hx
    exact ⟨k, st, List.mem_range.mp hk, hget, by_contra fun hne => by simp [hne] at hkind⟩
  · simp [hst, hkind]

/-- The set that an image defines (R182). -/
def loadedSet (a len : Nat) (img : List Byte) : PlanSet :=
  { kind := fld img 4 1, nprim := fld img 8 4, nentries := fld img 0xC 4, addr := a, length := len, voxel := fld img 6 2 }

/-- The size of the image that a header announces (R182). -/
def imageSize (h : List Byte) : Nat := roundUp (0x100 + 64 * fld h 8 4 + 16 * fld h 0xC 4) 64

/-- The first check of an image is that of its format (R185). -/
theorem setCheck_format {s : State} {len : Nat} {img : List Byte} (h : fld (img.take 256) 0 4 ≠ 0x5031534B) : setCheck s len img = 1 :=
  if_pos (.inl h)

section
variable {s : State} {c : Cmd} (h : PlnSetLoadLegal c.pay)
include h

theorem cmdPlnSetLoad_busy (hb : plnBusy s = true ∨ (s.pln.sets.get (fld c.pay 0 1)).isSome = true) :
    cmdPlnSetLoad s c = (s, reply stBusy 0 []) := by
  simp only [cmdPlnSetLoad, h.clampFields]
  exact if_pos (by simpa using hb)

variable (hb : plnBusy s = false) (hs : s.pln.sets.get (fld c.pay 0 1) = none)
include hb hs

theorem cmdPlnSetLoad_outside (ho : fld c.pay 16 4 = 0 ∨ hostBase ≤ fld c.pay 8 8) : cmdPlnSetLoad s c = (s, reply stDecodeError 0 []) := by
  simp only [cmdPlnSetLoad, h.clampFields, hb, hs]
  exact (if_neg (by simp)).trans (if_pos (ho.imp_right fun ho => by rw [inDramOrHub_host _ ho]; rfl))

/-- An image in clean hub SRAM is read and checked: what is checked is its header where its size is not the one announced. -/
theorem cmdPlnSetLoad_image {bs : List Byte} (hc : CleanHub s (fld c.pay 8 8) (fld c.pay 16 4)) (hl : 256 ≤ fld c.pay 16 4)
    (hbs : bs = if imageSize (s.fab.mem.readN (fld c.pay 8 8) 256) = fld c.pay 16 4 then s.fab.mem.readN (fld c.pay 8 8) (fld c.pay 16 4)
      else s.fab.mem.readN (fld c.pay 8 8) 256) :
    cmdPlnSetLoad s c =
      if setCheck s (fld c.pay 16 4) bs ≠ 0 then (s, reply stBadSet 0 (leBytes 4 (setCheck s (fld c.pay 16 4) bs)))
      else if fld bs 4 1 = 1 ∧ (stopSlot s).isSome then (s, reply stNoResource 0 [])
      else ({ s with pln.sets := s.pln.sets.set (fld c.pay 0 1) (some (loadedSet (fld c.pay 8 8) (fld c.pay 16 4) bs)) },
        reply stOk 0 (leBytes 1 (fld bs 4 1) ++ leBytes 4 (fld bs 8 4) ++ leBytes 4 (fld bs 0xC 4))) := by
  have hin := inDramOrHub_hub hc.inHub (by omega)
  have hhdr : readRange s srcPlanner (fld c.pay 8 8) 256 = (s, stOk, s.fab.mem.readN (fld c.pay 8 8) 256, false) :=
    readRange_hub (by decide) (by decide) (hc.part (c := 0) (by omega))
  have hall := readRange_hub (src := srcPlanner) (by decide) (by omega) hc
  have hread : (if imageSize (s.fab.mem.readN (fld c.pay 8 8) 256) = fld c.pay 16 4 then readRange s srcPlanner (fld c.pay 8 8) (fld c.pay 16 4)
      else readRange s srcPlanner (fld c.pay 8 8) 256) = (s, stOk, bs, false) := by
    rw [hhdr, hall, hbs]
    split <;> rfl
  have hmin : min (fld c.pay 16 4) 256 = 256 := by omega
  have hsize : ¬ (fld c.pay 16 4 = 0 ∨ (!inDramOrHub (fld c.pay 8 8) (fld c.pay 16 4)) = true) := by
    rw [hin]
    simp only [Bool.not_true, Bool.false_eq_true, or_false]
    omega
  simp only [imageSize] at hread
  simp only [cmdPlnSetLoad, h.clampFields, hb, hs, hmin, hhdr] at hread ⊢
  rw [if_neg (by simp), if_neg hsize]
  rw [hread]
  rfl

variable (hc : CleanHub s (fld c.pay 8 8) (fld c.pay 16 4)) (hl : 256 ≤ fld c.pay 16 4)
include hc hl

/-- An image of a wrong format is refused by its first check, whether it is read whole or only its header (R185). -/
theorem cmdPlnSetLoad_format (hf : fld (s.fab.mem.readN (fld c.pay 8 8) 256) 0 4 ≠ 0x5031534B) :
    cmdPlnSetLoad s c = (s, reply stBadSet 0 (leBytes 4 1)) := by
  have himage := cmdPlnSetLoad_image h hb hs hc hl rfl
  rw [setCheck_format (by split <;> simpa only [Memory.take_readN _ _ hl, Memory.take_readN _ _ le_rfl] using hf)] at himage
  exact himage.trans (if_pos Nat.one_ne_zero)

/-- An image of its size that passes every check is read whole; it defines a set unless it is a second STOP set (R185, R205). -/
theorem cmdPlnSetLoad_checked {img : List Byte} (himg : img = s.fab.mem.readN (fld c.pay 8 8) (fld c.pay 16 4))
    (hcheck : setCheck s (fld c.pay 16 4) img = 0) (hsize : imageSize (s.fab.mem.readN (fld c.pay 8 8) 256) = fld c.pay 16 4) :
    cmdPlnSetLoad s c =
      if fld img 4 1 = 1 ∧ (stopSlot s).isSome then (s, reply stNoResource 0 [])
      else ({ s with pln.sets := s.pln.sets.set (fld c.pay 0 1) (some (loadedSet (fld c.pay 8 8) (fld c.pay 16 4) img)) },
        reply stOk 0 (leBytes 1 (fld img 4 1) ++ leBytes 4 (fld img 8 4) ++ leBytes 4 (fld img 0xC 4))) :=
  (cmdPlnSetLoad_image h hb hs hc hl (himg.trans (if_pos hsize).symm)).trans (if_neg (not_not_intro hcheck))

end

/-! ### PLN_SET_UNLOAD -/

/-- PLN_SET_UNLOAD is BUSY during a cycle and NOT_DEFINED of an empty slot; else it empties the slot. -/
theorem cmdPlnSetUnload_legal {s : State} {c : Cmd} (hl : c.pay.length = 1) (hn : fld c.pay 0 1 < 8) : cmdPlnSetUnload s c =
    if plnBusy s then (s, reply stBusy 0 [])
    else if (s.pln.sets.get (fld c.pay 0 1)).isNone then (s, reply stNotDefined 0 [])
    else ({ s with pln.sets := s.pln.sets.set (fld c.pay 0 1) none }, reply stOk 0 []) := by
  have hfields : clampFields c.pay 1 [fr 0 1 0 7] = (c.pay, 0) := by
    refine clampFields_whole hl ?_
    simp only [List.forall_mem_cons, fr_legal, List.not_mem_nil, false_imp_iff, implies_true, and_true]
    omega
  simp only [cmdPlnSetUnload, hfields]

/-! ### O45 -/

theorem plnBusy_eq_false {s : State} (hc : s.pln.cycle = none) (hw : s.pln.waiting = none) : plnBusy s = false := by simp [plnBusy, hc, hw]

section
variable {s : State} {ch : Fin 4} {r : Request} (hplain : Plain s r)
include hplain

/-- PLN_CONFIG of buffers that lie apart, with strobes refused and no cycle, configures the planner and the Sieve (R205). -/
theorem plnConfig_accepts (h : PlnConfigLegal (payBytes r)) (hp : PlnConfigPlaced (payBytes r)) (hfree : (s.pln.launchEn || plnBusy s) = false)
    (hapart : payField r 8 8 + payField r 16 4 ≤ payField r 24 8 ∨ payField r 24 8 + payField r 32 4 ≤ payField r 8 8) :
    Accepts (.plnConfig ch r) s ch 0x0500 r 0 (payBytes r) (fun t => t = { plnConfigured s (payBytes r) with host := t.host }) := by
  have hfree' : ¬ (s.pln.launchEn || plnBusy s) = true := ne_true_of_eq_false hfree
  have hapart' : ¬ (payField r 8 8 < payField r 24 8 + payField r 32 4 ∧ payField r 24 8 < payField r 8 8 + payField r 16 4) := by omega
  exact hplain.accepts (by decide) ch.isLt rfl
    (((cmdPlnConfig_legal (c := plainCmd ch 0x0500 r) h hp).trans (if_neg hfree')).trans (if_neg hapart')) rfl fun _ => rfl
end

/-- A field of an image's header, read in its first 256 bytes. -/
theorem fld_take_readN (m : Memory) (a : Nat) {len off n : Nat} (hl : 256 ≤ len) (hk : off + n ≤ 256) :
    fld ((m.readN a len).take 256) off n = fld (m.readN a len) off n := fld_take hk (by simpa using hl)

/-- Settles O45: each command's payload is legal, so that it is applied as sent, and its answer is one branch of the command. -/
theorem plannerCommandsConfigureAndLoad : Obligations.PlannerCommandsConfigureAndLoad := by
  unfold Obligations.PlannerCommandsConfigureAndLoad
  intro ch r s hplain
  have hlength : ∀ {n : Nat}, r.length.toNat = n → (payBytes r).length = n := fun hn => (plainCmd_pay_length ch 0x0500 r).trans hn
  refine ⟨?_, ?_, ?_, ?_⟩
  · intro b0 l0 b1 l1 hlen voxel50 voxel400 depth3 depth12 res3 reserve50 reserve5000 align0 align1 size0 size1 res20 res36 table tableDram lo0 hi0 lo1 hi1
    have hl : PlnConfigLegal (payBytes r) :=
      ⟨hlength (by rw [hlen]; rfl), ⟨voxel50, voxel400⟩, ⟨depth3, depth12⟩, ⟨reserve50, reserve5000⟩, ⟨align0, size0⟩, ⟨align1, size1⟩, table,
        ⟨res3, res20, res36⟩⟩
    have hp : PlnConfigPlaced (payBytes r) := ⟨⟨lo0, hi0⟩, ⟨lo1, hi1⟩, tableDram⟩
    have hx := cmdPlnConfig_legal (s := s) (c := plainCmd ch 0x0500 r) hl hp
    refine ⟨fun hbusy => ?_, fun hen hcyc hwait => ?_⟩
    · have hbusy' : (s.pln.launchEn || plnBusy s) = true := by rwa [Bool.or_eq_true, plnBusy_iff]
      exact hplain.answersOnly (by decide) ch.isLt rfl (hx.trans (if_pos hbusy'))
    · have hfree : (s.pln.launchEn || plnBusy s) = false := by rw [hen, plnBusy_eq_false hcyc hwait]; rfl
      refine ⟨fun hover => ?_, fun hapart => ?_⟩
      · exact hplain.answersOnly (by decide) ch.isLt rfl ((hx.trans (if_neg (ne_true_of_eq_false hfree))).trans (if_pos hover))
      · obtain ⟨t, ht, hans, hkept, hframe⟩ := plnConfig_accepts (ch := ch) hplain hl hp hfree hapart
        refine ⟨t, ht, hans, hkept, ?_⟩
        rw [hframe]
        exact ⟨rfl, rfl, rfl, fun _ => rfl⟩
  · intro n a len img hdr hlen hn res1 align
    have hl : PlnSetLoadLegal (payBytes r) := ⟨hlength (by rw [hlen]; rfl), hn, align, res1⟩
    refine ⟨fun hbusy => ?_, fun hcyc hwait hempty => ?_⟩
    · exact hplain.answersOnly (by decide) ch.isLt rfl
        (cmdPlnSetLoad_busy (c := plainCmd ch 0x0501 r) hl (by rwa [plnBusy_iff, or_assoc]))
    have hfree := plnBusy_eq_false hcyc hwait
    refine ⟨fun hout => ?_, fun hclean h256 => ?_⟩
    · exact hplain.answersOnly (by decide) ch.isLt rfl (cmdPlnSetLoad_outside (c := plainCmd ch 0x0501 r) hl hfree hempty hout)
    have hhdr : hdr = s.fab.mem.readN a 256 := Memory.take_readN _ _ h256
    refine ⟨fun hformat => ?_, fun hcheck hsize => ?_⟩
    · exact hplain.answersOnly (by decide) ch.isLt rfl
        (cmdPlnSetLoad_format (c := plainCmd ch 0x0501 r) hl hfree hempty hclean h256 (by rwa [hhdr] at hformat))
    have hfld : ∀ off k, off + k ≤ 256 → fld hdr off k = fld img off k := fun off k hk => fld_take_readN _ _ h256 hk
    have hx := cmdPlnSetLoad_checked (c := plainCmd ch 0x0501 r) hl hfree hempty hclean h256 (img := img) rfl hcheck
      (by rw [hhdr] at hsize; exact hsize.symm)
    rw [hfld 4 1 (by decide), hfld 8 4 (by decide), hfld 0xC 4 (by decide), hfld 6 2 (by decide)]
    refine ⟨fun hkind hstop => ?_, fun hone => ?_⟩
    · exact hplain.answersOnly (by decide) ch.isLt rfl (hx.trans (if_pos ⟨hkind, stopSlot_isSome.mpr hstop⟩))
    · have hone' : ¬ (fld img 4 1 = 1 ∧ (stopSlot s).isSome = true) := by
        rintro ⟨hkind, hstop⟩
        obtain ⟨k, st, hk, hget, hst⟩ := stopSlot_isSome.mp hstop
        rcases hone with hzero | hnone
        · omega
        · have := hnone k st hk hget
          omega
      exact hplain.accepts (by decide) ch.isLt rfl (hx.trans (if_neg hone')) rfl fun _ => rfl
  · intro n hlen hn
    have hx := cmdPlnSetUnload_legal (s := s) (c := plainCmd ch 0x0502 r) (hlength (by rw [hlen]; rfl)) hn
    refine ⟨fun hbusy => ?_, fun hcyc hwait => ?_⟩
    · exact hplain.answersOnly (by decide) ch.isLt rfl (hx.trans (if_pos (plnBusy_iff.mpr hbusy)))
    have hx := hx.trans (if_neg (ne_true_of_eq_false (plnBusy_eq_false hcyc hwait)))
    refine ⟨fun hempty => ?_, fun hloaded => ?_⟩
    · exact hplain.answersOnly (by decide) ch.isLt rfl (hx.trans (if_pos (Option.isNone_iff_eq_none.mpr hempty)))
    · have hloaded' : ¬ (s.pln.sets.get n).isNone = true := by simpa [Option.isSome_iff_ne_none] using hloaded
      exact hplain.accepts (by decide) ch.isLt rfl (hx.trans (if_neg hloaded')) rfl fun _ => rfl
  · exact hplain.answersOnly (by decide) ch.isLt rfl rfl

end Sys2Proof.Machine
end

section
/-! PROOFS. The calendar's chains: several changed at once, and what settling one does (R211, R228, R230). -/

namespace Sys2Proof.Machine

/-! ### Tables changed at several places -/

/-- Entries changed one after another, each once. -/
theorem Tab.get_foldl_modify {α : Type} (f : α → α) {l : List Nat} (hl : l.Nodup) (t : Tab α) (n : Nat) :
    (l.foldl (fun t i => t.modify i f) t).get n = if n ∈ l then f (t.get n) else t.get n := by
  induction l generalizing t with
  | nil => rfl
  | cons a r ih =>
    obtain ⟨ha, hr⟩ := List.nodup_cons.mp hl
    rw [List.foldl_cons, ih hr, Tab.get_modify]
    by_cases h : a = n
    · subst h; simp [ha]
    · simp [h, Ne.symm h]

theorem nodup_bitsOf (m n : Nat) : (bitsOf m n).Nodup := List.nodup_range.filter _

theorem foldl_modChain (f : Chain → Chain) (l : List Nat) (s : State) :
    l.foldl (fun s n => s.modChain n f) s = { s with cal.chains := l.foldl (fun t n => t.modify n f) s.cal.chains } := by
  induction l generalizing s with
  | nil => rfl
  | cons n l ih => exact ih _

/-! ### A chain settles -/

/-- A servo that is not in FAULT has no FAULT to end (R211). -/
theorem servoIdleCheck_noFault {s : State} (h : s.time.state ≠ 4) : servoIdleCheck s = s := if_neg fun hx => h hx.1

/-- A chain that neither stops nor has run out goes on (R230). -/
theorem chainSettle_goesOn {s : State} {c : Nat} (hstate : (s.cal.chains.get c).state = .running)
    (hrun : (s.cal.chains.get c).runCount = 0 ∨ (s.cal.chains.get c).spent < (s.cal.chains.get c).runCount) (h : s.time.state ≠ 4) :
    chainSettle s c = s := by
  have hends : ¬ ((s.cal.chains.get c).runCount ≠ 0 ∧ (s.cal.chains.get c).runCount ≤ (s.cal.chains.get c).spent) := by omega
  unfold chainSettle
  simp only [hstate, hends, reduceCtorEq, false_or, true_and, false_and, if_false]
  exact servoIdleCheck_noFault h

/-- A chain that stops with nothing left becomes IDLE (R230). -/
theorem chainSettle_ends {s : State} {c : Nat} (hstate : (s.cal.chains.get c).state = .stopping) (hmake : (s.cal.chains.get c).toMake = [])
    (hopen : chainOpen s c = false) (h : s.time.state ≠ 4) : chainSettle s c = s.modChain c (fun x => { x with state := .idle }) := by
  unfold chainSettle
  simp only [hstate, hmake, hopen, true_or, true_and, Bool.not_false, if_true]
  exact servoIdleCheck_noFault h

end Sys2Proof.Machine
end

section
/-! PROOFS. The commands of the calendar: entries written and read, chains configured, started, stopped, swapped and queried (R214, R217,
R228–R232, R467). -/

namespace Sys2Proof.Machine

/-! ### Payloads -/

/-- Legal fields at the front of a payload are applied as sent (R295). -/
theorem clampFields_front {pay : List Byte} {size : Nat} {fs : List FieldSpec} (h : ∀ f ∈ fs, f.Legal (slice pay 0 size)) :
    clampFields pay size fs = (slice pay 0 size, 0) := clampFields_legal fun f hf => (h f hf).apply

/-- A field within a range of a payload is a field of the payload. -/
theorem fld_slice_within (bs : List Byte) (k : Nat) {m off n : Nat} (h : off + n ≤ m) : fld (slice bs k m) off n = fld bs (k + off) n := by
  have hs : slice (slice bs k m) off n = slice bs (k + off) n := by
    rw [slice_eq _ off n, slice_eq bs (k + off) n]
    refine List.map_congr_left fun i hi => ?_
    have hi : off + i < m := by have := List.mem_range.mp hi; omega
    simp [slice_eq, hi, Nat.add_assoc]
  rw [fld, hs, fld]

theorem fa_legal (pay : List Byte) (off size : Nat) : (fa off size).Legal pay := by
  have h := fld_lt pay off size
  exact ⟨Nat.zero_le _, Nat.le_sub_one_of_lt h, Nat.mod_one _⟩

/-- The one chain that a mask of one bit names. -/
theorem bitsOf_chain {n : Nat} (h : n < 8) : bitsOf (2 ^ n) 8 = [n] := by
  have hbits : ∀ k : Fin 8, bitsOf (2 ^ k.val) 8 = [k.val] := by decide
  exact hbits ⟨n, h⟩

/-! ### CAL_WRITE and CAL_READ -/

/-- A CAL_WRITE payload of one entry, its reserved fields 0 (R214, R232). -/
structure CalWriteLegal (pay : List Byte) : Prop where
  first : fld pay 0 2 < 4096
  count : fld pay 2 2 = 1
  reserved : fld pay 4 4 = 0
  flags : fld pay 16 2 % 16 = 0
  entry : fld pay 26 2 = 0 ∧ fld pay 30 2 = 0 ∧ fld pay 36 4 = 0

/-- An entry whose reserved fields are 0 is stored as sent (R214). -/
theorem clampCalEntry_legal {pay : List Byte} (h : CalWriteLegal pay) : clampCalEntry (slice pay 8 32) = (slice pay 8 32, 0) := by
  obtain ⟨-, -, -, hflags, h18, h22, h28⟩ := h
  have hfields : clampFields (slice pay 8 32) 32 [fz 18 2, fz 22 2, fz 28 4] = (slice pay 8 32, 0) := by
    refine clampFields_whole (length_slice ..) ?_
    simp [fz_legal, fld_slice_within, h18, h22, h28]
  simp [clampCalEntry, hfields, fld_slice_within, hflags]

/-- CAL_WRITE of one legal entry is BUSY where a chain uses it; else it is stored (R229, R232). -/
theorem cmdCalWrite_single {s : State} {c : Cmd} (h : CalWriteLegal c.pay) (hin : c.inPtr = false) : cmdCalWrite s c =
    if entriesLocked s (fld c.pay 0 2) 1 then (s, reply stBusy 0 [])
    else ({ s with cal.entries := s.cal.entries.set (fld c.pay 0 2) (slice c.pay 8 32) },
      reply stOk 0 (leBytes 2 1 ++ leBytes 2 0 ++ leBytes 4 0)) := by
  have hentry := clampCalEntry_legal h
  obtain ⟨hfirst, hcount, hreserved, -⟩ := h
  have hfields : clampFields c.pay 8 [fr 0 2 0 4095, fr 2 2 1 7, fz 4 4] = (slice c.pay 0 8, 0) := by
    refine clampFields_front ?_
    simp [fr_legal, fz_legal, fld_slice_within, hcount, hreserved]
    omega
  have hone : min 1 (4096 - fld c.pay 0 2) = 1 := by omega
  simp [cmdCalWrite, hin, hfields, fld_slice_within, hcount, hone, hentry]

/-- CAL_READ of entries that exist reads them (R232). -/
theorem cmdCalRead_legal {s : State} {c : Cmd} (hl : c.pay.length = 4) (h1 : 1 ≤ fld c.pay 2 2) (h7 : fld c.pay 2 2 ≤ 7)
    (hend : fld c.pay 0 2 + fld c.pay 2 2 ≤ 4096) : cmdCalRead s c =
      (s, reply stOk 0 ((List.range (fld c.pay 2 2)).map (fun i => s.cal.entries.get (fld c.pay 0 2 + i))).flatten) := by
  have hfields : clampFields c.pay 4 [fr 0 2 0 4095, fr 2 2 1 7] = (c.pay, 0) := by
    refine clampFields_whole hl ?_
    simp only [List.forall_mem_cons, fr_legal, List.not_mem_nil, false_imp_iff, implies_true, and_true]
    omega
  have hcount : min (fld c.pay 2 2) (4096 - fld c.pay 0 2) = fld c.pay 2 2 := by omega
  simp only [cmdCalRead, hfields, hcount, if_true]

/-! ### CHAIN_CONFIG and CHAIN_QUERY -/

/-- A CHAIN_CONFIG payload of its length with legal fields (R217, R232). -/
structure ChainConfigLegal (pay : List Byte) : Prop where
  length : pay.length = 24
  chain : fld pay 0 1 < 8
  skip : fld pay 1 1 ≤ 1
  reserved : fld pay 2 2 = 0
  nominal : 100000 ≤ fld pay 4 4 ∧ fld pay 4 4 ≤ 1000000000
  min : (fld pay 4 4 + 1) / 2 ≤ fld pay 8 4 ∧ fld pay 8 4 ≤ fld pay 4 4
  range : fld pay 12 2 < 4096 ∧ fld pay 12 2 + fld pay 14 2 ≤ 4096
  maxLag : fld pay 4 4 ≤ fld pay 20 4

theorem clampChain_legal {pay : List Byte} (h : ChainConfigLegal pay) : clampChain pay = (pay, 0) := by
  obtain ⟨hlen, hchain, hskip, hreserved, hnominal, hmin, hrange, hlag⟩ := h
  have hword := fld_lt pay 20 4
  have hfirst : clampFields pay 24 [fr 0 1 0 7, fr 1 1 0 1, fz 2 2, fr 4 4 100000 1000000000] = (pay, 0) := by
    refine clampFields_whole hlen ?_
    simp only [List.forall_mem_cons, fr_legal, fz_legal, List.not_mem_nil, false_imp_iff, implies_true, and_true]
    omega
  have hsecond : clampFields pay 24 [fr 8 4 ((fld pay 4 4 + 1) / 2) (fld pay 4 4), fr 12 2 0 4095, fr 20 4 (fld pay 4 4) (2 ^ 32 - 1)] = (pay, 0) := by
    refine clampFields_whole hlen ?_
    simp only [List.forall_mem_cons, fr_legal, List.not_mem_nil, false_imp_iff, implies_true, and_true]
    omega
  have hthird : clampFields pay 24 [fr 14 2 0 (4096 - fld pay 12 2)] = (pay, 0) := by
    refine clampFields_whole hlen ?_
    simp only [List.forall_mem_cons, fr_legal, List.not_mem_nil, false_imp_iff, implies_true, and_true]
    omega
  simp only [clampChain, hfirst, hsecond, hthird]

/-- A chain with the configuration of a payload (R217). -/
def configuredChain (pay : List Byte) (x : Chain) : Chain :=
  { x with configured := true, skipEn := decide (fld pay 1 1 = 1), nominal := fld pay 4 4, min := fld pay 8 4, first := fld pay 12 2,
           count := fld pay 14 2, runCount := fld pay 16 4, maxLag := fld pay 20 4 }

/-- CHAIN_CONFIG with legal fields is BUSY of a chain that is not IDLE; else the chain takes them (R232). -/
theorem cmdChainConfig_legal {s : State} {c : Cmd} (h : ChainConfigLegal c.pay) : cmdChainConfig s c =
    if (s.cal.chains.get (fld c.pay 0 1)).state ≠ .idle then (s, reply stBusy 0 [])
    else (s.modChain (fld c.pay 0 1) (configuredChain c.pay), reply stOk 0 c.pay) := by
  simp only [cmdChainConfig, clampChain_legal h]
  rfl

theorem cmdChainQuery_legal {s : State} {c : Cmd} (hl : c.pay.length = 1) (hn : fld c.pay 0 1 < 8) : cmdChainQuery s c =
    (s, reply stOk 0 (chainConfigBytes (fld c.pay 0 1) (s.cal.chains.get (fld c.pay 0 1)) ++
      regBytes (chainRegs (s.cal.chains.get (fld c.pay 0 1)) 0))) := by
  have hfields : clampFields c.pay 1 [fr 0 1 0 7] = (c.pay, 0) := by
    refine clampFields_whole hl ?_
    simp only [List.forall_mem_cons, fr_legal, List.not_mem_nil, false_imp_iff, implies_true, and_true]
    omega
  simp only [cmdChainQuery, hfields]

/-! ### CHAIN_START -/

/-- A chain WAITING for its start: the one sent, or the first of its grid points at least 1 ms ahead (R228). -/
def startedChain (now start : Nat) (x : Chain) : Chain :=
  { x with state := .waiting, n := none, at_ := 0, w := 0, toMake := [], ran := 0, spent := 0, swap := none, map := [], lateRun := 0, lateMax := 0,
           lag := 0, start := clampStart now start x.nominal }

/-- The chains of a mask started. -/
def chainsStarted (s : State) (mask start : Nat) : State :=
  { s with cal.chains := (bitsOf mask 8).foldl (fun t n => t.modify n (startedChain s.dt start)) s.cal.chains }

theorem chainsStarted_get (s : State) (mask start n : Nat) : (chainsStarted s mask start).cal.chains.get n =
    if n < 8 ∧ bit mask n = true then startedChain s.dt start (s.cal.chains.get n) else s.cal.chains.get n := by
  simp only [← mem_bitsOf]
  exact Tab.get_foldl_modify _ (nodup_bitsOf mask 8) _ n

/-- What CHAIN_START answers of one chain: its start and how many of its offsets were adjusted (R467). -/
def startReport (s : State) (mask start n : Nat) : List Byte :=
  if bit mask n then leBytes 8 (clampStart s.dt start (s.cal.chains.get n).nominal) ++
    leBytes 4 (effOffsets s.cal.entries (s.cal.chains.get n).first (s.cal.chains.get n).count (s.cal.chains.get n).min).2 ++ leBytes 4 0
  else leBytes 16 0

section
variable {s : State} {c : Cmd} (hl : c.pay.length = 16) (hz : fld c.pay 1 7 = 0)
include hl hz

theorem chainStart_fields : clampFields c.pay 16 [fa 0 1, fz 1 7, fa 8 8] = (c.pay, 0) := by
  refine clampFields_whole hl ?_
  simp only [List.forall_mem_cons, fz_legal, fa_legal, hz, List.not_mem_nil, false_imp_iff, implies_true, and_true]

theorem cmdChainStart_busy (h : ∃ n, n < 8 ∧ bit (fld c.pay 0 1) n = true ∧ (s.cal.chains.get n).state ≠ .idle) :
    cmdChainStart s c = (s, reply stBusy 0 []) := by
  simp only [cmdChainStart, chainStart_fields hl hz]
  exact if_pos (by simpa [mem_bitsOf, and_assoc] using h)

variable (hidle : ∀ n, n < 8 → bit (fld c.pay 0 1) n = true → (s.cal.chains.get n).state = .idle)
include hidle

theorem cmdChainStart_idle : cmdChainStart s c =
    if (bitsOf (fld c.pay 0 1) 8).any (fun n => !(s.cal.chains.get n).configured) then (s, reply stNotDefined 0 [])
    else (chainsStarted s (fld c.pay 0 1) (fld c.pay 8 8), reply stOk 0 (catMap 8 (startReport s (fld c.pay 0 1) (fld c.pay 8 8)))) := by
  have hnot : ¬ ((bitsOf (fld c.pay 0 1) 8).any (fun n => (s.cal.chains.get n).state != .idle)) = true := by
    simpa [mem_bitsOf] using hidle
  have hreport : ∀ n ∈ List.range 8, (if (bitsOf (fld c.pay 0 1) 8).contains n then
        leBytes 8 ((chainsStarted s (fld c.pay 0 1) (fld c.pay 8 8)).cal.chains.get n).start ++
          leBytes 4 (effOffsets s.cal.entries ((chainsStarted s (fld c.pay 0 1) (fld c.pay 8 8)).cal.chains.get n).first
            ((chainsStarted s (fld c.pay 0 1) (fld c.pay 8 8)).cal.chains.get n).count
            ((chainsStarted s (fld c.pay 0 1) (fld c.pay 8 8)).cal.chains.get n).min).2 ++ leBytes 4 0
      else leBytes 16 0) = startReport s (fld c.pay 0 1) (fld c.pay 8 8) n := by
    intro n hn
    have hn := List.mem_range.mp hn
    simp only [List.contains_iff_mem, mem_bitsOf, hn, true_and, startReport]
    split
    · next h => simp only [chainsStarted_get, hn, h, and_self, if_true, startedChain]
    · rfl
  simp only [cmdChainStart, chainStart_fields hl hz, foldl_modChain]
  rw [if_neg hnot, catMap, ← List.map_congr_left hreport]
  rfl

theorem cmdChainStart_undefined (h : ∃ n, n < 8 ∧ bit (fld c.pay 0 1) n = true ∧ (s.cal.chains.get n).configured = false) :
    cmdChainStart s c = (s, reply stNotDefined 0 []) :=
  (cmdChainStart_idle hl hz hidle).trans (if_pos (by simpa [mem_bitsOf, and_assoc] using h))

theorem cmdChainStart_starts (h : ∀ n, n < 8 → bit (fld c.pay 0 1) n = true → (s.cal.chains.get n).configured = true) :
    cmdChainStart s c =
      (chainsStarted s (fld c.pay 0 1) (fld c.pay 8 8), reply stOk 0 (catMap 8 (startReport s (fld c.pay 0 1) (fld c.pay 8 8)))) :=
  (cmdChainStart_idle hl hz hidle).trans (if_neg (by simpa [mem_bitsOf] using h))
end

/-! ### CHAIN_STOP -/

/-- A chain that CHAIN_STOP stops: it makes no more launches where it is told so, or has not started (R230). -/
def stoppingChain (mode : Nat) (x : Chain) : Chain :=
  { x with state := .stopping, swap := none, toMake := if mode = 1 ∨ x.state = .waiting then [] else x.toMake }

/-- A chain that was WAITING is IDLE, without a swap or launches to make (R230). -/
def stoppedChain (x : Chain) : Chain := { x with state := .idle, swap := none, toMake := [] }

/-- A WAITING chain without open work that is stopped settles as IDLE (R230). -/
theorem stoppingChain_settles {s : State} {n : Nat} (mode : Nat) (hstate : (s.cal.chains.get n).state = .waiting) (hopen : chainOpen s n = false)
    (h : s.time.state ≠ 4) : chainSettle (s.modChain n (stoppingChain mode)) n = s.modChain n stoppedChain := by
  have hget : (s.modChain n (stoppingChain mode)).cal.chains.get n = stoppingChain mode (s.cal.chains.get n) := Tab.get_modify_self _ _ _
  have hends := chainSettle_ends (s := s.modChain n (stoppingChain mode)) (by rw [hget]; rfl) (by simp [hget, stoppingChain, hstate]) hopen h
  rw [hends]
  simp [State.modChain, Tab.modify, stoppingChain, stoppedChain, hstate]

/-- What CHAIN_STOP answers: the period of the chain named (R467). -/
def stopReport (s : State) (n i : Nat) : List Byte := leBytes 8 (if i = n then (s.cal.chains.get n).n.getD (2 ^ 64 - 1) else 0)

/-- CHAIN_STOP of one WAITING chain without open work makes it IDLE (R230). -/
theorem cmdChainStop_waiting {s : State} {c : Cmd} {n : Nat} (hl : c.pay.length = 2) (hn : n < 8) (hm : fld c.pay 0 1 = 2 ^ n)
    (hz : fld c.pay 1 1 = 0) (hstate : (s.cal.chains.get n).state = .waiting) (hopen : chainOpen s n = false) (h : s.time.state ≠ 4) :
    cmdChainStop s c = (s.modChain n stoppedChain, reply stOk 0 (catMap 8 (stopReport s n))) := by
  have hfields : clampFields c.pay 2 [fa 0 1, fr 1 1 0 1] = (c.pay, 0) := by
    refine clampFields_whole hl ?_
    simp [fa_legal, fr_legal, hz]
  have hreport : ∀ i, (if [n].contains i then leBytes 8 ((s.cal.chains.get i).n.getD (2 ^ 64 - 1)) else leBytes 8 0) = stopReport s n i := by
    intro i
    by_cases hi : i = n <;> simp [stopReport, hi]
  simp only [cmdChainStop, hfields, hm, bitsOf_chain hn, hreport, List.foldl_cons, List.foldl_nil]
  rw [if_neg (by simp [hstate])]
  exact Prod.ext (stoppingChain_settles _ hstate hopen h) rfl

/-! ### CHAIN_SWAP -/

/-- The first period that starts at least 1 ms ahead on a chain's grid (R229). -/
def swapPeriod (s : State) (x : Chain) : Nat :=
  if s.time.dt + 1000000 ≤ x.start then 0 else (s.time.dt + 1000000 - x.start + x.nominal - 1) / x.nominal

/-- CHAIN_SWAP of a chain without a swap is refused unless it runs; else the range is noted (R229). -/
theorem cmdChainSwap_legal {s : State} {c : Cmd} (hl : c.pay.length = 6) (hn : fld c.pay 0 1 < 8) (hz : fld c.pay 1 1 = 0)
    (hfirst : fld c.pay 2 2 < 4096) (hend : fld c.pay 2 2 + fld c.pay 4 2 ≤ 4096) : cmdChainSwap s c =
    let x := s.cal.chains.get (fld c.pay 0 1)
    if x.state ≠ .running then (s, reply stNotDefined 0 [])
    else if x.swap.isSome then (s, reply stBusy 0 [])
    else (s.modChain (fld c.pay 0 1) (fun y => { y with swap := some (swapPeriod s x, fld c.pay 2 2, fld c.pay 4 2) }),
      reply stOk 0 (leBytes 8 (swapPeriod s x) ++ leBytes 4 (effOffsets s.cal.entries (fld c.pay 2 2) (fld c.pay 4 2) x.min).2)) := by
  have hplace : clampFields c.pay 6 [fr 0 1 0 7, fz 1 1, fr 2 2 0 4095] = (c.pay, 0) := by
    refine clampFields_whole hl ?_
    simp only [List.forall_mem_cons, fr_legal, fz_legal, List.not_mem_nil, false_imp_iff, implies_true, and_true]
    omega
  have hcount : clampFields c.pay 6 [fr 4 2 0 (4096 - fld c.pay 2 2)] = (c.pay, 0) := by
    refine clampFields_whole hl ?_
    simp only [List.forall_mem_cons, fr_legal, List.not_mem_nil, false_imp_iff, implies_true, and_true]
    omega
  simp only [cmdChainSwap, hplace, hcount]
  rfl

/-- Settles O43: each command's payload is legal, so that it is applied as sent, and its answer is one branch of the command. -/
theorem calendarCommandsConfigureChains : Obligations.CalendarCommandsConfigureChains := by
  unfold Obligations.CalendarCommandsConfigureChains
  intro ch r s hplain
  have hlength : ∀ {n : Nat}, r.length.toNat = n → (payBytes r).length = n := fun hn => (plainCmd_pay_length ch 0x0410 r).trans hn
  refine ⟨?_, ?_, ?_, ?_, ?_, ?_, ?_⟩
  · intro first _ hfirst hcount hreserved hflags h18 h22 h28
    have hx := cmdCalWrite_single (s := s) (c := plainCmd ch 0x0410 r) ⟨hfirst, hcount, hreserved, hflags, h18, h22, h28⟩ rfl
    refine ⟨fun hlocked => ?_, fun hfree => ?_⟩
    · exact hplain.answersOnly (by decide) ch.isLt rfl (hx.trans (if_pos hlocked))
    · exact hplain.accepts (by decide) ch.isLt rfl (hx.trans (if_neg (ne_true_of_eq_false hfree))) rfl fun _ => rfl
  · rintro n hlen rfl h1 h7 hend
    exact hplain.answersOnly (by decide) ch.isLt rfl
      (cmdCalRead_legal (s := s) (c := plainCmd ch 0x0411 r) (hlength (by rw [hlen]; rfl)) h1 h7 hend)
  · intro n nom x hlen hn hskip hreserved nom1 nom2 min1 min2 hend hfirst hlag
    have hl : ChainConfigLegal (payBytes r) :=
      ⟨hlength (by rw [hlen]; rfl), hn, hskip, hreserved, ⟨nom1, nom2⟩, ⟨min1, min2⟩, ⟨hfirst, hend⟩, hlag⟩
    have hx := cmdChainConfig_legal (s := s) (c := plainCmd ch 0x0412 r) hl
    refine ⟨fun hrun => ?_, fun hidle => ?_⟩
    · exact hplain.answersOnly (by decide) ch.isLt rfl (hx.trans (if_pos hrun))
    · exact hplain.accepts (by decide) ch.isLt rfl (hx.trans (if_neg (not_not_intro hidle))) rfl fun _ => rfl
  · intro m at_ hlen hz
    have hl : (plainCmd ch 0x0413 r).pay.length = 16 := hlength (by rw [hlen]; rfl)
    refine ⟨fun hbusy => ?_, fun hidle hundefined => ?_, fun hready => ?_⟩
    · exact hplain.answersOnly (by decide) ch.isLt rfl (cmdChainStart_busy hl hz hbusy)
    · exact hplain.answersOnly (by decide) ch.isLt rfl (cmdChainStart_undefined hl hz hidle hundefined)
    · exact hplain.accepts (by decide) ch.isLt rfl
        (cmdChainStart_starts hl hz (fun n hn hb => (hready n hn hb).1) (fun n hn hb => (hready n hn hb).2)) rfl
        fun _ => ⟨rfl, chainsStarted_get s m at_⟩
  · intro n hlen hn hm hz x hstate hopen htime
    exact hplain.accepts (by decide) ch.isLt rfl
      (cmdChainStop_waiting (c := plainCmd ch 0x0414 r) (hlength (by rw [hlen]; rfl)) hn hm hz hstate hopen htime) rfl
      fun _ => ⟨rfl, Tab.get_modify_self _ _ _, fun k hk => Tab.get_modify_other _ _ (Ne.symm hk)⟩
  · intro n x first count k hlen hn hz hfirst hend
    have hx := cmdChainSwap_legal (s := s) (c := plainCmd ch 0x0415 r) (hlength (by rw [hlen]; rfl)) hn hz hfirst hend
    refine ⟨fun hnot => ?_, fun hrun hswap => ?_⟩
    · exact hplain.answersOnly (by decide) ch.isLt rfl (hx.trans (if_pos hnot))
    · have hnone : ¬ x.swap.isSome = true := by simp [hswap]
      exact hplain.accepts (by decide) ch.isLt rfl ((hx.trans (if_neg (not_not_intro hrun))).trans (if_neg hnone)) rfl fun _ => rfl
  · intro hlen hn
    exact hplain.answersOnly (by decide) ch.isLt rfl
      (cmdChainQuery_legal (s := s) (c := plainCmd ch 0x0416 r) (hlength (by rw [hlen]; rfl)) hn)

end Sys2Proof.Machine
end

section
/-! PROOFS. The time base: its tick, its servo and its commands (R208–R212, R231, R232). -/

namespace Sys2Proof.Machine

/-! ### The tick (R208) -/

/-- Settles O2: the sum of the tick is cut into nanoseconds and 48 fractional bits, and nothing else is written. -/
theorem emptyQueueTicksTimeBase : Obligations.EmptyQueueTicksTimeBase := by
  unfold Obligations.EmptyQueueTicksTimeBase
  intro s hempty
  have hstep : step s = .next (timeTick s) := by rw [step, hempty]
  refine ⟨fun hstopped => ?_, fun hcounting => ⟨timeTick s, hstep, ?_⟩⟩
  · rw [hstep, timeTick, if_neg (ne_true_of_eq_false hstopped)]
  · rw [timeTick, if_pos hcounting]
    exact ⟨rfl, Nat.mod_lt _ (by decide), Nat.div_add_mod' _ _⟩

/-! ### Events -/

/-- An event raised is said of the host sides and the time alone. -/
theorem Raised.congr {s s' u u' : State} {code aux : Nat} {pay : List Nat} (h : Raised s u code aux pay) (hs : s'.host = s.host)
    (ht : s'.time.dt = s.time.dt) (hu : u'.host = u.host) : Raised s' u' code aux pay := by
  simpa only [Raised, State.dt, hs, ht, hu] using h

/-- An event as a change of the host side (R310, R311). -/
theorem raiseEvent_host (s : State) (code aux : Nat) (pay : List Nat) : ∃ g, raiseEvent s code aux pay = { s with host := g } ∧
    EventsOnly s { s with host := g } ∧ Raised s { s with host := g } code aux pay := by
  obtain ⟨hframe, hevents, hraised, -⟩ := raiseEvent_spec s code aux pay
  exact ⟨_, hframe, hevents.congr rfl rfl, hraised⟩

/-! ### Samples (R210, R211) -/

theorem advance_timeState (s : State) (now : Nat) : (s.advance now).time.state = s.time.state := by unfold State.advance; split <;> rfl

theorem advance_timeSrc (s : State) (now : Nat) : (s.advance now).time.src = s.time.src := by unfold State.advance; split <;> rfl

theorem advance_timeMaster (s : State) (now : Nat) : (s.advance now).time.delufMaster = s.time.delufMaster := by
  unfold State.advance; split <;> rfl

theorem advance_chainsRunning (s : State) (now : Nat) : chainsRunning (s.advance now) = chainsRunning s := by
  simp only [chainsRunning, State.advance_cal]

/-- The time base with an offset measured (R210, R231). -/
def measured (s : State) (off : Int) : State :=
  { s with time.offset := off, time.sampleCnt := cnt s.time.sampleCnt 1, time.lastSample := s.dt, time.srcReject := false }

/-- A sample in ACQUIRE or LOCKED that is not wild, or comes while no chain runs, goes to the servo (R211). -/
theorem timeSample_measured {s : State} {off : Int} (hsrc : s.time.src ≠ 0) (hst : s.time.state = 1 ∨ s.time.state = 2)
    (hok : off.natAbs ≤ 1000000 * 65536 ∨ chainsRunning s = false) : timeSample s off = servoSample (measured s off) := by
  have hwild : (decide (1000000 * 65536 < off.natAbs) && chainsRunning s) = false := by
    rcases hok with hok | hok
    · simp [Nat.not_lt.mpr hok]
    · simp [hok]
  have h4 : s.time.state ≠ 4 := by omega
  have h3 : s.time.state ≠ 3 := by omega
  have h0 : s.time.state ≠ 0 := by omega
  simp only [timeSample, hsrc, hwild, h4, h3, h0, if_false, Bool.false_eq_true, measured]

/-- The counts of good and bad samples in a row with a sample counted, and no step held back (R211). -/
def sampleJudged (s : State) : State :=
  { s with
    time.good := if s.time.offset.natAbs ≤ 50 * 65536 then min 255 (s.time.good + 1) else 0
    time.bad := if 500 * 65536 < s.time.offset.natAbs then s.time.bad + 1 else 0
    time.stepInhibit := false }

@[simp] theorem servoStep_timeState (s : State) : (servoStep s).time.state = s.time.state := rfl
@[simp] theorem servoStep_timeGood (s : State) : (servoStep s).time.good = s.time.good := rfl
@[simp] theorem servoSlew_timeState (s : State) : (servoSlew s).time.state = s.time.state := rfl
@[simp] theorem servoSlew_timeGood (s : State) : (servoSlew s).time.good = s.time.good := rfl
@[simp] theorem servoSlew_timeBad (s : State) : (servoSlew s).time.bad = s.time.bad := rfl

/-- A sample in ACQUIRE beyond the threshold, while no chain runs, steps device time (R211). -/
theorem servoSample_steps {s : State} (hst : s.time.state = 1) (hrun : chainsRunning s = false)
    (hfar : s.time.stepThr * 65536 < s.time.offset.natAbs) (h50 : 50 ≤ s.time.stepThr) : servoSample s = servoStep (sampleJudged s) := by
  have hgood : ¬ s.time.offset.natAbs ≤ 50 * 65536 := by omega
  simp [servoSample, sampleJudged, hst, hrun, hfar, hgood]

/-- A good sample that does not step slews (R211): the servo of a locked time base stays as it is, and the 16th in a row in ACQUIRE locks it. -/
theorem servoSample_slews {s : State} (hgood : s.time.offset.natAbs ≤ 50 * 65536) (h : s.time.state = 2 ∨ s.time.state = 1 ∧ 50 ≤ s.time.stepThr) :
    servoSample s = if s.time.state = 1 ∧ 15 ≤ s.time.good then servoEvent { servoSlew (sampleJudged s) with time.state := 2, time.bad := 0 } 0
      else servoSlew (sampleJudged s) := by
  have hbad : ¬ 500 * 65536 < s.time.offset.natAbs := by omega
  rcases h with h | ⟨h, h50⟩
  · simp [servoSample, sampleJudged, h, hgood, hbad]
  · have hfar : ¬ s.time.stepThr * 65536 < s.time.offset.natAbs := Nat.not_lt.mpr (hgood.trans (Nat.mul_le_mul_right _ h50))
    have h16 : 16 ≤ min 255 (s.time.good + 1) ↔ 15 ≤ s.time.good := by omega
    simp [servoSample, sampleJudged, h, hgood, hbad, hfar, h16]

/-- The time base after a sample, with the counts of good and bad ones in a row (R210, R211, R231). -/
def TimeBase.sampled (x : TimeBase) (off : Int) (good bad : Nat) : TimeBase :=
  { x with offset := off, sampleCnt := cnt x.sampleCnt 1, lastSample := x.dt, srcReject := false, stepInhibit := false, good := good, bad := bad }

theorem sampleJudged_far {s : State} {off : Int} (h : ¬ off.natAbs ≤ 50 * 65536) : sampleJudged (measured s off) =
    { s with time := s.time.sampled off 0 (if 500 * 65536 < off.natAbs then s.time.bad + 1 else 0) } := by
  unfold sampleJudged measured
  dsimp only
  rw [if_neg h]
  rfl

theorem sampleJudged_near {s : State} {off : Int} (h : off.natAbs ≤ 50 * 65536) : sampleJudged (measured s off) =
    { s with time := s.time.sampled off (min 255 (s.time.good + 1)) 0 } := by
  have hbad : ¬ 500 * 65536 < off.natAbs := by omega
  unfold sampleJudged measured
  dsimp only
  rw [if_pos h, if_neg hbad]
  rfl

/-- The rate of a slew is within 500 ppm (R208). -/
theorem natAbs_clampRate (i : Int) : (clampI (-2147484) 2147484 i).natAbs ≤ 2147484 := by
  simp only [clampI]
  omega

section
variable {s : State} {off : Int} (hsrc : s.time.src ≠ 0)
include hsrc

/-- A far sample in ACQUIRE while no chain runs steps device time (R211). -/
theorem timeSample_steps (hst : s.time.state = 1) (hrun : chainsRunning s = false) (hfar : s.time.stepThr * 65536 < off.natAbs)
    (h50 : 50 ≤ s.time.stepThr) :
    timeSample s off = servoStep { s with time := s.time.sampled off 0 (if 500 * 65536 < off.natAbs then s.time.bad + 1 else 0) } := by
  rw [timeSample_measured hsrc (.inl hst) (.inr hrun), servoSample_steps (s := measured s off) hst hrun hfar h50, sampleJudged_far (by omega)]

/-- A good sample in LOCKED slews (R211). -/
theorem timeSample_slews (hst : s.time.state = 2) (hgood : off.natAbs ≤ 50 * 65536) :
    timeSample s off = servoSlew { s with time := s.time.sampled off (min 255 (s.time.good + 1)) 0 } := by
  have hnot : ¬ ((measured s off).time.state = 1 ∧ 15 ≤ (measured s off).time.good) := by simp [measured, hst]
  rw [timeSample_measured hsrc (.inr hst) (.inl (by omega)), servoSample_slews (s := measured s off) hgood (.inl hst), if_neg hnot,
    sampleJudged_near hgood]

/-- The 16th good sample in a row in ACQUIRE slews and locks, and is reported (R211). -/
theorem timeSample_locks (hst : s.time.state = 1) (hgood : off.natAbs ≤ 50 * 65536) (h50 : 50 ≤ s.time.stepThr) (h15 : 15 ≤ s.time.good) :
    ∃ (g : HostSide) (rate : Int), timeSample s off = { s with
      host := g, free := s.free + 1
      time := { s.time.sampled off (min 255 (s.time.good + 1)) 0 with state := 2, rate := rate, rates := (rate :: s.time.rates).take 64 } } ∧
    rate.natAbs ≤ 2147484 ∧ EventsOnly s { s with host := g } ∧ Raised s { s with host := g } 0x0400 2 [uint 64 off] := by
  obtain ⟨g, hevent, hevents, hraised⟩ := raiseEvent_host { servoSlew { s with time := s.time.sampled off (min 255 (s.time.good + 1)) 0 } with
    time.state := 2, time.bad := 0 } 0x0400 2 [uint 64 off]
  have hsample := timeSample_measured hsrc (.inl hst) (.inl (by omega : off.natAbs ≤ 1000000 * 65536))
  rw [servoSample_slews (s := measured s off) hgood (.inr ⟨hst, h50⟩), if_pos ⟨hst, h15⟩, sampleJudged_near hgood] at hsample
  exact ⟨g, _, hsample.trans hevent, natAbs_clampRate _, hevents.congr rfl rfl, hraised.congr rfl rfl rfl⟩

end

/-! ### States of the servo (R211) -/

/-- The time base in another state of the servo: the counts in a row restart, and leaving LOCKED is counted (R211). -/
def TimeBase.entering (x : TimeBase) (st : Nat) : TimeBase :=
  { x with state := st, good := 0, bad := 0, unlockCnt := if x.state = 2 ∧ st ≠ 2 then cnt x.unlockCnt 1 else x.unlockCnt }

/-- Entering a state changes the servo, and the host side by the event that reports an unlock. -/
theorem servoEnter_spec (s : State) (st : Nat) :
    ∃ g, servoEnter s st = { s with host := g, time := s.time.entering st } ∧ EventsOnly s { s with host := g } := by
  unfold servoEnter TimeBase.entering
  dsimp only
  split
  · obtain ⟨g, hframe, hevents, -⟩ := raiseEvent_host
      { s with time.state := st, time.good := 0, time.bad := 0, time.unlockCnt := cnt s.time.unlockCnt 1 } 0x0401 st [uint 64 s.time.offset]
    exact ⟨g, hframe, hevents.congr rfl rfl⟩
  · exact ⟨s.host, rfl, EventsOnly.refl s⟩

/-- Entering a state from one that is not LOCKED raises nothing. -/
theorem servoEnter_unlocked {s : State} (h : s.time.state ≠ 2) (st : Nat) :
    servoEnter s st = { s with time.state := st, time.good := 0, time.bad := 0 } := if_neg fun hx => h hx.1

/-- The servo freezes in HOLDOVER at the average of its last rates. -/
theorem servoFreeze_holdover (s : State) :
    ∃ g, servoFreeze s 3 = { s with host := g, time := { s.time.entering 3 with rate := avgRate s.time } } ∧ EventsOnly s { s with host := g } := by
  obtain ⟨g, hframe, hevents⟩ := servoEnter_spec s 3
  obtain ⟨g', hframe', hevents', -⟩ := raiseEvent_host { s with host := g, time := { s.time.entering 3 with rate := avgRate s.time } } 0x0402 3
    [uint 64 s.time.offset]
  refine ⟨g', ?_, hevents.trans (hevents'.congr rfl rfl)⟩
  simp only [servoFreeze, hframe]
  exact hframe'

/-! ### Commands of the time base (R232) -/

/-- A byte is the two's complement code of its value. -/
theorem uint_sint_byte {v : Nat} (h : v < 256) : uint 8 (sint 8 v) = v := by
  unfold uint sint
  dsimp only
  split <;> omega

/-- A TIME_CONFIG payload of its length with legal fields (R232). -/
structure TimeConfigLegal (pay : List Byte) : Prop where
  length : pay.length = 16
  source : fld pay 0 1 ≤ 3
  port : fld pay 1 1 ≤ 3
  master : fld pay 2 1 ≤ 47
  sync : -5 ≤ sint 8 (fld pay 3 1) ∧ sint 8 (fld pay 3 1) ≤ 0
  threshold : 1000 ≤ fld pay 4 4 ∧ fld pay 4 4 ≤ 1000000
  reserved : fld pay 8 8 = 0

/-- The time base with the configuration of a payload, in FREERUN without a source and in ACQUIRE with one (R211). -/
def TimeBase.configured (x : TimeBase) (pay : List Byte) : TimeBase :=
  { x with src := fld pay 0 1, ethPort := fld pay 1 1, delufMaster := fld pay 2 1, syncLog := sint 8 (fld pay 3 1), stepThr := fld pay 4 4,
           lastSample := x.dt, state := if fld pay 0 1 = 0 then 0 else 1, good := 0, bad := 0 }

theorem cmdTimeConfig_legal {s : State} {c : Cmd} (h : TimeConfigLegal c.pay) (hs : s.time.state ≠ 2) :
    cmdTimeConfig s c = ({ s with time := s.time.configured c.pay }, reply stOk 0 c.pay) := by
  obtain ⟨hlen, hsource, hport, hmaster, ⟨hlo, hhi⟩, hthreshold, hreserved⟩ := h
  have hfields : clampFields c.pay 16 [fr 0 1 0 3, fr 1 1 0 3, fr 2 1 0 47, fr 4 4 1000 1000000, fz 8 8] = (c.pay, 0) := by
    refine clampFields_whole hlen ?_
    simp only [List.forall_mem_cons, fr_legal, fz_legal, List.not_mem_nil, false_imp_iff, implies_true, and_true]
    omega
  have hsync : clampI (-5) 0 (sint 8 (fld c.pay 3 1)) = sint 8 (fld c.pay 3 1) := by rw [clampI, min_eq_right hhi, max_eq_right hlo]
  have hput : putBytes c.pay 3 (leBytes 1 (fld c.pay 3 1)) = c.pay := putBytes_fld (by omega)
  simp only [cmdTimeConfig, hfields, hsync, uint_sint_byte (fld_lt c.pay 3 1), hput, if_true]
  refine Prod.ext ((servoEnter_unlocked ?_ _).trans rfl) rfl
  exact hs

/-! ### DELUF_TIME_MESSAGE (R210) -/

/-- The devices that the time master tells: all others it has a route to. -/
def toldDevices (s : State) : List Nat := (List.range 48).filter (fun d => d != s.so.dlf.devnum && s.so.dlf.rt.get d != 0xF)

theorem mem_toldDevices {s : State} {d : Nat} : d ∈ toldDevices s ↔ d < 48 ∧ d ≠ s.so.dlf.devnum ∧ s.so.dlf.rt.get d ≠ 0xF := by
  simp [toldDevices]

theorem mem_timeMessages {s : State} {t : Nat} {x : Nat × Nat × Nat} : x ∈ (toldDevices s).map (fun d => (d, 4, t)) ↔
    x.1 < 48 ∧ x.1 ≠ s.so.dlf.devnum ∧ s.so.dlf.rt.get x.1 ≠ 0xF ∧ x.2 = (4, t) := by
  obtain ⟨d, m⟩ := x
  simp only [List.mem_map, mem_toldDevices, Prod.mk.injEq]
  exact ⟨fun ⟨_, ⟨h1, h2, h3⟩, hd, hm⟩ => hd ▸ ⟨h1, h2, h3, hm.symm⟩, fun ⟨h1, h2, h3, hm⟩ => ⟨d, ⟨h1, h2, h3⟩, rfl, hm.symm⟩⟩

/-- Settles O41: a sample with a small or a far offset is measured and then slews or steps; the rest are single branches. -/
theorem timeBaseServoAndCommands : Obligations.TimeBaseServoAndCommands := by
  unfold Obligations.TimeBaseServoAndCommands
  refine ⟨?_, ?_, ?_, ?_⟩
  · intro now off s s' u
    refine ⟨fun hsrc => ?_, fun hsrc hst hrun hfar h50 => ?_, fun hsrc hst hgood => ?_, fun hsrc hst hgood h50 h15 => ?_, ?_⟩
    · exact congrArg Host.Outcome.next (if_pos ((advance_timeSrc s now).trans hsrc))
    · rw [← advance_timeSrc s now] at hsrc
      rw [← advance_chainsRunning s now] at hrun
      exact ⟨_, congrArg Host.Outcome.next (timeSample_steps hsrc hst hrun hfar h50), rfl, Nat.mod_lt _ (by decide), Nat.div_add_mod' _ _⟩
    · rw [← advance_timeSrc s now] at hsrc
      refine ⟨_, congrArg Host.Outcome.next (timeSample_slews hsrc hst hgood), ?_, natAbs_clampRate _⟩
      rw [← State.advance_free s now]
      rfl
    · rw [← advance_timeSrc s now] at hsrc
      obtain ⟨g, rate, hlock, hrate, hevents, hraised⟩ := timeSample_locks hsrc hst hgood h50 h15
      refine ⟨_, congrArg Host.Outcome.next hlock, ?_, rfl, rfl, rfl, hrate, hevents.congr (State.advance_host s now).symm rfl,
        hraised.congr rfl rfl rfl⟩
      rw [State.advance_free]
    · intro due
      refine ⟨fun hdue => ?_, fun hnot => ?_⟩
      · obtain ⟨g, hfreeze, hevents⟩ := servoFreeze_holdover s'
        refine ⟨_, congrArg Host.Outcome.next ((if_pos hdue.symm).trans hfreeze), hevents.congr (State.advance_host s now).symm rfl, ?_⟩
        simp [TimeBase.entering, avgRate, u]
      · exact congrArg Host.Outcome.next (if_neg fun h => hnot h.symm)
  · intro ch r s hplain
    refine ⟨fun hst hlen hsource hport hmaster hlo hhi thr1 thr2 hres => ?_, fun hbusy => ?_, fun hrun hsrc => ?_, ?_⟩
    · have hl : TimeConfigLegal (payBytes r) :=
        ⟨(plainCmd_pay_length ch 0x0400 r).trans (by rw [hlen]; rfl), hsource, hport, hmaster, ⟨hlo, hhi⟩, ⟨thr1, thr2⟩, hres⟩
      exact hplain.accepts (by decide) ch.isLt rfl (cmdTimeConfig_legal (c := plainCmd ch 0x0400 r) hl (by omega)) rfl fun _ => rfl
    · exact hplain.answersOnly (f := cmdTimeSet) (by decide) ch.isLt rfl (if_pos hbusy)
    · exact hplain.accepts (f := cmdTimeSet) (by decide) ch.isLt rfl (if_neg (by simp [hrun, hsrc])) rfl fun _ => rfl
    · exact hplain.answersOnly (by decide) ch.isLt rfl rfl
  · exact fun s => ⟨calCntClr s, rfl, rfl, fun c => Tab.get_map _ _ _⟩
  · intro now s s' me
    refine ⟨fun hvalid hsrc hmaster => ?_, fun hnot => ?_⟩
    · have hx : delufTime s' = { s' with so.dlf.msgs := s'.so.dlf.msgs ++ (toldDevices s').map (fun d => (d, 4, s'.dt)) } :=
        if_pos (by rw [State.advance_so, advance_timeSrc, advance_timeMaster]; exact ⟨hvalid, hsrc, hmaster⟩)
      refine ⟨_, congrArg Host.Outcome.next hx, ?_, (toldDevices s').map (fun d => (d, 4, s'.dt)), ?_, fun x => ?_⟩
      · simp [s']
      · simp [s']
      · rw [mem_timeMessages]
        simp only [s', State.advance_so]
        rfl
    · have hnot' : ¬ (s'.so.dlf.valid = true ∧ s'.time.src ≠ 3 ∧ s'.time.delufMaster = s'.so.dlf.devnum) := by
        rw [State.advance_so, advance_timeSrc, advance_timeMaster]
        rintro ⟨hvalid, hsrc, hmaster⟩
        rcases hnot with h | h | h
        · simp [hvalid] at h
        · exact hsrc h
        · exact h hmaster
      exact congrArg Host.Outcome.next (if_neg hnot')

end Sys2Proof.Machine
end

section
/-! PROOFS. Periods of a chain as they start (R216–R218, R220, R226). -/

namespace Sys2Proof.Machine

/-! ### The period to start (R218) -/

/-- The index of the period that a chain starts next. -/
def Chain.nextIndex (x : Chain) : Nat :=
  match x.n with
  | none => 0
  | some n => n + 1

/-- The time at which it starts: the chain's start, or the latest of its grid point, the minimum period and the last completion. -/
def Chain.nextTime (x : Chain) : Nat :=
  match x.n with
  | none => x.start
  | some n => max (x.start + (n + 1) * x.nominal) (max (x.at_ + x.min) x.w)

/-- Without skipping, no period is passed over (R220). -/
theorem nextPeriod_noSkip {x : Chain} (h : x.skipEn = false) : nextPeriod x = (x.nextIndex, x.nextTime, none) := by
  unfold nextPeriod Chain.nextIndex Chain.nextTime
  cases x.n with
  | none => rfl
  | some n => simp only [h, Bool.false_and, Bool.false_eq_true, if_false, Chain.grid]

/-! ### A period runs -/

/-- Chain `x` may start a period: it is live, its work is complete, it neither skips nor swaps nor runs out, and was not late. -/
structure PeriodReady (s : State) (c : Nat) (x : Chain) : Prop where
  chain : s.cal.chains.get c = x
  live : x.state = .waiting ∨ x.state = .running
  made : x.toMake = []
  complete : chainOpen s c = false
  noSkip : x.skipEn = false
  noSwap : x.swap = none
  goesOn : x.runCount = 0 ∨ x.spent + 1 < x.runCount
  role : roleSilent s = false
  servo : s.time.state ≠ 4
  onTime : x.lateRun = 0

/-- A chain that runs period `n` from `a` on, with the entries to launch and the tile map of that moment (R216, R217). -/
def Chain.running (s : State) (n a : Nat) (x : Chain) : Chain :=
  { x with state := .running, n := some n, at_ := a, w := a, toMake := (effOffsets s.cal.entries x.first x.count x.min).1, ran := x.ran + 1,
           spent := x.spent + 1, swap := none, map := s.bu.map, lag := sat 32 (a - x.grid n) }

/-- The state with period `n` of a chain begun: tiles that returned within the chain's last period take its strobes again (R443). -/
def periodBegun (s : State) (c n a : Nat) : State :=
  { s.modChain c (Chain.running s n a) with tiles := s.tiles.map (fun t => { t with heldOff := t.heldOff.filter (· != c) }) }

/-- A chain with the lateness of its period counted (R226). -/
def Chain.lagged (lag : Nat) (x : Chain) : Chain :=
  { x with lateCnt := if lag = 0 then x.lateCnt else cnt x.lateCnt 1, lateRun := if lag = 0 then x.lateRun else x.lateRun + 1,
           lateMax := if lag = 0 then x.lateMax else max x.lateMax lag,
           maxLagSeen := if lag = 0 then x.maxLagSeen else sat 32 (max x.maxLagSeen lag) }

/-- The first late period of a chain is counted and reported, a period on time is neither (R226). -/
theorem lateEvents_spec {s : State} {c : Nat} (n lag : Nat) (h : (s.cal.chains.get c).lateRun = 0) :
    ∃ g m, lateEvents s c n lag = { s with host := g, cal.chains := m } ∧ EventsOnly s { s with host := g } ∧
      m.get c = (s.cal.chains.get c).lagged lag ∧ (∀ k, k ≠ c → m.get k = s.cal.chains.get k) ∧
      (lag = 0 → g = s.host) ∧ (0 < lag → Raised s { s with host := g } 0x0410 c [n, sat 32 lag]) := by
  by_cases hlag : lag = 0
  · refine ⟨s.host, s.cal.chains, ?_, EventsOnly.refl s, ?_, fun _ _ => rfl, fun _ => rfl, fun hpos => absurd hlag (Nat.ne_of_gt hpos)⟩
    · simp [lateEvents, hlag, h]
    · simp [Chain.lagged, hlag]
  · obtain ⟨g, hframe, hevents, hraised⟩ := raiseEvent_host (s.modChain c (Chain.lagged lag)) 0x0410 c [n, sat 32 lag]
    have hlagged : Chain.lagged lag = fun x => { x with
        lateCnt := cnt x.lateCnt 1, lateRun := x.lateRun + 1, lateMax := max x.lateMax lag, maxLagSeen := sat 32 (max x.maxLagSeen lag) } := by
      funext x
      simp only [Chain.lagged, hlag, if_false]
    have hlate : lateEvents s c n lag = raiseEvent (s.modChain c (Chain.lagged lag)) 0x0410 c [n, sat 32 lag] := by
      simp only [lateEvents, h, Nat.pos_of_ne_zero hlag, if_true, hlagged]
    exact ⟨g, s.cal.chains.modify c (Chain.lagged lag), hlate.trans hframe, hevents.congr rfl rfl, Tab.get_modify_self _ _ _,
      fun k hk => Tab.get_modify_other _ _ (Ne.symm hk), fun hz => absurd hz hlag, fun _ => hraised.congr rfl rfl rfl⟩

section
variable {s : State} {c : Nat} {x : Chain} (h : PeriodReady s c x)
include h

/-- A chain that may start a period starts it when its time has come. -/
theorem periodStart_ready : periodStart s c = if x.nextTime ≤ s.dt then
    chainSettle (lateEvents (periodBegun s c x.nextIndex x.nextTime) c x.nextIndex (x.nextTime - x.grid x.nextIndex)) c
    else s := by
  obtain ⟨rfl, hlive, hmade, hcomplete, hskip, hswap, hgoes, hrole, -, -⟩ := h
  have hmore : ¬ ((s.cal.chains.get c).runCount ≠ 0 ∧ (s.cal.chains.get c).runCount ≤ (s.cal.chains.get c).spent + 0) := by omega
  unfold periodStart
  simp only [nextPeriod_noSkip hskip, hlive, hmade, hcomplete, hswap, hrole, hmore, Bool.not_false, true_and, if_false, Bool.false_eq_true]
  rfl

/-- What the start of a period leaves: the chain runs it, with its lateness counted and a first late period reported (R216–R218, R226). -/
theorem periodStart_due {n a lag : Nat} (hn : n = x.nextIndex) (ha : a = x.nextTime) (hlag : lag = a - x.grid n) (hdue : a ≤ s.dt) :
    ∃ g m, periodStart s c = { periodBegun s c n a with host := g, cal.chains := m } ∧
      EventsOnly s { s with host := g } ∧ m.get c = (x.running s n a).lagged lag ∧ (∀ k, k ≠ c → m.get k = s.cal.chains.get k) ∧
      (lag = 0 → g = s.host) ∧ (0 < lag → Raised s { s with host := g } 0x0410 c [n, sat 32 lag]) := by
  subst hn ha hlag
  have hget : (periodBegun s c x.nextIndex x.nextTime).cal.chains.get c = x.running s x.nextIndex x.nextTime := by
    rw [← h.chain]
    exact Tab.get_modify_self _ _ _
  obtain ⟨g, m, hframe, hevents, hchain, hothers, hquiet, hraised⟩ := lateEvents_spec (s := periodBegun s c x.nextIndex x.nextTime) x.nextIndex
    (x.nextTime - x.grid x.nextIndex) (by rw [hget]; exact h.onTime)
  rw [hget] at hchain
  have hsettle : chainSettle { periodBegun s c x.nextIndex x.nextTime with host := g, cal.chains := m } c =
      { periodBegun s c x.nextIndex x.nextTime with host := g, cal.chains := m } :=
    chainSettle_goesOn (by rw [hchain]; rfl) (by rw [hchain]; exact h.goesOn) h.servo
  refine ⟨g, m, ?_, hevents.congr rfl rfl, hchain, fun k hk => (hothers k hk).trans (Tab.get_modify_other _ _ (Ne.symm hk)), hquiet,
    fun hlate => (hraised hlate).congr rfl rfl rfl⟩
  rw [periodStart_ready h, if_pos hdue, hframe, hsettle]

end

end Sys2Proof.Machine
end

section
/-! PROOFS. Launches of a chain: made, held, complete, and forecast to Quench (R215, R216, R221, R224, R225, R227, R411). -/

namespace Sys2Proof.Machine

/-! ### A launch is made (R215) -/

theorem foldl_modDvfs (f : Dvfs → Dvfs) (l : List Nat) (s : State) :
    l.foldl (fun s p => s.modDvfs p f) s = { s with pwr.tiles := l.foldl (fun t p => t.modify p f) s.pwr.tiles } := by
  induction l generalizing s with
  | nil => rfl
  | cons p l ih => exact ih _

/-- A strobe held for each of its targets that takes it, one after another (R221, R222). -/
theorem foldl_holds {s : State} {c id : Nat} {h : Held} {l : List Nat} (hl : ∀ t ∈ l, t < 36 → tileUnlaunchable s c t = false) :
    l.foldl (fun s t => if t < 36 ∧ tileUnlaunchable s c t then targetComplete s id t stTargetReset
      else { s with cal.held := s.cal.held.modify t (· ++ [h]) }) s =
    { s with cal.held := l.foldl (fun m t => m.modify t (· ++ [h])) s.cal.held } := by
  induction l generalizing s with
  | nil => rfl
  | cons t l ih =>
    have htakes : ¬ (t < 36 ∧ tileUnlaunchable s c t = true) := fun hx => by simp [hl t (by simp) hx.1] at hx
    rw [List.foldl_cons, if_neg htakes]
    exact ih (s := { s with cal.held := s.cal.held.modify t (· ++ [h]) }) fun t' ht' => hl t' (by simp [ht'])

/-- A launch that a chain may make: of its next entry, in a period on time, with no vacant target and room in each hold. -/
structure LaunchReady (s : State) (c e off n : Nat) (rest : List (Nat × Nat)) (tg : List Nat) : Prop where
  next : (s.cal.chains.get c).toMake = (e, off) :: rest
  period : (s.cal.chains.get c).n = some n
  targets : entryTargets (s.cal.chains.get c).map (s.cal.entries.get e) = (tg, 0)
  nonempty : tg ≠ []
  nodup : tg.Nodup
  onTime : (s.cal.chains.get c).lag = 0
  roomy : ∀ g ∈ tg, (s.cal.held.get g).length < 64
  takes : ∀ p ∈ tg, p < 36 → tileUnlaunchable s c p = false

/-- The record of a launch of entry `e` in period `n` (R218, R224). -/
def madeLaunch (s : State) (c e n at_ : Nat) (tg : List Nat) : Made :=
  { id := s.cal.nextId, chain := c, idx := n, entry := e, tag := BitVec.ofNat 32 (ceTag (s.cal.entries.get e)), sched := at_,
    deadline := ceDeadline (s.cal.entries.get e), left := tg, err := none }

/-- Its strobe as a target's hold keeps it (R221). -/
def heldLaunch (s : State) (c e n at_ : Nat) : Held :=
  { launch := { strobe := entryStrobe (s.cal.entries.get e) n at_, link := some s.cal.nextId }, chain := c, counted := false }

/-- The state with a launch made. -/
def launchMade (s : State) (c e n at_ : Nat) (rest : List (Nat × Nat)) (tg : List Nat) : State :=
  { s with
    cal := { s.cal with
      chains := s.cal.chains.modify c (fun x => { x with toMake := rest }), made := s.cal.made ++ [madeLaunch s c e n at_ tg]
      nextId := s.cal.nextId + 1, held := tg.foldl (fun m t => m.modify t (· ++ [heldLaunch s c e n at_])) s.cal.held }
    pwr.tiles := (tg.filter (· < 36)).foldl (fun t p => t.modify p (fun d => { d with period := (s.cal.chains.get c).nominal })) s.pwr.tiles }

/-- A launch that may be made is made when its time has come. -/
theorem launchDue_ready {s : State} {c e off n : Nat} {rest : List (Nat × Nat)} {tg : List Nat} (h : LaunchReady s c e off n rest tg) :
    launchDue s c = if (s.cal.chains.get c).at_ + off ≤ s.dt then launchMade s c e n ((s.cal.chains.get c).at_ + off) rest tg else s := by
  obtain ⟨hnext, hperiod, htargets, hsome, -, honTime, hroomy, htakes⟩ := h
  have hroom : tg.all (fun t => decide ((s.cal.held.get t).length < 64)) = true := by simpa using hroomy
  by_cases hdue : (s.cal.chains.get c).at_ + off ≤ s.dt
  · unfold launchDue
    simp only [hnext, hperiod, htargets, hroom, honTime, hdue, hsome, Nat.lt_irrefl, and_self, if_true, if_false, foldl_modDvfs]
    exact foldl_holds htakes
  · unfold launchDue
    simp only [hnext, hperiod, htargets, hdue, false_and, if_false]

theorem launchMade_held {s : State} {c e n at_ : Nat} {rest : List (Nat × Nat)} {tg : List Nat} (h : tg.Nodup) (g : Nat) :
    (launchMade s c e n at_ rest tg).cal.held.get g = s.cal.held.get g ++ if g ∈ tg then [heldLaunch s c e n at_] else [] := by
  refine (Tab.get_foldl_modify _ h _ g).trans ?_
  split
  · rfl
  · rw [List.append_nil]

theorem launchMade_dvfs {s : State} {c e n at_ : Nat} {rest : List (Nat × Nat)} {tg : List Nat} (h : tg.Nodup) (p : Nat) :
    (launchMade s c e n at_ rest tg).pwr.tiles.get p =
      if p ∈ tg ∧ p < 36 then { s.pwr.tiles.get p with period := (s.cal.chains.get c).nominal } else s.pwr.tiles.get p := by
  refine (Tab.get_foldl_modify _ (h.filter _) _ p).trans ?_
  simp only [List.mem_filter, decide_eq_true_eq]

/-! ### A launch is held (R221) -/

/-- In Run, with no state being entered, a held strobe wakes nothing (R402). -/
theorem wakeStrobe_run {s : State} (hrun : s.pwr.state = .run) (hentering : s.pwr.entering = none) : wakeStrobe s = s := by
  simp [wakeStrobe, wakeEvent, hrun, hentering]

/-- The one strobe held for a target, once late, is counted (R221). -/
theorem launchHeld_late {s : State} {g : Nat} {h : Held} (hheld : s.cal.held.get g = [h]) (hrun : s.pwr.state = .run)
    (hentering : s.pwr.entering = none) (hnew : h.counted = false) (hlate : h.launch.strobe.dt + 100 < s.dt) : launchHeld s g =
    { s with cal := { s.cal with chains := s.cal.chains.modify h.chain (fun x => { x with heldCnt := cnt x.heldCnt 1 })
                                 held := s.cal.held.set g [{ h with counted := true }] } } := by
  simp only [launchHeld, hheld, List.filter_cons, List.filter_nil, List.map_cons, List.map_nil, hnew, hlate, Bool.not_false, decide_true,
    Bool.and_self, if_true, List.foldl_cons, List.foldl_nil]
  exact (if_neg (List.cons_ne_nil _ _)).trans (wakeStrobe_run hrun hentering)

/-! ### A launch completes (R218, R224, R225) -/

/-- A chain with a completion noted, and counted where it is an error. -/
def Chain.completed (now : Nat) (st : Half) (x : Chain) : Chain :=
  { x with w := max x.w now, errCnt := if st = stOk then x.errCnt else cnt x.errCnt 1 }

/-- The payload of LAUNCH_ERROR for a tile (R225, R312). -/
def launchErrorItems (m : Made) (st : Half) (g : Nat) : List Nat :=
  [m.idx % 2 ^ 32 + st.toNat * 2 ^ 32 + g * 2 ^ 48, m.tag.toNat * 2 ^ 32 + m.entry % 4096 * 2 ^ 20]

/-- The error of a launch is counted for its chain and reported (R225). -/
theorem launchError_spec (s : State) (m : Made) (st : Half) (g : Nat) :
    ∃ h, launchError s m st g = { s.modChain m.chain (fun x => { x with errCnt := cnt x.errCnt 1 }) with host := h } ∧
      EventsOnly s { s with host := h } ∧ (g < 36 → Raised s { s with host := h } 0x0414 m.chain (launchErrorItems m st g)) := by
  obtain ⟨h, hframe, hevents, hraised⟩ := raiseEvent_host (s.modChain m.chain (fun x => { x with errCnt := cnt x.errCnt 1 })) 0x0414 m.chain
    [m.idx % 2 ^ 32 + st.toNat * 2 ^ 32 + (if g < 36 then g else if g = 36 then 0x31 else if g = 37 then 0x34 else 0x32) * 2 ^ 48,
     m.tag.toNat * 2 ^ 32 + m.entry % 4096 * 2 ^ 20]
  refine ⟨h, hframe, hevents.congr rfl rfl, fun hg => ?_⟩
  rw [if_pos hg] at hraised
  exact hraised.congr rfl rfl rfl

/-- The last target of a launch without a deadline completes: its chain, which goes on, notes the time, and an error is counted and reported. -/
theorem madeComplete_spec {s : State} {m : Made} {st : Half} {g : Nat} (hdeadline : m.deadline = 0)
    (herr : m.err = if st = stOk then none else some (st, g)) (hstate : (s.cal.chains.get m.chain).state = .running)
    (hrun : (s.cal.chains.get m.chain).runCount = 0) (hservo : s.time.state ≠ 4) :
    ∃ h t, madeComplete s m = { s with host := h, cal.chains := t } ∧ EventsOnly s { s with host := h } ∧
      t.get m.chain = (s.cal.chains.get m.chain).completed s.dt st ∧ (∀ k, k ≠ m.chain → t.get k = s.cal.chains.get k) ∧
      (st = stOk → h = s.host) ∧ (st ≠ stOk → g < 36 → Raised s { s with host := h } 0x0414 m.chain (launchErrorItems m st g)) := by
  have hsettle : ∀ (h : HostSide) (t : Tab Chain), t.get m.chain = (s.cal.chains.get m.chain).completed s.dt st →
      chainSettle { s with host := h, cal.chains := t } m.chain = { s with host := h, cal.chains := t } := fun h t ht =>
    chainSettle_goesOn (by rw [ht]; exact hstate) (.inl (by rw [ht]; exact hrun)) hservo
  by_cases hok : st = stOk
  · refine ⟨s.host, s.cal.chains.modify m.chain (fun c => { c with w := max c.w s.dt }), ?_, EventsOnly.refl s, ?_,
      fun k hk => Tab.get_modify_other _ _ (Ne.symm hk), fun _ => rfl, fun hne => absurd hok hne⟩
    · rw [if_pos hok] at herr
      simp only [madeComplete, hdeadline, herr, ne_eq, not_true_eq_false, false_and, if_false]
      refine hsettle s.host _ ?_
      rw [Tab.get_modify_self, Chain.completed, if_pos hok]
    · rw [Tab.get_modify_self, Chain.completed, if_pos hok]
  · obtain ⟨h, hframe, hevents, hraised⟩ := launchError_spec (s.modChain m.chain (fun c => { c with w := max c.w s.dt })) m st g
    have hget : (((s.cal.chains.modify m.chain (fun c => { c with w := max c.w s.dt })).modify m.chain
        (fun x => { x with errCnt := cnt x.errCnt 1 })).get m.chain) = (s.cal.chains.get m.chain).completed s.dt st := by
      rw [Tab.get_modify_self, Tab.get_modify_self, Chain.completed, if_neg hok]
    refine ⟨h, _, ?_, hevents.congr rfl rfl, hget, fun k hk => ?_, fun hst => absurd hst hok, fun _ hg => (hraised hg).congr rfl rfl rfl⟩
    · rw [if_neg hok] at herr
      simp only [madeComplete, hdeadline, herr, ne_eq, not_true_eq_false, false_and, if_false]
      rw [hframe]
      exact hsettle h _ hget
    · rw [Tab.get_modify_other _ _ (Ne.symm hk), Tab.get_modify_other _ _ (Ne.symm hk)]

/-- The one launch made, at the last of its targets, with a status. -/
def endedLaunch (m : Made) (g : Nat) (st : Half) : Made := { m with left := [], err := if st = stOk then none else some (st, g) }

/-- The completion of the one launch made, at its last target (R224). -/
theorem launchComplete_last {s : State} {g : Nat} {l : Launch} {st : Half} {rest : List (Launch × Half)} {m : Made}
    (hdone : s.cal.done.get g = (l, st) :: rest) (hlink : l.link = some m.id) (hmade : s.cal.made = [m]) (hleft : m.left = [g])
    (herr : m.err = none) : launchComplete s g =
      madeComplete { s with cal := { s.cal with made := [], done := s.cal.done.set g rest } } (endedLaunch m g st) := by
  simp [launchComplete, hdone, launchEnds, hlink, targetComplete, hmade, hleft, herr, endedLaunch]

/-! ### A launch is forecast (R227, R411) -/

/-- The greatest of the numbers below `n` that satisfy `p`. -/
theorem foldl_max_filter_range {p : Nat → Bool} {n best : Nat} (hb : best < n) (hp : p best = true) (habove : ∀ k, best < k → k < n → p k = false) :
    ((List.range n).filter p).foldl max 0 = best := by
  have hmax : (0 :: (List.range n).filter p).max? = some best := by
    refine List.max?_eq_some_iff.mpr ⟨List.mem_cons_of_mem _ (List.mem_filter.mpr ⟨List.mem_range.mpr hb, hp⟩), fun k hk => ?_⟩
    rcases List.mem_cons.mp hk with rfl | hk
    · exact Nat.zero_le _
    · obtain ⟨hkn, hpk⟩ := List.mem_filter.mp hk
      by_contra hlt
      simp [habove k (Nat.lt_of_not_le hlt) (List.mem_range.mp hkn)] at hpk
  rw [List.max?_cons'] at hmax
  exact Option.some.inj hmax

/-- Another target point of a tile: its transition is begun and its clock monitor told, and no other tile changes (R407, R267). -/
theorem retarget_spec (s : State) (p : Nat) (f : Dvfs → Dvfs) :
    ∃ m, retarget s p f = { s with pwr.tiles := s.pwr.tiles.set p (f (s.pwr.tiles.get p)).retarget, fab.clk := m } ∧
      ∀ q, q ≠ p → m.get q = s.fab.clk.get q := by
  unfold retarget
  dsimp only
  split
  · exact ⟨s.fab.clk, rfl, fun _ _ => rfl⟩
  · exact ⟨_, rfl, fun q hq => Tab.get_modify_other _ _ (Ne.symm hq)⟩

/-- A forecast of no power has no effect. -/
theorem quenchForecast_unpowered {s : State} {c e : Nat} (h : cePower (s.cal.entries.get e) = 0) : quenchForecast s c e = s := by
  unfold quenchForecast
  dsimp only
  split
  · exact if_pos (.inl h)
  · rfl

/-- A forecast for one tile, which is beyond the highest point at which the estimates hold, lowers its ceiling to that point (R411). -/
theorem forecast_lowers {s : State} {p pw best : Nat} (hpw : pw ≠ 0) (hb : best ≤ 6) (hfits : forecastFits s [p] pw best = true)
    (habove : ∀ k, best < k → k ≤ 6 → forecastFits s [p] pw k = false) (hceil : best < (s.pwr.tiles.get p).ceil) :
    forecast s [p] pw = retarget { s with qch.fcCnt := cnt s.qch.fcCnt 1 } p (fun d => { d with ceil := min d.ceil best, cool := 0 }) := by
  have hbest := foldl_max_filter_range (p := forecastFits s [p] pw) (n := 7) (by omega) hfits fun k hk h7 => habove k hk (by omega)
  simp [forecast, hpw, hbest, hceil]

end Sys2Proof.Machine
end

section
/-! PROOFS. The calendar as device time goes on: periods, launches and forecasts at the time of their command (R214–R227). -/

namespace Sys2Proof.Machine

/-! ### PERIOD_START -/

theorem PeriodReady.advance {s : State} {c : Nat} {x : Chain} (h : PeriodReady s c x) (now : Nat) : PeriodReady (s.advance now) c x := by
  obtain ⟨hchain, hlive, hmade, hcomplete, hskip, hswap, hgoes, hrole, hservo, honTime⟩ := h
  constructor <;> simpa only [chainOpen, roleSilent, advance_timeState, State.advance_cal, State.advance_so]

/-- A chain in its period, with the lateness of a first late period counted (R216–R218, R226). -/
def Chain.started (s : State) (n a lag : Nat) (x : Chain) : Chain :=
  { x with
    state := .running, n := some n, at_ := a, w := a, toMake := (effOffsets s.cal.entries x.first x.count x.min).1, ran := x.ran + 1,
    spent := x.spent + 1, map := s.bu.map, lag := sat 32 lag, lateCnt := if lag = 0 then x.lateCnt else cnt x.lateCnt 1,
    lateRun := if lag = 0 then 0 else 1, lateMax := if lag = 0 then x.lateMax else max x.lateMax lag,
    maxLagSeen := if lag = 0 then x.maxLagSeen else sat 32 (max x.maxLagSeen lag) }

theorem lagged_running (s : State) {x : Chain} (n a : Nat) (hswap : x.swap = none) (honTime : x.lateRun = 0) :
    (x.running s n a).lagged (a - x.grid n) = x.started s n a (a - x.grid n) := by
  simp only [Chain.lagged, Chain.running, Chain.started, hswap, honTime, Nat.zero_add]

/-- PERIOD_START at or after the start time of the period. -/
theorem periodStart_advance {s : State} {c now n a lag : Nat} {x : Chain} (h : PeriodReady s c x) (hn : n = x.nextIndex) (ha : a = x.nextTime)
    (hlag : lag = a - x.grid n) (hdue : a ≤ (s.advance now).dt) :
    ∃ g m, periodStart (s.advance now) c = { s.advance now with
        host := g, cal := { s.cal with chains := m }, tiles := s.tiles.map (fun t => { t with heldOff := t.heldOff.filter (· != c) }) } ∧
      EventsOnly s { s with host := g } ∧ m.get c = x.started s n a lag ∧ (∀ k, k ≠ c → m.get k = s.cal.chains.get k) ∧
      (lag = 0 → g = s.host) ∧ (0 < lag → Raised (s.advance now) { s.advance now with host := g } 0x0410 c [n, sat 32 lag]) := by
  obtain ⟨g, m, hframe, hevents, hchain, hothers, hquiet, hraised⟩ := periodStart_due (h.advance now) hn ha hlag hdue
  have hstarted : (x.running (s.advance now) n a).lagged lag = x.started s n a lag := by
    rw [hlag, lagged_running _ n a h.noSwap h.onTime]
    simp only [Chain.started, State.advance_cal, State.advance_bu]
  refine ⟨g, m, hframe.trans ?_, hevents.congr (State.advance_host s now).symm rfl, hchain.trans hstarted, fun k hk => ?_, fun hz => ?_, hraised⟩
  · rw [← State.advance_cal s now, ← State.advance_tiles s now]
    rfl
  · rw [hothers k hk, State.advance_cal]
  · rw [hquiet hz, State.advance_host]

/-- Before its time a period does not start. -/
theorem periodStart_early {s : State} {c now : Nat} {x : Chain} (h : PeriodReady s c x) (hearly : (s.advance now).dt < x.nextTime) :
    periodStart (s.advance now) c = s.advance now := (periodStart_ready (h.advance now)).trans (if_neg (Nat.not_le.mpr hearly))

/-! ### LAUNCH_DUE -/

theorem LaunchReady.advance {s : State} {c e off n : Nat} {rest : List (Nat × Nat)} {tg : List Nat} (h : LaunchReady s c e off n rest tg) (now : Nat) :
    LaunchReady (s.advance now) c e off n rest tg := by
  obtain ⟨hnext, hperiod, htargets, hsome, hnodup, honTime, hroomy, htakes⟩ := h
  constructor <;> simpa only [tileUnlaunchable, tileAbsorbed, State.advance_cal, State.advance_tiles, State.advance_fab]

/-- The calendar and the tiles' periods with a launch made, at the time of the command. -/
theorem launchMade_advance (s : State) (now c e n at_ : Nat) (rest : List (Nat × Nat)) (tg : List Nat) :
    launchMade (s.advance now) c e n at_ rest tg =
      { s.advance now with cal := (launchMade s c e n at_ rest tg).cal, pwr.tiles := (launchMade s c e n at_ rest tg).pwr.tiles } := by
  simp only [launchMade, madeLaunch, heldLaunch, State.advance_cal, State.advance_pwr]

/-! ### QUENCH_FORECAST -/

/-- A DVFS unit with its ceiling at a point (R411). -/
def Dvfs.lowered (best : Nat) (d : Dvfs) : Dvfs := { d with ceil := best, cool := 0 }

/-- A lowered ceiling retargets the unit: its goal is the new target unless a transition is in progress (R407). -/
theorem Dvfs.retarget_lowered (d : Dvfs) (best : Nat) : let t := (d.lowered best).retarget
    t = { d with ceil := best, cool := 0, goal := t.goal } ∧ (d.trans = false → t.goal = min d.host (min best d.budget)) := by
  have htrans : (d.lowered best).trans = d.trans := rfl
  unfold Dvfs.retarget
  rw [htrans]
  split
  · next h => exact ⟨rfl, fun hfree => by simp [hfree] at h⟩
  · exact ⟨rfl, fun _ => rfl⟩

/-- A forecast of an entry of a live chain, for the one tile that is its target, lowers the tile's ceiling (R227, R411). -/
theorem quenchForecast_lowers {s : State} {c e p best : Nat} {x : Chain} {ent : List Byte} (hx : s.cal.chains.get c = x)
    (hent : s.cal.entries.get e = ent) (hlive : x.state ≠ .idle) (hfirst : x.first ≤ e) (hend : e < x.first + x.count) (hvalid : ceValid ent = true)
    (hpw : cePower ent ≠ 0) (hp : p < 36) (htargets : entryTargets (if x.map = [] then s.bu.map else x.map) ent = ([p], 0)) (hb : best ≤ 6)
    (hfits : forecastFits s [p] (cePower ent) best = true) (habove : ∀ k, best < k → k ≤ 6 → forecastFits s [p] (cePower ent) k = false)
    (hceil : best < (s.pwr.tiles.get p).ceil) :
    ∃ m, quenchForecast s c e = { s with
        pwr.tiles := s.pwr.tiles.set p ((s.pwr.tiles.get p).lowered best).retarget, qch.fcCnt := cnt s.qch.fcCnt 1, fab.clk := m } ∧
      ∀ q, q ≠ p → m.get q = s.fab.clk.get q := by
  have hcalls : quenchForecast s c e = forecast s [p] (cePower ent) := by
    simp [quenchForecast, hx, hent, hlive, hfirst, hend, hvalid, htargets, hp]
  obtain ⟨m, hframe, hothers⟩ := retarget_spec { s with qch.fcCnt := cnt s.qch.fcCnt 1 } p (fun d => { d with ceil := min d.ceil best, cool := 0 })
  refine ⟨m, ?_, hothers⟩
  rw [hcalls, forecast_lowers hpw hb hfits habove hceil, hframe, Nat.min_eq_right (Nat.le_of_lt hceil)]
  rfl

/-! ### The statement -/

/-- Settles O42: each happening is one lemma about the state at the time of its command, which differs in its time base only. -/
theorem calendarStartsPeriodsAndLaunches : Obligations.CalendarStartsPeriodsAndLaunches := by
  unfold Obligations.CalendarStartsPeriodsAndLaunches
  refine ⟨?_, ?_, ?_, ?_, ?_⟩
  · intro c now s s' x a n hlive hmade hcomplete hskip hswap hgoes hrole hservo honTime
    have hready : PeriodReady s c x := ⟨rfl, hlive, hmade, hcomplete, hskip, hswap, hgoes, hrole, hservo, honTime⟩
    refine ⟨fun hdue => ?_, fun hearly => congrArg Host.Outcome.next (periodStart_early hready hearly)⟩
    obtain ⟨g, m, hframe, hevents, hchain, hothers, hquiet, hraised⟩ := periodStart_advance hready rfl rfl rfl hdue
    exact ⟨_, congrArg Host.Outcome.next hframe, hevents.congr rfl rfl, rfl, hothers, Tab.get_map _ _, hchain, hquiet, hraised⟩
  · intro c now e off n rest s s' x ent tg at_ hnext hperiod htg hsome hnodup honTime hroomy htakes
    have hready : LaunchReady s c e off n rest tg.1 := ⟨hnext, hperiod, Prod.ext rfl htg, hsome, hnodup, honTime, hroomy, htakes⟩
    have hlaunch := launchDue_ready (hready.advance now)
    rw [launchMade_advance, State.advance_cal] at hlaunch
    refine ⟨fun hdue => ?_, fun hearly => congrArg Host.Outcome.next (hlaunch.trans (if_neg (Nat.not_le.mpr hearly)))⟩
    refine ⟨_, congrArg Host.Outcome.next (hlaunch.trans (if_pos hdue)), rfl, rfl, Tab.get_modify_self _ _ _,
      fun k hk => Tab.get_modify_other _ _ (Ne.symm hk), launchMade_held hnodup,
      launchMade_dvfs (e := e) (n := n) (at_ := at_) (rest := rest) hnodup⟩
  · intro g now h s s' hheld hrun hentering hnew hlate
    have hcounted := launchHeld_late (s := s') (g := g) (h := h) (by rwa [State.advance_cal]) (by rwa [State.advance_pwr]) (by rwa [State.advance_pwr])
      hnew hlate
    rw [State.advance_cal] at hcounted
    refine ⟨_, congrArg Host.Outcome.next hcounted, rfl, fun k => ?_, fun k => ?_⟩
    · exact (Tab.get_set _ _ k _).trans (by simp only [eq_comm])
    · refine (Tab.get_modify _ _ k _).trans ?_
      by_cases hk : h.chain = k
      · subst hk; simp
      · simp [hk, Ne.symm hk]
  · intro g now l st rest m s s' hdone hlink hmade hleft herr hdeadline hstate hrun hservo
    have hlast := launchComplete_last (s := s') (g := g) (by rwa [State.advance_cal]) hlink (by rwa [State.advance_cal]) hleft herr
    obtain ⟨u, t, hframe, hevents, hchain, hothers, hquiet, hraised⟩ := madeComplete_spec
      (s := { s' with cal := { s'.cal with made := [], done := s'.cal.done.set g rest } }) (m := endedLaunch m g st) (st := st) (g := g)
      hdeadline rfl (by rwa [State.advance_cal]) (by rwa [State.advance_cal]) (by rwa [advance_timeState])
    rw [State.advance_cal] at hlast hframe hchain hothers
    refine ⟨_, congrArg Host.Outcome.next (hlast.trans hframe), hevents.congr (State.advance_host s now).symm rfl, rfl, hothers, hchain,
      fun hok => (hquiet hok).trans (State.advance_host s now), fun hne hg => (hraised hne hg).congr rfl rfl rfl⟩
  · intro c e now s s' x ent
    refine ⟨fun hpw => congrArg Host.Outcome.next (quenchForecast_unpowered (by rw [State.advance_cal]; exact hpw)), ?_⟩
    intro p best hlive hfirst hend hvalid hpw hp htargets hbest hfits habove hceil
    obtain ⟨m, hframe, hothers⟩ := quenchForecast_lowers (s := s') (c := c) (e := e) (x := x) (ent := ent) (by rw [State.advance_cal])
      (by rw [State.advance_cal]) hlive hfirst hend hvalid hpw hp (by rwa [State.advance_bu]) hbest hfits habove (by rwa [State.advance_pwr])
    rw [State.advance_fab] at hothers
    obtain ⟨hunit, hgoal⟩ := (s.pwr.tiles.get p).retarget_lowered best
    have hget : (s'.pwr.tiles.set p ((s'.pwr.tiles.get p).lowered best).retarget).get p = ((s.pwr.tiles.get p).lowered best).retarget := by
      rw [Tab.get_set_self, State.advance_pwr]
    refine ⟨_, congrArg Host.Outcome.next hframe, ?_, fun q hq => ⟨?_, hothers q hq⟩, ?_, fun hfree => ?_⟩
    · rw [← State.advance_qch s now]
    · exact (Tab.get_set_other _ _ (Ne.symm hq)).trans (by rw [State.advance_pwr])
    · rw [hget]; exact hunit
    · rw [hget]; exact hgoal hfree

end Sys2Proof.Machine
end

section
/-! PROOFS. What recomputing Bellows comes to: the loads of the regulation points, and the points in breach (R256). -/

namespace Sys2Proof.Machine

/-! ### Bits set and cleared by adding and subtracting -/

/-- Adding a power of two to a number without that bit sets the bit. -/
theorem bit_add_two_pow {b p : Nat} (h : bit b p = false) (i : Nat) : bit (b + 2 ^ p) i = (bit b i || decide (i = p)) := by
  simp only [bit_eq_testBit] at h ⊢
  rcases Nat.lt_trichotomy i p with hi | rfl | hi
  · rw [Nat.add_comm, Nat.testBit_two_pow_add_gt hi]; simp [Nat.ne_of_lt hi]
  · rw [Nat.add_comm, Nat.testBit_two_pow_add_eq, h]; simp
  · obtain ⟨k, rfl⟩ := Nat.exists_eq_add_of_lt hi
    have heven : b / 2 ^ p % 2 = 0 := by rw [Nat.testBit_eq_decide_div_mod_eq] at h; simpa using h
    have hsum : (b + 2 ^ p) / 2 ^ p = b / 2 ^ p + 1 := Nat.add_div_right _ (Nat.two_pow_pos p)
    have hdiv : (b + 2 ^ p) / 2 ^ (p + 1) = b / 2 ^ (p + 1) := by
      rw [Nat.pow_succ, ← Nat.div_div_eq_div_mul, ← Nat.div_div_eq_div_mul, hsum]; omega
    rw [show p + k + 1 = k + (p + 1) by omega, Nat.testBit_add, Nat.testBit_add, hdiv]
    simp [show ¬ k + (p + 1) = p by omega]

/-- Subtracting a power of two from a number with that bit clears the bit. -/
theorem bit_sub_two_pow {b p : Nat} (h : bit b p = true) (i : Nat) : bit (b - 2 ^ p) i = (bit b i && decide (i ≠ p)) := by
  have hle : 2 ^ p ≤ b := Nat.ge_two_pow_of_testBit (by rwa [bit_eq_testBit] at h)
  have hsum : b - 2 ^ p + 2 ^ p = b := Nat.sub_add_cancel hle
  have hclear : bit (b - 2 ^ p) p = false := by
    rw [bit_eq_testBit, ← hsum, Nat.add_comm, Nat.testBit_two_pow_add_eq] at h
    rw [bit_eq_testBit]
    simpa using h
  have hadd := bit_add_two_pow hclear i
  rw [hsum] at hadd
  by_cases hi : i = p
  · subst hi; simp [hclear]
  · simp [hadd, hi]

/-! ### The breach of one point -/

/-- A regulation point whose load passes its capacity is in breach, and reported when that changes (R256). -/
def breachStep (u : State) (p cap load : Nat) : State :=
  let was := bit u.fab.qos.breach p
  if cap < load && !was then
    raiseEvent { u with fab.qos.breach := u.fab.qos.breach + 2 ^ p, fab.qos.breachCnt := cnt u.fab.qos.breachCnt 1 }
      0x0108 p [cap % 2 ^ 32 * 2 ^ 32 + load % 2 ^ 32]
  else if load ≤ cap && was then
    raiseEvent { u with fab.qos.breach := u.fab.qos.breach - 2 ^ p } 0x0109 p [cap % 2 ^ 32 * 2 ^ 32 + load % 2 ^ 32]
  else u

/-- Only events and the breaches change. -/
def BreachOnly (u t : State) : Prop :=
  EventsOnly u t ∧ t = { u with host := t.host, fab.qos := { u.fab.qos with breach := t.fab.qos.breach, breachCnt := t.fab.qos.breachCnt } }

theorem BreachOnly.refl (u : State) : BreachOnly u u := ⟨EventsOnly.refl u, rfl⟩

theorem BreachOnly.trans {s t u : State} (h : BreachOnly s u) (k : BreachOnly u t) : BreachOnly s t := by
  obtain ⟨h1, h2⟩ := h
  obtain ⟨k1, k2⟩ := k
  exact ⟨h1.trans k1, by rw [k2, h2]⟩

/-- An event raised with another breach mask and count. -/
theorem breachOnly_raise (u : State) (b n code aux : Nat) (pay : List Nat) :
    let t := raiseEvent { u with fab.qos.breach := b, fab.qos.breachCnt := n } code aux pay
    BreachOnly u t ∧ t.fab.qos.breach = b := by
  obtain ⟨h1, h2, -⟩ := raiseEvent_spec { u with fab.qos.breach := b, fab.qos.breachCnt := n } code aux pay
  exact ⟨⟨h2.congr rfl rfl, by rw [h1]⟩, by rw [h1]⟩

theorem breachStep_spec (u : State) (p cap load : Nat) : BreachOnly u (breachStep u p cap load) ∧
    ∀ i, bit (breachStep u p cap load).fab.qos.breach i = if i = p then decide (cap < load) else bit u.fab.qos.breach i := by
  unfold breachStep
  cases hwas : bit u.fab.qos.breach p <;> by_cases hload : cap < load
  · obtain ⟨h1, h2⟩ := breachOnly_raise u (u.fab.qos.breach + 2 ^ p) (cnt u.fab.qos.breachCnt 1) 0x0108 p [cap % 2 ^ 32 * 2 ^ 32 + load % 2 ^ 32]
    simp only [hload, decide_true, Bool.not_false, Bool.and_self, if_true]
    refine ⟨h1, fun i => ?_⟩
    rw [h2, bit_add_two_pow hwas]
    by_cases hi : i = p <;> simp [hi]
  · simp only [hload, decide_false, Bool.false_and, Bool.and_false, Bool.false_eq_true, if_false]
    exact ⟨BreachOnly.refl u, fun i => by split <;> simp_all⟩
  · simp only [hload, Nat.not_le_of_lt hload, decide_true, decide_false, Bool.not_true, Bool.and_false, Bool.false_and, Bool.false_eq_true, if_false]
    exact ⟨BreachOnly.refl u, fun i => by split <;> simp_all⟩
  · obtain ⟨h1, h2⟩ := breachOnly_raise u (u.fab.qos.breach - 2 ^ p) u.fab.qos.breachCnt 0x0109 p [cap % 2 ^ 32 * 2 ^ 32 + load % 2 ^ 32]
    simp only [hload, Nat.le_of_not_lt hload, decide_true, decide_false, Bool.false_and, Bool.and_self, Bool.false_eq_true, if_false, if_true]
    refine ⟨h1, fun i => ?_⟩
    rw [h2, bit_sub_two_pow hwas]
    by_cases hi : i = p <;> simp [hi]

/-- The points of a range, one after another. -/
theorem foldl_breachStep (cap load : Nat → Nat) (n : Nat) (u : State) : let t := (List.range n).foldl (fun u p => breachStep u p (cap p) (load p)) u
    BreachOnly u t ∧ ∀ i, bit t.fab.qos.breach i = if i < n then decide (cap i < load i) else bit u.fab.qos.breach i := by
  induction n with
  | zero => exact ⟨BreachOnly.refl u, fun i => rfl⟩
  | succ n ih =>
    obtain ⟨h1, h2⟩ := ih
    simp only [List.range_succ, List.foldl_append, List.foldl_cons, List.foldl_nil]
    obtain ⟨k1, k2⟩ := breachStep_spec ((List.range n).foldl (fun u p => breachStep u p (cap p) (load p)) u) n (cap n) (load n)
    refine ⟨h1.trans k1, fun i => ?_⟩
    rw [k2, h2]
    rcases Nat.lt_trichotomy i n with h | rfl | h
    · rw [if_neg (Nat.ne_of_lt h), if_pos h, if_pos (Nat.lt_succ_of_lt h)]
    · rw [if_pos rfl, if_pos (Nat.lt_succ_self i)]
    · rw [if_neg (Nat.ne_of_gt h), if_neg (Nat.not_lt_of_gt h), if_neg (by omega)]

/-! ### The loads -/

/-- What is committed at a point under the tables in force (R256). -/
def loadAt (s : State) (p : Nat) : Nat :=
  (pointLoads s.fab.routes.rt s.fab.qos.classes s.fab.qos.entries p).1 + (pointLoads s.fab.routes.rt s.fab.qos.classes s.fab.qos.entries p).2

/-- The effective minimums and the committed loads taken into Bellows. -/
def loadsTaken (s : State) (eff committed : Tab Nat) : State := { s with fab.qos := { s.fab.qos with eff := eff, committed := committed } }

/-- Recomputing takes the loads, and then judges each point (R256). -/
theorem qosRecompute_eq (s : State) : ∃ eff, qosRecompute s = (List.range 23).foldl (fun u p => breachStep u p (qosCapacity s p) (loadAt s p))
    (loadsTaken s eff ((List.range 23).foldl (fun t p => t.set p (loadAt s p)) s.fab.qos.committed)) := by
  have hloads : ∀ p ∈ List.range 23, ((List.range 23).map (fun p => (pointLoads s.fab.routes.rt s.fab.qos.classes s.fab.qos.entries p,
      qosCapacity s p)))[p]? = some (pointLoads s.fab.routes.rt s.fab.qos.classes s.fab.qos.entries p, qosCapacity s p) := by
    intro p hp
    simp [List.mem_range.mp hp]
  unfold qosRecompute
  dsimp only
  refine ⟨_, (List.foldl_ext _ (fun u p => breachStep u p (qosCapacity s p) (loadAt s p)) _ fun u p hp => by rw [hloads p hp]; rfl).trans
    (congrArg (fun m => (List.range 23).foldl (fun u p => breachStep u p (qosCapacity s p) (loadAt s p)) (loadsTaken s _ m)) ?_)⟩
  exact List.foldl_ext _ _ _ fun t p hp => by rw [hloads p hp]; rfl

theorem BreachOnly.bellows {s t : State} {eff committed : Tab Nat} (h : BreachOnly (loadsTaken s eff committed) t)
    (hc : ∀ p, p < 23 → committed.get p = loadAt s p) (hb : ∀ p, p < 23 → bit t.fab.qos.breach p = decide (qosCapacity s p < loadAt s p)) :
    Bellows s t := by
  obtain ⟨h1, h2⟩ := h
  exact ⟨h1.congr rfl rfl, by rw [h2]; rfl, fun p hp => ⟨by rw [h2]; exact hc p hp, hb p hp⟩⟩

/-- What recomputing Bellows does (R256). -/
theorem bellows_qosRecompute (s : State) : Bellows s (qosRecompute s) := by
  obtain ⟨eff, heq⟩ := qosRecompute_eq s
  rw [heq]
  obtain ⟨h, hb⟩ := foldl_breachStep (qosCapacity s) (loadAt s) 23
    (loadsTaken s eff ((List.range 23).foldl (fun t p => t.set p (loadAt s p)) s.fab.qos.committed))
  exact h.bellows (fun p hp => by rw [foldl_set_get, if_pos hp]) (fun p hp => by rw [hb, if_pos hp])

end Sys2Proof.Machine
end

section
/-! PROOFS. PCIe: the completion of an outstanding host read, the window and the link (R280, R282, R285, R286). -/

namespace Sys2Proof.Machine

/-! ### Outstanding host reads (R282) -/

theorem hostRead_first {s : State} {r : NetReq} {rest : List NetReq} (h : s.host.reads = r :: rest) : hostRead s r.src r.tag = some r := by
  simp [hostRead, h]

theorem hostRead_absent {s : State} {src : BitVec 8} {tag : BitVec 9} (h : ∀ r ∈ s.host.reads, r.src ≠ src ∨ r.tag ≠ tag) :
    hostRead s src tag = none := by
  refine List.find?_eq_none.mpr fun r hr => ?_
  have := h r hr
  simpa [imp_iff_not_or] using this

/-- The oldest host read, of a master other than BAR2, is answered and no longer outstanding. -/
theorem hostAnswer_first {s : State} {r : NetReq} {rest : List NetReq} (h : s.host.reads = r :: rest) (hs : r.src ≠ 0x33) (st : Half)
    (bs : List Byte) (poison : Bool) : hostAnswer s r st bs poison = { s with
      host.reads := rest
      fab.net.rsps := s.fab.net.rsps ++
        [{ src := r.src, tag := r.tag, op := r.op, addr := r.addr, len := r.len, status := st, data := bs, poison := poison }] } := by
  have herase : eraseFirst (fun x => x.src == r.src && x.tag == r.tag) s.host.reads = rest := by simp [h, eraseFirst]
  rw [hostAnswer, netAnswer_notBar2 st bs poison hs, herase]

/-- Settles O12: the completion finds the oldest read and answers it once the AER bit of its outcome is recorded; a link that trains only
recomputes Bellows. -/
theorem pcieCompletionsLinkAndWindow : Obligations.PcieCompletionsLinkAndWindow := by
  unfold Obligations.PcieCompletionsLinkAndWindow
  refine ⟨fun r rest o data s hr hs => ?_, fun r rest s hr hs => ?_, fun src tag o data s hnone => ⟨?_, ?_⟩, fun v s => ?_, fun d s => rfl,
    fun rate width flit s => ⟨_, rfl, ?_⟩⟩
  · refine ⟨_, rfl, ?_⟩
    simp only [pcieCompletion, hostRead_first hr]
    cases o with
    | success => rw [hostAnswer_first hr hs]; exact ⟨rfl, rfl, rfl⟩
    | unsupported => rw [hostAnswer_first (s := aer s 1) hr hs]; exact ⟨rfl, rfl, rfl⟩
    | completerAbort => rw [hostAnswer_first (s := aer s 2) hr hs]; exact ⟨rfl, rfl, rfl⟩
    | poisoned => rw [hostAnswer_first (s := aer s 3) hr hs]; exact ⟨rfl, rfl, rfl⟩
  · refine ⟨_, rfl, ?_⟩
    simp only [pcieTimeout, hostRead_first hr]
    rw [hostAnswer_first (s := aer s 0) hr hs]
    exact ⟨rfl, rfl⟩
  · exact congrArg Host.Outcome.next (by simp only [pcieCompletion, hostRead_absent hnone])
  · exact congrArg Host.Outcome.next (by simp only [pcieTimeout, hostRead_absent hnone])
  · have hfield : field v.toNat 47 28 = v.toNat % 2 ^ 48 / 2 ^ 28 := by rw [field]; omega
    exact congrArg Host.Outcome.next (by rw [winBase, hfield])
  · have hlink : pcieLink s rate width flit true =
        qosRecompute { s with host.pci := { s.host.pci with rate := rate, width := width, flit := flit, up := true } } := rfl
    obtain ⟨⟨hhost, -, -, -, hmem⟩, hframe, -⟩ :=
      bellows_qosRecompute { s with host.pci := { s.host.pci with rate := rate, width := width, flit := flit, up := true } }
    rw [hlink]
    exact ⟨by rw [hframe, hhost], by rw [hframe], hmem⟩

end Sys2Proof.Machine
end

section
/-! PROOFS. DRAM controllers: patrol scrubbing, the seconds of correction counts, and the mirror regions (R236–R239, R260, R261). -/

namespace Sys2Proof.Machine

/-! ### One controller -/

/-- Of the device only controller `d` changes, and becomes `c`. -/
def DrmIs (s t : State) (d : Nat) (c : Dram) : Prop :=
  t = { s with fab := { s.fab with drm := t.fab.drm } } ∧ t.fab.drm.get d = c ∧ ∀ k, k ≠ d → t.fab.drm.get k = s.fab.drm.get k

theorem DrmIs.refl (s : State) (d : Nat) : DrmIs s s d (s.fab.drm.get d) := ⟨rfl, rfl, fun _ _ => rfl⟩

theorem DrmIs.modDrm {s u : State} {d : Nat} {c : Dram} (h : DrmIs s u d c) (f : Dram → Dram) : DrmIs s (u.modDrm d f) d (f c) := by
  obtain ⟨h1, h2, h3⟩ := h
  exact ⟨by rw [h1]; rfl, by rw [State.modDrm_get, if_pos rfl, h2], fun k hk => by rw [State.modDrm_get, if_neg (Ne.symm hk), h3 k hk]⟩

/-! ### One codeword (R236) -/

/-- Forgetting the symbol errors of a codeword forgets those only. -/
theorem clearSymbols_get (s : State) (b x : Nat) :
    (clearSymbols s b 1).fab.symErr.get x = if x = b then s.fab.symErr.dflt else s.fab.symErr.get x := by
  change assocGet s.fab.symErr.dflt (s.fab.symErr.cells.filter fun c => c.1 < b || b + 1 ≤ c.1) x = _
  split
  · next h =>
    refine assocGet_of_ne _ fun c hc => ?_
    have := (List.mem_filter.mp hc).2
    simp only [Bool.or_eq_true, decide_eq_true_eq] at this
    omega
  · next h =>
    refine assocGet_filter _ _ _ fun v => ?_
    simp only [Bool.or_eq_true, decide_eq_true_eq]
    omega

/-- Marking a codeword of 32 bytes marks its four words. -/
theorem mem_markPoison_beat (s : State) (b w : Nat) :
    w ∈ (markPoison s (b * 32) 32 32).fab.poison ↔ w / 4 = b ∨ w ∈ s.fab.poison := by
  have hlo : b * 32 / 32 * (32 / 8) = 4 * b := by omega
  have hlen : (b * 32 + 32 + 32 - 1) / 32 * (32 / 8) - 4 * b = 4 := by omega
  simp only [markPoison, Poison.mark, hlo, hlen, List.mem_append, List.mem_filter, List.mem_map, List.mem_range, decide_eq_true_eq]
  constructor
  · rintro (⟨h, -⟩ | ⟨k, hk, rfl⟩ | ⟨h, -⟩)
    · exact .inr h
    · exact .inl (by omega)
    · exact .inr h
  · rintro (h | h)
    · exact .inr (.inl ⟨w - 4 * b, by omega, by omega⟩)
    · by_cases h1 : w < 4 * b
      · exact .inl ⟨h, h1⟩
      · by_cases h2 : 4 * b + 4 ≤ w
        · exact .inr (.inr ⟨h, h2⟩)
        · exact .inr (.inl ⟨w - 4 * b, by omega, by omega⟩)

/-! ### The patrol scrubber (R237) -/

/-- The scrubber moves on, at the end of the stack to its start. -/
def scrubAdvanced (c : Dram) : Dram :=
  if c.scrubPos + 32 < dieSpan then { c with scrubPos := c.scrubPos + 32 } else { c with scrubPos := 0, scrubPass := cnt c.scrubPass 1 }

/-- The scrubber of a controller runs. -/
def Scrubs (c : Dram) : Prop := c.scrubEn = true ∧ c.ready = true ∧ c.selfref = false ∧ c.cap50 = false

theorem patrolScrub_idle {s : State} {d : Nat} (h : ¬ Scrubs (s.fab.drm.get d)) : patrolScrub s d = s :=
  if_neg (by simpa [Scrubs] using h)

section
variable {s : State} {d : Nat} (h : Scrubs (s.fab.drm.get d))
include h

theorem patrolScrub_clean (hc : s.fab.symErr.get ((d * dieSpan + (s.fab.drm.get d).scrubPos) / 32) = 0 ∨
    s.fab.poison.hit (d * dieSpan + (s.fab.drm.get d).scrubPos) 32 = true) : patrolScrub s d = s.modDrm d scrubAdvanced := by
  obtain ⟨h1, h2, h3, h4⟩ := h
  unfold patrolScrub
  rcases hc with hc | hc
  · simp only [h1, h2, h3, h4, Bool.not_false, and_self, if_true, hc]; rfl
  · simp only [h1, h2, h3, h4, Bool.not_false, and_self, if_true, hc]
    split <;> rfl

theorem patrolScrub_corrects (hc : s.fab.symErr.get ((d * dieSpan + (s.fab.drm.get d).scrubPos) / 32) = 1)
    (hp : s.fab.poison.hit (d * dieSpan + (s.fab.drm.get d).scrubPos) 32 = false) : patrolScrub s d =
      (clearSymbols (dramCorrected s d (dramChannel (s.fab.drm.get d).scrubPos)) ((d * dieSpan + (s.fab.drm.get d).scrubPos) / 32) 1).modDrm d
        scrubAdvanced := by
  obtain ⟨h1, h2, h3, h4⟩ := h
  unfold patrolScrub
  simp only [h1, h2, h3, h4, Bool.not_false, and_self, if_true, hc, hp, Bool.false_eq_true, if_false]
  rfl

theorem patrolScrub_uncorrectable (hc : 2 ≤ s.fab.symErr.get ((d * dieSpan + (s.fab.drm.get d).scrubPos) / 32))
    (hp : s.fab.poison.hit (d * dieSpan + (s.fab.drm.get d).scrubPos) 32 = false) : patrolScrub s d =
      (clearSymbols (markPoison (dramUncorrectable s d (d * dieSpan + (s.fab.drm.get d).scrubPos) (dramChannel (s.fab.drm.get d).scrubPos) 1 0xFF)
        (d * dieSpan + (s.fab.drm.get d).scrubPos) 32 32) ((d * dieSpan + (s.fab.drm.get d).scrubPos) / 32) 1).modDrm d scrubAdvanced := by
  obtain ⟨h1, h2, h3, h4⟩ := h
  unfold patrolScrub
  simp only [h1, h2, h3, h4, Bool.not_false, and_self, if_true]
  split
  · omega
  · omega
  · simp only [hp, Bool.false_eq_true, if_false]; rfl
end

/-! ### The seconds of correction counts (R238) -/

/-- The end of a second at one channel. -/
def rateStep (d : Nat) (s : State) (ch : Nat) : State :=
  let c := s.fab.drm.get d
  let n := c.ceWin.get ch
  if 1000 ≤ n then
    let s := s.modDrm d (fun c => { dramCapture c 0 ch 2 0xFF with ceRated := c.ceRated.set ch true })
    if c.ceRated.get ch then s else raiseEvent s 0x0101 d [ch, n]
  else s.modDrm d (fun c => { c with ceRated := c.ceRated.set ch false })

theorem ceRateWindow_eq (s : State) (d : Nat) :
    ceRateWindow s d = ((List.range 64).foldl (rateStep d) s).modDrm d (fun c => { c with ceWin := Tab.const 0 }) := rfl

/-- Channels without a mark. -/
def unrated (l : List Nat) (c : Dram) : Dram := { c with ceRated := l.foldl (fun t ch => t.modify ch (fun _ => false)) c.ceRated }

/-- Channels below the limit only lose their mark. -/
theorem foldl_rateStep_low {s u : State} {d : Nat} {c : Dram} {l : List Nat} (hu : DrmIs s u d c) (h : ∀ ch ∈ l, c.ceWin.get ch < 1000) :
    DrmIs s (l.foldl (rateStep d) u) d (unrated l c) := by
  induction l generalizing u c with
  | nil => exact hu
  | cons ch l ih =>
    have hstep : rateStep d u ch = u.modDrm d (fun c => { c with ceRated := c.ceRated.set ch false }) :=
      if_neg (by rw [hu.2.1]; exact Nat.not_le_of_lt (h ch (by simp)))
    rw [List.foldl_cons, hstep]
    exact ih (hu.modDrm _) fun x hx => h x (by simp [hx])

/-- A channel at the limit is captured, and marked (R238). -/
def ratedAt (ch : Nat) (c : Dram) : Dram := { dramCapture c 0 ch 2 0xFF with ceRated := c.ceRated.set ch true }

/-- A channel at the limit reports, unless it is marked already. -/
theorem rateStep_high {s u : State} {d ch : Nat} {c : Dram} (hu : DrmIs s u d c) (h : 1000 ≤ c.ceWin.get ch) :
    (c.ceRated.get ch = true → DrmIs s (rateStep d u ch) d (ratedAt ch c)) ∧
    (c.ceRated.get ch = false → ∃ v, DrmIs s v d (ratedAt ch c) ∧ rateStep d u ch = raiseEvent v 0x0101 d [ch, c.ceWin.get ch]) := by
  have hv := hu.modDrm (ratedAt ch)
  have hstep : rateStep d u ch = if c.ceRated.get ch then u.modDrm d (ratedAt ch)
      else raiseEvent (u.modDrm d (ratedAt ch)) 0x0101 d [ch, c.ceWin.get ch] := by
    rw [← hu.2.1] at h ⊢
    exact if_pos h
  exact ⟨fun hr => by rw [hstep, if_pos hr]; exact hv, fun hr => ⟨_, hv, by rw [hstep, if_neg (by simp [hr])]⟩⟩

theorem unrated_get {l : List Nat} (hl : l.Nodup) (c : Dram) (h : Nat) :
    (unrated l c).ceRated.get h = if h ∈ l then false else c.ceRated.get h := Tab.get_foldl_modify _ hl _ _

/-- A capture keeps the error that is held (R236). -/
theorem dramCapture_eq (c : Dram) (addr ch kind src : Nat) : dramCapture c addr ch kind src = { c with
    errValid := true
    errAddr := if c.errValid = true then c.errAddr else addr
    errChan := if c.errValid = true then c.errChan else ch
    errKind := if c.errValid = true then c.errKind else kind
    errSrc := if c.errValid = true then c.errSrc else src } := by
  cases c with
  | mk _ _ _ _ _ _ _ _ _ v => cases v <;> rfl

theorem DrmIs.trans {s u t : State} {d : Nat} {c e : Dram} (h : DrmIs s u d c) (k : DrmIs u t d e) : DrmIs s t d e := by
  obtain ⟨h1, -, h3⟩ := h
  obtain ⟨k1, k2, k3⟩ := k
  exact ⟨by rw [k1, h1], k2, fun n hn => (k3 n hn).trans (h3 n hn)⟩

section
variable {s : State} {d g : Nat} {l1 l2 : List Nat} (hnodup : (l1 ++ g :: l2).Nodup)
include hnodup

/-- The marks that a second leaves in which channel `g` alone reaches the limit. -/
theorem rated_alone (c : Dram) : ∀ ch ∈ l1 ++ g :: l2, (unrated l2 (ratedAt g (unrated l1 c))).ceRated.get ch = decide (ch = g) := by
  obtain ⟨hn1, hn2, -⟩ := List.nodup_append.mp hnodup
  obtain ⟨hg2, hn2⟩ := List.nodup_cons.mp hn2
  intro ch hch
  rw [unrated_get hn2]
  by_cases h2 : ch ∈ l2
  · have hne : ch ≠ g := fun e => hg2 (e ▸ h2)
    simp [h2, hne]
  · rw [if_neg h2, ratedAt, Tab.get_set]
    by_cases hcg : ch = g
    · simp [hcg]
    · have h1 : ch ∈ l1 := by simpa [hcg, h2] using hch
      rw [if_neg (Ne.symm hcg), unrated_get hn1, if_pos h1]
      simp [hcg]

/-- The channels of a list of which `g` alone reaches the limit: it is captured, and reports unless it is marked. -/
theorem foldl_rateStep_one (h : 1000 ≤ (s.fab.drm.get d).ceWin.get g) (hlow : ∀ ch ∈ l1 ++ g :: l2, ch ≠ g → (s.fab.drm.get d).ceWin.get ch < 1000) :
    let c := s.fab.drm.get d
    let e := ratedAt g (unrated l1 c)
    (c.ceRated.get g = true → DrmIs s ((l1 ++ g :: l2).foldl (rateStep d) s) d (unrated l2 e)) ∧
    (c.ceRated.get g = false → ∃ v, DrmIs s v d e ∧
      DrmIs (raiseEvent v 0x0101 d [g, c.ceWin.get g]) ((l1 ++ g :: l2).foldl (rateStep d) s) d (unrated l2 e)) := by
  obtain ⟨hn1, hn2, hdisj⟩ := List.nodup_append.mp hnodup
  obtain ⟨hg2, -⟩ := List.nodup_cons.mp hn2
  have hg1 : g ∉ l1 := fun hm => hdisj g hm g (by simp) rfl
  have hbefore := foldl_rateStep_low (DrmIs.refl s d) fun ch hch => hlow ch (by simp [hch]) fun e => hg1 (e ▸ hch)
  have hmark : (unrated l1 (s.fab.drm.get d)).ceRated.get g = (s.fab.drm.get d).ceRated.get g := by rw [unrated_get hn1, if_neg hg1]
  have hlater : ∀ ch ∈ l2, (ratedAt g (unrated l1 (s.fab.drm.get d))).ceWin.get ch < 1000 := fun ch hch => by
    rw [ratedAt, dramCapture_eq]
    exact hlow ch (by simp [hch]) fun e => hg2 (e ▸ hch)
  obtain ⟨hsilent, hreports⟩ := rateStep_high (ch := g) hbefore h
  rw [hmark] at hsilent hreports
  rw [List.foldl_append, List.foldl_cons]
  refine ⟨fun hr => foldl_rateStep_low (hsilent hr) hlater, fun hr => ?_⟩
  obtain ⟨v, hv, hstep⟩ := hreports hr
  have hget : (raiseEvent v 0x0101 d [g, (s.fab.drm.get d).ceWin.get g]).fab.drm.get d = ratedAt g (unrated l1 (s.fab.drm.get d)) := by
    rw [raiseEvent_hostOnly]; exact hv.2.1
  have hfrom := DrmIs.refl (raiseEvent v 0x0101 d [g, (s.fab.drm.get d).ceWin.get g]) d
  rw [hget] at hfrom
  rw [hstep]
  exact ⟨v, hv, foldl_rateStep_low hfrom hlater⟩
end

/-- The counts of a second forgotten. -/
def secondOver (c : Dram) : Dram := { c with ceWin := Tab.const 0 }

theorem ceRateWindow_of {s u : State} {d : Nat} {c : Dram} (h : DrmIs u ((List.range 64).foldl (rateStep d) s) d c) :
    DrmIs u (ceRateWindow s d) d (secondOver c) := by
  rw [ceRateWindow_eq]
  exact h.modDrm secondOver

/-- A second in which every channel stays below the limit (R238). -/
theorem ceRateWindow_low {s : State} {d : Nat} (h : ∀ ch, ch < 64 → (s.fab.drm.get d).ceWin.get ch < 1000) :
    ∃ r, (∀ ch, ch < 64 → r.get ch = false) ∧ DrmIs s (ceRateWindow s d) d (secondOver { s.fab.drm.get d with ceRated := r }) :=
  ⟨(unrated (List.range 64) (s.fab.drm.get d)).ceRated,
    fun ch hch => (unrated_get List.nodup_range _ ch).trans (if_pos (List.mem_range.mpr hch)),
    ceRateWindow_of (foldl_rateStep_low (DrmIs.refl s d) fun ch hch => h ch (List.mem_range.mp hch))⟩

/-- A second in which channel `g` alone reaches the limit (R238). -/
theorem ceRateWindow_one {s : State} {d g : Nat} (hg : g < 64) (h : 1000 ≤ (s.fab.drm.get d).ceWin.get g)
    (hlow : ∀ ch, ch < 64 → ch ≠ g → (s.fab.drm.get d).ceWin.get ch < 1000) :
    let c := s.fab.drm.get d
    ∃ m r, (∀ ch, ch < 64 → r.get ch = decide (ch = g)) ∧ m = { ratedAt g c with ceRated := m.ceRated } ∧
      (c.ceRated.get g = true → DrmIs s (ceRateWindow s d) d (secondOver { m with ceRated := r })) ∧
      (c.ceRated.get g = false → ∃ v, DrmIs s v d m ∧
        DrmIs (raiseEvent v 0x0101 d [g, c.ceWin.get g]) (ceRateWindow s d) d (secondOver { m with ceRated := r })) := by
  obtain ⟨l1, l2, hl⟩ := List.append_of_mem (List.mem_range.mpr hg)
  have hnodup : (l1 ++ g :: l2).Nodup := hl ▸ List.nodup_range
  have hmem : ∀ {ch}, ch ∈ l1 ++ g :: l2 ↔ ch < 64 := fun {ch} => by rw [← hl, List.mem_range]
  obtain ⟨hsilent, hreports⟩ := foldl_rateStep_one hnodup h fun ch hch => hlow ch (hmem.mp hch)
  rw [← hl] at hsilent hreports
  refine ⟨ratedAt g (unrated l1 (s.fab.drm.get d)), _, fun ch hch => rated_alone hnodup (s.fab.drm.get d) ch (hmem.mpr hch), ?_,
    fun hr => ceRateWindow_of (hsilent hr), fun hr => ?_⟩
  · simp only [ratedAt, dramCapture_eq]
    rfl
  · obtain ⟨v, hv, hw⟩ := hreports hr
    exact ⟨v, hv, ceRateWindow_of hw⟩

/-! ### DRAM_SCRUB_CONFIG (R261) -/

theorem foldl_modDrm (f : Dram → Dram) (l : List Nat) (s : State) :
    l.foldl (fun s d => s.modDrm d f) s = { s with fab.drm := l.foldl (fun t d => t.modify d f) s.fab.drm } := by
  induction l generalizing s with
  | nil => rfl
  | cons d l ih => exact ih _

/-- A controller's scrubber as a payload configures it. -/
def scrubConfigured (pay : List Byte) (x : Dram) : Dram := { x with scrubEn := fld pay 1 1 == 1, scrubHrs := fld pay 2 1 }

theorem cmdScrubConfig_legal {s : State} {c : Cmd} (hl : c.pay.length = 3) (hm : fld c.pay 0 1 < 16) (he : fld c.pay 1 1 ≤ 1)
    (h1 : 1 ≤ fld c.pay 2 1) (h168 : fld c.pay 2 1 ≤ 168) : cmdScrubConfig s c =
      ({ s with fab.drm := (bitsOf (fld c.pay 0 1) 4).foldl (fun t d => t.modify d (scrubConfigured c.pay)) s.fab.drm }, reply stOk 0 c.pay) := by
  have hfields : clampFields c.pay 3 [fr 1 1 0 1, fr 2 1 1 168] = (c.pay, 0) := by
    refine clampFields_whole hl ?_
    simp only [List.forall_mem_cons, fr_legal, List.not_mem_nil, false_imp_iff, implies_true, and_true]
    omega
  have hput : putBytes c.pay 0 (leBytes 1 (fld c.pay 0 1)) = c.pay := putBytes_fld (by omega)
  simp only [cmdScrubConfig, hfields, Nat.mod_eq_of_lt hm, hm, hput, foldl_modDrm, if_true]
  rfl

/-! ### MIRROR_CONFIG (R239, R261) -/

/-- A sum over distinct numbers in which one summand, 0 before, is another. -/
theorem sum_map_replaced {f g : Nat → Nat} {l : List Nat} {n : Nat} (hl : l.Nodup) (hn : n ∈ l) (h : ∀ i, i ≠ n → g i = f i) (h0 : f n = 0) :
    (l.map g).sum = (l.map f).sum + g n := by
  obtain ⟨l1, l2, rfl⟩ := List.append_of_mem hn
  obtain ⟨-, hn2, hdisj⟩ := List.nodup_append.mp hl
  have h1 : l1.map g = l1.map f := List.map_congr_left fun i hi => h i fun e => hdisj i hi n (by simp) e
  have h2 : l2.map g = l2.map f := List.map_congr_left fun i hi => h i fun e => (List.nodup_cons.mp hn2).1 (e ▸ hi)
  simp only [List.map_append, List.map_cons, List.sum_append, List.sum_cons, h1, h2, h0]
  omega

/-- A MIRROR_CONFIG payload of its length with legal fields (R261). -/
structure MirrorConfigLegal (pay : List Byte) : Prop where
  length : pay.length = 16
  region : fld pay 0 1 < 8
  type : fld pay 1 1 ≤ 2
  size : 1 ≤ fld pay 2 2 ∧ fld pay 2 2 ≤ 128
  reserved : fld pay 4 4 = 0
  base : fld pay 8 8 % 0x4000000 = 0

/-- The range of a payload lies in one die's DRAM (R239). -/
def WithinDie (pay : List Byte) : Prop :=
  fld pay 8 8 + fld pay 2 2 * 0x4000000 ≤ 4 * dieSpan ∧ fld pay 8 8 / dieSpan = (fld pay 8 8 + fld pay 2 2 * 0x4000000 - 1) / dieSpan

/-- It meets another region, or an accumulation region (R239). -/
def MeetsRegion (s : State) (pay : List Byte) : Prop :=
  ∃ i, i < 8 ∧ ((i ≠ fld pay 0 1 ∧ (s.fab.mir.regions.get i).type ≠ 0 ∧ fld pay 8 8 < (s.fab.mir.regions.get i).range.2 ∧
      (s.fab.mir.regions.get i).range.1 < fld pay 8 8 + fld pay 2 2 * 0x4000000) ∨
    ((s.so.acc.get i).fmt ≠ 0 ∧ fld pay 8 8 < (s.so.acc.get i).base + (s.so.acc.get i).size * 65536 ∧
      (s.so.acc.get i).base < fld pay 8 8 + fld pay 2 2 * 0x4000000))

/-- The region that a payload sets; nothing that it held is INVALID or VERIFIED any more. -/
def regionConfigured (s : State) (pay : List Byte) : State :=
  { s.modRegion (fld pay 0 1) (fun _ => { type := fld pay 1 1, size := fld pay 2 2, base := fld pay 8 8, on := false, diverged := false }) with
    so.pair.invalid := Nat.land s.so.pair.invalid (255 - 2 ^ fld pay 0 1), so.pair.verified := Nat.land s.so.pair.verified (255 - 2 ^ fld pay 0 1) }

theorem mirrorTotal_configured {s : State} {pay : List Byte} (hn : fld pay 0 1 < 8) (k : Nat) :
    mirrorTotal (regionConfigured s pay) k 8 = mirrorTotal s k (fld pay 0 1) + if fld pay 1 1 = k then fld pay 2 2 else 0 := by
  have hself : (regionConfigured s pay).fab.mir.regions.get (fld pay 0 1) =
      { type := fld pay 1 1, size := fld pay 2 2, base := fld pay 8 8, on := false, diverged := false } := Tab.get_modify_self _ _ _
  have hother : ∀ i, i ≠ fld pay 0 1 → (regionConfigured s pay).fab.mir.regions.get i = s.fab.mir.regions.get i :=
    fun i hi => Tab.get_modify_other _ _ (Ne.symm hi)
  unfold mirrorTotal
  dsimp only
  rw [List.map_congr_left (l := List.range 8)
    (g := fun i => if ((regionConfigured s pay).fab.mir.regions.get i).type = k then ((regionConfigured s pay).fab.mir.regions.get i).size else 0)
    fun i hi => by simp [Nat.ne_of_lt (List.mem_range.mp hi)],
    sum_map_replaced (f := fun i => if i ≠ fld pay 0 1 ∧ (s.fab.mir.regions.get i).type = k then (s.fab.mir.regions.get i).size else 0)
      List.nodup_range (List.mem_range.mpr hn) (fun i hi => by rw [hother i hi]; simp [hi]) (if_neg fun e => e.1 rfl), hself]

theorem meetsRegion_iff {s : State} {c : Cmd} : MeetsRegion s c.pay ↔ ((List.range 8).any fun i =>
    (i != fld c.pay 0 1 && (s.fab.mir.regions.get i).type != 0 && decide (fld c.pay 8 8 < (s.fab.mir.regions.get i).range.2 ∧
      (s.fab.mir.regions.get i).range.1 < fld c.pay 8 8 + fld c.pay 2 2 * 0x4000000)) ||
    ((s.so.acc.get i).fmt != 0 && decide (fld c.pay 8 8 < (s.so.acc.get i).base + (s.so.acc.get i).size * 65536 ∧
      (s.so.acc.get i).base < fld c.pay 8 8 + fld c.pay 2 2 * 0x4000000))) = true := by
  simp only [List.any_eq_true, List.mem_range, Bool.or_eq_true, Bool.and_eq_true, bne_iff_ne, decide_eq_true_eq, MeetsRegion, and_assoc]

section
variable {s : State} {c : Cmd} (h : MirrorConfigLegal c.pay)
include h

theorem MirrorConfigLegal.clamps : clampFields c.pay 16 [fr 0 1 0 7, fr 1 1 0 2, fr 2 2 1 128, fz 4 4, fm 8 8 0 (2 ^ 64 - 1) 0x4000000] = (c.pay, 0) := by
  obtain ⟨hlen, hregion, htype, hsize, hreserved, hbase⟩ := h
  have hquad := fld_lt c.pay 8 8
  refine clampFields_whole hlen ?_
  simp only [List.forall_mem_cons, fr_legal, fz_legal, fm_legal, List.not_mem_nil, false_imp_iff, implies_true, and_true]
  omega

theorem cmdMirrorConfig_busy (hon : (s.fab.mir.regions.get (fld c.pay 0 1)).on = true) : cmdMirrorConfig s c = (s, reply stBusy 0 []) := by
  simp only [cmdMirrorConfig, h.clamps, hon, if_true]

section
variable (hoff : (s.fab.mir.regions.get (fld c.pay 0 1)).on = false)
include hoff

theorem cmdMirrorConfig_outside (ht : fld c.pay 1 1 ≠ 0) (hdie : ¬ WithinDie c.pay) : cmdMirrorConfig s c = (s, reply stDecodeError 0 []) := by
  simp only [cmdMirrorConfig, h.clamps, hoff, Bool.false_eq_true, if_false]
  exact if_pos ⟨ht, hdie⟩

theorem cmdMirrorConfig_full (ht : fld c.pay 1 1 ≠ 0) (hdie : WithinDie c.pay)
    (hfull : 128 < mirrorTotal s (fld c.pay 1 1) (fld c.pay 0 1) + fld c.pay 2 2 ∨ MeetsRegion s c.pay) :
    cmdMirrorConfig s c = (s, reply stNoResource 0 []) := by
  rw [meetsRegion_iff] at hfull
  simp only [cmdMirrorConfig, h.clamps, hoff, Bool.false_eq_true, if_false]
  exact (if_neg fun e => e.2 hdie).trans (if_pos ⟨ht, hfull⟩)

theorem cmdMirrorConfig_sets (hfits : fld c.pay 1 1 = 0 ∨
      (WithinDie c.pay ∧ mirrorTotal s (fld c.pay 1 1) (fld c.pay 0 1) + fld c.pay 2 2 ≤ 128 ∧ ¬ MeetsRegion s c.pay)) :
    cmdMirrorConfig s c = (regionConfigured s c.pay, reply stOk 0 (c.pay ++
      leBytes 4 (mirrorTotal s 1 (fld c.pay 0 1) + if fld c.pay 1 1 = 1 then fld c.pay 2 2 else 0) ++
      leBytes 4 (mirrorTotal s 2 (fld c.pay 0 1) + if fld c.pay 1 1 = 2 then fld c.pay 2 2 else 0))) := by
  rw [meetsRegion_iff] at hfits
  rw [← mirrorTotal_configured (s := s) h.region, ← mirrorTotal_configured (s := s) h.region]
  simp only [cmdMirrorConfig, h.clamps, hoff, Bool.false_eq_true, if_false]
  refine (if_neg fun e => ?_).trans ((if_neg fun e => ?_).trans rfl)
  · rcases hfits with h0 | ⟨hdie, -⟩
    · exact e.1 h0
    · exact e.2 hdie
  · rcases hfits with h0 | ⟨-, hroom, hclear⟩
    · exact e.1 h0
    · exact e.2.elim (Nat.not_lt.mpr hroom) hclear
end
end

/-! ### The obligation -/

/-- The step of the scrubber in one record. -/
theorem scrubAdvanced_eq (c : Dram) : scrubAdvanced c = { c with
    scrubPos := if c.scrubPos + 32 < 0x600000000 then c.scrubPos + 32 else 0
    scrubPass := if c.scrubPos + 32 < 0x600000000 then c.scrubPass else cnt c.scrubPass 1 } := by
  by_cases h : c.scrubPos + 32 < 0x600000000 <;> simp only [scrubAdvanced, dieSpan, h, if_true, if_false]

theorem modDrm_congr {s : State} {d : Nat} {f g : Dram → Dram} (h : f (s.fab.drm.get d) = g (s.fab.drm.get d)) : s.modDrm d f = s.modDrm d g := by
  simp only [State.modDrm, Tab.modify, h]

/-- A plain codeword's controller with one symbol in error: it is corrected, counted for its channel, and its codeword is clean (R236). -/
theorem dramCorrected_clean_drmIs (s : State) (d ch b : Nat) (f : Dram → Dram) :
    let t := (clearSymbols (dramCorrected s d ch) b 1).modDrm d f
    t = { s with fab := { s.fab with drm := t.fab.drm, symErr := t.fab.symErr } } ∧ (∀ k, k ≠ d → t.fab.drm.get k = s.fab.drm.get k) ∧
    t.fab.drm.get d = f { s.fab.drm.get d with
      ceCnt := cnt (s.fab.drm.get d).ceCnt 1, ceCh := (s.fab.drm.get d).ceCh.modify ch (fun n => sat 16 (n + 1))
      ceWin := (s.fab.drm.get d).ceWin.modify ch (· + 1) } ∧
    ∀ x, t.fab.symErr.get x = if x = b then s.fab.symErr.dflt else s.fab.symErr.get x := by
  obtain ⟨-, hget, hother⟩ := ((DrmIs.refl s d).modDrm (fun c => { c with
    ceCnt := cnt c.ceCnt 1, ceCh := c.ceCh.modify ch (fun n => sat 16 (n + 1)), ceWin := c.ceWin.modify ch (· + 1) })).modDrm f
  exact ⟨rfl, hother, hget, clearSymbols_get s b⟩

/-- A codeword with more than one symbol in error: counted, captured, reported, poisoned and clean of symbol errors (R236, R237). -/
theorem dramUncorrectable_clean_drmIs (s : State) (d b ch : Nat) (f : Dram → Dram) :
    let c' := dramCapture { s.fab.drm.get d with ueCnt := cnt (s.fab.drm.get d).ueCnt 1 } (b * 32) ch 1 0xFF
    let t := (clearSymbols (markPoison (dramUncorrectable s d (b * 32) ch 1 0xFF) (b * 32) 32 32) b 1).modDrm d f
    t = { s with host := t.host, fab := { s.fab with drm := t.fab.drm, symErr := t.fab.symErr, poison := t.fab.poison } } ∧ EventsOnly s t ∧
    Raised s t 0x0100 d [b * 32, drmErrInfo c'] ∧ (∀ k, k ≠ d → t.fab.drm.get k = s.fab.drm.get k) ∧ t.fab.drm.get d = f c' ∧
    (∀ x, t.fab.symErr.get x = if x = b then s.fab.symErr.dflt else s.fab.symErr.get x) ∧
    ∀ w, w ∈ t.fab.poison ↔ w / 4 = b ∨ w ∈ s.fab.poison := by
  intro c' t
  have hcount := (DrmIs.refl s d).modDrm (fun x => dramCapture { x with ueCnt := cnt x.ueCnt 1 } (b * 32) ch 1 0xFF)
  obtain ⟨-, hget, hother⟩ := hcount.modDrm f
  obtain ⟨g, hraise, hevents, hraised⟩ := raiseEvent_host
    (s.modDrm d (fun x => dramCapture { x with ueCnt := cnt x.ueCnt 1 } (b * 32) ch 1 0xFF)) 0x0100 d [b * 32, drmErrInfo c']
  have hevent : dramUncorrectable s d (b * 32) ch 1 0xFF =
      { s.modDrm d (fun x => dramCapture { x with ueCnt := cnt x.ueCnt 1 } (b * 32) ch 1 0xFF) with host := g } := by
    simp only [dramUncorrectable, hcount.2.1]
    exact hraise
  have ht : t = (clearSymbols (markPoison { s.modDrm d (fun x => dramCapture { x with ueCnt := cnt x.ueCnt 1 } (b * 32) ch 1 0xFF) with host := g }
    (b * 32) 32 32) b 1).modDrm d f := by rw [← hevent]
  rw [ht]
  exact ⟨rfl, hevents.congr rfl rfl, hraised.congr rfl rfl rfl, hother, hget, clearSymbols_get s b, mem_markPoison_beat s b⟩

/-- Settles O46: the scrubber's step by what its codeword holds, the fold of a second over the channels, and each command's branches. -/
theorem dramScrubbingRatesAndMirrorRegions : Obligations.DramScrubbingRatesAndMirrorRegions := by
  unfold Obligations.DramScrubbingRatesAndMirrorRegions
  refine ⟨fun d s => ?_, fun d now s => ⟨fun hlow => ?_, fun g hg hhigh hlow => ?_⟩, fun d s => ⟨rfl, rfl⟩, fun ch r s hplain => ⟨?_, ?_⟩⟩
  · intro c a b chn on adv rest haligned
    refine ⟨fun hoff => ?_, fun hon hclean => ?_, fun hon hone hp => ?_, fun hon htwo hp => ?_⟩
    · exact congrArg Host.Outcome.next (patrolScrub_idle hoff)
    · exact congrArg Host.Outcome.next ((patrolScrub_clean hon hclean).trans (modDrm_congr (scrubAdvanced_eq c)))
    · obtain ⟨hframe, hother, hget, hsym⟩ := dramCorrected_clean_drmIs s d chn b scrubAdvanced
      rw [scrubAdvanced_eq] at hget
      exact ⟨_, congrArg Host.Outcome.next (patrolScrub_corrects hon hone hp), ⟨hother, hsym⟩, hframe, hget⟩
    · intro c'
      have hbeat : b * 32 = d * dieSpan + c.scrubPos := by simp only [b, a, dieSpan]; omega
      obtain ⟨hframe, hevents, hraised, hother, hget, hsym, hpoison⟩ := dramUncorrectable_clean_drmIs s d b chn scrubAdvanced
      rw [scrubAdvanced_eq] at hget
      rw [dramCapture_eq] at hraised hget
      rw [hbeat] at hframe hevents hraised hother hget hsym hpoison
      exact ⟨_, congrArg Host.Outcome.next (patrolScrub_uncorrectable hon htwo hp), ⟨hother, hsym⟩, hevents, hraised, hframe, hget, hpoison⟩
  · rw [← State.advance_fab s now] at hlow
    obtain ⟨r, hmarks, hframe, hget, hother⟩ := ceRateWindow_low hlow
    simp only [State.advance_fab] at hframe hget hother
    exact ⟨_, rfl, hframe, hother, by rw [hget]; rfl, by rw [hget]; exact hmarks⟩
  · rw [← State.advance_fab s now] at hhigh hlow
    obtain ⟨m, r, hmarks, hm, hsilent, hreports⟩ := ceRateWindow_one hg hhigh hlow
    rw [ratedAt, dramCapture_eq] at hm
    simp only [State.advance_fab] at hm hsilent hreports ⊢
    have hrecord : secondOver { m with ceRated := r } = { s.fab.drm.get d with
        ceWin := Tab.const 0, ceRated := r, errValid := true
        errAddr := if (s.fab.drm.get d).errValid = true then (s.fab.drm.get d).errAddr else 0
        errChan := if (s.fab.drm.get d).errValid = true then (s.fab.drm.get d).errChan else g
        errKind := if (s.fab.drm.get d).errValid = true then (s.fab.drm.get d).errKind else 2
        errSrc := if (s.fab.drm.get d).errValid = true then (s.fab.drm.get d).errSrc else 0xFF } := by rw [hm]; rfl
    rw [hrecord] at hsilent hreports
    cases hrated : (s.fab.drm.get d).ceRated.get g
    · obtain ⟨v, ⟨hvframe, -, hvother⟩, hframe, hget, hother⟩ := hreports hrated
      obtain ⟨e, hraise, hevents, hraised⟩ := raiseEvent_host v 0x0101 d [g, (s.fab.drm.get d).ceWin.get g]
      rw [hraise] at hframe hother
      have hvhost : v.host = s.host := by rw [hvframe]; exact State.advance_host s now
      have hhost : (ceRateWindow (s.advance now) d).host = e := by rw [hframe]
      refine ⟨_, rfl, hevents.congr hvhost.symm hhost, ?_, fun k hk => ?_, ?_, ?_, fun _ => ?_, fun e => by simp at e⟩
      · rw [hframe, hvframe]
        simp only [State.advance_fab]
      · exact (hother k hk).trans ((hvother k hk).trans (by rw [State.advance_fab]))
      · rw [hget]
      · rw [hget]; exact hmarks
      · exact hraised.congr (by rw [hvframe]) (by rw [hvframe]) hhost
    · obtain ⟨hframe, hget, hother⟩ := hsilent hrated
      have hhost : (ceRateWindow (s.advance now) d).host = s.host := by rw [hframe]; exact State.advance_host s now
      refine ⟨_, rfl, (EventsOnly.refl s).congr rfl hhost, ?_, fun k hk => ?_, ?_, ?_, fun e => by simp at e, fun _ => hhost⟩
      · rw [hframe]
        simp only [State.advance_fab]
      · exact (hother k hk).trans (by rw [State.advance_fab])
      · rw [hget]
      · rw [hget]; exact hmarks
  · intro hlen hmask hen h1 h168
    have hx := cmdScrubConfig_legal (s := s) (c := plainCmd ch 0x0120 r) ((plainCmd_pay_length ch 0x0120 r).trans (by rw [hlen]; rfl)) hmask hen h1 h168
    refine hplain.accepts (by decide) ch.isLt rfl hx rfl fun g => ⟨rfl, fun d => ?_⟩
    refine (Tab.get_foldl_modify _ (nodup_bitsOf ..) _ _).trans ?_
    simp only [mem_bitsOf]
    rfl
  · intro n ty size base top inDie meets hlen hn hty h1 h128 hreserved hbase
    have hl : MirrorConfigLegal (plainCmd ch 0x0121 r).pay :=
      ⟨(plainCmd_pay_length ch 0x0121 r).trans (by rw [hlen]; rfl), hn, hty, ⟨h1, h128⟩, hreserved, hbase⟩
    refine ⟨fun hon => ?_, fun hoff => ⟨fun ht hdie => ?_, fun ht hdie hfull => ?_, fun hfits => ?_⟩⟩
    · exact hplain.answersOnly (by decide) ch.isLt rfl (cmdMirrorConfig_busy hl hon)
    · exact hplain.answersOnly (by decide) ch.isLt rfl (cmdMirrorConfig_outside hl hoff ht hdie)
    · exact hplain.answersOnly (by decide) ch.isLt rfl (cmdMirrorConfig_full hl hoff ht hdie hfull)
    · exact hplain.accepts (by decide) ch.isLt rfl (cmdMirrorConfig_sets hl hoff hfits) rfl fun _ => rfl

end Sys2Proof.Machine
end

section
/-! PROOFS. A reroute's last flow switches while a die-with-transit reset waits for it (R251, R439). -/

namespace Sys2Proof.Machine

/-- A table with the code of flow `i` taken from another table. -/
def withFlow (rt new i : Nat) : Nat := rt - flowCode rt i * 4 ^ i + flowCode new i * 4 ^ i

/-- The routes once flow `i` has switched. -/
def flowSwitched (q : Routes) (new i : Nat) : Routes := { q with rt := withFlow q.rt new i, held := q.held.erase i, switched := q.switched + 1 }

/-- A held flow with no request under way switches; the last one ends the reroute. -/
theorem flowSwitch_switches {s : State} {i new : Nat} (hn : s.fab.routes.newRt = some new) (hh : i ∈ s.fab.routes.held)
    (hr : ∀ x ∈ s.fab.routes.heldReqs, x.1 ≠ i) : flowSwitch s i =
      if s.fab.routes.held.erase i = [] then rerouteDone { s with fab.routes := flowSwitched s.fab.routes new i }
      else { s with fab.routes := flowSwitched s.fab.routes new i } := by
  have hany : (s.fab.routes.heldReqs.any fun x => x.1 == i) = false := List.any_eq_false.mpr fun x hx => by simpa using hr x hx
  simp only [flowSwitch, hn, List.contains_iff_mem.mpr hh, hany, Bool.not_false, and_self, if_true, flowSwitched, withFlow]

/-- The end of a reroute is reported, and Bellows recomputes (R251, R256). -/
theorem rerouteDone_reports (s : State) : ∃ u, Bellows u (rerouteDone s) ∧ EventsOnly s u ∧ Raised s u 0x0107 0 [s.fab.routes.rt] ∧
    u = { s with host := u.host, fab.routes := { s.fab.routes with newRt := none, routeCnt := cnt s.fab.routes.routeCnt 1 } } := by
  obtain ⟨g, hraise, hevents, hraised⟩ := raiseEvent_host
    { s with fab.routes := { s.fab.routes with newRt := none, routeCnt := cnt s.fab.routes.routeCnt 1 } } 0x0107 0 [s.fab.routes.rt]
  refine ⟨_, ?_, hevents.congr rfl rfl, hraised.congr rfl rfl rfl, rfl⟩
  rw [← hraise]
  exact bellows_qosRecompute _

/-- The die whose transit domain goes down is in self-refresh (R438, R439). -/
theorem transitBegin_selfref (s : State) (d : Nat) : ((transitBegin s d).fab.drm.get d).selfref = true := by
  obtain ⟨-, hframe, -⟩ := bellows_qosRecompute (partitionBegin
    { (dieEdges d).foldl (fun s k => s.modEdge k (fun e => { e with state := 3 })) s with
      fab.transitDown := ((dieEdges d).foldl (fun s k => s.modEdge k (fun e => { e with state := 3 })) s).fab.transitDown.set d true } d)
  rw [transitBegin, hframe]
  exact congrArg Dram.selfref (Tab.get_modify_self _ d _)

section
variable {s : State} {r : ResetRun} {i new : Nat} (hn : s.fab.routes.newRt = some new) (hh : s.fab.routes.held = [i])
  (hq : s.fab.routes.heldReqs = [])
include hn hh hq

theorem flowSwitch_last : flowSwitch s i = rerouteDone { s with fab.routes := flowSwitched s.fab.routes new i } :=
  (flowSwitch_switches hn (by simp [hh]) (by simp [hq])).trans (if_pos (by simp [hh]))

/-- The last switch of a reroute lets the die-with-transit reset that waited for it go on (R439). -/
theorem transitProceed_flowSwitch_last (hr : s.bu.rst = some r) (hscope : r.scope = 2) (hup : s.fab.transitDown.get r.index = false) :
    transitProceed (flowSwitch s i) = transitBegin (flowSwitch s i) r.index := by
  obtain ⟨u, ⟨-, hframe, -⟩, -, -, hu⟩ := rerouteDone_reports { s with fab.routes := flowSwitched s.fab.routes new i }
  rw [← flowSwitch_last hn hh hq] at hframe
  have hbu : (flowSwitch s i).bu.rst = some r := by rw [hframe, hu]; exact hr
  have hroutes : (flowSwitch s i).fab.routes.newRt = none := by rw [hframe, hu]
  have hdown : (flowSwitch s i).fab.transitDown.get r.index = false := by rw [hframe, hu]; exact hup
  simp only [transitProceed, hbu, hscope, hroutes, hdown, Bool.not_false, and_self, if_true]
end

/-- A die-with-transit reset of die 0 waits for a reroute of which flow 0 alone has not switched. -/
def lastFlowOfTransitReset : State := { State.reset with
  bu.rst := some { scope := 2, index := 0, from_ := 0, chan := none }
  fab.routes := { State.reset.fab.routes with newRt := some 0, held := [0], heldReqs := [] } }

/-- Refutes O48: the switch that ends the reroute of a die-with-transit reset also lets the reset go on (R439), in the same step: the die's
stack enters self-refresh, where the statement lets nothing change but the routes, Bellows and the host side. -/
theorem not_routesBandwidthAndInjectors : ¬ Obligations.RoutesBandwidthAndInjectors := by
  unfold Obligations.RoutesBandwidthAndInjectors
  intro h
  obtain ⟨hswitch, -⟩ := h
  obtain ⟨-, hends⟩ := hswitch 0 lastFlowOfTransitReset
  obtain ⟨-, hlast⟩ := hends 0 rfl (List.mem_singleton.mpr rfl) (List.forall_mem_nil _)
  obtain ⟨t, hexec, -, u, ⟨-, hbellows, -⟩, -, -, hu⟩ := hlast rfl
  have hnext : transitProceed (flowSwitch lastFlowOfTransitReset 0) = t := Host.Outcome.next.inj hexec
  have hproceeds : transitProceed (flowSwitch lastFlowOfTransitReset 0) = transitBegin (flowSwitch lastFlowOfTransitReset 0) 0 :=
    transitProceed_flowSwitch_last (new := 0) rfl rfl rfl (r := { scope := 2, index := 0, from_ := 0, chan := none }) rfl rfl rfl
  have hbegun := transitBegin_selfref (flowSwitch lastFlowOfTransitReset 0) 0
  rw [← hproceeds, hnext] at hbegun
  have hkept : (t.fab.drm.get 0).selfref = false := by
    rw [hbellows, hu]
    rfl
  rw [hbegun] at hkept
  exact Bool.noConfusion hkept

end Sys2Proof.Machine
end

section
/-! PROOFS. Edges between the dies: flits, lanes, groups, training and their commands (R242–R249, R260, R261). -/

namespace Sys2Proof.Machine

/-! ### Updates of groups -/

theorem Tab.modify_congr {α : Type} {t : Tab α} {i : Nat} {f g : α → α} (h : f (t.get i) = g (t.get i)) : t.modify i f = t.modify i g := by
  simp only [Tab.modify, h]

theorem modGroup_congr {s : State} {n : Nat} {f g : EGroup → EGroup} (h : f (s.fab.groups.get n) = g (s.fab.groups.get n)) :
    s.modGroup n f = s.modGroup n g := by
  simp only [State.modGroup, Tab.modify_congr h]

@[simp] theorem modGroup_modGroup (s : State) (n : Nat) (f g : EGroup → EGroup) :
    (s.modGroup n f).modGroup n g = s.modGroup n (fun q => g (f q)) := by
  simp only [State.modGroup, Tab.modify_modify]

@[simp] theorem modEdge_modEdge (s : State) (k : Nat) (f g : Edge → Edge) : (s.modEdge k f).modEdge k g = s.modEdge k (fun e => g (f e)) := by
  simp only [State.modEdge, Tab.modify_modify]

/-- The entries of a table whose indices a list names, each changed by a function of its own. -/
theorem Tab.get_foldl_modify_index {α β : Type} (idx : β → Nat) (F : β → α → α) {l : List β} (hl : (l.map idx).Nodup) (t : Tab α) :
    (∀ x ∈ l, (l.foldl (fun t x => t.modify (idx x) (F x)) t).get (idx x) = F x (t.get (idx x))) ∧
    ∀ m, m ∉ l.map idx → (l.foldl (fun t x => t.modify (idx x) (F x)) t).get m = t.get m := by
  induction l generalizing t with
  | nil => exact ⟨List.forall_mem_nil _, fun m _ => rfl⟩
  | cons a l ih =>
    obtain ⟨ha, hl⟩ := List.nodup_cons.mp hl
    obtain ⟨hin, hout⟩ := ih hl (t.modify (idx a) (F a))
    refine ⟨fun x hx => ?_, fun m hm => ?_⟩
    · rcases List.mem_cons.mp hx with rfl | hx
      · rw [List.foldl_cons, hout _ ha, Tab.get_modify_self]
      · have hne : idx a ≠ idx x := fun e => ha (e ▸ List.mem_map_of_mem hx)
        rw [List.foldl_cons, hin x hx, Tab.get_modify_other _ _ hne]
    · obtain ⟨hma, hml⟩ := not_or.mp (mt List.mem_cons.mpr hm)
      rw [List.foldl_cons, hout m hml, Tab.get_modify_other _ _ (Ne.symm hma)]

/-- One idempotent change, made once or more at each index. -/
theorem Tab.get_foldl_modify_idem {α : Type} {f : α → α} (hf : ∀ x, f (f x) = f x) (l : List Nat) (t : Tab α) (m : Nat) :
    (l.foldl (fun t i => t.modify i f) t).get m = if m ∈ l then f (t.get m) else t.get m := by
  induction l generalizing t with
  | nil => rfl
  | cons i l ih =>
    rw [List.foldl_cons, ih, Tab.get_modify]
    by_cases hi : i = m
    · subst hi
      simp [hf]
    · simp [hi, Ne.symm hi]

/-- Changes of groups by functions that do not look at the fabric. -/
theorem foldl_modGroup {β : Type} {idx : β → Nat} {G : State → β → EGroup → EGroup} {s : State} (hG : ∀ u, u.bu = s.bu → G u = G s) (l : List β)
    {u : State} (hu : u.bu = s.bu) : l.foldl (fun s x => s.modGroup (idx x) (G s x)) u =
      { u with fab.groups := l.foldl (fun t x => t.modify (idx x) (G s x)) u.fab.groups } := by
  induction l generalizing u with
  | nil => rfl
  | cons x l ih =>
    rw [List.foldl_cons, ih (u := u.modGroup (idx x) (G u x)) hu, hG u hu]
    rfl

/-! ### The sixteen groups of an edge -/

theorem groupNo_split (k i : Nat) : groupNo k (i / 8) (i % 8) = 16 * k + i := by rw [groupNo]; omega

/-- Group `m` is one of edge `k`. -/
theorem groupNo_iff {k m : Nat} : (∃ dir g, dir < 2 ∧ g < 8 ∧ m = groupNo k dir g) ↔ ∃ i, i < 16 ∧ m = 16 * k + i := by
  constructor
  · rintro ⟨dir, g, hd, hg, rfl⟩
    exact ⟨8 * dir + g, by omega, by rw [groupNo]; omega⟩
  · rintro ⟨i, hi, rfl⟩
    exact ⟨i / 8, i % 8, by omega, by omega, (groupNo_split k i).symm⟩

section
variable {s : State} {k : Nat} {G : State → Nat → EGroup → EGroup} (hG : ∀ u, u.bu = s.bu → G u = G s)
include hG

/-- Groups of an edge changed one after the other: only they change, each by its own function. -/
theorem foldl_edgeGroups {l : List Nat} (hl : l.Nodup) :
    let t := l.foldl (fun s i => s.modGroup (groupNo k (i / 8) (i % 8)) (G s i)) s
    t = { s with fab.groups := t.fab.groups } ∧
    (∀ i ∈ l, t.fab.groups.get (16 * k + i) = G s i (s.fab.groups.get (16 * k + i))) ∧
    ∀ m, (∀ i ∈ l, m ≠ 16 * k + i) → t.fab.groups.get m = s.fab.groups.get m := by
  have hfold := foldl_modGroup (idx := fun i => groupNo k (i / 8) (i % 8)) hG l rfl
  obtain ⟨hin, hout⟩ := Tab.get_foldl_modify_index (fun i => 16 * k + i) (G s) (l := l)
    ((List.nodup_map_iff fun a b h => Nat.add_left_cancel h).mpr hl) s.fab.groups
  dsimp only at hfold ⊢
  rw [hfold]
  simp only [groupNo_split]
  refine ⟨trivial, hin, fun m hm => hout m fun hmem => ?_⟩
  obtain ⟨i, hi, he⟩ := List.mem_map.mp hmem
  exact hm i hi he.symm
end

/-! ### Flits (R242, R243) -/

theorem edgeFlit_ignored {s : State} {k dir g : Nat} (f : EdgeFlit)
    (h : (s.fab.groups.get (groupNo k dir g)).width = 0 ∨ (s.fab.groups.get (groupNo k dir g)).retraining = true) : edgeFlit s k dir g f = s :=
  if_pos h

/-- A group after a flit rejected by lanes `ls` (R242). -/
def flitRejected (ls : List Nat) (q : EGroup) : EGroup := { q with
  rtyCnt := cnt q.rtyCnt 1, nak := some q.expect
  lerr := (ls.filterMap (fun l => q.map[l]?)).foldl (fun t l => t.modify l (fun v => sat 8 (v + 1))) q.lerr
  win := (ls.filterMap (fun l => q.map[l]?)).foldl (fun t l => t.modify l (· + 1)) q.win }

section
variable {s : State} {k dir g : Nat} {f : EdgeFlit} (hw : (s.fab.groups.get (groupNo k dir g)).width ≠ 0)
  (hr : (s.fab.groups.get (groupNo k dir g)).retraining = false) (hinj : NoInjector s)
include hw hr hinj

theorem edgeFlit_rejects (h : f.crcOk = false ∨ f.badLanes ≠ []) :
    edgeFlit s k dir g f = s.modGroup (groupNo k dir g) (flitRejected (f.badLanes.map (·.val))) := by
  have hbad : (!f.crcOk || !f.badLanes.isEmpty) = true := by
    rcases h with h | h
    · simp [h]
    · simp [h]
  have hon : ¬ ((s.fab.groups.get (groupNo k dir g)).width = 0 ∨ (s.fab.groups.get (groupNo k dir g)).retraining = true) := by simp [hw, hr]
  unfold edgeFlit
  simp only [hon, if_false, inject_none hinj, hbad, if_true]
  rfl

/-- The groups that an intact flit changes at the other direction's sender: what its ack covers is released, credits return (R242). -/
def flitAcked (f : EdgeFlit) (q : EGroup) : EGroup :=
  { q with retry := q.retry.filter (fun a => !seqLe a f.ack), credits := q.credits + f.credit.toNat }

/-- A DATA flit accepted by its group (R242). -/
def flitAccepted (q : EGroup) : EGroup := { q with expect := q.expect + 1, nak := none }

/-- The order of an edge's flits restored with one flit more (R243). -/
def edgeDelivers (dir : Nat) (f : EdgeFlit) (e : Edge) : Edge :=
  let r := drainEarly 1024 (e.eseq.get dir) (e.early.get dir ++ [(f.eseq, slice f.data 0 1984)]) 0
  { e with eseq := e.eseq.set dir r.1, early := e.early.set dir r.2.1, delivered := e.delivered.modify dir (· + r.2.2) }

theorem edgeFlit_accepts (hd : dir < 2) (hcrc : f.crcOk = true) (hb : f.badLanes = []) (hk : f.kind = 0)
    (hseq : f.gseq = (s.fab.groups.get (groupNo k dir g)).expect) : edgeFlit s k dir g f =
      ((s.modGroup (groupNo k (1 - dir) g) (flitAcked f)).modGroup (groupNo k dir g) flitAccepted).modEdge k (edgeDelivers dir f) := by
  have hon : ¬ ((s.fab.groups.get (groupNo k dir g)).width = 0 ∨ (s.fab.groups.get (groupNo k dir g)).retraining = true) := by simp [hw, hr]
  have hbad : (!f.crcOk || !f.badLanes.isEmpty) = false := by simp [hcrc, hb]
  have hback : groupNo k (1 - dir) g ≠ groupNo k dir g := by simp only [groupNo]; omega
  have hexpect : ¬ f.gseq ≠ ((s.modGroup (groupNo k (1 - dir) g) (flitAcked f)).fab.groups.get (groupNo k dir g)).expect := by
    rw [State.modGroup_get, if_neg hback]
    exact not_not_intro hseq
  unfold edgeFlit
  simp only [hon, if_false, inject_none hinj, hbad, Bool.false_eq_true, hk]
  exact if_neg hexpect
end

/-! ### Failing lanes (R245) -/

/-- A group with one bad lane more. -/
def withBad (lane : Nat) (q : EGroup) : EGroup := { q with bad := lane :: q.bad }

/-- The lowest good spare of a group (R245). -/
def lowestSpare (q : EGroup) : Option Nat := (List.range 68).find? fun x => !q.bad.contains x && !q.map.contains x

theorem head?_spares (q : EGroup) : ((goodLanes q).filter fun x => !q.map.contains x).head? = lowestSpare q := by
  rw [goodLanes, List.filter_filter, List.head?_filter, lowestSpare]
  congr 1
  funext x
  exact Bool.and_comm _ _

/-- A group that retrains on the lanes left to it (R245). -/
def retrained (q : EGroup) : EGroup := { trainGroup q with sig := q.sig, retraining := true, spares := 0 }

/-- A group disabled for want of lanes (R245). -/
def disabled (q : EGroup) : EGroup := { q with width := 0, sig := 0, map := [] }

section
variable {s : State} {k dir g lane : Nat}

theorem laneFail_known (h : (s.fab.groups.get (groupNo k dir g)).bad.contains lane = true) : laneFail s k dir g lane = s := if_pos h

variable (h : (s.fab.groups.get (groupNo k dir g)).bad.contains lane = false)
include h

theorem laneFail_unused (hm : (s.fab.groups.get (groupNo k dir g)).map.contains lane = false) :
    laneFail s k dir g lane = s.modGroup (groupNo k dir g) (withBad lane) := by
  have hnone : indexOf? (· == lane) (s.fab.groups.get (groupNo k dir g)).map = none := by
    rw [indexOf?_eq_findIdx?, List.findIdx?_eq_none_iff]
    intro x hx
    have : lane ∉ (s.fab.groups.get (groupNo k dir g)).map := by simpa using hm
    simpa using fun e : x = lane => this (e ▸ hx)
  simp only [laneFail, h, Bool.false_eq_true, if_false, State.modGroup_get, if_true, hnone]
  rfl

variable {i : Nat} (hi : indexOf? (· == lane) (s.fab.groups.get (groupNo k dir g)).map = some i)
include hi

theorem laneFail_spared {x : Nat} (hx : lowestSpare (withBad lane (s.fab.groups.get (groupNo k dir g))) = some x)
    (hw : (s.fab.groups.get (groupNo k dir g)).width = 2) : laneFail s k dir g lane =
      raiseEvent (s.modGroup (groupNo k dir g) fun q => { q with bad := lane :: q.bad, map := q.map.set i x, spares := q.spares + 1 }) 0x0103 k
        [groupPay dir g + i * 256 + x * 65536] := by
  obtain ⟨rest, hspares⟩ := List.head?_eq_some_iff.mp ((head?_spares _).trans hx)
  simp only [withBad, hw] at hspares
  simp only [laneFail, h, Bool.false_eq_true, if_false, State.modGroup_get, if_true, hi, hspares, hw, modGroup_modGroup]

theorem laneFail_replaced {x : Nat} (hx : lowestSpare (withBad lane (s.fab.groups.get (groupNo k dir g))) = some x)
    (hw : (s.fab.groups.get (groupNo k dir g)).width = 1) : laneFail s k dir g lane =
      s.modGroup (groupNo k dir g) fun q => { q with bad := lane :: q.bad, map := q.map.set i x } := by
  obtain ⟨rest, hspares⟩ := List.head?_eq_some_iff.mp ((head?_spares _).trans hx)
  simp only [withBad, hw] at hspares
  simp only [laneFail, h, Bool.false_eq_true, if_false, State.modGroup_get, if_true, hi, hspares, hw, modGroup_modGroup]

theorem laneFail_narrows (hx : lowestSpare (withBad lane (s.fab.groups.get (groupNo k dir g))) = none)
    (hw : (s.fab.groups.get (groupNo k dir g)).width = 2) : laneFail s k dir g lane =
      edgeCheck (s.modGroup (groupNo k dir g) fun q => retrained (withBad lane q)) k := by
  have hspares := List.head?_eq_none_iff.mp ((head?_spares _).trans hx)
  simp only [withBad, hw] at hspares
  simp only [laneFail, h, Bool.false_eq_true, if_false, State.modGroup_get, if_true, hi, hspares, hw, modGroup_modGroup]
  exact congrArg (edgeCheck · k) (modGroup_congr (by simp only [retrained, withBad, hw]))

theorem laneFail_disables (hx : lowestSpare (withBad lane (s.fab.groups.get (groupNo k dir g))) = none)
    (hw : (s.fab.groups.get (groupNo k dir g)).width = 1) : let v := s.modGroup (groupNo k dir g) fun q => disabled (withBad lane q)
      laneFail s k dir g lane = edgeCheck (raiseEvent v 0x0105 k [groupPay dir g, widthSig v k dir]) k := by
  have hspares := List.head?_eq_none_iff.mp ((head?_spares _).trans hx)
  simp only [withBad, hw] at hspares
  simp only [laneFail, h, Bool.false_eq_true, if_false, State.modGroup_get, if_true, hi, hspares, hw, modGroup_modGroup]
  rfl
end

/-! ### Edges that go down (R246) -/

theorem edgeCheck_stays {s : State} {k : Nat} (h : ¬ ((s.fab.edges.get k).state = 2 ∧ liveGroups s k < 4)) : Bellows s (edgeCheck s k) := by
  rw [edgeCheck, if_neg h]
  exact bellows_qosRecompute s

theorem edgeDown_reports (s : State) (k : Nat) : ∃ w, EventsOnly s w ∧ Raised s w 0x0106 k [] ∧
    w = { s.modEdge k (fun e => { e with state := 3, holding := true }) with host := w.host } ∧ Bellows w (edgeDown s k) := by
  obtain ⟨e, hraise, hevents, hraised⟩ := raiseEvent_host (s.modEdge k (fun e => { e with state := 3, holding := true })) 0x0106 k []
  refine ⟨_, hevents.congr rfl rfl, hraised.congr rfl rfl rfl, rfl, ?_⟩
  rw [← hraise]
  exact bellows_qosRecompute _

/-! ### Requests held for a lost edge (R246) -/

theorem failRequest_only {s : State} {r : NetReq} (h : s.fab.net.inflight = [r]) (hs : r.src ≠ 0x33) (st : Half) :
    failRequest s r st = { s with fab := { s.fab with net := { s.fab.net with
      inflight := []
      rsps := s.fab.net.rsps ++ [{ src := r.src, tag := r.tag, op := r.op, addr := r.addr, len := r.len, status := st, data := [],
                                   poison := r.op == 0 }] } } } := by
  have herase : eraseFirst (· == r) s.fab.net.inflight = [] := by simp [h, eraseFirst]
  rw [failRequest, netAnswer_notBar2 st [] (r.op == 0) hs, herase]

section
variable {s : State} {k : Nat} (h : (s.fab.edges.get k).holding = true)
include h

theorem edgeHoldTimeout_none (hnone : ∀ r ∈ s.fab.net.inflight, usesEdge s k r = false) :
    edgeHoldTimeout s k = s.modEdge k (fun e => { e with holding := false }) := by
  have hfilter : s.fab.net.inflight.filter (usesEdge s k) = [] := List.filter_eq_nil_iff.mpr fun r hr => by simp [hnone r hr]
  rw [edgeHoldTimeout, if_pos h]
  simp only [hfilter, List.foldl_nil]

theorem edgeHoldTimeout_one {r : NetReq} (hr : s.fab.net.inflight = [r]) (hu : usesEdge s k r = true) :
    edgeHoldTimeout s k = failRequest (s.modEdge k (fun e => { e with holding := false })) r stNoRoute := by
  have hfilter : s.fab.net.inflight.filter (usesEdge s k) = [r] := by simp [hr, hu]
  rw [edgeHoldTimeout, if_pos h]
  simp only [hfilter, List.foldl_cons, List.foldl_nil]
end

/-! ### Training (R247–R249) -/

/-- The lanes of a group once training of edge `k` has found `fails` (R247). -/
def tested (s : State) (k : Nat) (fails : List LaneRef) (i : Nat) (q : EGroup) : EGroup :=
  { q with bad := (q.bad ++ (fails.filter (fun l => l.edge.val == k && l.dir.val == i / 8 && l.group.val == i % 8)).map (fun l => l.lane.val) ++
                   defectLanes s k (i / 8) (i % 8)).eraseDups }

/-- A group after training of its edge (R247, R249). -/
def trained (up : Bool) (k : Nat) (fails : List LaneRef) (s : State) (i : Nat) (q : EGroup) : EGroup :=
  if up && (q.width != 0 && !(q.width == 1 && decide (64 ≤ (goodLanes (tested s k fails i q)).length))) then tested s k fails i q
  else trainGroup (tested s k fails i q)

theorem trained_eq (p : Prop) [Decidable p] (k : Nat) (fails : List LaneRef) (s : State) (i : Nat) (q : EGroup) : trained (decide p) k fails s i q =
    if p ∧ q.width ≠ 0 ∧ ¬ (q.width = 1 ∧ 64 ≤ (goodLanes (tested s k fails i q)).length) then tested s k fails i q
    else trainGroup (tested s k fails i q) := if_congr (by simp [imp_iff_not_or]) rfl rfl

/-- An edge that starts to train anew. -/
def edgeRestarted (e : Edge) : Edge := { e with state := 1, eseq := Tab.const 0, early := Tab.const [] }

/-- The groups of an edge after its training. -/
def groupsTrained (up : Bool) (s : State) (k : Nat) (fails : List LaneRef) (l : List Nat) : State :=
  l.foldl (fun s i => s.modGroup (groupNo k (i / 8) (i % 8)) (trained up k fails s i)) s

theorem edgeTraining_eq (s : State) (k : Nat) (fails : List LaneRef) : edgeTraining s k fails =
    if (s.fab.edges.get k).state = 2 then qosRecompute (groupsTrained true s k fails (List.range 16))
    else qosRecompute ((groupsTrained false s k fails (List.range 16)).modEdge k edgeRestarted) := by
  unfold edgeTraining
  split
  · next h => simp only [h, decide_true]; rfl
  · next h => simp only [h, decide_false]; rfl

theorem trainGroup_eq (q : EGroup) : trainGroup q =
    { q with
      width := widthFor (goodLanes q).length, sig := widthFor (goodLanes q).length, map := (goodLanes q).take (32 * widthFor (goodLanes q).length)
      spares := 0, retraining := false, leftOff := false, nak := none, replay := false, win := Tab.const 0 } := by
  have hcount : (if widthFor (goodLanes q).length = 2 then 64 else if widthFor (goodLanes q).length = 1 then 32 else 0) =
      32 * widthFor (goodLanes q).length := by
    simp only [widthFor]
    split
    · rfl
    · split <;> rfl
  simp only [trainGroup, hcount]

/-- A group left off because its ends disagree (R248). -/
def leftOffGroup (q : EGroup) : EGroup := { q with width := 0, sig := 0, map := [], leftOff := true }

/-- The groups left off and the edge marked (R248). -/
def disagreed (s : State) (k : Nat) (dis : List (Fin 2 × Fin 8)) : State :=
  (dis.foldl (fun s x => s.modGroup (groupNo k x.1 x.2) leftOffGroup) s).modEdge k (fun e => { e with mismatch := !dis.isEmpty })

theorem foldl_modGroup_idem {f : EGroup → EGroup} (hf : ∀ q, f (f q) = f q) {β : Type} (idx : β → Nat) (l : List β) (s : State) :
    let t := l.foldl (fun s x => s.modGroup (idx x) f) s
    t = { s with fab.groups := t.fab.groups } ∧ ∀ m, t.fab.groups.get m = if m ∈ l.map idx then f (s.fab.groups.get m) else s.fab.groups.get m := by
  have hfold := foldl_modGroup (idx := idx) (G := fun _ _ => f) (s := s) (fun _ _ => rfl) l rfl
  have hget := Tab.get_foldl_modify_idem hf (l.map idx) s.fab.groups
  rw [List.foldl_map] at hget
  dsimp only at hfold ⊢
  rw [hfold]
  exact ⟨rfl, hget⟩

section
variable {s : State} {k : Nat} {dis : List (Fin 2 × Fin 8)}

theorem disagreed_spec (s : State) (k : Nat) (dis : List (Fin 2 × Fin 8)) : EdgesOnly s (disagreed s k dis) ∧
    (∀ m, (disagreed s k dis).fab.groups.get m =
      if m ∈ dis.map (fun x => groupNo k x.1 x.2) then leftOffGroup (s.fab.groups.get m) else s.fab.groups.get m) ∧
    (disagreed s k dis).fab.edges = s.fab.edges.modify k (fun e => { e with mismatch := !dis.isEmpty }) := by
  obtain ⟨hframe, hget⟩ := foldl_modGroup_idem (f := leftOffGroup) (fun _ => rfl) (fun x : Fin 2 × Fin 8 => groupNo k x.1 x.2) dis s
  dsimp only at hframe
  refine ⟨?_, hget, ?_⟩
  · rw [EdgesOnly, disagreed, hframe]
    rfl
  · rw [disagreed, hframe]
    rfl

variable (h : (s.fab.edges.get k).state = 1)
include h

theorem trainingAttemptDone_eq : trainingAttemptDone s k dis =
    if 4 ≤ liveGroups (disagreed s k dis) k then
      qosRecompute ((disagreed s k dis).modEdge k (fun e => { e with state := 2, attempts := 0, holding := false }))
    else if min 3 ((s.fab.edges.get k).attempts + 1) = 3 then
      edgeDown ((disagreed s k dis).modEdge k (fun e => { e with attempts := min 3 (e.attempts + 1) })) k
    else (disagreed s k dis).modEdge k (fun e => { e with attempts := min 3 (e.attempts + 1) }) := by
  have hattempts : (((disagreed s k dis).modEdge k (fun e => { e with attempts := min 3 (e.attempts + 1) })).fab.edges.get k).attempts =
      min 3 ((s.fab.edges.get k).attempts + 1) := by
    rw [State.modEdge_get, if_pos rfl, (disagreed_spec s k dis).2.2, Tab.get_modify_self]
  unfold trainingAttemptDone
  rw [if_neg (not_not_intro h), ← hattempts]
  rfl
end

/-- The groups of an edge that disagreement has left off (R249). -/
def groupsLeftOff (s : State) (k : Nat) : List Nat := (List.range 16).filter fun i => (s.fab.groups.get (groupNo k (i / 8) (i % 8))).leftOff

/-- A retrain window is due (R249). -/
def retrainDue (s : State) (k : Nat) : Prop :=
  (s.fab.edges.get k).state = 2 ∧ groupsLeftOff s k ≠ [] ∧ ∀ x, (s.fab.edges.get k).winAt = some x → x + 100000000 ≤ s.dt

theorem retrainDue_iff {s : State} {k : Nat} : retrainDue s k ↔
    (s.fab.edges.get k).state = 2 ∧ (∃ dir g, dir < 2 ∧ g < 8 ∧ (s.fab.groups.get (groupNo k dir g)).leftOff = true) ∧
      ∀ x, (s.fab.edges.get k).winAt = some x → x + 100000000 ≤ s.dt := by
  refine and_congr_right fun _ => and_congr_left fun _ => ?_
  simp only [groupsLeftOff, ne_eq, List.filter_eq_nil_iff, not_forall, List.mem_range, not_not, groupNo_split, exists_prop]
  constructor
  · rintro ⟨i, hi, hoff⟩
    exact ⟨i / 8, i % 8, by omega, by omega, by rw [groupNo_split]; exact hoff⟩
  · rintro ⟨dir, g, hd, hg, hoff⟩
    obtain ⟨i, hi, he⟩ := groupNo_iff.mp ⟨dir, g, hd, hg, rfl⟩
    exact ⟨i, hi, he ▸ hoff⟩

/-- A returning group trains (R249). -/
def returning (q : EGroup) : EGroup := { trainGroup q with sig := 0, retraining := true }

theorem retrainWindow_idle {s : State} {k : Nat} (h : ¬ retrainDue s k) : retrainWindow s k = s := by
  refine if_neg fun e => h ⟨e.1, e.2.1, fun x hx => ?_⟩
  have hdue := e.2.2
  simp only [hx, decide_eq_true_eq] at hdue
  exact hdue

theorem retrainWindow_due {s : State} {k : Nat} (h : retrainDue s k) : retrainWindow s k =
    (groupsLeftOff s k).foldl (fun s i => s.modGroup (groupNo k (i / 8) (i % 8)) returning)
      (s.modEdge k (fun e => { e with winAt := some s.dt })) := by
  obtain ⟨hup, hleft, hwin⟩ := h
  refine if_pos ⟨hup, hleft, ?_⟩
  cases hx : (s.fab.edges.get k).winAt with
  | none => rfl
  | some x => exact decide_eq_true (hwin x hx)

/-! ### Counter clears (R260) -/

/-- A group with its counters cleared. -/
def counterCleared (q : EGroup) : EGroup := { q with rtyCnt := 0, lerr := Tab.const 0, retrains := 0 }

/-- The groups of edges' directions. -/
def stationGroups (l : List (Nat × Nat)) : List Nat := l.flatMap fun x => (List.range 8).map (groupNo x.1 x.2)

theorem mem_stationGroups {l : List (Nat × Nat)} {m : Nat} : m ∈ stationGroups l ↔ ∃ x ∈ l, ∃ g, g < 8 ∧ m = groupNo x.1 x.2 g := by
  simp only [stationGroups, List.mem_flatMap, List.mem_map, List.mem_range, eq_comm]

/-- The groups of the stations of `l` have their counters cleared, and no other group changes. -/
def GroupsCleared (s t : State) (l : List (Nat × Nat)) : Prop :=
  ∀ m, t.fab.groups.get m = if m ∈ stationGroups l then counterCleared (s.fab.groups.get m) else s.fab.groups.get m

theorem stationClr_clears (s : State) (n e : Nat) :
    stationClr s n e = { s with fab.groups := (stationClr s n e).fab.groups } ∧ GroupsCleared s (stationClr s n e) [stationEdge n e] := by
  obtain ⟨hframe, hget⟩ := foldl_modGroup_idem (f := counterCleared) (fun _ => rfl) (groupNo (stationEdge n e).1 (stationEdge n e).2) (List.range 8) s
  refine ⟨hframe, fun m => (hget m).trans ?_⟩
  simp only [stationGroups, List.flatMap_cons, List.flatMap_nil, List.append_nil]

theorem GroupsCleared.trans {s u t : State} {l r : List (Nat × Nat)} (h : GroupsCleared s u l) (k : GroupsCleared u t r) : GroupsCleared s t (l ++ r) := by
  intro m
  rw [k m, h m, stationGroups, stationGroups, stationGroups, List.flatMap_append]
  simp only [List.mem_append]
  by_cases h1 : m ∈ l.flatMap (fun x => (List.range 8).map (groupNo x.1 x.2)) <;>
    by_cases h2 : m ∈ r.flatMap (fun x => (List.range 8).map (groupNo x.1 x.2)) <;> simp only [h1, h2, or_true, true_or, or_self, if_true, if_false]
  rfl

theorem GroupsCleared.spec {s t : State} {l : List (Nat × Nat)} (h : GroupsCleared s t l) (m : Nat) :
    ((∃ x ∈ l, ∃ g, g < 8 ∧ m = groupNo x.1 x.2 g) →
      t.fab.groups.get m = { s.fab.groups.get m with rtyCnt := 0, lerr := Tab.const 0, retrains := 0 }) ∧
    ((∀ x ∈ l, ∀ g, g < 8 → m ≠ groupNo x.1 x.2 g) → t.fab.groups.get m = s.fab.groups.get m) := by
  refine ⟨fun hm => (h m).trans (if_pos (mem_stationGroups.mpr hm)), fun hm => (h m).trans (if_neg fun hmem => ?_)⟩
  obtain ⟨x, hx, g, hg, he⟩ := mem_stationGroups.mp hmem
  exact hm x hx g hg he

theorem transitClr_clears (s : State) (d : Nat) :
    transitClr s d = { s with fab := { s.fab with groups := (transitClr s d).fab.groups, absorbs := s.fab.absorbs.set d 0 } } ∧
    GroupsCleared s (transitClr s d) [stationEdge d 0, stationEdge d 1, stationEdge d 2] := by
  obtain ⟨h0, c0⟩ := stationClr_clears { s with fab.absorbs := s.fab.absorbs.set d 0 } d 0
  obtain ⟨h1, c1⟩ := stationClr_clears (stationClr { s with fab.absorbs := s.fab.absorbs.set d 0 } d 0) d 1
  obtain ⟨h2, c2⟩ := stationClr_clears (stationClr (stationClr { s with fab.absorbs := s.fab.absorbs.set d 0 } d 0) d 1) d 2
  refine ⟨?_, (GroupsCleared.trans c0 c1).trans c2⟩
  rw [transitClr, h2, h1, h0]

/-! ### EDGE_CONTROL and FABRIC_QUERY (R249, R251, R261) -/

/-- The groups of an edge as EDGE_CONTROL's `clear` leaves them: only the lanes of the defect list stay bad. -/
def lanesForgotten (s : State) (k i : Nat) (q : EGroup) : EGroup := { q with bad := defectLanes s k (i / 8) (i % 8) }

/-- EDGE_CONTROL's `clear`. -/
def edgeForgotten (s : State) (k : Nat) (l : List Nat) : State :=
  l.foldl (fun s i => s.modGroup (groupNo k (i / 8) (i % 8)) (lanesForgotten s k i)) s

/-- The fabric as EDGE_CONTROL leaves it before the edge acts. -/
def edgeCleared (s : State) (pay : List Byte) : State := if fld pay 2 1 = 1 then edgeForgotten s (fld pay 0 1) (List.range 16) else s

/-- EDGE_CONTROL's answer: the state of the edge. -/
def edgeAnswer (k : Nat) (t : State) : State × Reply := (t, reply stOk 0 (leBytes 4 (t.fab.edges.get k).state))

/-- An EDGE_CONTROL payload of its length with legal fields. -/
structure EdgeControlLegal (pay : List Byte) : Prop where
  length : pay.length = 3
  edge : fld pay 0 1 < 8
  clear : fld pay 2 1 ≤ 1

section
variable {s : State} {c : Cmd} (h : EdgeControlLegal c.pay)
include h

theorem EdgeControlLegal.clamps (ha : fld c.pay 1 1 ≤ 2) : clampFields c.pay 3 [fr 0 1 0 7, fr 1 1 0 2, fr 2 1 0 1] = (c.pay, 0) := by
  obtain ⟨hlen, hedge, hclear⟩ := h
  refine clampFields_whole hlen ?_
  simp only [List.forall_mem_cons, fr_legal, List.not_mem_nil, false_imp_iff, implies_true, and_true]
  omega

theorem cmdEdgeControl_disable (ha : fld c.pay 1 1 = 1) : cmdEdgeControl s c =
    if edgeInUse s (fld c.pay 0 1) then (s, reply stBusy 0 [])
    else edgeAnswer (fld c.pay 0 1) (qosRecompute (s.modEdge (fld c.pay 0 1) (fun e => { e with state := 3 }))) := by
  simp only [cmdEdgeControl, h.clamps (by omega), ha, if_true]
  rfl

/-- An edge told to train. -/
def edgeTrains (e : Edge) : Edge := { e with state := 1, attempts := 0 }

theorem cmdEdgeControl_enable (ha : fld c.pay 1 1 = 2) : cmdEdgeControl s c =
    edgeAnswer (fld c.pay 0 1)
      (if (s.fab.edges.get (fld c.pay 0 1)).state = 3 then (edgeCleared s c.pay).modEdge (fld c.pay 0 1) edgeTrains else s) := by
  simp only [cmdEdgeControl, h.clamps (by omega), ha]
  rfl

theorem cmdEdgeControl_retrain (ha : fld c.pay 1 1 = 0) : cmdEdgeControl s c =
    edgeAnswer (fld c.pay 0 1) (if (s.fab.edges.get (fld c.pay 0 1)).state = 2 then edgeCleared s c.pay
      else (edgeCleared s c.pay).modEdge (fld c.pay 0 1) edgeTrains) := by
  simp only [cmdEdgeControl, h.clamps (by omega), ha]
  rfl
end

/-- A group outside edge `k` in the two ways of numbering. -/
theorem ne_groupNo {k m : Nat} (h : ∀ dir g, dir < 2 → g < 8 → m ≠ groupNo k dir g) : ∀ i ∈ List.range 16, m ≠ 16 * k + i := fun i hi he =>
  have ⟨dir, g, hd, hg, hm⟩ := groupNo_iff.mpr ⟨i, List.mem_range.mp hi, he⟩
  h dir g hd hg hm

theorem groupNo_eq (k dir g : Nat) : groupNo k dir g = 16 * k + (8 * dir + g) := by rw [groupNo]; omega

theorem edgeCleared_spec (s : State) (pay : List Byte) :
    edgeCleared s pay = { s with fab.groups := (edgeCleared s pay).fab.groups } ∧
    ∀ m, (∀ dir g, dir < 2 → g < 8 → m = groupNo (fld pay 0 1) dir g → fld pay 2 1 = 1 →
        (edgeCleared s pay).fab.groups.get m = { s.fab.groups.get m with bad := defectLanes s (fld pay 0 1) dir g }) ∧
      (((∀ dir g, dir < 2 → g < 8 → m ≠ groupNo (fld pay 0 1) dir g) ∨ fld pay 2 1 = 0) →
        (edgeCleared s pay).fab.groups.get m = s.fab.groups.get m) := by
  by_cases hclear : fld pay 2 1 = 1
  · obtain ⟨hframe, hin, hout⟩ := foldl_edgeGroups (s := s) (k := fld pay 0 1) (G := fun u i => lanesForgotten u (fld pay 0 1) i)
      (fun u hu => by funext i q; simp only [lanesForgotten, defectLanes, hu]) (l := List.range 16) List.nodup_range
    rw [edgeCleared, if_pos hclear]
    refine ⟨hframe, fun m => ⟨fun dir g hd hg hm _ => ?_, fun hm => hout m (ne_groupNo (hm.resolve_right (by omega)))⟩⟩
    subst hm
    rw [groupNo_eq]
    refine (hin (8 * dir + g) (List.mem_range.mpr (by omega))).trans ?_
    have h8 : (8 * dir + g) / 8 = dir ∧ (8 * dir + g) % 8 = g := by omega
    rw [lanesForgotten, h8.1, h8.2]
  · rw [edgeCleared, if_neg hclear]
    exact ⟨rfl, fun m => ⟨fun _ _ _ _ _ h1 => absurd h1 hclear, fun _ => rfl⟩⟩

/-- A station's registers that FABRIC_QUERY reports. -/
def stationBytes (s : State) (x : Nat × Nat) : List Byte := regBytes ((stationRegs s x.1 x.2 0).filter fun r =>
  decide (r.off = 0) || (decide (0x20 ≤ r.off) && decide (r.off < 0x40)) || (decide (0x60 ≤ r.off) && decide (r.off < 0xA0)))

theorem cmdFabricQuery_legal {s : State} {c : Cmd} (hl : c.pay.length = 1) (hk : fld c.pay 0 1 < 8) : cmdFabricQuery s c =
    (s, reply stOk 0 ((if fld c.pay 0 1 < 4 then stationBytes s (4, fld c.pay 0 1) ++ stationBytes s (fld c.pay 0 1, 0)
      else stationBytes s (fld c.pay 0 1 - 4, 2) ++ stationBytes s ((fld c.pay 0 1 - 3) % 4, 1)) ++ leBytes 8 s.fab.routes.rt)) := by
  have hfields : clampFields c.pay 1 [fr 0 1 0 7] = (c.pay, 0) := by
    refine clampFields_whole hl ?_
    simp only [List.forall_mem_cons, fr_legal, List.not_mem_nil, false_imp_iff, implies_true, and_true]
    omega
  have hends : ∀ x y : Nat × Nat, ([x, y].map (stationBytes s)).flatten = stationBytes s x ++ stationBytes s y := fun x y => by simp
  simp only [← hends]
  rw [← apply_ite fun l : List (Nat × Nat) => (l.map (stationBytes s)).flatten]
  simp only [cmdFabricQuery, hfields]
  rfl

/-! ### Flits at the edge's order -/

theorem drainEarly_next (n : Nat) (e : Half) (bs : List Byte) : drainEarly (n + 2) e [(e, bs)] 0 = (e + 1, [], bs.length) := by
  simp [drainEarly]

theorem drainEarly_waits (n : Nat) {e : Half} {l : List (Half × List Byte)} (h : ∀ x ∈ l, x.1 ≠ e) : drainEarly (n + 1) e l 0 = (e, l, 0) := by
  have hnone : l.find? (fun x => x.1 == e) = none := List.find?_eq_none.mpr fun x hx => by simpa using h x hx
  simp only [drainEarly, hnone]

theorem edgeDelivers_next {dir : Nat} {f : EdgeFlit} {e : Edge} (hseq : f.eseq = e.eseq.get dir) (hearly : e.early.get dir = []) :
    edgeDelivers dir f e = { e with
      eseq := e.eseq.set dir (f.eseq + 1), early := e.early.set dir [], delivered := e.delivered.modify dir (· + 1984) } := by
  have hdrain := drainEarly_next 1022 f.eseq (slice f.data 0 1984)
  rw [length_slice] at hdrain
  rw [edgeDelivers, hearly, List.nil_append, ← hseq, hdrain]

theorem edgeDelivers_keeps {dir : Nat} {f : EdgeFlit} {e : Edge} (hearly : ∀ x ∈ e.early.get dir, x.1 ≠ e.eseq.get dir)
    (hseq : f.eseq ≠ e.eseq.get dir) : edgeDelivers dir f e = { e with
      eseq := e.eseq.set dir (e.eseq.get dir), early := e.early.set dir (e.early.get dir ++ [(f.eseq, slice f.data 0 1984)])
      delivered := e.delivered.modify dir (· + 0) } := by
  have hdrain := drainEarly_waits 1023 (e := e.eseq.get dir) (l := e.early.get dir ++ [(f.eseq, slice f.data 0 1984)])
    (List.forall_mem_append.mpr ⟨hearly, by simpa using hseq⟩)
  rw [edgeDelivers, hdrain]

/-- An edge outside the one changed. -/
theorem modEdge_other {s : State} {k j : Nat} (f : Edge → Edge) (h : j ≠ k) : (s.modEdge k f).fab.edges.get j = s.fab.edges.get j := by
  rw [State.modEdge_get, if_neg (Ne.symm h)]

theorem modEdge_congr {s : State} {k : Nat} {f g : Edge → Edge} (h : f (s.fab.edges.get k) = g (s.fab.edges.get k)) : s.modEdge k f = s.modEdge k g := by
  simp only [State.modEdge, Tab.modify_congr h]

/-- The stations of a compute die (R260). -/
theorem stationEdge_die (d : Fin 4) :
    [stationEdge d 0, stationEdge d 1, stationEdge d 2] = [(d.val, 0), (4 + (d.val + 3) % 4, 0), (4 + d.val, 1)] := by
  revert d
  decide

theorem stationEdge_of_getElem? {d e : Nat} {x : Nat × Nat} (h : [stationEdge d 0, stationEdge d 1, stationEdge d 2][e]? = some x) : stationEdge d e = x := by
  match e with
  | 0 => exact Option.some.inj h
  | 1 => exact Option.some.inj h
  | 2 => exact Option.some.inj h

/-- A retrain window trains the groups left off, and those only (R249). -/
theorem retrainWindow_trains {s : State} {k : Nat} (h : retrainDue s k) : EdgesOnly s (retrainWindow s k) ∧
    (∀ j, j ≠ k → (retrainWindow s k).fab.edges.get j = s.fab.edges.get j) ∧
    (retrainWindow s k).fab.edges.get k = { s.fab.edges.get k with winAt := some s.dt } ∧
    ∀ m, ((∃ dir g, dir < 2 ∧ g < 8 ∧ m = groupNo k dir g) → (s.fab.groups.get m).leftOff = true →
        (retrainWindow s k).fab.groups.get m = returning (s.fab.groups.get m)) ∧
      (((∀ dir g, dir < 2 → g < 8 → m ≠ groupNo k dir g) ∨ (s.fab.groups.get m).leftOff = false) →
        (retrainWindow s k).fab.groups.get m = s.fab.groups.get m) := by
  obtain ⟨hframe, hin, hout⟩ := foldl_edgeGroups (s := s.modEdge k (fun e => { e with winAt := some s.dt })) (k := k) (G := fun _ _ => returning)
    (fun _ _ => rfl) (l := groupsLeftOff s k) (List.nodup_range.filter _)
  have hstep := retrainWindow_due h
  dsimp only at hframe hin hout
  rw [← hstep] at hframe hin hout
  have hleft : ∀ i, i ∈ groupsLeftOff s k ↔ i < 16 ∧ (s.fab.groups.get (16 * k + i)).leftOff = true := fun i => by
    simp only [groupsLeftOff, List.mem_filter, List.mem_range, groupNo_split]
  have hedges : (retrainWindow s k).fab.edges = s.fab.edges.modify k (fun e => { e with winAt := some s.dt }) := by
    rw [hframe]
    rfl
  refine ⟨?_, fun j hj => ?_, ?_, fun m => ⟨fun hm hoff => ?_, fun hm => hout m fun i hi he => ?_⟩⟩
  · rw [EdgesOnly, hframe]
    rfl
  · rw [hedges, Tab.get_modify_other _ _ (Ne.symm hj)]
  · rw [hedges, Tab.get_modify_self]
  · obtain ⟨i, hi, rfl⟩ := groupNo_iff.mp hm
    exact hin i ((hleft i).mpr ⟨hi, hoff⟩)
  · obtain ⟨hi, hoff⟩ := (hleft i).mp hi
    rcases hm with hm | hm
    · exact ne_groupNo hm i (List.mem_range.mpr hi) he
    · rw [he, hoff] at hm
      exact Bool.noConfusion hm

/-- The fabric as EDGE_CONTROL leaves it: an edge that trains, its groups' lanes forgotten where the payload says so. -/
def EdgeTrained (s : State) (pay : List Byte) (t : State) : Prop :=
  t = { s with host := t.host, fab := { s.fab with groups := t.fab.groups, edges := t.fab.edges } } ∧
  t.fab.groups = (edgeCleared s pay).fab.groups ∧
  (∀ j, j ≠ fld pay 0 1 → t.fab.edges.get j = s.fab.edges.get j) ∧
  t.fab.edges.get (fld pay 0 1) = { s.fab.edges.get (fld pay 0 1) with state := 1, attempts := 0 }

theorem edgeCleared_edges (s : State) (pay : List Byte) : (edgeCleared s pay).fab.edges = s.fab.edges := by
  rw [(edgeCleared_spec s pay).1]

theorem edgeCleared_host (s : State) (pay : List Byte) : (edgeCleared s pay).host = s.host := by
  rw [(edgeCleared_spec s pay).1]

theorem edgeTrained (s : State) (pay : List Byte) (x : HostSide) :
    EdgeTrained s pay { (edgeCleared s pay).modEdge (fld pay 0 1) edgeTrains with host := x } := by
  refine ⟨by rw [(edgeCleared_spec s pay).1]; rfl, rfl, fun j hj => ?_, ?_⟩
  · exact (modEdge_other edgeTrains hj).trans (by rw [edgeCleared_edges])
  · refine (State.modEdge_get (edgeCleared s pay) _ _ edgeTrains).trans ?_
    rw [if_pos rfl, edgeCleared_edges]
    rfl

theorem modEdge_edgeTrains_state (s : State) (k : Nat) : ((s.modEdge k edgeTrains).fab.edges.get k).state = 1 := by
  rw [State.modEdge_get, if_pos rfl]
  rfl

/-- The edge that EDGE_CONTROL disables (R249, R256). -/
def edgeDisabled (s : State) (k : Nat) : State := s.modEdge k (fun e => { e with state := 3 })

section
variable {s : State} {ch : Fin 4} {r : Request} (hplain : Plain s r) (hl : EdgeControlLegal (payBytes r))
include hplain hl

theorem edgeControl_disables (ha : payField r 1 1 = 1) (hfree : edgeInUse s (payField r 0 1) = false) :
    AcceptsEv (.edgeControl ch r) s ch 0x0124 r 0 (leBytes 4 3) fun t => ∃ u, Bellows (edgeDisabled s (payField r 0 1)) u ∧
      t = { u with host := t.host } := by
  have hbellows := bellows_qosRecompute (edgeDisabled s (payField r 0 1))
  obtain ⟨hevents, hframe, -⟩ := hbellows
  have hstate : ((qosRecompute (edgeDisabled s (payField r 0 1))).fab.edges.get (payField r 0 1)).state = 3 := by
    rw [hframe]
    exact (congrArg Edge.state (State.modEdge_get ..)).trans (by rw [if_pos rfl])
  have hx := (cmdEdgeControl_disable (s := s) (c := plainCmd ch 0x0124 r) hl ha).trans (if_neg (ne_true_of_eq_false hfree))
  refine hplain.acceptsEv (by decide) ch.isLt rfl (hx.trans (Prod.ext rfl ?_)) (hevents.congr rfl rfl) fun g _ => ⟨_, bellows_qosRecompute _, rfl⟩
  exact congrArg (fun n => reply stOk 0 (leBytes 4 n)) hstate

theorem edgeControl_trains (ha : (payField r 1 1 = 2 ∧ (s.fab.edges.get (payField r 0 1)).state = 3) ∨
      (payField r 1 1 = 0 ∧ (s.fab.edges.get (payField r 0 1)).state ≠ 2)) :
    Accepts (.edgeControl ch r) s ch 0x0124 r 0 (leBytes 4 1) (EdgeTrained s (payBytes r)) := by
  have hx : cmdEdgeControl s (plainCmd ch 0x0124 r) =
      ((edgeCleared s (payBytes r)).modEdge (payField r 0 1) edgeTrains, reply stOk 0 (leBytes 4 1)) := by
    have htrains : edgeAnswer (payField r 0 1) ((edgeCleared s (payBytes r)).modEdge (payField r 0 1) edgeTrains) =
        ((edgeCleared s (payBytes r)).modEdge (payField r 0 1) edgeTrains, reply stOk 0 (leBytes 4 1)) := by
      rw [edgeAnswer, modEdge_edgeTrains_state]
    rcases ha with ⟨ha, hst⟩ | ⟨ha, hst⟩
    · exact (cmdEdgeControl_enable (s := s) (c := plainCmd ch 0x0124 r) hl ha).trans ((congrArg (edgeAnswer _) (if_pos hst)).trans htrains)
    · exact (cmdEdgeControl_retrain (s := s) (c := plainCmd ch 0x0124 r) hl ha).trans ((congrArg (edgeAnswer _) (if_neg hst)).trans htrains)
  exact hplain.accepts (by decide) ch.isLt rfl hx (edgeCleared_host s (payBytes r)) fun x => edgeTrained s (payBytes r) x

theorem edgeControl_keeps (ha : payField r 1 1 = 2) (hst : (s.fab.edges.get (payField r 0 1)).state ≠ 3) :
    AnswersOnly (.edgeControl ch r) s ch 0x0124 r stOk 0 (leBytes 4 (s.fab.edges.get (payField r 0 1)).state) := by
  have hx := cmdEdgeControl_enable (s := s) (c := plainCmd ch 0x0124 r) hl ha
  exact hplain.answersOnly (by decide) ch.isLt rfl (hx.trans (congrArg (edgeAnswer _) (if_neg hst)))

theorem edgeControl_forgets (ha : payField r 1 1 = 0) (hst : (s.fab.edges.get (payField r 0 1)).state = 2) :
    Accepts (.edgeControl ch r) s ch 0x0124 r 0 (leBytes 4 2) fun t => t = { edgeCleared s (payBytes r) with host := t.host } := by
  have hx : cmdEdgeControl s (plainCmd ch 0x0124 r) = (edgeCleared s (payBytes r), reply stOk 0 (leBytes 4 2)) := by
    have hstate : ((edgeCleared s (payBytes r)).fab.edges.get (payField r 0 1)).state = 2 := by rw [edgeCleared_edges, hst]
    refine (cmdEdgeControl_retrain (s := s) (c := plainCmd ch 0x0124 r) hl ha).trans ((congrArg (edgeAnswer _) (if_pos hst)).trans ?_)
    exact congrArg (fun n => (edgeCleared s (payBytes r), reply stOk 0 (leBytes 4 n))) hstate
  exact hplain.accepts (by decide) ch.isLt rfl hx (edgeCleared_host s (payBytes r)) fun x => rfl
end

/-- An answer that says more. -/
theorem Accepts.imp {c : Instr} {s : State} {ch op clamps : Nat} {r : Request} {data : List Byte} {P Q : State → Prop}
    (h : Accepts c s ch op r clamps data P) (k : ∀ t, P t → Q t) : Accepts c s ch op r clamps data Q := by
  obtain ⟨t, hc, ha, hk, hp⟩ := h
  exact ⟨t, hc, ha, hk, k t hp⟩

theorem AcceptsEv.imp {c : Instr} {s : State} {ch op clamps : Nat} {r : Request} {data : List Byte} {P Q : State → Prop}
    (h : AcceptsEv c s ch op r clamps data P) (k : ∀ t, P t → Q t) : AcceptsEv c s ch op r clamps data Q := by
  obtain ⟨t, hc, ha, hk, hp⟩ := h
  exact ⟨t, hc, ha, hk, k t hp⟩

/-- Training of an edge (R247, R249), before Bellows recomputes. -/
theorem edgeTraining_trains (s : State) (k : Nat) (fails : List LaneRef) : ∃ u, EdgesOnly s u ∧ Bellows u (edgeTraining s k fails) ∧
    (∀ m, (∀ dir g, dir < 2 → g < 8 → m ≠ groupNo k dir g) → u.fab.groups.get m = s.fab.groups.get m) ∧
    (∀ j, j ≠ k → u.fab.edges.get j = s.fab.edges.get j) ∧
    (u.fab.edges.get k = if (s.fab.edges.get k).state = 2 then s.fab.edges.get k else edgeRestarted (s.fab.edges.get k)) ∧
    ∀ dir g, dir < 2 → g < 8 → u.fab.groups.get (groupNo k dir g) =
      trained (decide ((s.fab.edges.get k).state = 2)) k fails s (8 * dir + g) (s.fab.groups.get (groupNo k dir g)) := by
  obtain ⟨hframe, hin, hout⟩ := foldl_edgeGroups (s := s) (k := k) (G := trained (decide ((s.fab.edges.get k).state = 2)) k fails)
    (fun u hu => by funext i q; simp only [trained, tested, defectLanes, hu]) (l := List.range 16) List.nodup_range
  have hgroups : ∀ dir g, dir < 2 → g < 8 → (groupsTrained (decide ((s.fab.edges.get k).state = 2)) s k fails (List.range 16)).fab.groups.get
      (groupNo k dir g) = trained (decide ((s.fab.edges.get k).state = 2)) k fails s (8 * dir + g) (s.fab.groups.get (groupNo k dir g)) :=
    fun dir g hd hg => by
      rw [groupNo_eq]
      exact hin (8 * dir + g) (List.mem_range.mpr (by omega))
  have hedges : (groupsTrained (decide ((s.fab.edges.get k).state = 2)) s k fails (List.range 16)).fab.edges = s.fab.edges := by
    rw [groupsTrained, hframe]
  rw [edgeTraining_eq]
  by_cases hup : (s.fab.edges.get k).state = 2
  · simp only [hup, decide_true, if_true] at hgroups hframe hout hedges ⊢
    refine ⟨_, ?_, bellows_qosRecompute _, fun m hm => hout m (ne_groupNo hm), fun j _ => by rw [hedges], by rw [hedges], hgroups⟩
    rw [EdgesOnly, groupsTrained, hframe]
  · simp only [hup, decide_false, if_false] at hgroups hframe hout hedges ⊢
    refine ⟨_, ?_, bellows_qosRecompute _, fun m hm => hout m (ne_groupNo hm), fun j hj => (modEdge_other _ hj).trans (by rw [hedges]), ?_, hgroups⟩
    · rw [EdgesOnly, groupsTrained, hframe]
      rfl
    · rw [State.modEdge_get, if_pos rfl, hedges]

/-- Settles O47: each event is one branch of its step on the group or the edge it names; the sixteen groups of an edge are folded over once
for training, retraining and forgetting. -/
theorem edgesCarryFlitsSpareLanesAndTrain : Obligations.EdgesCarryFlitsSpareLanesAndTrain := by
  unfold Obligations.EdgesCarryFlitsSpareLanesAndTrain
  refine ⟨fun k dir g f s => ?_, fun l s => ?_, fun k dir g s => ?_, fun k s => ?_, fun k fails s => ?_, fun k dis s => ?_, fun k now s => ?_,
    ⟨fun e s => ?_, fun d n e s hnd => ?_, fun d s => ?_⟩, fun ch r s hplain => ?_⟩
  · intro n back q e
    refine ⟨fun hoff => congrArg Host.Outcome.next (edgeFlit_ignored f hoff), fun hw hr hinj => ⟨fun hcrc hb hk hseq => ?_, fun hcrc hb => ?_, fun l x hb hx => ?_⟩⟩
    · have hback : back ≠ n := by simp only [back, n, groupNo]; omega
      refine ⟨_, congrArg Host.Outcome.next (edgeFlit_accepts hw hr hinj dir.isLt hcrc hb hk hseq), rfl, fun m => ?_, fun j hj => modEdge_other _ hj,
        fun hnext hearly => ?_, fun hearly hne => ?_⟩
      · change (((s.modGroup back (flitAcked f)).modGroup n flitAccepted).fab.groups.get m) = _
        rw [State.modGroup_get, State.modGroup_get, State.modGroup_get, if_neg hback]
        by_cases hm : m = n
        · rw [if_pos hm.symm, if_pos hm]
          rfl
        · rw [if_neg (Ne.symm hm), if_neg hm]
          by_cases hb : m = back
          · rw [if_pos hb.symm, if_pos hb, hb]
            rfl
          · rw [if_neg (Ne.symm hb), if_neg hb]
      · rw [State.modEdge_get, if_pos rfl]
        exact edgeDelivers_next hnext hearly
      · rw [State.modEdge_get, if_pos rfl]
        exact edgeDelivers_keeps hearly hne
    · have hx := edgeFlit_rejects hw hr hinj (.inl hcrc)
      rw [hb] at hx
      exact congrArg Host.Outcome.next hx
    · have hx' := edgeFlit_rejects hw hr hinj (.inr (by simp [hb] : f.badLanes ≠ []))
      refine congrArg Host.Outcome.next (hx'.trans (modGroup_congr ?_))
      have hlanes : (f.badLanes.map (·.val)).filterMap (fun l => q.map[l]?) = [x] := by simp [hb, hx]
      change flitRejected _ q = _
      rw [flitRejected, hlanes]
      rfl
  · intro k n q lane bad spare good pay
    have hpay : pay = groupPay l.dir l.group := by simp only [pay, groupPay]; omega
    have hwith : s.modGroup n (withBad lane) = s.modGroup n (fun q => { q with bad := bad }) := modGroup_congr rfl
    refine ⟨fun hknown => congrArg Host.Outcome.next (laneFail_known hknown), fun hnew => ⟨fun hunused => ?_, fun i hi => ⟨fun x hw hx => ?_, fun x hw hx => ?_,
      fun hw hx h32 h64 => ?_, fun hw hx => ?_⟩⟩⟩
    · exact congrArg Host.Outcome.next ((laneFail_unused hnew hunused).trans hwith)
    · have hstep := laneFail_spared hnew hi hx hw
      obtain ⟨e, hraise, hevents, hraised⟩ := raiseEvent_host
        (s.modGroup n fun q => { q with bad := lane :: q.bad, map := q.map.set i x, spares := q.spares + 1 }) 0x0103 k [groupPay l.dir l.group + i * 256 + x * 65536]
      refine ⟨_, congrArg Host.Outcome.next (hstep.trans hraise), hevents.congr rfl rfl, ?_, ?_⟩
      · rw [hpay]
        exact hraised.congr rfl rfl rfl
      · rfl
    · exact congrArg Host.Outcome.next ((laneFail_replaced hnew hi hx hw).trans (modGroup_congr rfl))
    · intro u hup
      have hnarrow : s.modGroup n (fun q => retrained (withBad lane q)) = u := modGroup_congr <| by
        have hcount : widthFor (goodLanes (withBad lane q)).length = 1 := (if_neg (Nat.not_le_of_lt h64)).trans (if_pos h32)
        change retrained (withBad lane q) = _
        rw [retrained, trainGroup_eq, hcount]
        rfl
      have hstep := laneFail_narrows hnew hi hx hw
      rw [hnarrow] at hstep
      exact ⟨_, congrArg Host.Outcome.next hstep, edgeCheck_stays hup⟩
    · intro v cut
      obtain ⟨e, hraise, hevents, hraised⟩ := raiseEvent_host v 0x0105 k [groupPay l.dir l.group, widthSig v k l.dir]
      have hstep : laneFail s l.edge l.dir l.group l.lane = edgeCheck { v with host := e } k := by
        rw [← hraise]
        exact laneFail_disables hnew hi hx hw
      refine ⟨_, congrArg Host.Outcome.next hstep, _, hevents.congr rfl rfl, ?_, rfl, fun hstays => edgeCheck_stays hstays, fun hcut => ?_⟩
      · rw [hpay]
        exact hraised.congr rfl rfl rfl
      · have hdown : edgeCheck { v with host := e } k = edgeDown { v with host := e } k := if_pos hcut
        rw [hdown]
        exact edgeDown_reports _ k
  · intro n q v
    refine ⟨fun hlive => congrArg Host.Outcome.next (if_pos (by rw [show (s.fab.groups.get (groupNo k dir g)).retraining = false from hlive]; rfl)),
      fun hretrains => ?_⟩
    have hstep : groupRetrainDone s k dir g = if q.width < q.sig then raiseEvent v 0x0104 k [groupPay dir g, widthSig v k dir] else v :=
      if_neg (by rw [show (s.fab.groups.get (groupNo k dir g)).retraining = true from hretrains]; decide)
    refine ⟨fun hfull => congrArg Host.Outcome.next (hstep.trans (if_neg (Nat.not_lt.mpr hfull))), fun hnarrow => ?_⟩
    obtain ⟨e, hraise, hevents, hraised⟩ := raiseEvent_host v 0x0104 k [groupPay dir g, widthSig v k dir]
    refine ⟨_, congrArg Host.Outcome.next ((hstep.trans (if_pos hnarrow)).trans hraise), rfl, hevents.congr rfl rfl, ?_⟩
    rw [show dir.val + 2 * g.val = groupPay dir g by simp only [groupPay]; omega]
    exact hraised.congr rfl rfl rfl
  · intro u
    refine ⟨fun hidle => congrArg Host.Outcome.next (if_neg (by simp [hidle])), fun hholds => ⟨fun hnone => ?_, fun r hr hu hs => ?_⟩⟩
    · exact congrArg Host.Outcome.next (edgeHoldTimeout_none hholds hnone)
    · exact congrArg Host.Outcome.next ((edgeHoldTimeout_one hholds hr hu).trans (failRequest_only (s := u) hr hs stNoRoute))
  · intro up
    obtain ⟨u, honly, hbellows, hothers, hedges, hedge, hgroups⟩ := edgeTraining_trains s k fails
    refine ⟨_, rfl, u, honly, hbellows, hothers, hedges, hedge, fun dir g hd hg => ?_⟩
    have h8 : (8 * dir + g) / 8 = dir ∧ (8 * dir + g) % 8 = g := by omega
    have htested : tested s k fails (8 * dir + g) (s.fab.groups.get (groupNo k dir g)) = { s.fab.groups.get (groupNo k dir g) with
        bad := ((s.fab.groups.get (groupNo k dir g)).bad ++
          (fails.filter (fun l => l.edge.val == k.val && l.dir.val == dir && l.group.val == g)).map (fun l => l.lane.val) ++
          defectLanes s k dir g).eraseDups } := by rw [tested, h8.1, h8.2]
    rw [hgroups dir g hd hg, trained_eq, htested, trainGroup_eq]
    rfl
  · intro e
    refine ⟨fun hnot => congrArg Host.Outcome.next (if_pos hnot), fun htrains => ?_⟩
    obtain ⟨hframe, hget, hedges⟩ := disagreed_spec s k dis
    have hedge : (disagreed s k dis).fab.edges.get k = { e with mismatch := !dis.isEmpty } := by rw [hedges, Tab.get_modify_self]
    refine ⟨_, rfl, disagreed s k dis, hframe, fun x hx => ?_, fun m hm => ?_, fun j hj => ?_, hedge, fun hlive => ?_, fun hfew hearly => ?_, fun hfew hlast => ?_⟩
    · rw [hget, if_pos (List.mem_map_of_mem (f := fun x : Fin 2 × Fin 8 => groupNo k x.1 x.2) hx)]
      rfl
    · rw [hget, if_neg fun hmem => ?_]
      obtain ⟨x, hx, he⟩ := List.mem_map.mp hmem
      exact hm x hx he.symm
    · rw [hedges, Tab.get_modify_other _ _ (Ne.symm hj)]
    · rw [trainingAttemptDone_eq htrains, if_pos hlive]
      exact bellows_qosRecompute _
    · have hmin : min 3 (e.attempts + 1) = e.attempts + 1 := by omega
      have hmore : ¬ min 3 (e.attempts + 1) = 3 := by omega
      rw [trainingAttemptDone_eq htrains, if_neg (Nat.not_le_of_lt hfew), if_neg hmore]
      exact modEdge_congr (by rw [hedge, hmin])
    · have hthird : min 3 (e.attempts + 1) = 3 := by omega
      rw [trainingAttemptDone_eq htrains, if_neg (Nat.not_le_of_lt hfew), if_pos hthird]
      obtain ⟨w, hevents, hraised, hw, hbellows⟩ := edgeDown_reports ((disagreed s k dis).modEdge k (fun e => { e with attempts := min 3 (e.attempts + 1) })) k
      refine ⟨w, hevents.congr rfl rfl, hraised.congr rfl rfl rfl, ?_, hbellows⟩
      have hmerge : ((disagreed s k dis).modEdge k (fun e => { e with attempts := min 3 (e.attempts + 1) })).modEdge k
          (fun e => { e with state := 3, holding := true }) = (disagreed s k dis).modEdge k (fun e => { e with attempts := 3, state := 3, holding := true }) := by
        rw [modEdge_modEdge]
        exact modEdge_congr (by simp only [hedge, hthird])
      exact hw.trans (by rw [hmerge])
  · intro s' e due
    have hwhen : due ↔ retrainDue s' k := by rw [retrainDue_iff, State.advance_fab]
    refine ⟨fun hnot => congrArg Host.Outcome.next (retrainWindow_idle (mt hwhen.mpr hnot)), fun hdue => ?_⟩
    obtain ⟨honly, hothers, hedge, hgroups⟩ := retrainWindow_trains (hwhen.mp hdue)
    rw [State.advance_fab] at hothers hedge hgroups
    exact ⟨_, rfl, honly, hothers, hedge, hgroups⟩
  · obtain ⟨hframe, hclears⟩ := stationClr_clears s 4 e
    exact ⟨_, congrArg Host.Outcome.next (if_neg (by simp)), hframe, hclears.spec⟩
  · intro l
    refine ⟨fun h3 => congrArg Host.Outcome.next (if_pos ⟨by omega, h3⟩), fun x hx => ?_⟩
    obtain ⟨hframe, hclears⟩ := stationClr_clears s n e
    have he : e.val < 3 := (List.getElem?_eq_some_iff.mp hx).1
    have hstation : stationEdge n e = x := by
      rw [hnd]
      exact stationEdge_of_getElem? (by rw [stationEdge_die]; exact hx)
    rw [hstation] at hclears
    exact ⟨_, congrArg Host.Outcome.next (if_neg (by omega)), hframe, hclears.spec⟩
  · obtain ⟨hframe, hclears⟩ := transitClr_clears s d
    rw [stationEdge_die] at hclears
    exact ⟨_, rfl, hframe, hclears.spec⟩
  · intro k e
    refine ⟨fun hlen hk hclear => ?_, fun hlen hk => ?_⟩
    · intro forgets trains
      have hl : EdgeControlLegal (payBytes r) := ⟨(plainCmd_pay_length ch 0x0124 r).trans (by rw [hlen]; rfl), hk, hclear⟩
      obtain ⟨hcframe, hforgets⟩ := edgeCleared_spec s (payBytes r)
      have htrains : ∀ t, EdgeTrained s (payBytes r) t → trains t := by
        rintro t ⟨hframe, hgroups, hothers, hedge⟩
        refine ⟨hframe, ?_, hothers, hedge⟩
        rw [← hgroups] at hforgets
        exact hforgets
      refine ⟨fun ha hused => ?_, fun ha hfree => ?_, fun ha hdis => ?_, fun ha hnot => ?_, fun ha hnot => ?_, fun ha hup => ?_⟩
      · exact hplain.answersOnly (by decide) ch.isLt rfl ((cmdEdgeControl_disable (c := plainCmd ch 0x0124 r) hl ha).trans (if_pos hused))
      · refine (edgeControl_disables hplain hl ha hfree).imp ?_
        rintro t ⟨u, ⟨-, hu, -⟩, ht⟩
        rw [ht, hu]
        exact ⟨rfl, rfl⟩
      · exact (edgeControl_trains hplain hl (.inl ⟨ha, hdis⟩)).imp htrains
      · exact edgeControl_keeps hplain hl ha hnot
      · exact (edgeControl_trains hplain hl (.inr ⟨ha, hnot⟩)).imp htrains
      · refine (edgeControl_forgets hplain hl ha hup).imp fun t ht => ?_
        rw [ht]
        exact ⟨by rw [hcframe], hforgets⟩
    · exact hplain.answersOnly (by decide) ch.isLt rfl
        (cmdFabricQuery_legal (c := plainCmd ch 0x0123 r) ((plainCmd_pay_length ch 0x0123 r).trans (by rw [hlen]; rfl)) hk)

end Sys2Proof.Machine
end

section
/-! PROOFS. Pairs: packets handed to ports, mirror copies, joins, takeovers and the pair commands (R240, R241, R387–R396). -/

namespace Sys2Proof.Machine

/-! ### Packets handed to ports (R376–R378) -/

theorem dlfSend_sent {u : State} (h : NoInjector u) (p : Nat) (k : DlfPacket) : Sent u (dlfSend u p k) p k := by
  refine ⟨?_, ?_, fun n hn => ?_⟩
  · simp only [dlfSend, inject_none h]
    rfl
  · simp only [dlfSend, inject_none h, State.modPort]
    exact Tab.get_modify_self _ _ _
  · simp only [dlfSend, inject_none h, State.modPort]
    exact Tab.get_modify_other _ _ (Ne.symm hn)

section
variable {u t : State} {p : Nat} {k : DlfPacket} (h : Sent u t p k)
include h

theorem Sent.fab : t.fab = u.fab := by rw [h.1]

theorem Sent.pair : t.so.pair = u.so.pair := by rw [h.1]

theorem Sent.noInjector (hu : NoInjector u) : NoInjector t := by
  rw [NoInjector, h.fab]
  exact hu

/-- Handing a packet to a port leaves every port's state. -/
theorem Sent.portState (n : Nat) : (t.so.ports.get n).state = (u.so.ports.get n).state := by
  obtain ⟨-, hport, hother⟩ := h
  by_cases hn : n = p
  · rw [hn, hport]
  · rw [hother n hn]

theorem Sent.mirrorPort (a : Nat) : Machine.mirrorPort t a = Machine.mirrorPort u a := by
  simp only [Machine.mirrorPort, h.portState]

theorem Sent.all : SentAll u t [(p, k)] := by
  obtain ⟨hframe, hport, hother⟩ := h
  refine ⟨hframe, fun n => ?_⟩
  by_cases hn : n = p
  · subst hn
    simp [hport]
  · have hne : (p == n) = false := by simpa using Ne.symm hn
    simp [hother n hn, hne]
end

theorem SentAll.refl (u : State) : SentAll u u [] := ⟨by simp, fun n => by simp⟩

theorem SentAll.append {u v t : State} {l r : List (Nat × DlfPacket)} (h : SentAll u v l) (k : SentAll v t r) : SentAll u t (l ++ r) := by
  obtain ⟨h1, h2⟩ := h
  obtain ⟨k1, k2⟩ := k
  refine ⟨?_, fun n => ?_⟩
  · rw [k1, h1]
    simp only [List.append_assoc]
  · obtain ⟨hport, hretry⟩ := h2 n
    obtain ⟨kport, kretry⟩ := k2 n
    refine ⟨?_, ?_⟩
    · rw [kport, hport]
      simp only [List.filter_append, List.length_append, Nat.add_assoc, BitVec.ofNat_add, BitVec.add_assoc]
    · rw [kretry, hretry]
      simp only [List.filter_append, List.map_append, List.append_assoc]

theorem SentAll.portState {u t : State} {l : List (Nat × DlfPacket)} (h : SentAll u t l) (n : Nat) : (t.so.ports.get n).state = (u.so.ports.get n).state := by
  rw [(h.2 n).1]

theorem SentAll.mirrorPort {u t : State} {l : List (Nat × DlfPacket)} (h : SentAll u t l) (a : Nat) : Machine.mirrorPort t a = Machine.mirrorPort u a := by
  simp only [Machine.mirrorPort, h.portState]

/-! ### Messages of the pair's firmware and of mirror copies -/

theorem pairSend_unreachable {s : State} {dst : Nat} (h : s.so.dlf.rt.get dst = 0xF) (code : Nat) : pairSend s dst code = s := if_pos h

theorem pairSend_sent {s : State} {dst : Nat} (hr : s.so.dlf.rt.get dst ≠ 0xF) (h : NoInjector s) (code : Nat) :
    Sent s (pairSend s dst code) (s.so.dlf.rt.get dst) (firmwarePacket s dst 11 [BitVec.ofNat 8 code]) := by
  rw [pairSend, if_neg hr]
  exact dlfSend_sent h _ _

theorem mirrorAnswer_sent {s : State} (h : NoInjector s) (k : DlfPacket) (kind : Byte) (st : Half) (data : List Byte) :
    Sent s (mirrorAnswer s k kind st data) (mirrorPort s k.addr.toNat)
      { k with kind := kind, src := k.dst, dst := k.src, hops := 0, status := st, len := data.length, data := data } := dlfSend_sent h _ _

theorem respond_sent {s : State} (h : NoInjector s) (p : Nat) (k : DlfPacket) (st : Half) (data : List Byte) :
    Sent s (respond s p k st data) p { k with kind := k.kind + 1, src := k.dst, dst := k.src, hops := 0, status := st, data := data } := dlfSend_sent h _ _

/-! ### Writes of the partner (R241) -/

/-- Nothing stands in the way of a partner's write of `k`. -/
def PartnerFree (s : State) (k : DlfPacket) : Prop :=
  (targetRegion s k.addr.toNat k.len).isSome = true ∧ refusal s false k.addr.toNat k.len = none ∧
    ∀ b ∈ beatsOf k.addr.toNat k.len, s.fab.symErr.get b = 0

theorem partnerWrite_outside {s : State} {k : DlfPacket} (h : targetRegion s k.addr.toNat k.len = none) : partnerWrite s k = (s, stDecodeError) := by
  simp only [partnerWrite, h]

theorem partnerWrite_stores {s : State} {k : DlfPacket} (h : PartnerFree s k) : ∃ u, partnerWrite s k = (u, stOk) ∧
    StoresAt s u k.addr.toNat (slice k.data 0 k.len) ∧
    u = { s with fab := { s.fab with mem := u.fab.mem, poison := u.fab.poison, symErr := u.fab.symErr, lost := u.fab.lost } } := by
  obtain ⟨hregion, hopen, hclean⟩ := h
  obtain ⟨n, hn⟩ := Option.isSome_iff_exists.mp hregion
  obtain ⟨x, e, l, hwrite⟩ := dramWrite_eq (s := s) (a := k.addr.toNat) (bs := slice k.data 0 k.len) k.master.toNat false (by rwa [length_slice])
  have hx : partnerWrite s k = dramWrite s k.master.toNat k.addr.toNat (slice k.data 0 k.len) false := by simp only [partnerWrite, hn, hopen]
  exact ⟨_, hx.trans hwrite, storesAt_write rfl, rfl⟩

theorem mirWr_refuses {s : State} {k : DlfPacket} (h : targetRegion s k.addr.toNat k.len = none) :
    mirWr s k = mirrorAnswer s k 5 stDecodeError [] := by
  rw [mirWr, partnerWrite_outside h]

theorem copyChunk_stores {s : State} {k : DlfPacket} (hr : s.so.pair.role = 3) (h : PartnerFree s k) : ∃ u,
    StoresAt s u k.addr.toNat (slice k.data 0 k.len) ∧
    u = { s with fab := { s.fab with mem := u.fab.mem, poison := u.fab.poison, symErr := u.fab.symErr, lost := u.fab.lost }, so := u.so } ∧
    u.so = { s.so with pair := { s.so.pair with join := true, joinPos := s.so.pair.joinPos + k.len } } ∧
    copyChunk s k = mirrorAnswer u k 5 stOk [] := by
  obtain ⟨u, hwrite, hstores, hu⟩ := partnerWrite_stores (s := { s with so.pair.join := true }) (k := k) h
  refine ⟨{ u with so := { s.so with pair := { s.so.pair with join := true, joinPos := s.so.pair.joinPos + k.len } } }, hstores, ?_, rfl, ?_⟩
  · rw [hu]
  · rw [copyChunk, if_pos hr, hwrite, hu]
    rfl

/-! ### Copies acknowledged or lost (R240, R241) -/

/-- A copy no longer pending. -/
def copyDone (s : State) (tag : Nat) : State :=
  { s with fab := { s.fab with mir := { s.fab.mir with pend := s.fab.mir.pend.filter (fun x => x.tag != tag) } } }

theorem mirrorComplete_nobody {s : State} {c : MirCopy} (h : c.waiter = .nobody) : mirrorComplete s c = copyDone s c.tag := by
  simp only [mirrorComplete, h]
  rfl

theorem mirrorComplete_network {s : State} {c : MirCopy} (h : c.waiter = .network) (hr : c.req.src ≠ 0x33 ∨ c.req.op ≠ 0) :
    mirrorComplete s c = { copyDone s c.tag with fab.net.rsps := s.fab.net.rsps ++
      [{ src := c.req.src, tag := c.req.tag, op := c.req.op, addr := c.req.addr, len := c.req.len, status := c.status, data := [], poison := false }] } := by
  have hno : ¬ (c.req.src.toNat = 0x33 ∧ c.req.op = 0 ∧ (c.status = stDecodeError ∨ c.status = stNoRoute ∨ c.status = stTargetReset)) := by
    rintro ⟨hsrc, hop, -⟩
    rcases hr with hr | hr
    · exact hr (BitVec.eq_of_toNat_eq hsrc)
    · exact hr hop
  simp only [mirrorComplete, h, netAnswer, if_neg hno]
  rfl

theorem mirrorComplete_deluf {s : State} {c : MirCopy} {p : Nat} {k : DlfPacket} (h : c.waiter = .deluf p k) :
    mirrorComplete s c = respond (copyDone s c.tag) p k c.status [] := by
  simp only [mirrorComplete, h]
  rfl

theorem mirAck_joins {s : State} {k : DlfPacket} (h : s.fab.mir.pend.find? (fun c => c.tag == k.tag.toNat) = none) : mirAck s k =
    { s with so := { s.so with pair := { s.so.pair with unacked := s.so.pair.unacked.filter (fun u => u.1 != k.tag.toNat) } } } := by
  simp only [mirAck, h]

theorem mirAck_completes {s : State} {k : DlfPacket} {c : MirCopy} (h : s.fab.mir.pend.find? (fun c => c.tag == k.tag.toNat) = some c)
    (hst : k.status = stOk) : c.tag = k.tag.toNat ∧ mirAck s k = mirrorComplete s c :=
  ⟨by simpa using List.find?_some h, by simp only [mirAck, h, hst, if_true]⟩

/-- Mirroring goes OFF at a region that lost a copy, which a PRIMARY tells its partner (R241, R393). -/
def mirroringOff (s : State) (c : MirCopy) : State :=
  mirrorFault (s.modRegion c.region (fun r => { r with on := false })) c.region 1 c.req.addr.toNat

/-- A failed copy, counted and no longer pending. -/
def copyFailed (s : State) (c : MirCopy) : State := copyDone { s with fab.mir.failCnt := cnt s.fab.mir.failCnt 1 } c.tag

section
variable {s : State} {c : MirCopy} (h : c.waiter = .nobody)
include h

theorem mirrorFails_off (hoff : (s.fab.mir.regions.get c.region).on = false) : mirrorFails s c = copyFailed s c := by
  have hx := mirrorComplete_nobody (s := { s with fab.mir.failCnt := cnt s.fab.mir.failCnt 1 }) h
  unfold mirrorFails
  simp only [hx]
  exact if_neg (ne_true_of_eq_false hoff)

theorem mirrorFails_on (hon : (s.fab.mir.regions.get c.region).on = true) : mirrorFails s c =
    if (mirroringOff (copyFailed s c) c).so.pair.role = 1 then
      pairSend (mirroringOff (copyFailed s c) c) (mirroringOff (copyFailed s c) c).so.dlf.partner 3
    else mirroringOff (copyFailed s c) c := by
  have hx := mirrorComplete_nobody (s := { s with fab.mir.failCnt := cnt s.fab.mir.failCnt 1 }) h
  unfold mirrorFails
  simp only [hx]
  exact if_pos hon
end

theorem mirroringOff_reports (s : State) (c : MirCopy) : ∃ g,
    mirroringOff s c = { s.modRegion c.region (fun r => { r with on := false }) with host := g } ∧
    EventsOnly s { s.modRegion c.region (fun r => { r with on := false }) with host := g } ∧
    Raised s { s.modRegion c.region (fun r => { r with on := false }) with host := g } 0x0102 c.region [1, c.req.addr.toNat] := by
  obtain ⟨g, hraise, hevents, hraised⟩ := raiseEvent_host (s.modRegion c.region (fun r => { r with on := false })) 0x0102 c.region [1, c.req.addr.toNat]
  exact ⟨g, hraise, hevents.congr rfl rfl, hraised.congr rfl rfl rfl⟩

/-- The copies of a region that have gone unacknowledged for 100 µs (R241). -/
def lateCopies (s : State) (n : Nat) : List MirCopy := s.fab.mir.pend.filter fun c => c.region == n && decide (c.sentAt + 100000 ≤ s.dt)

theorem mirrorAckTimeout_eq (s : State) (n : Nat) : mirrorAckTimeout s n = (lateCopies s n).foldl mirrorFails s := rfl

/-! ### Regions by type -/

theorem mem_regionsOf {s : State} {type i : Nat} : i ∈ regionsOf s type ↔ i < 8 ∧ (s.fab.mir.regions.get i).type = type := by
  simp [regionsOf]

theorem nodup_regionsOf (s : State) (type : Nat) : (regionsOf s type).Nodup := List.nodup_range.filter _

theorem foldl_modRegion (f : MirRegion → MirRegion) (l : List Nat) (s : State) :
    l.foldl (fun s i => s.modRegion i f) s = { s with fab.mir.regions := l.foldl (fun t i => t.modify i f) s.fab.mir.regions } := by
  induction l generalizing s with
  | nil => rfl
  | cons i l ih => exact ih _

/-- The regions of a type, each changed by `f`. -/
def regionsWith (s : State) (type : Nat) (f : MirRegion → MirRegion) : Tab MirRegion :=
  (regionsOf s type).foldl (fun t i => t.modify i f) s.fab.mir.regions

theorem regionsWith_get (s : State) (type : Nat) (f : MirRegion → MirRegion) (i : Nat) : (regionsWith s type f).get i =
    if i < 8 ∧ (s.fab.mir.regions.get i).type = type then f (s.fab.mir.regions.get i) else s.fab.mir.regions.get i := by
  rw [regionsWith, Tab.get_foldl_modify _ (nodup_regionsOf s type)]
  simp only [mem_regionsOf]

theorem allVerified_iff {s : State} {type : Nat} : allVerified s type = true ↔
    ∀ i, i < 8 → (s.fab.mir.regions.get i).type = type → bit s.so.pair.verified i = true := by
  simp only [allVerified, List.all_eq_true, mem_regionsOf, and_imp]

/-! ### Takeover and loss of the primary (R389) -/

theorem takeover_takenOver (s : State) (byHandover : Bool) : TakenOver s (takeover s byHandover) byHandover := by
  obtain ⟨g, hraise, hevents, hraised⟩ := raiseEvent_host { s with
    fab.mir.regions := regionsWith s 2 (fun r => { r with type := 1, on := false })
    so.pair := { s.so.pair with role := 1, switchDt := s.dt, switches := min (s.so.pair.switches + 1) 255, probe := none } } 0x0720 s.so.pair.role
    [b2n byHandover, s.dt]
  have hstep : takeover s byHandover = _ := (by
    simp only [takeover, foldl_modRegion]
    exact hraise : takeover s byHandover = { s with
      host := g
      fab.mir.regions := regionsWith s 2 (fun r => { r with type := 1, on := false })
      so.pair := { s.so.pair with role := 1, switchDt := s.dt, switches := min (s.so.pair.switches + 1) 255, probe := none } })
  rw [hstep]
  exact ⟨hevents.congr rfl rfl, hraised.congr rfl rfl rfl, rfl, regionsWith_get s 2 _⟩

/-- Address `a` lies in a range of undefined contents. -/
def LostAt (l : List (Nat × Nat × Nat)) (a : Nat) : Prop := ∃ x ∈ l, x.1 ≤ a ∧ a < x.2.1

/-- Carving a range out and adding it loses no range. -/
theorem LostAt.carve_append {l : List (Nat × Nat × Nat)} {a : Nat} (h : LostAt l a) (lo hi v : Nat) : LostAt (carve l lo hi ++ [(lo, hi, v)]) a := by
  obtain ⟨x, hx, h1, h2⟩ := h
  by_cases hin : lo ≤ a ∧ a < hi
  · exact ⟨_, List.mem_append_right _ (List.mem_singleton.mpr rfl), hin⟩
  · have hpiece : ∃ y ∈ (if x.1 < hi ∧ lo < x.2.1 then
        (if x.1 < lo then [(x.1, lo, x.2.2)] else []) ++ (if hi < x.2.1 then [(hi, x.2.1, x.2.2)] else []) else [x]), y.1 ≤ a ∧ a < y.2.1 := by
      split
      · rcases Nat.lt_or_ge a lo with hlt | hge
        · exact ⟨(x.1, lo, x.2.2), by simp [Nat.lt_of_le_of_lt h1 hlt], h1, hlt⟩
        · have hhi : hi ≤ a := by omega
          exact ⟨(hi, x.2.1, x.2.2), by simp [Nat.lt_of_le_of_lt hhi h2], hhi, h2⟩
      · exact ⟨x, List.mem_singleton.mpr rfl, h1, h2⟩
    obtain ⟨y, hy, hya⟩ := hpiece
    exact ⟨y, List.mem_append_left _ (List.mem_flatten.mpr ⟨_, List.mem_map_of_mem hx, hy⟩), hya⟩

/-- The contents of a region become undefined (R389). -/
def regionLost (s : State) (i : Nat) : State :=
  { s.took with fab.lost := carve s.fab.lost (s.fab.mir.regions.get i).range.1 (s.fab.mir.regions.get i).range.2 ++
      [((s.fab.mir.regions.get i).range.1, (s.fab.mir.regions.get i).range.2, s.free)] }

theorem foldl_regionLost (l : List Nat) (s : State) : ∃ x n, l.foldl regionLost s = { s with fab.lost := x, free := n } ∧
    (∀ a, LostAt s.fab.lost a → LostAt x a) ∧
    ∀ i ∈ l, ∀ a, (s.fab.mir.regions.get i).range.1 ≤ a → a < (s.fab.mir.regions.get i).range.2 → LostAt x a := by
  induction l generalizing s with
  | nil => exact ⟨_, _, rfl, fun _ h => h, List.forall_mem_nil _⟩
  | cons i l ih =>
    obtain ⟨x, n, hfold, hkeeps, hloses⟩ := ih (regionLost s i)
    refine ⟨x, n, hfold, fun a ha => hkeeps a (ha.carve_append ..), fun j hj a h1 h2 => ?_⟩
    rcases List.mem_cons.mp hj with rfl | hj
    · exact hkeeps a ⟨_, List.mem_append_right _ (List.mem_singleton.mpr rfl), h1, h2⟩
    · exact hloses j hj a h1 h2

theorem bit_foldl_lor (l : List Nat) (m i : Nat) : bit (l.foldl (fun m i => Nat.lor m (2 ^ i)) m) i = (bit m i || decide (i ∈ l)) := by
  induction l generalizing m with
  | nil => simp
  | cons j l ih =>
    have hone : bit (Nat.lor m (2 ^ j)) i = (bit m i || decide (i = j)) := by
      rw [bit_eq_testBit, bit_eq_testBit]
      exact (Nat.testBit_or ..).trans (by rw [Nat.testBit_two_pow, decide_eq_decide.mpr eq_comm])
    rw [List.foldl_cons, ih, hone, Bool.or_assoc, ← Bool.decide_or]
    simp only [List.mem_cons]

theorem pairLost_pairLost (s : State) : PairLost s (pairLost s) := by
  obtain ⟨g, hraise, hevents, hraised⟩ := raiseEvent_host s 0x0723 s.so.dlf.partner [s.so.pair.role, s.so.pair.joinPos]
  obtain ⟨x, n, hfold, -, hloses⟩ := foldl_regionLost (regionsOf s 2) { s with host := g }
  have hstep : pairLost s = { s with
      host := g, fab.lost := x, free := n
      so.pair := { s.so.pair with role := 0, join := false, verify := false, verified := 0, probe := none,
                                  invalid := (regionsOf s 2).foldl (fun m i => Nat.lor m (2 ^ i)) s.so.pair.invalid } } := by
    have hmodel : pairLost s = { (regionsOf s 2).foldl regionLost (raiseEvent s 0x0723 s.so.dlf.partner [s.so.pair.role, s.so.pair.joinPos]) with
        so.pair := { ((regionsOf s 2).foldl regionLost (raiseEvent s 0x0723 s.so.dlf.partner [s.so.pair.role, s.so.pair.joinPos])).so.pair with
          role := 0, join := false, verify := false, verified := 0, probe := none,
          invalid := (regionsOf s 2).foldl (fun m i => Nat.lor m (2 ^ i))
            ((regionsOf s 2).foldl regionLost (raiseEvent s 0x0723 s.so.dlf.partner [s.so.pair.role, s.so.pair.joinPos])).so.pair.invalid } } := rfl
    rw [hmodel, hraise, hfold]
  rw [hstep]
  refine ⟨hevents.congr rfl rfl, hraised.congr rfl rfl rfl, rfl, fun i => ?_, fun i hi ht a h1 h2 => ?_⟩
  · refine (bit_foldl_lor _ _ i).trans ?_
    simp only [mem_regionsOf]
  · exact hloses i (mem_regionsOf.mpr ⟨hi, ht⟩) a h1 h2

/-! ### Chunks compared (R392) -/

theorem chunkRead_clean {s : State} {a : Nat} (h : CleanDram s a 4096) : chunkRead s a = (s, s.fab.mem.readN a 4096) := by
  simp only [chunkRead, chunkBytes, dramRead_clean 0x30 h]

/-- The chunk of a region that an address lies in. -/
def chunkOf (s : State) (n a : Nat) : Nat := (a - (s.fab.mir.regions.get n).base) / 4096

/-- The pair once a chunk has not matched. -/
def chunkMissed (p : Pair) (chunk : Nat) : Pair := { p with
  mism := p.mism + 1, joinMism := cnt p.joinMism 1, todo := p.todo ++ [chunk], matched := p.matched.filter (fun x => x.1 != chunk) }

theorem chunkMismatch_few {s : State} {n chunk : Nat} (h : s.so.pair.mism + 1 < 16) :
    chunkMismatch s n chunk = ({ s with so := { s.so with pair := chunkMissed s.so.pair chunk } }, false) := if_neg (Nat.not_le_of_lt h)

/-- The sixteenth mismatch ends the join. -/
theorem chunkMismatch_fails {s : State} {n chunk : Nat} (h : 16 ≤ s.so.pair.mism + 1) : ∃ g,
    let u := { s with host := g, so := { s.so with pair := { chunkMissed s.so.pair chunk with join := false, verify := false, todo := [] } } }
    chunkMismatch s n chunk = (u, true) ∧ EventsOnly s u ∧ Raised s u 0x0722 n [s.so.pair.mism + 1] := by
  obtain ⟨g, hraise, hevents, hraised⟩ := raiseEvent_host { s with
    so := { s.so with pair := { chunkMissed s.so.pair chunk with join := false, verify := false, todo := [] } } } 0x0722 n [s.so.pair.mism + 1]
  have hstep : chunkMismatch s n chunk = (raiseEvent { s with
      so := { s.so with pair := { chunkMissed s.so.pair chunk with join := false, verify := false, todo := [] } } } 0x0722 n [s.so.pair.mism + 1], true) := if_pos h
  rw [hraise] at hstep
  exact ⟨g, hstep, hevents.congr rfl rfl, hraised.congr rfl rfl rfl⟩

theorem chunkMatched_more {s : State} {n chunk : Nat} {crc : Word}
    (h : ¬ (assocSet chunk crc s.so.pair.matched).length = chunksIn (s.fab.mir.regions.get n)) :
    chunkMatched s n chunk crc = { s with so := { s.so with pair := { s.so.pair with matched := assocSet chunk crc s.so.pair.matched } } } := if_neg h

/-- A region whose last chunk has matched. -/
def regionVerified (s : State) (n : Nat) (m : List (Nat × Word)) : State := { s with
  fab := { s.fab with mir := { s.fab.mir with regions := s.fab.mir.regions.modify n (fun r => { r with diverged := false }) } }
  so := { s.so with pair := { s.so.pair with
    matched := [], mism := 0, verified := s.so.pair.verified ||| 2 ^ n, sigs := s.so.pair.sigs.set n (regionSig m (chunksIn (s.fab.mir.regions.get n))) } } }

theorem chunkMatched_last {s : State} {n chunk : Nat} {crc : Word}
    (h : (assocSet chunk crc s.so.pair.matched).length = chunksIn (s.fab.mir.regions.get n)) :
    chunkMatched s n chunk crc = regionVerified s n (assocSet chunk crc s.so.pair.matched) := if_pos h

theorem bit_or_two_pow (m n i : Nat) : bit (m ||| 2 ^ n) i = (bit m i || decide (i = n)) := by
  rw [bit_eq_testBit, bit_eq_testBit, Nat.testBit_or, Nat.testBit_two_pow, decide_eq_decide.mpr eq_comm]

theorem allVerified_regionVerified {s : State} {n : Nat} {m : List (Nat × Word)} : allVerified (regionVerified s n m) 2 = true ↔
    ∀ i, i < 8 → (s.fab.mir.regions.get i).type = 2 → i = n ∨ bit s.so.pair.verified i = true := by
  have htype : ∀ i, ((regionVerified s n m).fab.mir.regions.get i).type = (s.fab.mir.regions.get i).type := fun i => by
    refine (congrArg MirRegion.type (Tab.get_modify ..)).trans ?_
    split
    · next h => rw [h]
    · rfl
  have hbit : ∀ i, bit (regionVerified s n m).so.pair.verified i = (bit s.so.pair.verified i || decide (i = n)) := bit_or_two_pow _ n
  simp only [allVerified_iff, htype, hbit, Bool.or_eq_true, decide_eq_true_eq, or_comm]

theorem Sent.allVerified {u t : State} {p : Nat} {k : DlfPacket} (h : Sent u t p k) (type : Nat) : Machine.allVerified t type = Machine.allVerified u type := by
  simp only [Machine.allVerified, regionsOf, h.fab, h.pair]

theorem joinDone_reports (s : State) : EventsOnly s (joinDone s) ∧ Raised s (joinDone s) 0x0721 s.so.dlf.partner [s.so.pair.joinPos, s.so.pair.joinMism] ∧
    joinDone s = { s with host := (joinDone s).host, so := { s.so with pair := { s.so.pair with join := false, verify := false } } } := by
  obtain ⟨g, hraise, hevents, hraised⟩ := raiseEvent_host { s with so := { s.so with pair := { s.so.pair with join := false, verify := false } } } 0x0721
    s.so.dlf.partner [s.so.pair.joinPos, s.so.pair.joinMism]
  have hstep : joinDone s = { s with host := g, so := { s.so with pair := { s.so.pair with join := false, verify := false } } } := hraise
  rw [hstep]
  exact ⟨hevents.congr rfl rfl, hraised.congr rfl rfl rfl, rfl⟩

/-- The last region's answer makes the joiner STANDBY. -/
theorem joinDone_standby {u v t : State} {o : Nat} {k : DlfPacket} (h : Sent u v o k) (ht : t = joinDone { v with so.pair.role := 2 }) :
    EventsOnly v t ∧ Raised v t 0x0721 u.so.dlf.partner [u.so.pair.joinPos, u.so.pair.joinMism] ∧
    t = { v with host := t.host, so := { v.so with pair := { v.so.pair with role := 2, join := false, verify := false } } } := by
  obtain ⟨hevents, hraised, hframe⟩ := joinDone_reports { v with so.pair.role := 2 }
  have hpartner : v.so.dlf.partner = u.so.dlf.partner := by rw [h.1]
  rw [ht, ← hpartner, ← h.pair]
  exact ⟨hevents.congr rfl rfl, hraised.congr rfl rfl rfl, hframe⟩

section
variable {s : State} {k : DlfPacket}

theorem chunkCrc_idle (h3 : s.so.pair.role ≠ 3) (h1 : ¬ (s.so.pair.role = 1 ∧ s.so.pair.join = true)) : chunkCrc s k = s := by
  unfold chunkCrc
  rw [if_neg h3]
  exact if_neg h1

theorem chunkCrc_outside (h3 : s.so.pair.role = 3) (h : targetRegion s k.addr.toNat 4096 = none) : chunkCrc s k = s := by
  unfold chunkCrc
  simp only [if_pos h3, chunkBytes, h]

section
variable {n : Nat} (h3 : s.so.pair.role = 3) (hn : targetRegion s k.addr.toNat 4096 = some n) (hclean : CleanDram s k.addr.toNat 4096)
include h3 hn hclean

/-- A chunk that matches at a joiner: the answer, and the end of the join with the last region. -/
theorem chunkCrc_matches {u : State} (hcrc : (crc32c (s.fab.mem.readN k.addr.toNat 4096)).toNat = fld k.data 0 4)
    (hu : chunkMatched s n (chunkOf s n k.addr.toNat) (crc32c (s.fab.mem.readN k.addr.toNat 4096)) = u) :
    let v := mirrorAnswer u k 7 stOk (leBytes 4 (crc32c (s.fab.mem.readN k.addr.toNat 4096)).toNat)
    chunkCrc s k = if allVerified v 2 = true then joinDone { v with so.pair.role := 2 } else v := by
  rw [← hu]
  unfold chunkCrc
  simp only [if_pos h3, chunkBytes, hn, chunkRead_clean hclean, if_pos hcrc]
  rfl

theorem chunkCrc_mismatches {u : State} {fails : Bool} (hcrc : (crc32c (s.fab.mem.readN k.addr.toNat 4096)).toNat ≠ fld k.data 0 4)
    (hu : chunkMismatch s n (chunkOf s n k.addr.toNat) = (u, fails)) :
    let v := mirrorAnswer { u with so.pair.todo := [] } k 7 stRetry []
    chunkCrc s k = if fails = true then { v with so.pair.role := 4 } else v := by
  simp only [chunkOf] at hu
  unfold chunkCrc
  simp only [if_pos h3, chunkBytes, hn, chunkRead_clean hclean, if_neg hcrc, hu]
end

section
variable (h1 : s.so.pair.role = 1) (hj : s.so.pair.join = true)
include h1 hj

/-- A PRIMARY notes a chunk that its joiner has matched. -/
theorem chunkCrc_noted (hst : k.status = stOk) (hmore : ¬ (assocSet (chunkOf s s.so.pair.joinRegion k.addr.toNat) (BitVec.ofNat 32 (fld k.data 0 4))
      s.so.pair.matched).length = chunksIn (s.fab.mir.regions.get s.so.pair.joinRegion)) (hopen : bit s.so.pair.verified s.so.pair.joinRegion = false) :
    chunkCrc s k = { s with so := { s.so with pair := { s.so.pair with
      matched := assocSet (chunkOf s s.so.pair.joinRegion k.addr.toNat) (BitVec.ofNat 32 (fld k.data 0 4)) s.so.pair.matched } } } := by
  have hstep := chunkMatched_more hmore
  simp only [chunkOf] at hstep
  unfold chunkCrc
  simp only [h1, hj, and_self, if_true, hst, chunkBytes, hstep, hopen, Bool.not_false]
  rfl

/-- A PRIMARY copies a chunk again that its joiner has not matched. -/
theorem chunkCrc_repeats (hst : k.status ≠ stOk) (hfew : s.so.pair.mism + 1 < 16) :
    chunkCrc s k = { s with so := { s.so with pair := chunkMissed s.so.pair (chunkOf s s.so.pair.joinRegion k.addr.toNat) } } := by
  have hstep := chunkMismatch_few (n := s.so.pair.joinRegion) (chunk := chunkOf s s.so.pair.joinRegion k.addr.toNat) hfew
  simp only [chunkOf] at hstep
  unfold chunkCrc
  simp only [h1, hj, and_self, if_true, hst, if_false, chunkBytes, hstep, Bool.false_eq_true]
  rfl
end
end

/-! ### Chunks copied (R391) -/

/-- The device once `n` packets of the chunk at `a` have been numbered and are unacknowledged. -/
def copied (s : State) (a n : Nat) : State := { s with
  fab := { s.fab with mir := { s.fab.mir with nextTag := (s.fab.mir.nextTag + n) % 65536 } }
  so := { s.so with pair := { s.so.pair with
    unacked := s.so.pair.unacked ++ (List.range n).map fun i => ((s.fab.mir.nextTag + i) % 65536, a) } } }

/-- The COPY packet of the `i`th 256 bytes of a chunk, with its port. -/
def copyPacket (s : State) (a : Nat) (data : List Byte) (i : Nat) : Nat × DlfPacket := (mirrorPort s (a + 256 * i), {
  kind := 6, src := BitVec.ofNat 8 s.so.dlf.devnum, dst := BitVec.ofNat 8 s.so.dlf.partner, label := 0, hops := 0
  tag := BitVec.ofNat 16 (s.fab.mir.nextTag + i), status := 0, addr := BitVec.ofNat 48 (a + 256 * i), len := 256, master := 0x30
  data := slice data (256 * i) 256 })

/-- One packet of a chunk: it is numbered and sent. -/
def copyStep (a : Nat) (data : List Byte) (s : State) (i : Nat) : State :=
  let u := { s with fab.mir.nextTag := (s.fab.mir.nextTag + 1) % 65536, so.pair.unacked := s.so.pair.unacked ++ [(s.fab.mir.nextTag, a)] }
  dlfSend u (mirrorPort u (a + 256 * i)) { kind := 6, src := BitVec.ofNat 8 u.so.dlf.devnum, dst := BitVec.ofNat 8 u.so.dlf.partner, label := 0,
                                           hops := 0, tag := BitVec.ofNat 16 s.fab.mir.nextTag, status := 0, addr := BitVec.ofNat 48 (a + 256 * i), len := 256,
                                           master := 0x30, data := slice data (256 * i) 256 }

theorem sendChunk_clean {s : State} {a : Nat} (h : CleanDram s a 4096) :
    sendChunk s a = (List.range 16).foldl (copyStep a (s.fab.mem.readN a 4096)) s := by
  unfold sendChunk
  simp only [chunkRead_clean h]
  rfl

theorem copied_mirrorPort (s : State) (a n b : Nat) : mirrorPort (copied s a n) b = mirrorPort s b := rfl

theorem SentAll.fab {u t : State} {l : List (Nat × DlfPacket)} (h : SentAll u t l) : t.fab = u.fab := by rw [h.1]

theorem SentAll.noInjector {u t : State} {l : List (Nat × DlfPacket)} (h : SentAll u t l) (hu : NoInjector u) : NoInjector t := by
  rw [NoInjector, h.fab]
  exact hu

/-- One more packet numbered, after those sent. -/
theorem SentAll.copied_succ {s t : State} {a n : Nat} {l : List (Nat × DlfPacket)} (h : SentAll (copied s a n) t l) :
    SentAll (copied s a (n + 1)) { t with
      fab.mir.nextTag := (t.fab.mir.nextTag + 1) % 65536, so.pair.unacked := t.so.pair.unacked ++ [(t.fab.mir.nextTag, a)] } l := by
  obtain ⟨hframe, hports⟩ := h
  refine ⟨?_, hports⟩
  have htag : ((s.fab.mir.nextTag + n) % 65536 + 1) % 65536 = (s.fab.mir.nextTag + (n + 1)) % 65536 := by omega
  have hlist : (s.so.pair.unacked ++ (List.range n).map fun i => ((s.fab.mir.nextTag + i) % 65536, a)) ++ [((s.fab.mir.nextTag + n) % 65536, a)] =
      s.so.pair.unacked ++ (List.range (n + 1)).map fun i => ((s.fab.mir.nextTag + i) % 65536, a) := by
    rw [List.range_succ, List.map_append, List.append_assoc]
    rfl
  rw [hframe]
  simp only [copied, htag, hlist]

/-- The packets of a chunk go out in order, each numbered and unacknowledged. -/
theorem foldl_copyStep_sent {s : State} (hinj : NoInjector s) (htag : s.fab.mir.nextTag < 65536) (a : Nat) (data : List Byte) (n : Nat) :
    SentAll (copied s a n) ((List.range n).foldl (copyStep a data) s) ((List.range n).map (copyPacket s a data)) := by
  induction n with
  | zero =>
    have hzero : copied s a 0 = s := by simp only [copied, Nat.add_zero, Nat.mod_eq_of_lt htag, List.range_zero, List.map_nil, List.append_nil]
    rw [hzero]
    exact SentAll.refl s
  | succ n ih =>
    have hnext := ih.copied_succ
    have hcopied : NoInjector (copied s a (n + 1)) := hinj
    have hsent := (dlfSend_sent (hnext.noInjector hcopied) (mirrorPort s (a + 256 * n)) (copyPacket s a data n).2).all
    have htagn : ((List.range n).foldl (copyStep a data) s).fab.mir.nextTag = (s.fab.mir.nextTag + n) % 65536 := by rw [ih.fab]; rfl
    have hdlf : ((List.range n).foldl (copyStep a data) s).so.dlf.devnum = s.so.dlf.devnum ∧
        ((List.range n).foldl (copyStep a data) s).so.dlf.partner = s.so.dlf.partner := by
      rw [ih.1]
      exact ⟨rfl, rfl⟩
    have hnum : BitVec.ofNat 16 ((s.fab.mir.nextTag + n) % 65536) = BitVec.ofNat 16 (s.fab.mir.nextTag + n) :=
      BitVec.eq_of_toNat_eq (by simp only [BitVec.toNat_ofNat]; omega)
    have hstep : copyStep a data ((List.range n).foldl (copyStep a data) s) n = dlfSend { (List.range n).foldl (copyStep a data) s with
        fab.mir.nextTag := (((List.range n).foldl (copyStep a data) s).fab.mir.nextTag + 1) % 65536
        so.pair.unacked := ((List.range n).foldl (copyStep a data) s).so.pair.unacked ++ [(((List.range n).foldl (copyStep a data) s).fab.mir.nextTag, a)] }
        (mirrorPort s (a + 256 * n)) (copyPacket s a data n).2 := by
      have hport := hnext.mirrorPort (a + 256 * n)
      rw [copied_mirrorPort] at hport
      rw [copyStep]
      simp only [hport, hdlf.1, hdlf.2, copyPacket]
      rw [htagn, hnum]
    rw [List.range_succ, List.foldl_append, List.foldl_cons, List.foldl_nil, List.map_append, hstep]
    exact hnext.append hsent

theorem sendChunk_sent {s : State} {a : Nat} (hinj : NoInjector s) (htag : s.fab.mir.nextTag < 65536) (h : CleanDram s a 4096) :
    SentAll (copied s a 16) (sendChunk s a) ((List.range 16).map (copyPacket s a (s.fab.mem.readN a 4096))) := by
  rw [sendChunk_clean h]
  exact foldl_copyStep_sent hinj htag a _ 16

/-- The CHUNK_CRC packet of a chunk, with its port. -/
def crcPacket (s : State) (a : Nat) : Nat × DlfPacket := (mirrorPort s a,
  { firmwarePacket s s.so.dlf.partner 7 (leBytes 4 (crc32c (s.fab.mem.readN a 4096)).toNat) with addr := BitVec.ofNat 48 a })

theorem sendCrc_sent {s : State} {a : Nat} (hinj : NoInjector s) (h : CleanDram s a 4096) : SentAll s (sendCrc s a) [crcPacket s a] := by
  have hsent := (dlfSend_sent hinj (mirrorPort s a) (crcPacket s a).2).all
  unfold sendCrc
  simp only [chunkRead_clean h]
  exact hsent

/-- A chunk copied and its CRC-32C sent. -/
theorem sendCrc_sendChunk_sent {s : State} {a : Nat} (hinj : NoInjector s) (htag : s.fab.mir.nextTag < 65536) (h : CleanDram s a 4096) :
    SentAll (copied s a 16) (sendCrc (sendChunk s a) a) ((List.range 16).map (copyPacket s a (s.fab.mem.readN a 4096)) ++ [crcPacket s a]) := by
  have hchunk := sendChunk_sent hinj htag h
  have hcopied : NoInjector (copied s a 16) := hinj
  have hfab : (sendChunk s a).fab = (copied s a 16).fab := hchunk.fab
  have hclean : CleanDram (sendChunk s a) a 4096 := by
    simp only [CleanDram, hfab]
    exact h
  have hcrc := sendCrc_sent (hchunk.noInjector hcopied) hclean
  have hpacket : crcPacket (sendChunk s a) a = crcPacket s a := by
    rw [crcPacket, hchunk.mirrorPort, hfab, hchunk.1]
    rfl
  rw [hpacket] at hcrc
  exact hchunk.append hcrc

/-! A chunk's packets do not depend on the pair's record. -/

/-- The device once the pair's record is `x` and the chunk at `a` has been sent. -/
def chunkCopied (s : State) (x : Pair) (a : Nat) : State := { s with
  fab := { s.fab with mir := { s.fab.mir with nextTag := (s.fab.mir.nextTag + 16) % 65536 } }
  so := { s.so with pair := { x with unacked := x.unacked ++ (List.range 16).map fun i => ((s.fab.mir.nextTag + i) % 65536, a) } } }

theorem sendChunk_sent_of_pair {s : State} {a : Nat} (x : Pair) (hinj : NoInjector s) (htag : s.fab.mir.nextTag < 65536) (h : CleanDram s a 4096) :
    SentAll (chunkCopied s x a) (sendChunk { s with so.pair := x } a) ((List.range 16).map (copyPacket s a (s.fab.mem.readN a 4096))) :=
  sendChunk_sent (s := { s with so.pair := x }) hinj htag h

theorem sendCrc_sent_of_pair {s : State} {a : Nat} (x : Pair) (hinj : NoInjector s) (h : CleanDram s a 4096) :
    SentAll { s with so.pair := x } (sendCrc { s with so.pair := x } a) [crcPacket s a] := sendCrc_sent (s := { s with so.pair := x }) hinj h

/-! ### The steps of a join (R391, R392) -/

section
variable {s : State}

theorem joinChunk_idle (h : s.so.pair.role ≠ 1 ∨ s.so.pair.join = false) : joinChunk s = s := by
  unfold joinChunk
  exact if_pos (h.imp id fun hj => by rw [hj]; rfl)

variable (h1 : s.so.pair.role = 1) (hj : s.so.pair.join = true)
include h1 hj

/-- The address of a joining region's byte. -/
def joinAddr (s : State) (off : Nat) : Nat := (s.fab.mir.regions.get s.so.pair.joinRegion).base + off

theorem joinChunk_repeats {c : Nat} {l : List Nat} (ht : s.so.pair.todo = c :: l) :
    joinChunk s = sendCrc (sendChunk { s with so.pair.todo := l } (joinAddr s (c * 4096))) (joinAddr s (c * 4096)) := by
  unfold joinChunk
  simp only [h1, hj, ht, not_true, Bool.not_true, Bool.false_eq_true, ne_eq, or_self, if_false]
  rfl

/-- A chunk that did not match goes out again, and then its CRC-32C. -/
theorem joinChunk_repeats_sent {c : Nat} {l : List Nat} (ht : s.so.pair.todo = c :: l) (hinj : NoInjector s) (htag : s.fab.mir.nextTag < 65536)
    (hclean : CleanDram s (joinAddr s (c * 4096)) 4096) :
    SentAll (copied { s with so.pair.todo := l } (joinAddr s (c * 4096)) 16) (joinChunk s)
      ((List.range 16).map (copyPacket s (joinAddr s (c * 4096)) (s.fab.mem.readN (joinAddr s (c * 4096)) 4096)) ++ [crcPacket s (joinAddr s (c * 4096))]) := by
  rw [joinChunk_repeats h1 hj ht]
  exact sendCrc_sendChunk_sent (s := { s with so.pair.todo := l }) hinj htag hclean

variable (ht : s.so.pair.todo = [])
include ht

theorem joinChunk_verified (hv : s.so.pair.verify = true) (h : (s.fab.mir.regions.get s.so.pair.joinRegion).size * 0x4000000 ≤ s.so.pair.joinOff) :
    joinChunk s = s := by
  unfold joinChunk
  simp only [h1, hj, ht, hv, not_true, Bool.not_true, Bool.false_eq_true, ne_eq, or_self, if_false, if_true, if_pos h]

/-- The CRC-32C of the next chunk to verify goes out. -/
theorem joinChunk_verifies (hv : s.so.pair.verify = true) (h : s.so.pair.joinOff < (s.fab.mir.regions.get s.so.pair.joinRegion).size * 0x4000000)
    (hinj : NoInjector s) (hclean : CleanDram s (joinAddr s s.so.pair.joinOff) 4096) :
    SentAll { s with so.pair.joinOff := s.so.pair.joinOff + 4096 } (joinChunk s) [crcPacket s (joinAddr s s.so.pair.joinOff)] := by
  have hstep : joinChunk s = sendCrc { s with so.pair.joinOff := s.so.pair.joinOff + 4096 } (joinAddr s s.so.pair.joinOff) := by
    unfold joinChunk
    simp only [h1, hj, ht, hv, not_true, Bool.not_true, Bool.false_eq_true, ne_eq, or_self, if_false, if_true, if_neg (Nat.not_le_of_lt h)]
    rfl
  rw [hstep]
  exact sendCrc_sent_of_pair { s.so.pair with joinOff := s.so.pair.joinOff + 4096 } hinj hclean

variable (hv : s.so.pair.verify = false)
include hv

/-- No more than the commanded rate (R391). -/
theorem joinChunk_paced (h : s.so.pair.rate * (s.dt - s.so.pair.joinFrom) < (s.so.pair.joinPos + 4096) * 1000) : joinChunk s = s := by
  have hb : chunkBytes = 4096 := rfl
  unfold joinChunk
  simp only [h1, hj, ht, hv, not_true, Bool.not_true, Bool.false_eq_true, ne_eq, or_self, if_false, hb, if_pos h]

/-- The next chunk goes out; a region's last one begins its verification. -/
theorem joinChunk_copies (h : (s.so.pair.joinPos + 4096) * 1000 ≤ s.so.pair.rate * (s.dt - s.so.pair.joinFrom)) (hinj : NoInjector s)
    (htag : s.fab.mir.nextTag < 65536) (hclean : CleanDram s (joinAddr s s.so.pair.joinOff) 4096) :
    let last := decide ((s.fab.mir.regions.get s.so.pair.joinRegion).size * 0x4000000 ≤ s.so.pair.joinOff + 4096)
    SentAll (chunkCopied s { s.so.pair with
        joinPos := s.so.pair.joinPos + 4096, joinOff := if last = true then 0 else s.so.pair.joinOff + 4096, verify := last }
        (joinAddr s s.so.pair.joinOff)) (joinChunk s)
      ((List.range 16).map (copyPacket s (joinAddr s s.so.pair.joinOff) (s.fab.mem.readN (joinAddr s s.so.pair.joinOff) 4096))) := by
  intro last
  have hstep : joinChunk s = sendChunk { s with so.pair := { s.so.pair with
      joinPos := s.so.pair.joinPos + 4096, joinOff := if last = true then 0 else s.so.pair.joinOff + 4096, verify := last } }
      (joinAddr s s.so.pair.joinOff) := by
    have hb : chunkBytes = 4096 := rfl
    unfold joinChunk
    simp only [h1, hj, ht, hv, not_true, Bool.not_true, Bool.false_eq_true, ne_eq, or_self, if_false, hb, if_neg (Nat.not_lt_of_le h), joinAddr, last]
  rw [hstep]
  exact sendChunk_sent_of_pair _ hinj htag hclean
end

/-! ### The partner failed, heartbeats and probes (R387–R389, R393) -/

/-- The partner is declared failed: a STANDBY takes over, a JOINING or STALE device loses its pair. -/
theorem partnerFailed_cases (s : State) : (s.so.pair.role ≤ 1 → partnerFailed s false = s) ∧
    (s.so.pair.role = 2 → TakenOver s (partnerFailed s false) false) ∧
    (s.so.pair.role = 3 ∨ s.so.pair.role = 4 → PairLost s (partnerFailed s false)) := by
  refine ⟨fun h => ?_, fun h => ?_, fun h => ?_⟩
  · unfold partnerFailed
    split
    · omega
    · omega
    · omega
    · rfl
  · simp only [partnerFailed, h]
    exact takeover_takenOver s false
  · rcases h with h | h <;> simp only [partnerFailed, h] <;> exact pairLost_pairLost s

theorem probeTimeout_expired {s : State} {t0 : Nat} (hp : s.so.pair.probe = some t0) (h : t0 + 50000 ≤ s.dt) :
    probeTimeout s = partnerFailed { s with so.pair.probe := none } false := by
  simp only [probeTimeout, hp, if_pos h]

theorem probeTimeout_open {s : State} (h : ∀ t0, s.so.pair.probe = some t0 → s.dt < t0 + 50000) : probeTimeout s = s := by
  unfold probeTimeout
  split
  · next t hp => exact if_neg (Nat.not_le_of_lt (h t hp))
  · rfl

theorem probeAnswered_answers {s : State} (h : s.so.pair.probe ≠ none) : ∃ g,
    probeAnswered s = { s with host := g, so := { s.so with pair := { s.so.pair with probe := none } } } ∧
    EventsOnly s { s with host := g, so := { s.so with pair := { s.so.pair with probe := none } } } ∧
    Raised s { s with host := g, so := { s.so with pair := { s.so.pair with probe := none } } } 0x0724 s.so.dlf.partner [] := by
  obtain ⟨g, hraise, hevents, hraised⟩ := raiseEvent_host { s with so.pair.probe := none } 0x0724 s.so.dlf.partner []
  exact ⟨g, (if_pos (Option.isSome_iff_ne_none.mpr h)).trans hraise, hevents.congr rfl rfl, hraised.congr rfl rfl rfl⟩

theorem probeAnswered_late {s : State} (h : s.so.pair.probe = none) : probeAnswered s = s :=
  if_neg (by rw [h]; exact Bool.false_ne_true)

/-- A heartbeat is due (R387). -/
def heartbeatDue (s : State) : Prop :=
  (∀ t0, s.so.pair.lastSend = some t0 → t0 + 10000 ≤ s.dt) ∧ s.so.dlf.valid = true ∧ s.so.dlf.partner < 48

theorem heartbeatSend_waits {s : State} (h : ¬ heartbeatDue s) : heartbeatSend s = s := by
  refine if_neg fun e => h ?_
  simp only [Bool.and_eq_true, decide_eq_true_eq] at e
  obtain ⟨⟨hdue, hvalid⟩, hpeer⟩ := e
  refine ⟨fun t0 ht => ?_, hvalid, hpeer⟩
  simp only [ht, decide_eq_true_eq] at hdue
  exact hdue

/-- A heartbeat on a port that is UP. -/
def heartbeatStep (s : State) (p : Nat) : State := if portUp s p then { s with so.dlf.msgs := s.so.dlf.msgs ++ [(p, 3, s.dt)] } else s

theorem foldl_heartbeatStep (l : List Nat) (s : State) : l.foldl heartbeatStep s =
    { s with so := { s.so with dlf := { s.so.dlf with msgs := s.so.dlf.msgs ++ (l.filter (fun q => portUp s q)).map (fun q => (q, 3, s.dt)) } } } := by
  induction l generalizing s with
  | nil => simp only [List.foldl_nil, List.filter_nil, List.map_nil, List.append_nil]
  | cons p l ih =>
    rw [List.foldl_cons, ih]
    cases hp : portUp s p
    · rw [heartbeatStep, if_neg (ne_true_of_eq_false hp), List.filter_cons_of_neg (ne_true_of_eq_false hp)]
    · rw [heartbeatStep, if_pos hp, List.filter_cons_of_pos hp, List.map_cons]
      simp only [List.append_assoc, List.cons_append, List.nil_append]
      rfl

theorem heartbeatSend_sends {s : State} (h : heartbeatDue s) : heartbeatSend s =
    { s with so := { s.so with pair := { s.so.pair with lastSend := some s.dt }, dlf := { s.so.dlf with
      msgs := s.so.dlf.msgs ++ ([4, 5].filter (fun q => portUp s q)).map (fun q => (q, 3, s.dt)) } } } := by
  obtain ⟨hdue, hvalid, hpeer⟩ := h
  refine (if_pos ?_).trans (foldl_heartbeatStep [4, 5] { s with so.pair.lastSend := some s.dt })
  simp only [Bool.and_eq_true, decide_eq_true_eq]
  refine ⟨⟨?_, hvalid⟩, hpeer⟩
  cases hl : s.so.pair.lastSend with
  | none => rfl
  | some t0 => exact decide_eq_true (hdue t0 hl)

theorem heartbeatTimeout_quiet {s : State} (h : ¬ (2 ≤ s.so.pair.role ∧ s.so.pair.probe = none ∧ hbFresh s 4 = false ∧ hbFresh s 5 = false)) :
    heartbeatTimeout s = s := if_neg (by simpa only [Bool.not_eq_true'] using h)

theorem heartbeatTimeout_probes {s : State} (h : 2 ≤ s.so.pair.role ∧ s.so.pair.probe = none ∧ hbFresh s 4 = false ∧ hbFresh s 5 = false) :
    heartbeatTimeout s = pairSend { s with so.pair.probe := some s.dt } s.so.dlf.partner 4 := if_pos (by simpa only [Bool.not_eq_true'] using h)

/-! ### The handover (R390) -/

theorem handoverReady_waits {s : State} (h : s.so.pair.handover = none ∨ s.cal.made ≠ [] ∨ s.fab.mir.pend ≠ []) : handoverReady s = s := by
  unfold handoverReady
  split
  · next hh =>
    refine if_neg fun e => ?_
    rcases h with h | h | h
    · simp [hh] at h
    · exact h (List.isEmpty_iff.mp e.1)
    · exact h (List.isEmpty_iff.mp e.2)
  · rfl

/-- A PRIMARY that has handed over. -/
def handedOver (s : State) : State := { s with
  fab := { s.fab with mir := { s.fab.mir with regions := regionsWith s 1 (fun r => { r with type := 2, on := false }) } }
  so := { s.so with pair := { s.so.pair with role := 2, handover := none } } }

theorem handoverReady_hands {s : State} {ch : Nat} {r : Request} (h : s.so.pair.handover = some (ch, r)) (hc : s.cal.made = []) (hp : s.fab.mir.pend = []) :
    handoverReady s = finishCmd (handedOver (pairSend s s.so.dlf.partner 2)) ch 0x0732 r
      (reply stOk 0 (leBytes 8 (pairSend s s.so.dlf.partner 2).dt)) := by
  unfold handoverReady
  simp only [h, hc, hp, List.isEmpty_nil, and_self, if_true, foldl_modRegion]
  rfl

/-- The completion of a running command whose header's reserved fields its channel does not hold, or holds unclamped (R295). -/
theorem finishCmd_answers {s u : State} {ch op : Nat} {r : Request} (y : Reply) (hu : u.host = s.host) (h4 : ch < 4) (hf : r.flags = 0)
    (hl : r.length.toNat ≤ 240) (hb : ¬ ((bufferedRequest (s.host.mbx.get ch)).1 = op ∧ (bufferedRequest (s.host.mbx.get ch)).2.1 = r) ∨
      (bufferedRequest (s.host.mbx.get ch)).2.2 = 0) : let t := finishCmd u ch op r y
    t = { u with host := t.host } ∧ Answered s t ch op r y.status y.clamps y.data ∧ HostKept s t ch := by
  have hextra : (if (bufferedRequest (s.host.mbx.get ch)).1 = op ∧ (bufferedRequest (s.host.mbx.get ch)).2.1 = r then
      (bufferedRequest (s.host.mbx.get ch)).2.2 else 0) = 0 := by
    rcases hb with hb | hb
    · exact if_neg hb
    · rw [hb, ite_self]
  have hrun : runningCmd u ch op r = plainCmd ch op r := by
    simp only [runningCmd, hu, hextra, decodeCmd_inline hf hl]
  have hans := completeCmd_answers (u := u) (c := plainCmd ch op r) (r := r) y (u.host.mbx.get ch).bufOk hu rfl rfl rfl rfl h4
  rw [finishCmd, if_pos h4, hrun]
  simpa only [plainCmd, Nat.zero_add] using hans

/-- The handover's answer, once HANDOVER has gone out. -/
theorem handoverReady_answers {s : State} {ch : Nat} {r : Request} {o : Nat} {k : DlfPacket} (h : s.so.pair.handover = some (ch, r)) (hc : s.cal.made = [])
    (hp : s.fab.mir.pend = []) (hsent : Sent s (pairSend s s.so.dlf.partner 2) o k) (h4 : ch < 4) (hf : r.flags = 0) (hl : r.length.toNat ≤ 240)
    (hb : ¬ ((bufferedRequest (s.host.mbx.get ch)).1 = 0x0732 ∧ (bufferedRequest (s.host.mbx.get ch)).2.1 = r) ∨
      (bufferedRequest (s.host.mbx.get ch)).2.2 = 0) : let t := handoverReady s
    t = { handedOver (pairSend s s.so.dlf.partner 2) with host := t.host } ∧ Answered s t ch 0x0732 r stOk 0 (leBytes 8 s.dt) ∧ HostKept s t ch := by
  have hhost : (handedOver (pairSend s s.so.dlf.partner 2)).host = s.host := by
    rw [hsent.1]
    rfl
  have hdt : (pairSend s s.so.dlf.partner 2).dt = s.dt := by
    rw [hsent.1]
    rfl
  rw [handoverReady_hands h hc hp, hdt]
  exact finishCmd_answers _ hhost h4 hf hl hb

/-- What a handover sets, after a packet. -/
theorem handedOver_sets {s v : State} {o : Nat} {k : DlfPacket} (h : Sent s v o k) :
    handedOver v = { v with fab := { v.fab with mir := { v.fab.mir with regions := (handedOver v).fab.mir.regions } }
                            so := { v.so with pair := { s.so.pair with role := 2, handover := none } } } ∧
    ∀ i, (handedOver v).fab.mir.regions.get i =
      if i < 8 ∧ (s.fab.mir.regions.get i).type = 1 then { s.fab.mir.regions.get i with type := 2, on := false } else s.fab.mir.regions.get i := by
  rw [← h.pair, ← h.fab]
  exact ⟨rfl, regionsWith_get v 1 _⟩

/-! ### The pair commands (R395) -/

theorem cmdPairConfig_legal {s : State} {c : Cmd} (hlen : c.pay.length = 8) (hrole : fld c.pay 0 1 = 0 ∨ fld c.pay 0 1 = 1 ∨ fld c.pay 0 1 = 3)
    (hz : fld c.pay 1 3 = 0) (h100 : 100 ≤ fld c.pay 4 4) (hmax : fld c.pay 4 4 ≤ 10000) : cmdPairConfig s c =
      if s.so.pair.role = 2 ∨ s.so.pair.join = true then (s, reply stBusy 0 [])
      else ({ s with so := { s.so with pair := { s.so.pair with
        role := fld c.pay 0 1, hbTimeout := fld c.pay 4 4, probe := none, matched := [], mism := 0
        verified := if fld c.pay 0 1 = 3 then 0 else s.so.pair.verified, joinPos := if fld c.pay 0 1 = 3 then 0 else s.so.pair.joinPos
        joinMism := if fld c.pay 0 1 = 3 then 0 else s.so.pair.joinMism } } }, reply stOk 0 c.pay) := by
  have hfields : clampFields c.pay 8 [fr 0 1 0 3, fz 1 3, fr 4 4 100 10000] = (c.pay, 0) := by
    refine clampFields_whole hlen ?_
    simp only [List.forall_mem_cons, fr_legal, fz_legal, List.not_mem_nil, false_imp_iff, implies_true, and_true]
    omega
  have h2 : ¬ fld c.pay 0 1 = 2 := by omega
  have hput : putBytes c.pay 0 (leBytes 1 (fld c.pay 0 1)) = c.pay := putBytes_fld (by omega)
  have hclamp : b2n (fld c.pay 0 1 == 2) = 0 := by simp [b2n, h2]
  simp only [cmdPairConfig, hfields, if_neg h2, hput, hclamp, Nat.add_zero]

/-- The regions that a join copies, with their mirroring ON. -/
theorem regionBytes_on (s : State) (f : Pair) : regionBytes { s with
      fab := { s.fab with mir := { s.fab.mir with regions := regionsWith s 1 (fun r => { r with on := true }) } }, so := { s.so with pair := f } } 1 =
    ((regionsOf s 1).map (fun i => (s.fab.mir.regions.get i).size * 0x4000000)).sum := by
  have hget : ∀ i, ((regionsWith s 1 (fun r => { r with on := true })).get i).type = (s.fab.mir.regions.get i).type ∧
      ((regionsWith s 1 (fun r => { r with on := true })).get i).size = (s.fab.mir.regions.get i).size := fun i => by
    rw [regionsWith_get]
    split <;> exact ⟨rfl, rfl⟩
  simp only [regionBytes, regionsOf, hget]

/-- The pair as PAIR_JOIN starts it on region `n` at a rate. -/
def joining (p : Pair) (n rate now : Nat) : Pair := { p with
  join := true, verify := false, verified := 0, joinPos := 0, joinMism := 0, joinRegion := n, joinOff := 0, todo := [], matched := []
  mism := 0, unacked := [], rate := rate, joinFrom := now }

section
variable {s : State} {c : Cmd} (hlen : c.pay.length = 4) (hlo : 1000 ≤ fld c.pay 0 4) (hhi : fld c.pay 0 4 ≤ 100000)
include hlen hlo hhi

theorem pairJoin_fields : clampFields c.pay 4 [fr 0 4 1000 100000] = (c.pay, 0) := by
  refine clampFields_whole hlen ?_
  simp only [List.forall_mem_cons, fr_legal, List.not_mem_nil, false_imp_iff, implies_true, and_true]
  omega

theorem cmdPairJoin_busy (h : s.so.pair.role ≠ 1 ∨ s.so.pair.join = true) : cmdPairJoin s c = (s, reply stBusy 0 []) := by
  simp only [cmdPairJoin, pairJoin_fields hlen hlo hhi]
  exact if_pos h

variable (h1 : s.so.pair.role = 1) (hj : s.so.pair.join = false)
include h1 hj

theorem cmdPairJoin_undefined (h : s.so.pair.peerRole ≠ 3 ∨ regionsOf s 1 = []) : cmdPairJoin s c = (s, reply stNotDefined 0 []) := by
  have hnone : (if s.so.pair.peerRole = 3 then regionsOf s 1 else []) = [] := by
    rcases h with h | h
    · exact if_neg h
    · rw [h, ite_self]
  simp only [cmdPairJoin, pairJoin_fields hlen hlo hhi, h1, hj, ne_eq, not_true, Bool.false_eq_true, or_self, if_false, hnone]

theorem cmdPairJoin_starts {n : Nat} {l : List Nat} (h3 : s.so.pair.peerRole = 3) (hr : regionsOf s 1 = n :: l) : cmdPairJoin s c =
    ({ s with fab := { s.fab with mir := { s.fab.mir with regions := regionsWith s 1 (fun r => { r with on := true }) } }
              so := { s.so with pair := joining s.so.pair n (fld c.pay 0 4) s.dt } },
     reply stOk 0 (leBytes 8 ((regionsOf s 1).map (fun i => (s.fab.mir.regions.get i).size * 0x4000000)).sum)) := by
  rw [← regionBytes_on s (joining s.so.pair n (fld c.pay 0 4) s.dt)]
  simp only [cmdPairJoin, pairJoin_fields hlen hlo hhi, h1, hj, ne_eq, not_true, Bool.false_eq_true, or_self, if_false, h3, if_true, hr, foldl_modRegion,
    regionsWith, joining, State.dt]
end

/-- A switchover is refused (R390). -/
def SwitchBusy (s : State) : Prop := s.so.pair.role ≠ 1 ∨ s.so.pair.peerRole ≠ 2 ∨ s.so.pair.handover ≠ none

theorem switchBusy_iff {s : State} : SwitchBusy s ↔ s.so.pair.role ≠ 1 ∨ s.so.pair.peerRole ≠ 2 ∨ s.so.pair.handover.isSome := by
  rw [SwitchBusy, Option.isSome_iff_ne_none]

theorem cmdSwitchover_busy {s : State} {r : Request} {c : Cmd} (h : SwitchBusy s) : cmdSwitchover r s c = (s, some (reply stBusy 0 [])) :=
  if_pos (switchBusy_iff.mp h)

theorem cmdSwitchover_waits {s : State} {r : Request} {c : Cmd} (h : ¬ SwitchBusy s) :
    cmdSwitchover r s c = ({ s with so := { s.so with pair := { s.so.pair with handover := some (c.ch, r) } } }, none) :=
  if_neg (mt switchBusy_iff.mpr h)

/-- An inline command that may answer later answers at once (R291). -/
theorem Plain.laterAnswers {s : State} {c : Instr} {ch op : Nat} {r : Request} {f : State → Cmd → State × Option Reply} {st : Half} {data : List Byte}
    (h : Plain s r) (h4 : ch < 4) (hc : exec c s = .next (runCmdLater s ch op r 0 f)) (hx : f s (plainCmd ch op r) = (s, some (reply st 0 data))) :
    AnswersOnly c s ch op r st 0 data := by
  obtain ⟨hservice, hphase, hflags, hlen⟩ := h
  have haccepts : Machine.accepts s op = true := by simp [Machine.accepts, hservice, hphase]
  have hrun : runCmdLater s ch op r 0 f = completeCmd s (plainCmd ch op r) (s.host.mbx.get ch).bufOk (reply st 0 data) := by
    simp [runCmdLater, hservice, haccepts, decodeCmd_inline hflags hlen, hx]
  obtain ⟨h1, h2, h3⟩ := completeCmd_answers (u := s) (c := plainCmd ch op r) (r := r) (reply st 0 data) (s.host.mbx.get ch).bufOk rfl rfl rfl rfl rfl h4
  rw [← hrun] at h1 h2 h3
  exact ⟨_, hc, h1, h2, h3⟩

/-- A copy that nobody waits for fails (R241, R393): what is counted and reported, and when a PRIMARY tells its partner. -/
theorem mirrorFails_nobody {s : State} {c : MirCopy} (h : c.waiter = .nobody) (hinj : NoInjector s) : ∃ u,
    u = { s with host := u.host, fab := { s.fab with mir := { s.fab.mir with
      failCnt := cnt s.fab.mir.failCnt 1, pend := s.fab.mir.pend.filter (fun x => x.tag != c.tag)
      regions := if (s.fab.mir.regions.get c.region).on = true then s.fab.mir.regions.modify c.region (fun r => { r with on := false })
        else s.fab.mir.regions } } } ∧
    EventsOnly s u ∧ ((s.fab.mir.regions.get c.region).on = false → u.host = s.host) ∧
    ((s.fab.mir.regions.get c.region).on = true → Raised s u 0x0102 c.region [1, c.req.addr.toNat]) ∧
    ((s.fab.mir.regions.get c.region).on = true ∧ s.so.pair.role = 1 ∧ s.so.dlf.rt.get s.so.dlf.partner ≠ 0xF →
      Sent u (mirrorFails s c) (s.so.dlf.rt.get s.so.dlf.partner) { firmwarePacket s s.so.dlf.partner 11 [3] with len := 1 }) ∧
    (¬ ((s.fab.mir.regions.get c.region).on = true ∧ s.so.pair.role = 1 ∧ s.so.dlf.rt.get s.so.dlf.partner ≠ 0xF) → mirrorFails s c = u) := by
  cases hon : (s.fab.mir.regions.get c.region).on
  · refine ⟨copyFailed s c, rfl, (EventsOnly.refl s).congr rfl rfl, fun _ => rfl, (fun e => nomatch e), (fun e => nomatch e.1), fun _ => mirrorFails_off h hon⟩
  · obtain ⟨g, hoff, hevents, hraised⟩ := mirroringOff_reports (copyFailed s c) c
    have hstep := mirrorFails_on h hon
    rw [hoff] at hstep
    refine ⟨_, rfl, hevents.congr rfl rfl, (fun e => nomatch e), (fun _ => hraised.congr rfl rfl rfl), fun hsend => ?_, fun hnot => ?_⟩
    · obtain ⟨-, hrole, hroute⟩ := hsend
      rw [hstep]
      refine (if_pos (c := s.so.pair.role = 1) hrole).symm ▸ ?_
      exact pairSend_sent (s := { (copyFailed s c).modRegion c.region (fun r => { r with on := false }) with host := g }) hroute hinj 3
    · refine hstep.trans ?_
      by_cases hrole : s.so.pair.role = 1
      · have hroute : s.so.dlf.rt.get s.so.dlf.partner = 0xF := by
          by_contra hroute
          exact hnot ⟨rfl, hrole, hroute⟩
        exact (if_pos hrole).trans
          (pairSend_unreachable (s := { (copyFailed s c).modRegion c.region (fun r => { r with on := false }) with host := g }) hroute 3)
      · exact if_neg hrole

/-- Settles O57: each message, timer and command is one branch of its step; the packets handed to the ports are those of `Sent`. -/
theorem pairsCopySwitchAndJoin : Obligations.PairsCopySwitchAndJoin := by
  unfold Obligations.PairsCopySwitchAndJoin
  refine ⟨fun k s hinj => ?_, fun k s hinj => ?_, fun n now s => ?_, fun k s hinj => ?_, fun now s => ?_, fun s => ?_, fun m now s => ?_, fun now s => ?_,
    fun now s => ?_, fun ch r s hplain => ?_⟩
  · intro a data p ack stored free
    refine ⟨fun hnone => ?_, fun hfree => ?_, fun hr => congrArg Host.Outcome.next (if_neg hr), fun hr hfree => ?_⟩
    · refine ⟨_, rfl, ?_⟩
      rw [mirWr_refuses hnone]
      exact mirrorAnswer_sent hinj k 5 stDecodeError []
    · obtain ⟨u, hwrite, hstores, hu⟩ := partnerWrite_stores hfree
      have hso : u.so = s.so := by rw [hu]
      have hport : mirrorPort u a = mirrorPort s a := by rw [mirrorPort, mirrorPort, hso]
      have hu' : NoInjector u := by rw [NoInjector, hu]; exact hinj
      have hsent := mirrorAnswer_sent hu' k 5 stOk []
      refine ⟨_, rfl, u, ⟨hstores, by rw [hu]⟩, hso, ?_⟩
      rw [mirWr, hwrite, ← hport]
      exact hsent
    · obtain ⟨u, hstores, hu, hso, hcopy⟩ := copyChunk_stores hr hfree
      have hport : mirrorPort u a = mirrorPort s a := by rw [mirrorPort, mirrorPort, hso]
      have hu' : NoInjector u := by rw [NoInjector, hu]; exact hinj
      have hsent := mirrorAnswer_sent hu' k 5 stOk []
      rw [← hcopy] at hsent
      refine ⟨_, rfl, u, ⟨hstores, hu⟩, hso, ?_⟩
      rw [← hport]
      exact hsent
  · intro done
    refine ⟨fun hnone => congrArg Host.Outcome.next (mirAck_joins hnone), fun c hc hst => ?_⟩
    obtain ⟨htag, hack⟩ := mirAck_completes hc hst
    have hdone : copyDone s c.tag = done s := by rw [htag]; rfl
    refine ⟨fun hw => ?_, fun hw hreq => ?_, fun p k' hw => ?_⟩
    · exact congrArg Host.Outcome.next (hack.trans ((mirrorComplete_nobody hw).trans hdone))
    · have hx := hack.trans (mirrorComplete_network hw hreq)
      rw [hdone] at hx
      exact ⟨_, congrArg Host.Outcome.next hx, rfl, rfl⟩
    · have hx := hack.trans (mirrorComplete_deluf hw)
      rw [hdone] at hx
      exact ⟨_, congrArg Host.Outcome.next hx, respond_sent (s := done s) hinj p k' c.status []⟩
  · intro s'
    have hstep : exec (.mirrorAckTimeout n now) s = .next (mirrorAckTimeout s' n) := rfl
    obtain ⟨T, hT⟩ : ∃ T, s' = { s with time := T } := advance_time s now
    clear_value s'
    subst hT
    intro m reg late peer o
    rw [mirrorAckTimeout_eq] at hstep
    refine ⟨fun hnone => ?_, fun c hc hw hinj => ?_⟩
    · rw [hstep, show lateCopies _ n = [] from hnone]
      rfl
    · have hmem : c ∈ late := hc ▸ List.mem_singleton_self c
      have hregion : c.region = n := eq_of_beq (Bool.and_eq_true_iff.mp (List.mem_filter.mp hmem).2).1
      rw [show lateCopies _ n = [c] from hc] at hstep
      obtain ⟨u, hu⟩ := mirrorFails_nobody (s := { s with time := T }) hw hinj
      rw [hregion] at hu
      obtain ⟨hframe, hevents, hquiet, hraised, hsent, hnot⟩ := hu
      exact ⟨_, hstep, u, hframe, hevents.congr rfl rfl, hquiet, hraised, hsent, hnot⟩
  · intro a p answer
    refine ⟨fun h3 h1 => congrArg Host.Outcome.next (chunkCrc_idle h3 h1), fun h3 hn => congrArg Host.Outcome.next (chunkCrc_outside h3 hn),
      fun n h3 hn hclean => ?_, fun h1 hj => ⟨fun hst hmore hopen => ?_, fun hst hfew => ?_⟩⟩
    · intro reg chunk crc m full bad
      refine ⟨fun hcrc hmore hopen => ?_, fun hcrc hfull => ?_, fun hcrc hfew => ?_, fun hcrc hmany => ?_⟩
      · have hstep := chunkCrc_matches h3 hn hclean hcrc (chunkMatched_more hmore)
        have hsent := mirrorAnswer_sent (s := { s with so := { s.so with pair := { p with matched := m } } }) hinj k 7 stOk (leBytes 4 crc.toNat)
        have hall := (hsent.allVerified 2).trans hopen
        exact ⟨_, congrArg Host.Outcome.next (hstep.trans (if_neg (ne_true_of_eq_false hall))), hsent⟩
      · have hstep := chunkCrc_matches h3 hn hclean hcrc (chunkMatched_last hfull)
        have hinj' : NoInjector (regionVerified s n m) := hinj
        have hsent := mirrorAnswer_sent hinj' k 7 stOk (leBytes 4 crc.toNat)
        have hlast := allVerified_regionVerified (s := s) (n := n) (m := m)
        rw [← hsent.allVerified] at hlast
        refine ⟨_, congrArg Host.Outcome.next hstep, _, _, rfl, hsent, fun hnot => if_neg (mt hlast.mp hnot), fun hall => ?_⟩
        exact joinDone_standby (u := regionVerified s n m) hsent (if_pos (hlast.mpr hall))
      · have hstep := chunkCrc_mismatches h3 hn hclean hcrc (chunkMismatch_few hfew)
        exact ⟨_, congrArg Host.Outcome.next (hstep.trans (if_neg Bool.false_ne_true)),
          mirrorAnswer_sent (s := { s with so := { s.so with pair := bad } }) hinj k 7 stRetry []⟩
      · obtain ⟨g, hraise, hevents, hraised⟩ := chunkMismatch_fails (s := s) (n := n) (chunk := chunk) hmany
        have hstep := chunkCrc_mismatches h3 hn hclean hcrc hraise
        exact ⟨_, congrArg Host.Outcome.next (hstep.trans (if_pos rfl)), _, _,
          mirrorAnswer_sent (s := { s with host := g, so := { s.so with pair := { bad with join := false, verify := false } } }) hinj k 7 stRetry [],
          hevents, hraised, rfl, rfl⟩
    · exact congrArg Host.Outcome.next (chunkCrc_noted h1 hj hst hmore hopen)
    · exact congrArg Host.Outcome.next (chunkCrc_repeats h1 hj hst hfew)
  · intro s'
    have hhandover : exec (.handover now) s = .next (if s.so.pair.role = 2 then takeover s' true else s') := rfl
    have hprobe : exec (.probeTimeout now) s = .next (probeTimeout s') := rfl
    have hfailing : exec (.partnerFailing now) s = .next (partnerFailed s' false) := rfl
    obtain ⟨T, hT⟩ : ∃ T, s' = { s with time := T } := advance_time s now
    clear_value s'
    subst hT
    intro p fails
    have hfails : ∀ c u, u.so.pair.role = p.role → exec c s = .next (partnerFailed u false) → fails c u := fun c u hrole hstep => by
      obtain ⟨hnone, hstandby, hlost⟩ := partnerFailed_cases u
      rw [hrole] at hnone hstandby hlost
      exact ⟨fun h => hstep.trans (congrArg Host.Outcome.next (hnone h)), fun h => ⟨_, hstep, hstandby h⟩, fun h => ⟨_, hstep, hlost h⟩⟩
    refine ⟨hfails _ _ rfl hfailing, fun h => ?_, fun h => ?_, fun t0 hp ht => ?_, fun h => ?_⟩
    · exact hhandover.trans (congrArg Host.Outcome.next (if_neg h))
    · exact ⟨_, hhandover.trans (congrArg Host.Outcome.next (if_pos h)), takeover_takenOver _ true⟩
    · exact hfails _ _ rfl (hprobe.trans (congrArg Host.Outcome.next (probeTimeout_expired hp ht)))
    · exact hprobe.trans (congrArg Host.Outcome.next (probeTimeout_open h))
  · intro p peer
    refine ⟨fun h => congrArg Host.Outcome.next (if_pos h), fun h2 h3 => congrArg Host.Outcome.next (if_neg (not_or.mpr ⟨h2, h3⟩)),
      fun h => congrArg Host.Outcome.next (probeAnswered_late h), fun h => ?_, fun src => ⟨fun h => ?_, fun h hinj => ?_⟩⟩
    · obtain ⟨g, hstep, hevents, hraised⟩ := probeAnswered_answers h
      exact ⟨_, congrArg Host.Outcome.next hstep, hevents, hraised, rfl⟩
    · exact congrArg Host.Outcome.next (pairSend_unreachable h 5)
    · exact ⟨_, rfl, pairSend_sent h hinj 5⟩
  · intro s'
    have hreceive : exec (.heartbeat m now) s = .next (heartbeatReceive s' m) := rfl
    have hsend : exec (.heartbeatSend now) s = .next (heartbeatSend s') := rfl
    have htimeout : exec (.heartbeatTimeout now) s = .next (heartbeatTimeout s') := rfl
    obtain ⟨T, hT⟩ : ∃ T, s' = { s with time := T } := advance_time s now
    clear_value s'
    subst hT
    intro p peer o
    refine ⟨fun h => ?_, fun h => ?_, ⟨fun h => ?_, fun h => ?_⟩, ⟨fun h => ?_, fun h hr => ?_, fun h hr hinj => ?_⟩⟩
    · exact hreceive.trans (congrArg Host.Outcome.next (if_neg (ne_true_of_eq_false h)))
    · exact hreceive.trans (congrArg Host.Outcome.next (if_pos h))
    · exact hsend.trans (congrArg Host.Outcome.next (heartbeatSend_waits h))
    · exact hsend.trans (congrArg Host.Outcome.next (heartbeatSend_sends h))
    · exact htimeout.trans (congrArg Host.Outcome.next (heartbeatTimeout_quiet h))
    · exact htimeout.trans (congrArg Host.Outcome.next ((heartbeatTimeout_probes h).trans
        (pairSend_unreachable (s := { s with time := T, so.pair.probe := some T.dt }) hr 4)))
    · exact ⟨_, htimeout.trans (congrArg Host.Outcome.next (heartbeatTimeout_probes h)), pairSend_sent (s := { s with time := T, so.pair.probe := some T.dt }) hr hinj 4⟩
  · intro s'
    have hstep : exec (.joinChunkCopy now) s = .next (joinChunk s') := rfl
    obtain ⟨T, hT⟩ : ∃ T, s' = { s with time := T } := advance_time s now
    clear_value s'
    subst hT
    intro p m reg c a off last copies crcs copying
    refine ⟨fun h => hstep.trans (congrArg Host.Outcome.next (joinChunk_idle h)), fun h1 hj hinj htag => ⟨fun x l ht hclean => ?_, fun ht hv hend => ?_,
      fun ht hv hmore hclean => ?_, fun ht hv hrate => ?_, fun ht hv hrate hclean => ?_⟩⟩
    · exact ⟨_, hstep, joinChunk_repeats_sent (s := { s with time := T }) h1 hj ht hinj htag hclean⟩
    · exact hstep.trans (congrArg Host.Outcome.next (joinChunk_verified (s := { s with time := T }) h1 hj ht hv hend))
    · exact ⟨_, hstep, joinChunk_verifies (s := { s with time := T }) h1 hj ht hv hmore hinj hclean⟩
    · exact hstep.trans (congrArg Host.Outcome.next (joinChunk_paced (s := { s with time := T }) h1 hj ht hv hrate))
    · exact ⟨_, hstep, joinChunk_copies (s := { s with time := T }) h1 hj ht hv hrate hinj htag hclean⟩
  · intro s'
    have hstep : exec (.handoverReady now) s = .next (handoverReady s') := rfl
    obtain ⟨T, hT⟩ : ∃ T, s' = { s with time := T } := advance_time s now
    clear_value s'
    subst hT
    intro p peer sets
    refine ⟨fun h => hstep.trans (congrArg Host.Outcome.next (handoverReady_waits h)), fun ch r hh h4 hf hc hp hr hinj hbuf hlen => ?_⟩
    have hsent := pairSend_sent (s := { s with time := T }) hr hinj 2
    have hans := handoverReady_answers (s := { s with time := T }) hh hc hp hsent h4 hf hlen hbuf
    obtain ⟨ht, hanswered, hkept⟩ := hans
    exact ⟨_, hstep, handedOver _, _, hsent, handedOver_sets (s := { s with time := T }) hsent, ht, hanswered, hkept⟩
  · intro p
    have hpay : ∀ op n, r.length = BitVec.ofNat 32 n → n < 4294967296 → (plainCmd ch op r).pay.length = n := fun op n hlen hn => by
      rw [plainCmd_pay_length, hlen]
      exact Nat.mod_eq_of_lt hn
    refine ⟨?_, ?_, ?_, fun _ => hplain.answersOnly (by decide) ch.isLt rfl rfl⟩
    · intro role fresh hlen hrole hz h100 hmax
      have hstep := cmdPairConfig_legal (s := s) (c := plainCmd ch 0x0730 r) (hpay _ 8 hlen (by decide)) hrole hz h100 hmax
      refine ⟨fun hbusy => ?_, fun h2 hj => ?_⟩
      · exact hplain.answersOnly (by decide) ch.isLt rfl (hstep.trans (if_pos hbusy))
      · exact hplain.accepts (by decide) ch.isLt rfl (hstep.trans (if_neg (not_or.mpr ⟨h2, ne_true_of_eq_false hj⟩))) rfl fun g => rfl
    · intro src hlen hlo hhi
      have hlen4 := hpay 0x0731 4 hlen (by decide)
      refine ⟨fun hbusy => ?_, fun h1 hj hnone => ?_, fun n l h1 hj h3 hsrc => ?_⟩
      · exact hplain.answersOnly (by decide) ch.isLt rfl (cmdPairJoin_busy hlen4 hlo hhi hbusy)
      · exact hplain.answersOnly (by decide) ch.isLt rfl (cmdPairJoin_undefined hlen4 hlo hhi h1 hj hnone)
      · exact hplain.accepts (by decide) ch.isLt rfl (cmdPairJoin_starts hlen4 hlo hhi h1 hj h3 hsrc) rfl fun g => ⟨rfl, regionsWith_get s 1 _⟩
    · intro busy _
      obtain ⟨hservice, hphase, hflags, hlen⟩ := id hplain
      have haccepts : Machine.accepts s 0x0732 = true := by simp [Machine.accepts, hservice, hphase]
      refine ⟨fun hbusy => hplain.laterAnswers ch.isLt rfl (cmdSwitchover_busy hbusy), fun hfree => congrArg Host.Outcome.next ?_⟩
      exact runCmdLater_waits (by rw [hservice]; decide) haccepts hflags hlen (cmdSwitchover_waits hfree)

end Sys2Proof.Machine
end
